-- ==== Sys2Proof/Word.lean ====
section
/-! DEFINITION. The word types of the DL-1064: a 32-bit register word and a byte. -/

namespace Sys2Proof

/-- A BAR0 register word (R372). -/
abbrev Word := BitVec 32

/-- A byte of a descriptor, record, packet or memory. -/
abbrev Byte := BitVec 8

end Sys2Proof
end

