-- ==== Sys2Proof/Syntax.lean ====
section
/-! DEFINITION. The commands the DL-1064 takes, one constructor of Instr per row of the opcode table, with the row's operands.
Every command's first operand is `dt`, the beats (1 ns, R19) since the command before it: the moment it falls in. What comes
from outside with it (a pin's level, a packet's bytes, host data that a DMA read returned, a measured value) stands in its
operands; everything else it uses is in State. -/

namespace Sys2Proof

/-- A fetched operation: its issue ring, and the number of its fetch among all the device has made. -/
structure OpRef where
  ring : Fin 16
  n : Nat
deriving DecidableEq, Repr

/-- A ring the host consumes: a completion ring, the event ring or the statistics ring (Table 14-3). -/
inductive ConsumerRing where
  | completion (j : Fin 16)
  | event
  | statistics
deriving DecidableEq, Repr

/-- Any ring the host can enable (R374). -/
inductive AnyRing where
  | issue (i : Fin 16)
  | consumer (r : ConsumerRing)
deriving DecidableEq, Repr

/-- What the DMA of a descriptor fetch came to: read and written back, the read erred or was poisoned, or the write-back could not be made
(Table 14-8). -/
inductive FetchDma where
  | ok | readBad | writeBackBad
deriving DecidableEq, Repr

/-- The four kinds of host reset (R373). -/
inductive HostResetKind where
  | functionLevel | hot | linkDown | perst
deriving DecidableEq, Repr

/-- How a network message came in: an Ethernet frame of an EtherType, or a UDP datagram to a port (R95). -/
inductive NetCarrier where
  | ethernet (ethertype : BitVec 16)
  | udp (port : BitVec 16)
deriving DecidableEq, Repr

/-- What a received PTP message carries in its header (R88): the port it came in on, domainNumber, source identity and port,
sequenceId, correctionField in 2^-16 ns, logMessageInterval and the two-step flag; and the carrier it came by. -/
structure PtpHeader where
  port : Fin 2
  domainNumber : BitVec 8
  clockId : BitVec 64
  portNumber : BitVec 16
  seq : BitVec 16
  correction : Int
  logInterval : Int
  twoStep : Bool
  carrier : NetCarrier
deriving DecidableEq, Repr

/-- The data set of an Announce message, in the order IEEE 1588-2019 compares it (R88, Table 04-2). -/
structure Announce where
  priority1 : BitVec 8
  clockClass : BitVec 8
  accuracy : BitVec 8
  variance : BitVec 16
  priority2 : BitVec 8
  gmId : BitVec 64
  stepsRemoved : BitVec 16
deriving DecidableEq, Repr

/-- The destination of a received Ethernet frame (R521). -/
inductive EthDest where
  | unicast (mac : BitVec 48)
  | broadcast
  | multicast
deriving DecidableEq, Repr

/-- The block chain of one plane in a panel (R399). -/
structure Chain where
  /-- present flag; a plane without a chain prints blank lines -/
  present : Bool := false
  /-- 600 dpi cross-web -/
  cross600 : Bool := false
  /-- 600 dpi down-web -/
  down600 : Bool := false
  /-- block handles in print order -/
  handles : List Nat := []
deriving DecidableEq, Repr

/-- A panel of a job (R399): length in lines, one chain per plane 0 to 9. -/
structure PanelDef where
  length : Nat
  chains : List Chain
deriving DecidableEq, Repr

/-- A job queued or running (R398). -/
structure Job where
  /-- job number -/
  job : Nat
  /-- start kind (Table 05-1) -/
  startKind : Nat
  /-- key slot -/
  keySlot : Nat
  /-- passes through the panel list; 0 until JOB_STOP -/
  repeats : Nat
  /-- blank lines before the job -/
  gap : Nat
  /-- web position for start kind 1, signed 48.16 -/
  startPos : Int
  /-- panel list -/
  panels : List PanelDef
  /-- panels begun so far over all repeats (R400) -/
  begun : Nat
deriving DecidableEq, Repr

/-- A panel placed in the stream (R121, R122). -/
structure Span where
  /-- its first line, the parting -/
  start : Nat
  /-- its lines; less than the panel's length when cut (R123) -/
  len : Nat
  job : Nat
  /-- panel number modulo 65,536 (R400) -/
  panelNo : Nat
  /-- index in the job's panel list -/
  index : Nat
  keySlot : Nat
  chains : List Chain
  /-- PARTING has been settled for it (R121) -/
  posted : Bool
deriving DecidableEq, Repr

/-- The stream state the active device mirrors (Table 17-5): origin, COUNTS_PER_LINE, lead, LS_STREAM_CFG and the planes'
configuration as sampled, jobs, panels placed, the stream's last line, committed line, HW and the heads' high-water lines. -/
structure MirrorStream where
  origin : Option Int
  cpl : Nat
  lead : Nat
  streamCfg : Nat
  planeCfg : List Nat
  draining : Bool
  jobs : List Job
  spans : List Span
  last : Option Int
  stopping : Bool
  committed : Nat
  anyBegun : Bool
  hw : Int
  highs : List (Nat × Nat)
deriving DecidableEq, Repr

/-- What a MIRROR packet carries (Table 17-5). The spec gives the items and not their layout; a packet's operand is the item. -/
inductive MirrorItem where
  /-- a table in force or retained, from its first line -/
  | bank (kind index sub start : Nat) (data : List Byte)
  /-- a staged table: effective LI as given, and the line once fixed -/
  | staged (kind index sub eff : Nat) (line : Option Nat) (data : List Byte)
  /-- jobs, queue and stream state -/
  | stream (t : MirrorStream)
  /-- a slice checkpoint of a plane: chain position, handle, line within the panel, repeat state -/
  | checkpoint (plane pos handle line rep : Nat)
  /-- findings and baseline of one nozzle: head, row, column; resistance, gate and print finding; baseline -/
  | nozzle (head row col res gate print base : Nat)
  /-- a block as ciphertext under its handle -/
  | block (handle slot kind height width rawLen payLen : Nat) (cipher : List Byte)
  /-- the freeing of a block -/
  | freed (handle : Nat)
  /-- the standby's acknowledgement of an item -/
  | ack
deriving DecidableEq, Repr

/-- One 64b/66b block as a lane carries it (R194): the sync header, 0b01 data and 0b10 control, and the 64 scrambled bits, the first in
bit 0. -/
structure LaneBlock where
  head : BitVec 2
  body : BitVec 64
deriving DecidableEq, Repr

/-- What arrives on a lane: blocks as the receiver frames them, and the 58 bits received before the first, the oldest in bit 0. -/
structure LaneRx where
  before : BitVec 58
  blocks : List LaneBlock
deriving DecidableEq, Repr

/-- Why a lane goes DOWN (R201): blocks that lose the lock, no signal for more than 100 ns, blocks with a training block among them. -/
inductive LaneDownCause where
  | lockLost (rx : LaneRx) | signalLost | trainingBlock (rx : LaneRx)
deriving DecidableEq, Repr

/-- What the ECC of a CSI-2 packet header says (Table 11-1). -/
inductive CsiEcc where
  | ok | corrected | bad
deriving DecidableEq, Repr

/-- The header of a CSI-2 long packet: its ECC, virtual channel with the extension bits above it, data type, word count (R287). -/
structure CsiHeader where
  ecc : CsiEcc
  vc : Fin 16
  dataType : BitVec 6
  wordCount : BitVec 16
deriving DecidableEq, Repr

/-- What an SRAM word holds, beside its address (Table 16-10): nothing that a reader of another chapter names, in a slice its control
state; a raster table's 32-byte word, by the table's bank key and byte offset; a string's skew entries from a byte offset; a plane's
stitch patterns by word. `standby` tells the bank that is staged, or kept, from the one in force. The Seam's ring words are named by
their address. -/
inductive SramHold where
  | other
  | table (key off : Nat) (standby : Bool)
  | skew (str off : Nat) (standby : Bool)
  | stitch (plane word : Nat) (standby : Bool)
deriving DecidableEq, Repr

/-- The errors of a codeword as it is read: symbols 0 to 31 data, 32 to 35 check, 36 to 39 virtual address symbols, each with what it is
exclusive-ored with (R418). -/
abbrev SymbolErrors := List (Nat × Byte)

/-- The errors of the burst that moves an access unit of the store (R413, R419): the failing DQ pins, each with the beats (bit b for beat
b) in which it reads wrong; and the virtual address symbols 36 to 39 of a codeword 0 to 3 that do not match, each with what it is
exclusive-ored with (R418). -/
structure BurstErrors where
  pins : List (Fin 72 × BitVec 16)
  virt : List (Fin 4 × Fin 4 × Byte)
deriving DecidableEq, Repr

/-- The requester classes of the image store (Table 16-3). -/
inductive StoreClass where
  | raster | assay | crusher | mirror | background
deriving DecidableEq, Repr

/-- Requests that wait at the store's controllers, in access units of 128 bytes: of the raster class by plane, of the other classes of
Table 16-3. -/
structure StoreWait where
  raster : List (Fin 10 × Nat)
  assay : Nat
  crusher : Nat
  mirror : Nat
  background : Nat
deriving DecidableEq, Repr

/-- A word read: a codeword of the image store (store address / 32) with the errors of
its access unit's burst, or an SRAM word with its errors as bits 0 to 255
data, 256 to 265 check, 266 to 289 virtual address bits (R420). -/
inductive WordRead where
  | dram (word : Nat) (errors : BurstErrors)
  | sram (addr : BitVec 24) (errors : List Nat) (hold : SramHold)
deriving DecidableEq, Repr

/-- A write of less than a whole access unit or word (R424): bytes at a store address, with the errors of its access unit's
burst; or into an SRAM word. -/
inductive PartialTarget where
  | dram (addr : Nat) (data : List Byte) (errors : BurstErrors)
  | sram (addr : BitVec 24) (errors : List Nat) (hold : SramHold)
deriving DecidableEq, Repr

/-- What the start-up checks of Table 19-2 find (R486, R487): 0 all well, or the code of PWR_STATE.boot_fail; whether the fuses pass their
check; whether the PCIe link trains; whether TEST_MODE is high (Table 21-2); the six on-die sensors as BOOT ends, 1/64 °C (R277). -/
structure BootFacts where
  fail : Fin 4
  fusesOk : Bool
  pcie : Bool
  testMode : Bool
  sensors : List (BitVec 16)
deriving DecidableEq, Repr

/-- The commands (opcode_table.json), in the table's order. -/
inductive Instr where
  /-- REGISTER_WRITE (R9). A host write to a BAR0 register with no row of its own sets the field by its access code; reserved offsets, locked RWL fields and switched-off domains ignore it. -/
  | registerWrite (dt : Nat) (off : BitVec 25) (v : BitVec 32)
  /-- BAR0_BAD_ACCESS (R372). A BAR0 access that is not 4-byte and naturally aligned completes normally, reads 0 and writes nothing. -/
  | bar0BadAccess (dt : Nat) (off : BitVec 25) (bytes : Nat) (isWrite : Bool)
  /-- LO_REGISTER_READ (R510). A read of a _LO register returns the low word and copies the high word into the shared shadow. -/
  | loRegisterRead (dt : Nat) (off : BitVec 25)
  /-- HI_REGISTER_WRITE (R511). A write to the _HI register of an RW or RWL pair commits the held LO word and the written high word as one value. -/
  | hiRegisterWrite (dt : Nat) (off : BitVec 25) (v : BitVec 32)
  /-- SETUP_LOCK (R489). Writing 1 to SETUP_LOCK.lock in SETUP fixes every RWL field, saves the retention set, trains and fills the store, enables lanes and identifies nodes. -/
  | setupLock (dt : Nat) (v : BitVec 32) (trainFails : List (Fin 6))
  /-- READY_ENTRY (R23). The device enters READY once SETUP_LOCK is set, configured strings are trained and identified and position is valid. -/
  | readyEntry (dt : Nat)
  /-- POWER_ON_RESET (R486). Release of RESET_N after power-up runs the boot sequence of PLL lock, fuses, ROM and self-tests and SRAM fill, and enters SETUP. -/
  | powerOnReset (dt : Nat) (boot : BootFacts)
  /-- WARM_RESET (R485). A RESET_N low pulse of 1 us or more resets warm-class state and reboots through Table 19-2. -/
  | warmReset (dt : Nat) (pulseNs : Nat) (boot : BootFacts)
  /-- HOST_RESET (R373). A function-level reset, hot reset, link down or PCIE_PERST_N stops DMA, abandons unread ingests, discards unwritten records and resets H-class registers. -/
  | hostReset (dt : Nat) (kind : HostResetKind)
  /-- POWER_FAULT (R492). A domain's core supply below -5 % for more than 10 us causes a domain reset, sets PWR_FAULT and posts POWER_FAULT. -/
  | powerFault (dt : Nat) (d : Fin 10)
  /-- THERMAL_TRIP (R498). The analog trip holds the device in warm reset while the hottest sensor reads 140 C or more and releases it below 110 C. -/
  | thermalTrip (dt : Nat) (hot : Bool) (boot : BootFacts)
  /-- SEC_ALARM (R503). An alarm source raises an alarm, is recorded in SEC_ALARM and acts by its LOG, LOCK or ERASE response. -/
  | secAlarm (dt : Nat) (src : Fin 14) (active : Bool)
  /-- ENCLOSURE_ALARM (R502). ENCLOSURE_N held low for SEC_ENCL_CFG.filter_ms raises alarm source 13. -/
  | enclosureAlarm (dt : Nat) (lowNs : Nat)
  /-- GLITCH_ALARM (R491). A core supply outside +-10 % for 1 ns or more raises the glitch alarm of its domain. -/
  | glitchAlarm (dt : Nat) (d : Fin 10) (active : Bool)
  /-- CLOCK_MONITOR_ALARM (R502). REFCLK_25 or a core PLL outside +-2 % for 1 us or more raises alarm source 10. -/
  | clockMonitorAlarm (dt : Nat) (active : Bool)
  /-- DEBUG_UNLOCK_ATTEMPT (R515). An unlock attempt on the debug port raises alarm source 11. -/
  | debugUnlockAttempt (dt : Nat)
  /-- SEC_UNLOCK (R504). Writing 1 to SEC_UNLOCK.go returns LOCKED slots to LOADED unless a LOCK source is active, else sets unlock_refused. -/
  | secUnlock (dt : Nat) (v : BitVec 32)
  /-- WAKE (R494). Writing 1 to PWR_CTRL.wake in DEEP powers the domains, leaves self-refresh, restores RWL fields and resumes the path to READY. -/
  | wake (dt : Nat) (v : BitVec 32)
  /-- ALIVE_TOGGLE (R24). Every 50 us the healthy device toggles ALIVE. -/
  | aliveToggle (dt : Nat)
  /-- FIRE_INHIBIT_ASSERT (R21). FIRE_INHIBIT_N accepted low starts FIRE INHIBIT blocks on every active head lane; lines bound inside the inhibit are not fired. -/
  | fireInhibitAssert (dt : Nat) (lowNs : Nat)
  /-- FIRE_INHIBIT_RELEASE (R227). FIRE_INHIBIT_N accepted high ends the inhibit, sends 8 release blocks, and firing resumes at the next bound line. -/
  | fireInhibitRelease (dt : Nat) (highNs : Nat)
  /-- INHIBIT_BLOCK_REPEAT (R227). While inhibiting, an assert block is sent on each active lane at least once in every 64 blocks. -/
  | inhibitBlockRepeat (dt : Nat)
  /-- ENC_ENABLE (R36). ENCn_CFG.enable changing to 1 takes the first accepted levels as initial state without a count and clears index_valid. -/
  | encEnable (dt : Nat) (n : Fin 4) (cfg : BitVec 32)
  /-- ENCODER_EDGE (R32). An accepted edge of A or B changes ENCn_COUNT by one count by quadrature decoding and is stamped at its first sample. -/
  | encoderEdge (dt : Nat) (levels : BitVec 20)
  /-- INDEX_LATCH (R39). Z accepted active with the gate satisfied copies the count and stamp into the index latch and runs the drift check. -/
  | indexLatch (dt : Nat) (levels : BitVec 20)
  /-- INDEX_DRIFT_WRITE (R42). A host write to ENCn_INDEX_DRIFT sets the accumulator, applied before an index update in the same beat. -/
  | indexDriftWrite (dt : Nat) (n : Fin 4) (v : BitVec 32)
  /-- TRIG_ENABLE (R44). TRIGn_CFG.enable changing to 1 takes the first accepted level as initial state and captures nothing. -/
  | trigEnable (dt : Nat) (n : Fin 8) (cfg : BitVec 32)
  /-- TRIG_CAPTURE (R44). TRIG_IN accepted at a matching edge outside lockout captures the source count and stamp into the FIFO and sends a copy to the scheduler. -/
  | trigCapture (dt : Nat) (levels : BitVec 20)
  /-- TRIG_POP (R47). Any write to TRIGn_POP removes the oldest capture from the FIFO. -/
  | trigPop (dt : Nat) (n : Fin 8)
  /-- OBSERVER_TICK (R53). At each whole microsecond without an edge, the instance is propagated and corrected into the half-count band. -/
  | observerTick (dt : Nat) (k : Fin 5)
  /-- POS_VALID (R56). pos_valid becomes 1 when the active source has run for 5/b seconds. -/
  | posValid (dt : Nat)
  /-- SOURCE_FAILED (R62). A source whose encoder is disabled or whose remote messages are stale is removed at once. -/
  | sourceFailed (dt : Nat) (k : Fin 5)
  /-- OBS_SNAPSHOT (R82). Writing OBS_CTRL.snapshot copies time, position, velocity, acceleration and HW of one update into OBS_SNAP. -/
  | obsSnapshot (dt : Nat)
  /-- OBS_READMIT (R62). Writing OBS_CTRL.readmit readmits all removed sources, which restart with D_ref set to their D. -/
  | obsReadmit (dt : Nat)
  /-- OBS_RESYNC (R64). Writing OBS_CTRL.resync after readmission restores position by offsetting the new source to the frozen position. -/
  | obsResync (dt : Nat)
  /-- CMP_ARM (R71). Writing CMPn_CTRL.arm latches target and settings and settles the unit as ARMED, MISSED or a late pulse. -/
  | cmpArm (dt : Nat) (n : Fin 48)
  /-- CMP_DISARM (R83). Writing CMPn_CTRL.disarm returns the unit to idle and lets a pulse in progress finish its width. -/
  | cmpDisarm (dt : Nat) (n : Fin 48)
  /-- CMP_CROSSING (R70). A crossing of an armed unit's target starts a pulse, records it and, when periodic, moves the target by the interval. -/
  | cmpCrossing (dt : Nat) (n : Fin 48)
  /-- CMP_PULSE_COMMIT (R73). A predicted pulse is committed 1 us before it is due. -/
  | cmpPulseCommit (dt : Nat) (n : Fin 48)
  /-- CMP_PULSE_END (R75). The unit's output ends after CMPn_WIDTH.width beats. -/
  | cmpPulseEnd (dt : Nat) (n : Fin 48)
  /-- CMP_TIME_PULSE (R100). A time-mode unit pulses in the beat in which TB3 reaches its target. -/
  | cmpTimePulse (dt : Nat) (n : Fin 48)
  /-- TB3_RATE_UPDATE (R91). Every 1 us, TB3's rate is set to its source's rate with the clamped slew and tb3_aligned is evaluated. -/
  | tb3RateUpdate (dt : Nat)
  /-- TB_SNAPSHOT (R102). Writing TB_CTRL.snapshot copies all four time bases in one beat. -/
  | tbSnapshot (dt : Nat)
  /-- STEP_TB3 (R92). Writing TB_CTRL.step_tb3 in SETUP or READY steps TB3 to its source, shifting internal stamps and posting TB3_STEP. -/
  | stepTb3 (dt : Nat)
  /-- PTP_SYNC_RX (R89). A received Sync updates the domain servo, steps the time base above step_us and evaluates lock. -/
  | ptpSyncRx (dt : Nat) (d : Fin 2) (h : PtpHeader) (origin : BitVec 64)
  /-- PTP_FOLLOW_UP_RX (R88). A Follow_Up supplies the precise origin time of a two-step Sync to the servo. -/
  | ptpFollowUpRx (dt : Nat) (d : Fin 2) (h : PtpHeader) (origin : BitVec 64)
  /-- PTP_DELAY_REQ_SEND (R88). In profile 0 the device sends Delay_Req to measure path delay. -/
  | ptpDelayReqSend (dt : Nat) (d : Fin 2)
  /-- PTP_DELAY_RESP_RX (R88). A Delay_Resp completes a path-delay measurement. -/
  | ptpDelayRespRx (dt : Nat) (d : Fin 2) (h : PtpHeader) (received : BitVec 64)
  /-- PTP_ANNOUNCE_RX (R88). An Announce enters the data-set comparison that selects the master. -/
  | ptpAnnounceRx (dt : Nat) (d : Fin 2) (h : PtpHeader) (data : Announce)
  /-- PTP_PDELAY_REQ_SEND (R88). In profiles 1 and 2 the device sends Pdelay_Req to measure link delay. -/
  | ptpPdelayReqSend (dt : Nat) (d : Fin 2)
  /-- PTP_PDELAY_REQ_RX (R88). A received Pdelay_Req is answered with a two-step Pdelay_Resp and Pdelay_Resp_Follow_Up. -/
  | ptpPdelayReqRx (dt : Nat) (d : Fin 2) (h : PtpHeader)
  /-- PTP_PDELAY_RESP_RX (R88). A Pdelay_Resp or its Follow_Up completes a link-delay measurement. -/
  | ptpPdelayRespRx (dt : Nat) (d : Fin 2) (h : PtpHeader) (followUp : Bool) (stamp : BitVec 64)
  /-- PTP_IGNORED_RX (R88). Signaling, Management, unknown messages and foreign TLVs are ignored and counted. -/
  | ptpIgnoredRx (dt : Nat) (d : Fin 2) (h : PtpHeader)
  /-- PTP_HOLDOVER (R89). No valid Sync for sync_loss_count intervals, or Announce timeout, moves a LOCKED domain to HOLDOVER. -/
  | ptpHoldover (dt : Nat) (d : Fin 2)
  /-- TB3_SWITCH (R93). In AUTO, TB3 switches between domains on a loss of lock or after 10 s of A locked with revert. -/
  | tb3Switch (dt : Nat)
  /-- DOMAIN_ELIGIBLE_RESTORE (R94). After 1 s with the domains within disagree_ns, the ineligible mark is cleared. -/
  | domainEligibleRestore (dt : Nat)
  /-- WC_PUBLISH (R96). Every period_us the device publishes a web-coordinate message unless the domain is unlocked or the remote source is active. -/
  | wcPublish (dt : Nat)
  /-- WC_MESSAGE_RX (R97). A received web-coordinate message is checked and, when accepted, passed to the observer with a converted time. -/
  | wcMessageRx (dt : Nat) (port : Fin 2) (carrier : NetCarrier) (data : List Byte)
  /-- WC_STALE (R98). No message for stale_us, pos_valid 0 or an unavailable domain makes the remote coordinate stale and posts WC_STALE. -/
  | wcStale (dt : Nat)
  /-- ETH_FRAME_RX (R521). A received Ethernet frame is kept when it is PTP, web-coordinate, speed-ceiling or lease traffic and otherwise discarded and counted. -/
  | ethFrameRx (dt : Nat) (port : Fin 2) (dest : EthDest) (bad : Bool) (carrier : NetCarrier)
  /-- ORIGIN_SET (R105). In READY with a job queued, valid position, non-zero COUNTS_PER_LINE and a placement table, the device sets X0 and enters PRINTING. -/
  | originSet (dt : Nat)
  /-- BIND_SEND (R112). Every 8 us the device sends each enabled head a BIND packet listing its bound lines and new lines within the horizon. -/
  | bindSend (dt : Nat) (h : Fin 256)
  /-- LINE_SEND (R119). A LINE packet leaves once the web reaches xh(h, k - lead) and the Seam has produced the line. -/
  | lineSend (dt : Nat) (h : Fin 256)
  /-- SHEET_MISSING (R123). No sheet edge within max_gap_lines after a panel end posts SHEET_MISSING. -/
  | sheetMissing (dt : Nat)
  /-- STREAM_END (R124). The committed line passing the last queued line enters DRAINING and posts STREAM_END. -/
  | streamEnd (dt : Nat)
  /-- DRAIN_COMPLETE (R124). When every served head has passed the last line plus 63, the device returns to READY and applies staged banks. -/
  | drainComplete (dt : Nat)
  /-- TABLE_TAKES_EFFECT (R125). A staged bank becomes the bank in force at the first line its consumer processes at or after the effective LI. -/
  | tableTakesEffect (dt : Nat) (kind : Fin 13) (index : Fin 32) (sub : Fin 4)
  /-- CEILING_RECOMPUTE (R128). Every 1 ms the speed ceiling is recomputed from its terms with a limited rise. -/
  | ceilingRecompute (dt : Nat)
  /-- LEAD_WRITE (R117). A write to LS_LEAD.lead is accepted or refused with LEAD_REFUSED. -/
  | leadWrite (dt : Nat) (v : BitVec 32)
  /-- SLICE_BEGIN_LINE (R154). A slice begins an image line once committed, forming the usable set and producing drop codes through its stages. -/
  | sliceBeginLine (dt : Nat) (q : Fin 10)
  /-- BLOCK_FETCH (R138). A slice fetches and decrypts a block's pages from the store. -/
  | blockFetch (dt : Nat) (q : Fin 10) (wait : StoreWait)
  /-- BLOCK_VERIFY (R140). A fetched block is decompressed and checked before any line is released. -/
  | blockVerify (dt : Nat) (q : Fin 10)
  /-- SPARE_AUDIT_LINE (R158). The spare slice recomputes an audited line and compares its CRC with the working slice. -/
  | spareAuditLine (dt : Nat) (crc : Option (BitVec 32))
  /-- SLICE_LINE_TIMEOUT (R159). A line not completed within 100 us fails the slice with reason 2. -/
  | sliceLineTimeout (dt : Nat) (n : Fin 11)
  /-- SLICE_TAKEOVER (R160). The spare loads the plane's banks, re-produces from the checkpoint block and delivers L_f. -/
  | sliceTakeover (dt : Nat)
  /-- SPARE_TAKE (R166). Writing RS_SPARE_CTRL.take fails the named working slice with reason 4. -/
  | spareTake (dt : Nat) (n : Fin 16)
  /-- SPARE_RESTORE (R161). Writing RS_SPARE_CTRL.restore starts a self-test of a failed slice. -/
  | spareRestore (dt : Nat) (n : Fin 16)
  /-- SLICE_BIST_DONE (R161). At the end of the self-test the slice becomes the spare or stays out with its result recorded. -/
  | sliceBistDone (dt : Nat) (pass : Bool)
  /-- RECUT_START (R162). A re-cut request is served by the spare or the plane's slice from the block holding L_m - 63. -/
  | recutStart (dt : Nat)
  /-- RECUT_DONE (R163). A re-cut ends and RECUT_DONE reports lines produced and late. -/
  | recutDone (dt : Nat)
  /-- RASTER_BANK_RELEASE (R153). A retired raster bank is released once every served head has passed line S + 191. -/
  | rasterBankRelease (dt : Nat) (kind : Fin 12) (q : Fin 10) (sub : Fin 4)
  /-- SEAM_ASSEMBLE (R181). In the pass completing image line k + e_h the Seam assembles head line k of each head. -/
  | seamAssemble (dt : Nat) (h : Fin 256)
  /-- MAP_DATA_SEND (R174). When a skew bank is staged, the fire map bytes are sent to a free node bank by MAP_DATA. -/
  | mapDataSend (dt : Nat) (h : Fin 256)
  /-- MAP_COMMIT_SEND (R174). Once E is fixed and the node's other bank is free, MAP_COMMIT is sent. -/
  | mapCommitSend (dt : Nat) (h : Fin 256)
  /-- BANK_SPARE_SWITCH (R188). After L_s + 63 is written, reads of the bank move to the spare and SPARE_BANK completes. -/
  | bankSpareSwitch (dt : Nat) (q : Fin 10)
  /-- LANE_ENABLE (R203). An enabled lane with a stable reference leaves IDLE and starts training. -/
  | laneEnable (dt : Nat) (n : Fin 68)
  /-- TRAINING_BLOCK_RX (R198). A received training block drives the tap request and status handshake and the rx_ready exchange. -/
  | trainingBlockRx (dt : Nat) (n : Fin 68) (rx : LaneRx) (converged : Bool)
  /-- TRAIN_TIMEOUT (R200). An attempt not UP within train_timeout_ms fails; after max_attempts the lane enters FAILED. -/
  | trainTimeout (dt : Nat) (n : Fin 68)
  /-- LANE_RETRAIN (R200). Writing LANEn_CTRL.retrain starts a new training. -/
  | laneRetrain (dt : Nat) (n : Fin 68)
  /-- LANE_DOWN (R201). Loss of block lock, loss of signal or a training block while UP takes the lane DOWN and posts LANE_DOWN. -/
  | laneDown (dt : Nat) (n : Fin 68) (cause : LaneDownCause)
  /-- LANE_BER_WARN (R202). A high bit-error ratio sets hi_ber and posts LANE_BER_WARN. -/
  | laneBerWarn (dt : Nat) (n : Fin 68) (rx : LaneRx)
  /-- SLEEP_TX (R204). Writing sleep_tx sends 16 sleep notices and idles the transmitter, or is refused when in use. -/
  | sleepTx (dt : Nat) (n : Fin 68)
  /-- SLEEP_RX (R204). Writing sleep_rx puts the receiver to sleep, or is refused when in use. -/
  | sleepRx (dt : Nat) (n : Fin 68)
  /-- WAKE_TX (R206). Writing wake_tx ends transmitter sleep and resumes idle blocks. -/
  | wakeTx (dt : Nat) (n : Fin 68)
  /-- WAKE_RX (R206). Writing wake_rx ends receiver sleep and relocks. -/
  | wakeRx (dt : Nat) (n : Fin 68)
  /-- SLEEP_NOTICE_RX (R205). Two consecutive sleep notices put the receiver to sleep and set far_tx_asleep. -/
  | sleepNoticeRx (dt : Nat) (n : Fin 68) (rx : LaneRx)
  /-- SIGNAL_DETECT_WAKE (R205). Signal detected by a sleeping receiver leaves receive sleep and relocks. -/
  | signalDetectWake (dt : Nat) (n : Fin 68)
  /-- RELOCK_TIMEOUT (R205). No block lock within 10 us of signal takes the lane DOWN. -/
  | relockTimeout (dt : Nat) (n : Fin 68)
  /-- EYE_START (R207). Writing eye_start starts an eye scan at the set phase and offset. -/
  | eyeStart (dt : Nat) (n : Fin 68)
  /-- EYE_STOP (R207). Writing eye_stop ends a scan early. -/
  | eyeStop (dt : Nat) (n : Fin 68) (compared errors : Nat)
  /-- EYE_SCAN_DONE (R207). A scan that has compared its bits sets eye_done with the results. -/
  | eyeScanDone (dt : Nat) (n : Fin 68) (errors : Nat)
  /-- STATUS_RX (R244). A received STATUS updates the node's state, hop map, epoch view and sense temperature. -/
  | statusRx (dt : Nat) (lane : Fin 68) (rx : LaneRx)
  /-- MEASURE_RX (R259). MEASURE values give resistance readings that set baselines and findings. -/
  | measureRx (dt : Nat) (lane : Fin 68) (rx : LaneRx)
  /-- MEMREAD_RX (R242). A MEMREAD returns head memory for the identification checks. -/
  | memreadRx (dt : Nat) (lane : Fin 68) (rx : LaneRx)
  /-- NODE_EVENT_RX (R248). A node EVENT, including ACK, CUT and port changes, is acted on or posted as NODE_EVENT. -/
  | nodeEventRx (dt : Nat) (lane : Fin 68) (rx : LaneRx)
  /-- DOWNSTREAM_PASSTHROUGH (R223). A downstream packet reaching the device is discarded and counted. -/
  | downstreamPassthrough (dt : Nat) (lane : Fin 68) (rx : LaneRx)
  /-- SYNC_REQUEST_SEND (R230). Once per 1 ms per served node, the holder sends a SYNC REQUEST. -/
  | syncRequestSend (dt : Nat) (a : Fin 256)
  /-- SYNC_RESPONSE_RX (R230). A RESPONSE gives the offset and the holder sends an ADJUST. -/
  | syncResponseRx (dt : Nat) (lane : Fin 68) (rx : LaneRx)
  /-- NODE_IDENTIFY (R243). A node becoming reachable is identified through IDENTIFY, READ_MEM, SYNC, checks, STREAM_RESET and fire-map commit. -/
  | nodeIdentify (dt : Nat) (a : Fin 256)
  /-- IDENTIFY_STEP_TIMEOUT (R243). A step not answered within 1 ms is repeated twice, then the node is not served. -/
  | identifyStepTimeout (dt : Nat) (a : Fin 256)
  /-- NODE_LOST (R245). A reachable node's STATUS absent for 300 us at both ends declares it lost. -/
  | nodeLost (dt : Nat) (a : Fin 256)
  /-- RING_BREAK (R246). A hop going DOWN moves nodes to their other end, resends lines and requests a re-cut. -/
  | ringBreak (dt : Nat) (str : Fin 32) (hop : Fin 9)
  /-- RING_RESTORED (R247). A broken hop returning UP posts RING_RESTORED; original ends resume at the next parting. -/
  | ringRestored (dt : Nat) (str : Fin 32) (hop : Fin 9)
  /-- RESIST_SCAN (R256). RESIST_SCAN sends one SCAN per head and row and completes when every scan has ended. -/
  | resistScan (dt : Nat) (op : OpRef)
  /-- DROP_CHECK (R261). DROP_CHECK fires one nozzle per slot through the gate and assigns edges to windows. -/
  | dropCheck (dt : Nat) (op : OpRef)
  /-- DROP_GATE_EDGE (R262). An accepted interruption edge is assigned to a drop window or counted unassigned. -/
  | dropGateEdge (dt : Nat) (q : Fin 10) (level : Bool)
  /-- GATE_BLOCKED (R264). A beam not clear for 100 us within 10 ms ends the plane's check and posts GATE_BLOCKED. -/
  | gateBlocked (dt : Nat) (q : Fin 10)
  /-- SPIT_PLAN (R268). SPIT_PLAN sets a keep-wet plan or sends a burst. -/
  | spitPlan (dt : Nat) (op : OpRef)
  /-- KEEP_WET_SPIT (R268). An eligible head idle for idle_ms, then every interval_ms, is sent a SPIT. -/
  | keepWetSpit (dt : Nat) (a : Fin 256)
  /-- WARM_LEVEL_UPDATE (R270). Every 1 ms each served head's warm_level is recomputed and sent when it changes. -/
  | warmLevelUpdate (dt : Nat) (a : Fin 256)
  /-- HEAD_MODEL_UPDATE (R272). Every 10 us the head die and body nodes are updated from the interval energy. -/
  | headModelUpdate (dt : Nat) (a : Fin 256)
  /-- HEAD_SENSE_CORRECTION (R274). Every 1 ms the head model is corrected by sense temperature, with stale and divergence detection. -/
  | headSenseCorrection (dt : Nat) (a : Fin 256)
  /-- CHIP_MODEL_UPDATE (R276). Every 100 us each chip node is updated from measured domain power. -/
  | chipModelUpdate (dt : Nat) (powerMw : List Nat)
  /-- CHIP_SENSOR_CORRECTION (R277). Every 1 ms each chip node is corrected towards its sensor. -/
  | chipSensorCorrection (dt : Nat) (sensors : List (BitVec 16))
  /-- THROTTLE_UPDATE (R278). Every 1 ms the Canary gives head and chip line-rate limits to the scheduler. -/
  | throttleUpdate (dt : Nat)
  /-- HEAD_AUTO_RELEASE (R281). With auto_release, a held head cooled to T_shut - head_margin is released at the next parting. -/
  | headAutoRelease (dt : Nat) (a : Fin 256)
  /-- HEAD_RELEASE (R281). Writing HC_HEAD_RELEASE with release 1 releases the named held head at the next parting. -/
  | headRelease (dt : Nat) (v : BitVec 32)
  /-- CSI_FRAME_START (R293). A Frame Start opens a frame, closing an unended one, and applies committed parameters and tables. -/
  | csiFrameStart (dt : Nat) (p : Fin 4) (vc : Fin 16) (corrected : Bool)
  /-- CSI_FRAME_END (R293). Frame End on every enabled channel closes the frame and issues its frame record. -/
  | csiFrameEnd (dt : Nat) (p : Fin 4) (vc : Fin 16) (corrected : Bool)
  /-- CSI_LONG_PACKET (R289). A long packet is checked, unpacked, stamped and buffered, or discarded and counted. -/
  | csiLongPacket (dt : Nat) (p : Fin 4) (h : CsiHeader) (payload : List Byte) (crcOk : Bool)
  /-- FRAME_TIMEOUT (R294). No packet for timeout_ms during a frame closes it with NO_END. -/
  | frameTimeout (dt : Nat) (p : Fin 4)
  /-- CAMERA_SILENT (R295). No reference line for silent_ms while stamps arrive sets silent and posts CAMERA_SILENT. -/
  | cameraSilent (dt : Nat) (p : Fin 4)
  /-- FLUSH_STAMPS (R290). Writing CAMp_CTRL.flush_stamps empties the stamp FIFO. -/
  | flushStamps (dt : Nat) (p : Fin 4)
  /-- CAM_COMMIT (R307). Writing CAMp_CTRL.commit makes staged shadow parameters take effect at the next frame. -/
  | camCommit (dt : Nat) (p : Fin 4)
  /-- PIPELINE_TILE (R296). The pipeline serves one tile round-robin through noise reduction, correction, alignment, density and mapping. -/
  | pipelineTile (dt : Nat)
  /-- REGION_CLOSE (R312). An occurrence closes beyond its last line and its statistics record is issued. -/
  | regionClose (dt : Nat) (p : Fin 4)
  /-- FOREMAN_RECORD (R326). The Foreman takes a usable statistics record and computes its loop change. -/
  | foremanRecord (dt : Nat)
  /-- FEED_FORWARD_UPDATE (R339). The thermal feed-forward trim is recomputed and loaded every ff_lines or at partings. -/
  | feedForwardUpdate (dt : Nat)
  /-- FM_HOLD (R328). A loop without usable records for hold_lines holds its terms and posts FM_HOLD. -/
  | fmHold (dt : Nat) (loop : Fin 4) (q : Fin 10)
  /-- FM_NOZ_CLEAR (R347). Writing FM_NOZ_CLEAR with go clears the named print findings. -/
  | fmNozClear (dt : Nat) (v : BitVec 32)
  /-- INGEST (R357). INGEST compresses, verifies, encrypts and stores a block and returns its handle. -/
  | ingest (dt : Nat) (op : OpRef) (data : List Byte)
  /-- STORE_PRECOMPRESSED (R358). STORE_PRECOMPRESSED checks a host block in full and stores it as received. -/
  | storePrecompressed (dt : Nat) (op : OpRef) (data : List Byte)
  /-- BLOCK_FREE (R367). BLOCK_FREE marks listed blocks as being freed, all or nothing. -/
  | blockFree (dt : Nat) (op : OpRef)
  /-- BLOCK_RELEASE (R367). A block being freed returns its pages once no job names it and heads have passed its last line plus 191. -/
  | blockRelease (dt : Nat) (h : BitVec 32)
  /-- ISSUE_DOORBELL (R376). An issue-ring producer doorbell moves the producer count after checks. -/
  | issueDoorbell (dt : Nat) (g : Fin 16) (v : BitVec 64)
  /-- COMPLETION_DOORBELL (R386). A completion-ring consumer doorbell frees slots and may re-arm the interrupt. -/
  | completionDoorbell (dt : Nat) (g : Fin 16) (v : BitVec 64)
  /-- EVENT_DOORBELL (R386). An event-ring consumer doorbell frees slots and may re-arm. -/
  | eventDoorbell (dt : Nat) (v : BitVec 64)
  /-- STATS_DOORBELL (R386). A statistics-ring consumer doorbell frees bytes and may re-arm. -/
  | statsDoorbell (dt : Nat) (v : BitVec 64)
  /-- BAR2_BAD_WRITE (R384). A BAR2 write that is not an aligned 8-byte doorbell is ignored and counted. -/
  | bar2BadWrite (dt : Nat) (off : BitVec 17) (bytes : Nat)
  /-- RING_ENABLE (R374). Setting a ring's enable bit sets both counts to 0 and arms it. -/
  | ringEnable (dt : Nat) (r : AnyRing) (v : BitVec 32)
  /-- DESCRIPTOR_FETCH (R383). The device fetches a descriptor when fewer than 1,024 are in flight and a completion slot is free, by priority. -/
  | descriptorFetch (dt : Nat) (desc : List Byte) (dma : FetchDma)
  /-- COMPLETION_WRITE (R379). An operation's completion is written to its completion ring with the phase bit. -/
  | completionWrite (dt : Nat) (op : OpRef) (ok : Bool)
  /-- DMA_TIMEOUT (R392). A host data read that errs or does not complete within 50 ms completes the operation with TIMEOUT. -/
  | dmaTimeout (dt : Nat) (op : OpRef)
  /-- RING_INTERRUPT (R386). An armed ring sends its vector at mod_count entries, mod_time_us or an urgent completion. -/
  | ringInterrupt (dt : Nat) (r : ConsumerRing)
  /-- EVENT_POST (R387). A posted event is written to the event ring or discarded and counted when full. -/
  | eventPost (dt : Nat) (code : BitVec 16) (args : List Byte) (ok : Bool)
  /-- STATS_RECORD_WRITE (R388). A statistics record is written whole to the statistics ring or dropped and counted. -/
  | statsRecordWrite (dt : Nat) (ok : Bool)
  /-- TABLE_LOAD (R397). TABLE_LOAD reads, checks and stages a table and completes when it takes effect. -/
  | tableLoad (dt : Nat) (op : OpRef) (data : List Byte)
  /-- JOB_QUEUE (R398). JOB_QUEUE checks a job and copies its panel and handle lists into the job tables. -/
  | jobQueue (dt : Nat) (op : OpRef) (list : List Byte) (handles : List (List Byte))
  /-- JOB_STOP (R401). JOB_STOP ends the stream at the next uncommitted parting and reports the last line. -/
  | jobStop (dt : Nat) (op : OpRef)
  /-- HEAD_QUERY (R402). HEAD_QUERY writes a head's state and its health map, findings or baselines. -/
  | headQuery (dt : Nat) (op : OpRef)
  /-- MOTION_MOVE (R404). MOTION_MOVE starts a position, velocity, home, stop or hard-stop move on a winder channel. -/
  | motionMove (dt : Nat) (op : OpRef)
  /-- CAPTURE (R405). CAPTURE writes camera lines at the chosen pipeline point from the effective frame on. -/
  | capture (dt : Nat) (op : OpRef)
  /-- KEY_LOAD (R406). KEY_LOAD unwraps a key into a slot or clears it. -/
  | keyLoad (dt : Nat) (op : OpRef) (data : List Byte)
  /-- RETIRE (R429). RETIRE marks a page retired, migrating its contents when in use. -/
  | retire (dt : Nat) (op : OpRef)
  /-- PAGE_RETIRED (R430). The migration copy ends, the page list is updated and PAGE_RETIRED posted. -/
  | pageRetired (dt : Nat) (page : Nat) (errors : List (Nat × BurstErrors))
  /-- SPARE_BANK (R188). SPARE_BANK starts copying a Seam bank into the plane's spare. -/
  | spareBank (dt : Nat) (op : OpRef)
  /-- LOG_READ (R407). LOG_READ writes entries of a tailings table, the Foreman log or the event log. -/
  | logRead (dt : Nat) (op : OpRef)
  /-- TALLY_CTRL (R408). TALLY_CTRL hands the tally to the partner or reads the tally state. -/
  | tallyCtrl (dt : Nat) (op : OpRef)
  /-- POWER_STATE (R493). POWER_STATE target 1 in READY or COLD enters DEEP. -/
  | powerState (dt : Nat) (op : OpRef)
  /-- CODEWORD_READ (R421). A DRAM or SRAM read decodes the word and delivers data as clean, corrected, address error, uncorrectable or poison. -/
  | codewordRead (dt : Nat) (r : WordRead)
  /-- PARTIAL_WRITE (R424). A partial write reads, merges and writes the word, poisoning it after a bad read. -/
  | partialWrite (dt : Nat) (t : PartialTarget) (op : Option OpRef)
  /-- DRAM_SCRUB (R425). Background scrubbing reads every DRAM codeword once per period and posts SCRUB_PASS. -/
  | dramScrub (dt : Nat) (errors : List (Nat × BurstErrors)) (wait : StoreWait)
  /-- SRAM_SCRUB (R425). Background scrubbing reads every SRAM word once per period and posts SCRUB_PASS. -/
  | sramScrub (dt : Nat) (errors : List (BitVec 24 × List Nat × SramHold))
  /-- RENEW_SEND (R440). Every 100 us the active device of a pair sends RENEW unless self-diagnosis calls for release. -/
  | renewSend (dt : Nat)
  /-- HEALTH_SEND (R440). Every 100 us a standby or READY device sends HEALTH. -/
  | healthSend (dt : Nat)
  /-- LEASE_MESSAGE_RX (R437). A received lease message is checked and accepted once per sequence. -/
  | leaseMessageRx (dt : Nat) (viaNet : Bool) (data : List Byte)
  /-- TALLY_FENCE (R438). A holder whose last renewal is 250 us old stops head traffic, posts TALLY_LOST and becomes standby. -/
  | tallyFence (dt : Nat)
  /-- LEASE_LATE (R442). No RENEW for 150 us starts warm-up and posts LEASE_LATE. -/
  | leaseLate (dt : Nat)
  /-- TALLY_LAPSE_TAKE (R442). No RENEW for 300 us lets a fit standby take the tally. -/
  | tallyLapseTake (dt : Nat)
  /-- PAIR_START_TIMEOUT (R442). An end-B device without RENEW or HEALTH for 1 s after READY takes the tally alone. -/
  | pairStartTimeout (dt : Nat)
  /-- ARBITER_TICK (R443). Every 100 us the arbiter grants to the healthy holder or switches the grant. -/
  | arbiterTick (dt : Nat) (k : Fin 8)
  /-- HANDOVER_TIMEOUT (R444). 1 ms after a handover request without warm, the active fences itself and sends RELEASE. -/
  | handoverTimeout (dt : Nat)
  /-- MIRROR_SEND (R447). The active device sends changed state to the standby in MIRROR packets. -/
  | mirrorSend (dt : Nat) (full : Bool)
  /-- MIRROR_RX (R447). The standby applies and acknowledges a MIRROR packet. -/
  | mirrorRx (dt : Nat) (lane : Fin 68) (number : Nat) (item : MirrorItem)
  /-- MIRROR_LOST (R448). A pair link down or full standby store marks the mirror not current and posts MIRROR_LOST. -/
  | mirrorLost (dt : Nat) (cause : Fin 3)
  /-- MIRROR_SYNCED (R448). Background copy of missing blocks ends and MIRROR_SYNCED is posted. -/
  | mirrorSynced (dt : Nat)
  /-- RELAY_DOWN_RX (R451). The partner forwards a RELAY_DOWN packet out of its ring end within 2 us. -/
  | relayDownRx (dt : Nat) (lane : Fin 68) (rx : LaneRx)
  /-- RELAY_UP_RX (R451). The holder takes a relayed upstream packet as if received at its own end. -/
  | relayUpRx (dt : Nat) (lane : Fin 68) (rx : LaneRx)
  /-- DEPUTY_HALT (R452). A lockstep mismatch halts the Deputy; the sequencer keeps ALIVE, stops renewing and posts DEPUTY_HALT. -/
  | deputyHalt (dt : Nat)
  /-- DOUBLE_FAULT (R453). A waiting recovery that cannot deliver in time holds the head and posts DOUBLE_FAULT. -/
  | doubleFault (dt : Nat) (a : Fin 256)
  /-- WINDER_TICK (R459). Every 1 us each channel's profile generator integrates motion, updates p, mode and references. -/
  | winderTick (dt : Nat)
  /-- WINDER_ENABLE (R458). WCn_CFG.enable changing to 1 enters standstill at position 0, not homed. -/
  | winderEnable (dt : Nat) (n : Fin 32) (v : BitVec 32)
  /-- RAMP_REGISTER_WRITE (R468). A write to WCn_ACCEL or WCn_DECEL applies to running moves or is deferred with WINDER_DEFERRED. -/
  | rampRegisterWrite (dt : Nat) (n : Fin 32) (decel : Bool) (v : BitVec 32)
  /-- CHOPPER_TRIP (R469). A trip input active after blanking ends a phase's on time. -/
  | chopperTrip (dt : Nat) (n : Fin 32) (phaseB : Bool) (level : Bool)
  /-- CHOPPER_OFF_END (R469). The fixed off time ends and the phase drives again. -/
  | chopperOffEnd (dt : Nat) (n : Fin 32) (phaseB : Bool)
  /-- CLEAR_FAULT (R470). Writing WCn_CTRL.clear_fault leaves FAULT for standstill, not homed. -/
  | clearFault (dt : Nat) (n : Fin 32) (v : BitVec 32)
  /-- HOLD_DELAY_EXPIRE (R471). hold_delay_ms after a move ends, the channel applies its standstill mode. -/
  | holdDelayExpire (dt : Nat) (n : Fin 32)
  /-- SWITCH_EDGE (R472). A switch input accepted at a new level records its position and drives limit or homing logic. -/
  | switchEdge (dt : Nat) (n : Fin 32) (sw : Fin 3) (level : Bool)
  /-- SSI_READ (R478). Every period_us each enabled scale is read and its value checked. -/
  | ssiRead (dt : Nat) (k : Fin 8) (ready : Bool) (data : List Bool) (low : Bool)
  /-- GLB_CAUSE_WRITE (R518). A write to GLB_CAUSE clears W1C cause bits. -/
  | glbCauseWrite (dt : Nat) (v : BitVec 32)
  /-- GLB_INT_EN_WRITE (R519). Setting an enable bit whose cause is already set sends the global vector. -/
  | glbIntEnWrite (dt : Nat) (v : BitVec 32)
  /-- ETH_LINK_CHANGE (R520). An Ethernet port's link goes up or down, updating ETHp_STATUS.link_up and setting link_changed. -/
  | ethLinkChange (dt : Nat) (port : Fin 2) (up : Bool)
  /-- PCIE_LINK_TRAINED (R486). The PCIe link trains once PCIE_PERST_N is released, making BAR0 reachable again. -/
  | pcieLinkTrained (dt : Nat)
  /-- DOMAIN_POWER_RETURN (R492). A domain switched off by a domain reset comes back on: its RWL fields are restored, and in solo the device returns through SETUP to READY. -/
  | domainPowerReturn (dt : Nat) (d : Fin 10) (trainFails : List (Fin 6))
  /-- MIRROR_ACK_TIMEOUT (R447). A mirrored item not acknowledged by the standby within 1 ms of its change makes the mirror not current. -/
  | mirrorAckTimeout (dt : Nat)
  /-- TALLY_CTRL_TIMEOUT (R408). A TALLY_CTRL handover whose partner has not taken the tally within 10 ms completes with TIMEOUT. -/
  | tallyCtrlTimeout (dt : Nat)
  /-- DROP_WINDOW_END (R263). A drop window of a DROP_CHECK closes with no further edge, settling a MISSING drop and moving the check on to retries, the next group or head. -/
  | dropWindowEnd (dt : Nat) (q : Fin 10)
  /-- BLOCK_LOCK_ACQUIRED (R200). A lane receiver gains Clause 49 block lock during training, setting LANEn_STATUS.block_lock and reaching step 3 of the training timeline. -/
  | blockLockAcquired (dt : Nat) (n : Fin 68) (rx : LaneRx)
deriving DecidableEq, Repr

end Sys2Proof
end

