-- ==== Sys2Proof/Config.lean ====
section
/-! DEFINITION. What a device of this kind fixes in its making (fuses, ROM), and the free values: constants without a body,
applied to a counter of State that each draw advances (or to what the value depends on), for what the spec leaves open. No
proof can see a value of one. -/

namespace Sys2Proof

/-- The chip identifier from the fuses (Table 19-12). -/
opaque Config.chipId : BitVec 64

/-- Whether the debug port is fused closed (CAPS.debug_closed, Table 20-4). -/
opaque Config.debugClosed : Bool

/-- The per-chip key, 32 bytes, number i (R500: derived from fused secrets, never visible). -/
opaque Config.chipKey : Nat → Byte

/-- The audit phase: the value of L mod 64 of the lines the spare audits (R158 text). -/
opaque Config.auditPhase : Nat

/-- The nominal warming pulse width of a head model in ns, which R252 names and Table 10-1 does not give. -/
opaque Config.warmPulse : Nat → Nat

/-- Bytes a process the spec does not spell out produces: draw number n (a token stream of the Crusher, R355). -/
opaque Config.freeBytes : Nat → List (BitVec 8)

/-- A free number: draw number n, for a value of the kind the caller says. Nothing constrains it. -/
opaque Config.freeNat : Nat → Nat

/-- A free integer, as Config.freeNat. -/
opaque Config.freeInt : Nat → Int

/-- Which way an inexact quotient rounds where the spec does not say and the quotient follows from what the state holds. -/
opaque Config.quotUp : Int → Nat → Bool

/-- Which way a tie rounds where the spec says to the nearest and no more. -/
opaque Config.tieUp : Int → Nat → Bool

/-- What the prediction arithmetic adds to a web position, in 2^-16 count, by the time and the exact value (R57 bounds it). -/
opaque Config.predErr : Nat → Int → Int

/-- How far the stamp of a PTP event message lies from the true crossing, in 2^-16 ns, by the port and the beat (R90 bounds it). -/
opaque Config.ptpErr : Nat → Nat → Int

/-- Where the spec does not say how an inexact value rounds: draw number n rounds up when true. -/
opaque Config.roundUp : Nat → Bool

end Sys2Proof
end

