-- ==== Sys2Proof/Machine/Operands.lean ====
section
/-! DEFINITION. Operand forms: multi-byte fields in both byte orders (R4), signed fields, the sized arguments of events
(R411) and the result bytes of completions (R393), fixed-point helpers. -/

namespace Sys2Proof.Machine

/-- The low n bytes of a number, least significant first (R4: host-side structures). -/
def leBytes : Nat → Nat → List (BitVec 8)
  | 0, _ => []
  | n + 1, v => BitVec.ofNat 8 v :: leBytes n (v / 256)

/-- The low n bytes of a number, most significant first (R4: wire formats). -/
def beBytes (n v : Nat) : List (BitVec 8) := (leBytes n v).reverse

/-- The number that bytes spell, least significant first. -/
def ofLe : List (BitVec 8) → Nat
  | [] => 0
  | b :: t => b.toNat + 256 * ofLe t

/-- The number that bytes spell, most significant first. -/
def ofBe (bs : List (BitVec 8)) : Nat := ofLe bs.reverse

/-- n bytes of a list from an offset; bytes past its end read 0. -/
def slice (bs : List (BitVec 8)) (off n : Nat) : List (BitVec 8) :=
  let c := (bs.drop off).take n
  c ++ List.replicate (n - c.length) 0#8

/-- A little-endian field of a structure. -/
def leAt (bs : List (BitVec 8)) (off n : Nat) : Nat := ofLe (slice bs off n)

/-- A big-endian field of a packet or message. -/
def beAt (bs : List (BitVec 8)) (off n : Nat) : Nat := ofBe (slice bs off n)

/-- An integer as a two's-complement number of w bits. -/
def wrap (w : Nat) (i : Int) : Nat := (i % (2 ^ w : Nat)).toNat

/-- The integer that a two's-complement number of w bits stands for. -/
def signed (w n : Nat) : Int :=
  if w = 0 then 0
  else if n % 2 ^ w < 2 ^ (w - 1) then (n % 2 ^ w : Nat) else (n % 2 ^ w : Nat) - (2 ^ w : Nat)

/-- Bits hi..lo of a number. -/
def bits (n hi lo : Nat) : Nat := n / 2 ^ lo % 2 ^ (hi + 1 - lo)

/-- One bit of a number. -/
def bit (n i : Nat) : Bool := n.testBit i

/-- 1 for true. -/
def b2n (b : Bool) : Nat := if b then 1 else 0

/-- A number held to a range. -/
def clampI (lo hi i : Int) : Int := max lo (min hi i)

/-- A number held to a range. -/
def clampN (lo hi n : Nat) : Nat := max lo (min hi n)

/-- n modulo 2^48, the width of a line index (R3 text: LI is 48 bits). -/
def li48 (n : Nat) : Nat := n % 2 ^ 48

/-- An argument of an event, with the size of Table 15-8 (R411). -/
inductive EArg where
  /-- 1 byte -/
  | b (v : Nat)
  /-- 2 bytes signed, 1/64 °C -/
  | t (v : Int)
  /-- 6 bytes, any line index -/
  | li (v : Nat)
  /-- 8 bytes signed 48.16 counts -/
  | pos (v : Int)
  /-- 8 bytes, nanoseconds of TB3 -/
  | ns (v : Nat)
  /-- 8 bytes, an address -/
  | addr (v : Nat)
  /-- 4 bytes unsigned -/
  | n (v : Nat)
  /-- 4 bytes signed -/
  | s (v : Int)
deriving DecidableEq, Repr

/-- The bytes of an event argument (R411). -/
def EArg.bytes : EArg → List (BitVec 8)
  | .b v => leBytes 1 v
  | .t v => leBytes 2 (wrap 16 v)
  | .li v => leBytes 6 v
  | .pos v => leBytes 8 (wrap 64 v)
  | .ns v => leBytes 8 v
  | .addr v => leBytes 8 v
  | .n v => leBytes 4 v
  | .s v => leBytes 4 (wrap 32 v)

/-- The argument bytes of an event, in order (R410). -/
def packArgs (as : List EArg) : List (BitVec 8) := as.flatMap EArg.bytes

/-- Overwrite bytes of a structure from an offset. -/
def overlay (bs : List (BitVec 8)) (off : Nat) (v : List (BitVec 8)) : List (BitVec 8) :=
  bs.take off ++ v ++ bs.drop (off + v.length)

/-- Completion bytes 4 to 30 from fields at the offsets of Table 15-6; bytes not named are 0 (R393). -/
def resBytes (fs : List (Nat × List (BitVec 8))) : List (BitVec 8) :=
  fs.foldl (fun a f => overlay a (f.1 - 4) f.2) (List.replicate 27 0#8)

/-- A quotient where the spec does not say how it rounds: exact when it is exact, otherwise either neighbour. -/
def quot (a : Int) (b : Nat) : Int := if a % (b : Int) = 0 then a / (b : Int) else a / (b : Int) + b2n (Config.quotUp a b)

/-- The same of two natural numbers. -/
def quotN (a b : Nat) : Nat := (quot a b).toNat

/-- Divide and round to the nearest (for positive divisors); the spec does not say which way a tie goes. -/
def divRound (a : Int) (b : Nat) : Int :=
  if (2 * a + b) % (2 * b : Nat) = 0 then (2 * a + b) / (2 * b : Nat) - b2n (!Config.tieUp a b) else (2 * a + b) / (2 * b : Nat)

/-- Ceiling of a quotient. -/
def ceilDiv (a b : Nat) : Nat := (a + b - 1) / b

/-- The list of the numbers below n that satisfy a test. -/
def upto (n : Nat) (p : Nat → Bool) : List Nat := (List.range n).filter p

end Sys2Proof.Machine
end

