-- ==== Sys2Proof/Machine/State.lean ====
section
/-! DEFINITION. The state of the DL-1064 as plain data, and the state right after reset. Every architected register field
lives in `regs`, the sparse register file (an unlisted register reads as its reset value, RegMap.lean); what the spec gives the
machine beside its registers stands in the records below, each field with the rule that names it and its value at reset.
Tables are held in the canonical sparse form of Tab.lean. -/

namespace Sys2Proof.Machine

/-- Why the machine stops. No command of the table stops the device, so nothing raises one. -/
inductive Fault where
  /-- Raised by nobody; safe. -/
  | none
deriving DecidableEq, Repr

/-- Why a command has no meaning here. -/
inductive Refusal where
  /-- An arm of Dispatch.lean not written yet; safe. -/
  | notModelled (mnemonic : String)
deriving DecidableEq, Repr

/-- How a message leaves in an Ethernet frame: under an EtherType, or as a UDP/IPv4 datagram (R88, R95). -/
inductive FrameCarrier where
  | ethernet (ethertype : BitVec 16)
  | udp (ipSrc ipDst : BitVec 32) (port : BitVec 16)
deriving DecidableEq, Repr

/-- An Ethernet frame sent (R88, R95, R521): destination and source address, carrier, and the message with its padding. -/
structure NetFrame where
  dest : BitVec 48
  src : BitVec 48
  carrier : FrameCarrier
  body : List (BitVec 8)
deriving DecidableEq, Repr

/-- What the device gives out, in order. The list in `State.out` is the MODEL'S OWN record of the outside effects of the
commands (notes/assumptions/3.md): the spec gives the effects, not the list. -/
inductive Output where
  /-- the value a host read of BAR0 returns (R509, R510) -/
  | regRead (off : Nat) (v : BitVec 32)
  /-- a posted write of the device to host memory (R379, R387, R388, R376) -/
  | dmaWrite (addr : Nat) (data : List (BitVec 8))
  /-- an MSI-X vector sent; `delivered` is false where its table entry is masked and it goes to the pending bits (R386) -/
  | msix (vector : Nat) (delivered : Bool)
  /-- a Phied packet sent on a lane, to a head or on the pair link, and the blocks that carry it, with the two idle blocks after it (R194,
  R215, R216, R436) -/
  | lanePacket (lane : Nat) (data : List (BitVec 8)) (blocks : List LaneBlock)
  /-- a FIRE INHIBIT control block on a lane: assert or release, with its sequence number (R226, R227) -/
  | inhibitBlock (lane : Nat) (assert : Bool) (seq : Nat) (blocks : List LaneBlock)
  /-- sleep notices sent on a lane (R204) -/
  | sleepNotices (lane : Nat) (count : Nat) (blocks : List LaneBlock)
  /-- a training block sent on a lane (R197) -/
  | trainingBlock (lane : Nat) (data : List (BitVec 8)) (blocks : List LaneBlock)
  /-- an Ethernet frame sent on a port (R88, R96, R99, R437) -/
  | netMessage (port : Nat) (frame : NetFrame)
  /-- the access units that the image store's controllers serve, in order, as runs of one class (R417) -/
  | storeAccess (runs : List (StoreClass × Nat))
  /-- an SSI clock burst on an input's clock pair (R478) -/
  | ssiBurst (k : Nat) (clocks : Nat)
deriving DecidableEq, Repr

/-- An event record as log 4 keeps it (R407, Table 15-7): code, sequence number, argument bytes. -/
structure EventRec where
  code : Nat
  seq : Nat
  args : List (BitVec 8)
deriving DecidableEq, Repr

/-- An operation in flight: fetched, its completion not yet written (R383). -/
structure Flight where
  /-- issue ring -/
  ring : Nat
  /-- number of its fetch, among all the device has made -/
  n : Nat
  /-- completion ring that holds its reserved slot (R379, R383); 16 after a host reset, which discards its completion (R373) -/
  cq : Nat
  /-- the 64 descriptor bytes (R377) -/
  desc : List (BitVec 8)
  /-- whether the operation has begun (R381) -/
  begun : Bool
  /-- whether it has read all the host data it needs (R373) -/
  dataRead : Bool
  /-- status and the 27 result bytes once it has ended and its completion waits to be written (R379) -/
  ended : Option (Nat × List (BitVec 8))
deriving DecidableEq, Repr

/-- One MSI-X table entry (R372, Table 14-2; layout of the PCIe specification). -/
structure MsixEntry where
  addr : BitVec 64
  data : BitVec 32
  control : BitVec 32
deriving DecidableEq, Repr

/-- Host interface state that is not a register (chapters 14 and 15). -/
structure Rings where
  /-- operations in flight, oldest fetched first (R383); reset none -/
  flight : List Flight := []
  /-- descriptors fetched so far (the model's name for an operation); reset 0 -/
  fetches : Nat := 0
  /-- next event sequence number, 16 bits (R410); reset 0 -/
  evtSeq : Nat := 0
  /-- log 4: the newest 1,024 event records, oldest first (R407); reset empty -/
  log : List EventRec := []
  /-- log 4 has dropped a record (R409); reset no -/
  logOver : Bool := false
  /-- statistics records issued and not yet written, oldest first (R388); reset none -/
  statQ : List (List (BitVec 8)) := []
  /-- per ring 0 to 15 completion, 16 event, 17 statistics: moderation start time and size of each entry beyond the
  consumer count, oldest first (R386); reset none -/
  waiting : List (Nat × List (Nat × Nat)) := []
  /-- rings stopped by R385 and not enabled again since: 0 to 15 issue, 16 to 31 completion, 32 event, 33 statistics;
  reset none -/
  stopped : List Nat := []
  /-- next issue ring of the high level in the round-robin (R382), 4 bits; reset 0 -/
  rrHigh : Nat := 0
  /-- next issue ring of the low level in the round-robin (R382), 4 bits; reset 0 -/
  rrLow : Nat := 0
  /-- high-level fetches since the last low-level one, while both were ready (R382), 0 to 7; reset 0 -/
  highRun : Nat := 0
  /-- consumer count last written back, per issue ring, 32 bits (R376); reset 0 -/
  written : List (Nat × Nat) := []
  /-- MSI-X table, 64 entries; an entry not listed is zero, so not masked (R372); reset zero -/
  msix : List (Nat × MsixEntry) := []
  /-- MSI-X pending bits, 64 bits (R372); reset 0 -/
  pba : BitVec 64 := 0#64
deriving DecidableEq, Repr

/-- A key slot's hidden contents (R499). Its state is SEC_KEY_STATE. -/
structure KeySlot where
  /-- the 64-byte AES-256-XTS key: data key, tweak key (R406); zeroed is all 0 -/
  key : List (BitVec 8)
  /-- number of the KEY_LOAD that filled it, for R361 -/
  serial : Nat
deriving DecidableEq, Repr

/-- Power, reset, security and pin state that is not a register (chapters 01, 19, 21). -/
structure Power where
  /-- key slots 0 to 15; a slot not listed is zeroed, serial 0 (R499); reset zeroed -/
  keys : List (Nat × KeySlot) := []
  /-- KEY_LOAD operations that loaded a slot, counted (R361); reset 0 -/
  keySerial : Nat := 0
  /-- the fuses passed their check at the last power-on boot (R487, CAPS.chip_key_ok); reset yes -/
  fuseOk : Bool := true
  /-- the retention set's copy of the RWL fields (R495), as register words; reset none -/
  retention : List (Nat × BitVec 32) := []
  /-- the PCIe link is up (R486, R373); reset down -/
  pcieUp : Bool := false
  /-- FIRE_INHIBIT_N accepted low (R21, R532); reset no -/
  fireInhibit : Bool := false
  /-- PRINT_OK as driven (R23, R517); reset low -/
  printOk : Bool := false
  /-- ALIVE as driven (R24); reset low -/
  alive : Bool := false
  /-- beat of the last ALIVE transition (R24); reset 0 -/
  aliveAt : Nat := 0
  /-- low cause 19: Deputy halted and PRINT_OK dropped at the parting of R452; reset no -/
  lowDeputy : Bool := false
  /-- low cause 20: chip thermal shutdown (R497); reset no -/
  lowThermal : Bool := false
  /-- low cause 21: a domain power fault ended the stream (R492); reset no -/
  lowFault : Bool := false
  /-- domains off inside a domain reset, to come back (R492), numbers 1 to 10; reset none -/
  domainReset : List Nat := []
  /-- held in warm reset by the analog trip (R498); reset no -/
  tripHeld : Bool := false
deriving DecidableEq, Repr

/-- One position input at its ball (R29). Balls 3n, 3n + 1 and 3n + 2 are ENCn_A, ENCn_B and ENCn_Z; ball 12 + n is TRIG_IN[n]. -/
structure Ball where
  /-- the level last given, which it shows until another is given; reset low, DESIGN CHOICE -/
  level : Bool := false
  /-- the first beat of the samples in a row that show it (R29); reset 0 -/
  since : Nat := 0
  /-- TB3 in that beat, whole ns (R31); reset 0 -/
  stamp : Nat := 0
deriving DecidableEq, Repr

/-- One encoder beside its registers (chapter 02). Count, stamps, accepted levels and flags are the ENCn registers. -/
structure Encoder where
  /-- enabled, its first accepted level of A not yet taken (R36); reset no -/
  initialA : Bool := false
  /-- enabled, its first accepted level of B not yet taken (R36); reset no -/
  initialB : Bool := false
  /-- enabled, its first accepted level of Z not yet taken (R36); reset no -/
  initialZ : Bool := false
  /-- count at the last index latch, 48 bits signed (R40 ref); reset 0 -/
  ref : Int := 0
  /-- direction at the last index latch (R40 ref_dir); reset 0 -/
  refDir : Bool := false
  /-- beat in which the last count was accepted (R38); reset none -/
  lastCount : Option Nat := none
  /-- beat of the last OVERSPEED posted (R48); reset none -/
  postedOver : Option Nat := none
  /-- beat of the last QUAD_ERROR posted (R48); reset none -/
  postedQuad : Option Nat := none
  /-- beat of the last overspeed, quadrature error or counted glitch (R61); reset none -/
  trouble : Option Nat := none
  /-- the last d added to the drift accumulator and its beat (R42); reset none -/
  driftAt : Option (Nat × Int) := none
deriving DecidableEq, Repr

/-- One capture of a trigger input (R44): source count, stamp in ns, whether the edge was rising. -/
structure Capture where
  count : Int
  stamp : Nat
  rising : Bool
deriving DecidableEq, Repr

/-- One trigger input beside its registers (R44 to R47). -/
structure Trigger where
  /-- accepted level (R44); reset low -/
  level : Bool := false
  /-- enabled, its first accepted level not yet taken (R44); reset no -/
  initial : Bool := false
  /-- the capture FIFO, oldest first, at most 16 entries (R46); reset empty -/
  fifo : List Capture := []
  /-- count captured last, from which the lockout runs (R45); reset none -/
  lockout : Option Int := none
deriving DecidableEq, Repr

/-- The four encoders and eight trigger inputs (chapter 02). -/
structure Inputs where
  /-- encoders 0 to 3, unlisted as at reset -/
  enc : List (Nat × Encoder) := []
  /-- trigger inputs 0 to 7, unlisted as at reset -/
  trig : List (Nat × Trigger) := []
  /-- the 20 balls, unlisted as at reset -/
  balls : List (Nat × Ball) := []
  /-- the last beat sampled with levels given in it (R29); reset none -/
  sampled : Option Nat := none
deriving DecidableEq, Repr

/-- One observer instance (R51 to R54): 0 to 3 the encoders, 4 the remote coordinate. -/
structure Instance where
  /-- the instance runs (R52); reset no -/
  running : Bool := false
  /-- removed, then readmitted, and not started since (R62, R541); reset no -/
  readmitted : Bool := false
  /-- position p, signed 48.16 source counts (Table 03-1) with 48 guard bits below; reset 0 -/
  p : Int := 0
  /-- velocity v, signed 32.32 source counts per second with 48 guard bits below; reset 0 -/
  v : Int := 0
  /-- acceleration a, signed 32.32 source counts per second squared with 48 guard bits below; reset 0 -/
  a : Int := 0
  /-- t_u, 80-bit TB3 stamp of the last update, in 2^-16 ns; reset 0 -/
  tu : Nat := 0
  /-- offset o_k, signed 48.16 web counts (R51); reset 0 -/
  o : Int := 0
  /-- D_ref in 2^-48 web counts (R61); reset 0 -/
  dref : Int := 0
  /-- TB3 stamp of the last D_ref update, in 2^-16 ns; reset 0 -/
  drefAt : Nat := 0
  /-- TB3 stamp at which it started, in 2^-16 ns (R56); reset 0 -/
  started : Nat := 0
deriving DecidableEq, Repr

/-- One compare unit beside its registers (R69 to R79). -/
structure Compare where
  /-- mode, src, dir, target_kind and plane latched at the arm (R71); reset 0 -/
  mode : Nat := 0
  src : Nat := 0
  dir : Nat := 0
  kind : Nat := 0
  plane : Nat := 0
  /-- the target it compares: 48.16 counts, or ns of TB3 in time mode (R79); reset 0 -/
  target : Int := 0
  /-- the signed difference, compared position minus target, was below 0, 0 or above 0 when last looked at (R70); reset 0 -/
  side : Int := 0
  /-- pulse scheduled: TB3 stamp in 2^-16 ns of a predictive unit, beat of a reactive unit (R69, R73); reset none -/
  due : Option Nat := none
  /-- the scheduled pulse is committed (R73); reset no -/
  committed : Bool := false
  /-- direction of the crossing that gives the scheduled pulse, 0 forward, 1 backward (R77); reset 0 -/
  dueBack : Bool := false
  /-- the output is active (R75); reset no -/
  active : Bool := false
  /-- beat at which the output ends (R75); reset 0 -/
  until_ : Nat := 0
  /-- pulses since the arm, for repeat (R77); reset 0 -/
  pulses : Nat := 0
  /-- beat of the last CMP_MISSED posted (R80); reset none -/
  postedMissed : Option Nat := none
  /-- beat of the last CMP_LATE_PULSE posted (R80); reset none -/
  postedLate : Option Nat := none
  /-- beat of the last CMP_UNPREDICTED posted (R80); reset none -/
  postedUnpred : Option Nat := none
deriving DecidableEq, Repr

/-- The web as one update left it (R82): TB3 time in ns, position 48.16, velocity and acceleration 32.32, HW 48.16. -/
structure ObsUpdate where
  t : Nat := 0
  p : Int := 0
  v : Int := 0
  a : Int := 0
  hw : Int := 0
deriving DecidableEq, Repr

/-- The tracking observer and the compare units (chapter 03). -/
structure Observer where
  /-- the five instances, unlisted as at reset -/
  inst : List (Nat × Instance) := []
  /-- the web position while no source gives one, signed 48.16 (R64); reset 0 -/
  frozen : Int := 0
  /-- position was lost and no resync has restored it (R64); reset no -/
  lost : Bool := false
  /-- difference still to be slewed out, signed 48.16 web counts (R63); reset 0 -/
  slew : Int := 0
  /-- TB3 stamp up to which it has been slewed, in 2^-16 ns; reset 0 -/
  slewAt : Nat := 0
  /-- the two encoders of the blend while OBS_STATUS.active is 5, the primary first (R541); reset 0 and 0 -/
  pair : Nat × Nat := (0, 0)
  /-- HW, the high-water position, signed 48.16 (R65); reset 0 -/
  hw : Int := 0
  /-- a job stream origin has set HW since reset (R65); reset no -/
  hwSet : Bool := false
  /-- the last update of an instance (R82); reset all 0 -/
  last : ObsUpdate := {}
  /-- TB3 stamp at which the reversal began, in 2^-16 ns (R80); reset 0 -/
  reversedAt : Nat := 0
  /-- compare units 0 to 47, unlisted as at reset -/
  cmp : List (Nat × Compare) := []
deriving DecidableEq, Repr

/-- One candidate master heard in a domain (R88). -/
structure Foreign where
  clockId : BitVec 64
  portNumber : BitVec 16
  data : Announce
  /-- beat of its last Announce -/
  heard : Nat
  /-- its logMessageInterval -/
  logInterval : Int
deriving DecidableEq, Repr

/-- One PTP domain, beside its registers (R88 to R94). -/
structure Ptp where
  /-- consecutive Syncs within lock_ns (R89), 0 to 8; reset 0 -/
  lockRun : Nat := 0
  /-- beat of the last valid Sync (R89); reset 0 -/
  syncBeat : Nat := 0
  /-- TBd stamp of the last valid Sync, ns, 64 bits (R101); reset 0 -/
  syncStamp : Nat := 0
  /-- logMessageInterval of the last Sync (R89), signed 8 bits; reset 0 -/
  syncInterval : Int := 0
  /-- a two-step Sync waiting for its Follow_Up: sequenceId, receive stamp and correction in 2^-16 ns (R88); reset none -/
  waitFollow : Option (Nat × Int × Int) := none
  /-- the last Sync's origin and receive stamp in 2^-16 ns, for the delay measurement (R88); reset none -/
  lastSync : Option (Int × Int) := none
  /-- a Delay_Req or Pdelay_Req waiting for its answer: sequenceId and transmit stamp in 2^-16 ns (R88); reset none -/
  request : Option (Nat × Int) := none
  /-- a two-step Pdelay_Resp waiting for its follow-up: sequenceId, request receipt time at the peer and receive stamp here in
  2^-16 ns (R88); reset none -/
  waitResp : Option (Nat × Int × Int) := none
  /-- sequenceId of the next request, 16 bits (R88); reset 0 -/
  nextSeq : Nat := 0
  /-- mean path or link delay in 2^-16 ns (R88, PTPd_PATH_DELAY shows it in ns); reset 0 -/
  pathDelay : Int := 0
  /-- candidate masters (R88); reset none -/
  foreign : List Foreign := []
  /-- beat at which LOCKED was entered, or the ineligible mark cleared while LOCKED (R93); reset 0 -/
  goodSince : Nat := 0
deriving DecidableEq, Repr

/-- Time bases and network time beside the registers (chapter 04). -/
structure Time where
  /-- TB0 to TB3: 64 bits of ns and 48 fraction bits each, in 2^-48 ns (R84); reset 0 (R85) -/
  tb : List Nat := [0, 0, 0, 0]
  /-- rate correction of TB0 to TB3, in 2^-48 ns per beat (R84); reset 0 -/
  rate : List Int := [0, 0, 0, 0]
  /-- PTP domain A (R88) -/
  ptpA : Ptp := {}
  /-- PTP domain B (R88) -/
  ptpB : Ptp := {}
  /-- TB3's source has reached LOCKED since the reset or the select change (R92); reset no -/
  sourceLocked : Bool := false
  /-- DOMAIN_DISAGREE has been posted and its mark not cleared (R94); reset no -/
  disagreeing : Bool := false
  /-- beat since which the domains have been within disagree_ns, while marked (R94); reset none -/
  agreeSince : Option Nat := none
  /-- sequence of the next web-coordinate message sent, 16 bits (R95); reset 0 -/
  pubSeq : Nat := 0
  /-- WC_PUB_SUSPENDED posted for the present suspension (R96); reset no -/
  pubSuspended : Bool := false
  /-- the next message is exempt from the sequence check (R97); reset yes -/
  seqExempt : Bool := true
  /-- beat of the last message accepted since the enable (R98); reset none -/
  lastAccepted : Option Nat := none
  /-- beat at which the subscription was enabled (R98); reset none -/
  subscribedAt : Option Nat := none
  /-- domain named by the last accepted message, 0 A, 1 B (R98); reset 0 -/
  lastDomain : Nat := 0
  /-- sequence of the next speed-ceiling message, 16 bits (R99); reset 0 -/
  ceilSeq : Nat := 0
deriving DecidableEq, Repr

/-- A head line bound to a head (R113): times fixed at the first binding. -/
structure Bound where
  k : Nat
  /-- T(k), TB3 stamp in 2^-16 ns -/
  t : Nat
  /-- P(k), unsigned 24.8 ns -/
  period : Nat
deriving DecidableEq, Repr

/-- An assembled head line the head link holds (R169, R181): codes by head column, flags SUBST, POISON, CUT, LATE in bits 0 to
3. -/
structure HeadLine where
  k : Nat
  codes : List Nat
  flags : Nat
deriving DecidableEq, Repr

/-- What the scheduler, the Seam and the link keep per head (R113, R119, R169). -/
structure HeadSched where
  /-- highest head line bound, its high-water line (R113); reset none -/
  high : Option Nat := none
  /-- first head line that may still be bound: above the high-water line and every line skipped (R113, R116); reset 0 -/
  next : Nat := 0
  /-- lines bound whose T(k) has not passed (R112); reset none -/
  bound : List Bound := []
  /-- losses of pos_valid that its bindings have taken account of (R116 reason 4); reset 0 -/
  lostSeen : Nat := 0
  /-- next head line the Seam assembles (R169); reset 0 -/
  asm : Nat := 0
  /-- assembled lines that wait to leave, in line order (R119); reset none -/
  ready : List HeadLine := []
  /-- highest line sent (R119); reset none -/
  sent : Option Nat := none
  /-- lines sent and not yet passed: line, its drop energy in 10^-11 J, columns that fire (R273); reset none -/
  loads : List (Nat × Nat × Nat) := []
  /-- run of lines discarded as late: first line, count, and whether FIRE_MAP_LATE was posted for it (R120, R175);
  reset none -/
  lateRun : Option (Nat × Nat × Bool) := none
deriving DecidableEq, Repr

/-- One bank of a table: first line it is in force for, its bytes (bytes past the end read 0), and the byte offsets of its 32-byte
words that read as poisoned (R156, R157, R187). -/
structure Bank where
  start : Nat
  data : List (BitVec 8)
  bad : List Nat
deriving DecidableEq, Repr

/-- A bank staged and not yet in force (R125, R126). -/
structure Staged where
  /-- table kind, index and sub (Table 15-3) -/
  kind : Nat
  index : Nat
  sub : Nat
  data : List (BitVec 8)
  /-- effective LI as given; all ones for the next parting (R125) -/
  eff : Nat
  /-- first line its consumer had not processed when it was staged (R125) -/
  seen : Nat
  /-- the effective line once it is fixed (R125, R126, R174); none while it waits for a parting -/
  line : Option Nat
  /-- the operation that completes when it takes effect: issue ring and entry; none for a load of the Foreman -/
  op : Option (Nat × Nat)
  /-- for a load of the Foreman: its sequence in the Foreman log (R341) -/
  fm : Option Nat
  /-- its words that read as poisoned -/
  bad : List Nat := []
deriving DecidableEq, Repr

/-- The line scheduler, the jobs and the tables (chapters 05, 15). -/
structure Sched where
  /-- COUNTS_PER_LINE of the stream, unsigned 32.32 (R104); reset 0 -/
  cpl : Nat := 0
  /-- LS_STREAM_CFG as sampled at the origin (R104); reset 0 -/
  streamCfg : Nat := 0
  /-- RS_PLANEq_CFG as sampled at the origin, plane 0 first (Table 06-10); reset none -/
  planeCfg : List Nat := []
  /-- jobs queued or running, at most 64 (R398); reset none -/
  jobs : List Job := []
  /-- panels placed in the stream, oldest first; reset none -/
  spans : List Span := []
  /-- the stream's last line once it is fixed, −1 for a stream without a line (R124, R401); reset none -/
  last : Option Int := none
  /-- a stop has been requested (R124); reset no -/
  stopping : Bool := false
  /-- X0 by the sheet edge that a start at a sheet edge took, while the origin is to be set (R105); reset none -/
  edge : Option Int := none
  /-- earliest line of the next job's first panel, after a job was queued in DRAINING (R124); reset 0 -/
  minStart : Nat := 0
  /-- SHEET_MISSING posted for the present gap (R123); reset no -/
  missingPosted : Bool := false
  /-- lines have been begun in this stream, so LS_COMMIT_LINE holds the committed line (R122); reset no -/
  anyBegun : Bool := false
  /-- per head address 0 to 255, unlisted as at reset -/
  heads : List (Nat × HeadSched) := []
  /-- runs of skipped reference lines not yet posted: reason, first, count (R116); reset none -/
  skipRuns : List (Nat × Int × Nat) := []
  /-- reference lines of the stream that were skipped, with the reason (R116); reset none -/
  skipSeen : List (Nat × Int) := []
  /-- TB3 stamp at which the running FIRE INHIBIT of R21 or R67 began, in 2^-16 ns, and its reason (R116); reset none -/
  inhibitFrom : Option (Nat × Nat) := none
  /-- how often pos_valid has been lost in this stream (R116 reason 4); reset 0 -/
  losses : Nat := 0
  /-- banks in force and retired banks still kept, newest first, by kind * 65536 + index * 256 + sub; reset none -/
  banks : List (Nat × List Bank) := []
  /-- staged banks in submission order (R126); reset none -/
  staged : List Staged := []
  /-- consecutive recomputations with the line rate above the ceiling by 1 % (R130), 0 to 3; reset 0 -/
  overRun : Nat := 0
  /-- beat of the last OVER_CEILING (R130); reset none -/
  overAt : Option Nat := none
  /-- the limit the Canary gives for heads: lines/s and head address (R278); reset 125,000, 0 -/
  headLimit : Nat × Nat := (125000, 0)
  /-- the limit the Canary gives for the chip, lines/s (R278); reset 125,000 -/
  chipLimit : Nat := 125000
  /-- SPEED_CEIL_PWM: high beats and period of the present setting (R129); reset held low -/
  pwm : Nat × Nat := (0, 0)
deriving DecidableEq, Repr

/-- A block in a slice's hands (R138, R140). -/
structure BlockBuf where
  /-- first line of the panel it belongs to -/
  span : Nat
  /-- position in the chain -/
  pos : Nat
  handle : Nat
  /-- first print line it covers, in the panel -/
  line0 : Nat
  /-- print lines it covers -/
  lines : Nat
  /-- fetched, not yet verified, when false (R140) -/
  verified : Bool
  /-- 0 good, else the reason of Table 06-2 (R141) -/
  reason : Nat
  /-- the block header and payload as fetched, decrypted (R138) -/
  bytes : List (BitVec 8)
  /-- the raw data once verified (R140) -/
  raw : List (BitVec 8)
  /-- lines of it substituted so far (R141) -/
  substituted : Nat
deriving DecidableEq, Repr

/-- The slice's work on one plane (chapter 06). -/
structure PlaneRaster where
  /-- next image line to begin; reset 0 -/
  next : Nat := 0
  /-- line begun and not completed, with the beat it began (R159 reason 2); reset none -/
  busy : Option (Nat × Nat) := none
  /-- RS_REDIST_CFG as sampled when the last line was begun (R166); reset 0 -/
  redist : Nat := 0
  /-- image lines delivered to the Seam: all below this (R169); reset 0 -/
  delivered : Nat := 0
  /-- blocks fetched, oldest first (R138); reset none -/
  blocks : List BlockBuf := []
  /-- print lines repeated in a row under R142; reset 0 -/
  repeated : Nat := 0
  /-- the last line released without substitution: panel, and its contone bytes or drop codes (R142); reset none -/
  good : Option (Nat × List Nat) := none
  /-- checkpoint: chain position, handle, line within the panel, repeat state (R159); reset none -/
  checkpoint : Option (Nat × Nat × Nat × Nat) := none
  /-- open run of lines sent as LATE: first, count (R156); reset none -/
  lateRun : Option (Nat × Nat) := none
  /-- the unusable set of the last line begun (R154, R155); reset none -/
  unusable : List Nat := []
  /-- the head columns of stitches that were unusable, by the first image line begun with that set, newest first (R154, R180);
  reset none -/
  lost : List (Nat × List (Nat × Nat)) := []
  /-- the uncovered columns of the last line begun (R145); reset none -/
  uncovered : List Nat := []
  /-- classes for which SLOT_EMPTY was posted in this stream (R146); reset none -/
  slotEmpty : List Nat := []
  /-- CRC-32C and flags of the newest lines, newest first, for the audit (R158): line, CRC, flags; reset none -/
  crcs : List (Nat × Nat × Nat) := []
deriving DecidableEq, Repr

/-- A re-cut request (R162, R163). -/
structure Recut where
  plane : Nat
  first : Nat
  last : Nat
  lm : Nat
  le : Nat
  /-- the slice that performs it once started -/
  slice : Option Nat
deriving DecidableEq, Repr

/-- The raster slices (chapter 06). -/
structure Raster where
  /-- per plane 0 to 9, unlisted as at reset -/
  planes : List (Nat × PlaneRaster) := []
  /-- slices that have failed and are out of service (R159, R161); reset none -/
  failed : List Nat := []
  /-- the slice that is the spare when several could be (R161); reset none -/
  spare : Option Nat := none
  /-- planes unserved (R159); reset none -/
  unserved : List Nat := []
  /-- a takeover under way: plane, failed slice, L_f (R160); reset none -/
  takeover : Option (Nat × Nat × Nat) := none
  /-- slice under self-test, with the beat it began (R161); reset none -/
  bist : Option (Nat × Nat) := none
  /-- plane under audit and lines left of its dwell (R158); reset 0, 0 -/
  auditPlane : Nat := 0
  auditLeft : Nat := 0
  /-- due lines still to audit after a mismatch, 0 to 4 (R158); reset 0 -/
  auditRecheck : Nat := 0
  /-- re-cut requests in the order received (R163); reset none -/
  recuts : List Recut := []
  /-- key slots for which KEY_UNAVAILABLE was posted in this stream (R139); reset none -/
  keyPosted : List Nat := []
  /-- beat of the last TABLE_POISON by bank key (R157); reset none -/
  poisonPosted : List (Nat × Nat) := []
deriving DecidableEq, Repr

/-- The fire-map state of a node (R174, R175). -/
structure FireMap where
  /-- the map sent by MAP_DATA into a node bank and not yet committed; reset none -/
  pending : Option (List (BitVec 8)) := none
  /-- effective head line of the committed map that waits for its acknowledgement, and the tag of its MAP_COMMIT; reset none -/
  committed : Option (Nat × Nat) := none
  /-- effective head lines of the maps acknowledged, newest first; reset none -/
  acked : List Nat := []
  /-- no STATUS has come since the last MAP_COMMIT was acknowledged, so the node's banks are not known (R174); reset no -/
  unseen : Bool := false
  /-- the node bank of the last MAP_COMMIT (Table 09-8); reset 0 -/
  bank : Nat := 0
deriving DecidableEq, Repr

/-- The Seam (chapter 07). -/
structure Seam where
  /-- ring memory: byte b of bank k (16 the spare) of plane q at (17 q + k) * 131072 + b (R167); unlisted 0; reset 0 -/
  ring : List (Nat × BitVec 8) := []
  /-- poisoned ring words: address of the 32-byte word (R186); reset none -/
  poison : List Nat := []
  /-- bank replacement under way per plane: bank, L_s once begun, operation ring and entry (R188); reset none -/
  copying : List (Nat × Nat × Option Nat × Nat × Nat) := []
  /-- fire maps by head address; unlisted as at reset -/
  maps : List (Nat × FireMap) := []
  /-- beat of the last SEAM_POISON by plane * 16 + bank (R186); reset none -/
  poisonPosted : List (Nat × Nat) := []
  /-- beat of the last SKEW_POISON by table (R187); reset none -/
  skewPosted : List (Nat × Nat) := []
deriving DecidableEq, Repr

/-- One lane beside its registers (chapter 08). -/
structure Lane where
  /-- beat at which the present training started (R199); reset 0 -/
  trainFrom : Nat := 0
  /-- beat at which its present attempt started (R200); reset 0 -/
  trainAt : Nat := 0
  /-- last step of Table 08-4 reached in the attempt, 0 to 4 (R200, R210); reset 0 -/
  step : Nat := 0
  /-- sequence number of the next training block or sleep notice sent, 4 bits (R197); reset 0 -/
  seq : Nat := 0
  /-- the local receiver's requests sent: pre, main, post, command (R198); reset hold, hold, hold, none -/
  req : Nat × Nat × Nat × Nat := (0, 0, 0, 0)
  /-- the local transmitter's status sent: pre, main, post (R198); reset 0, 0, 0 -/
  status : Nat × Nat × Nat := (0, 0, 0)
  /-- the initialise command has been answered (R199); reset no -/
  initAnswered : Bool := false
  /-- consecutive training blocks sent with rx_ready 1, 0 to 8 (R199); reset 0 -/
  sentReady : Nat := 0
  /-- consecutive training blocks received with rx_ready 1, 0 to 8 (R199); reset 0 -/
  gotReady : Nat := 0
  /-- a sleep of the transmitter held until UP (R204); reset no -/
  heldTx : Bool := false
  /-- a sleep of the receiver held until UP (R204); reset no -/
  heldRx : Bool := false
  /-- consecutive correct sleep notices received, 0 to 2 (R205); reset 0 -/
  notices : Nat := 0
  /-- beat at which a waking receiver began to relock (R205); reset none -/
  relockFrom : Option Nat := none
  /-- beat of the last LANE_BER_WARN (R202); reset none -/
  berAt : Option Nat := none
  /-- scan point of the eye scan running: phase, voffset, prescale (R207); reset 0, 0, 0 -/
  eye : Nat × Nat × Nat := (0, 0, 0)
  /-- sync headers counted by the block-lock process of Clause 49, 0 to 63 (R194); reset 0 -/
  headers : Nat := 0
  /-- invalid ones among them, 0 to 15 (R194); reset 0 -/
  invalid : Nat := 0
  /-- bytes of the packet in progress (R215); reset none -/
  packet : Option (List (BitVec 8)) := none
  /-- beat at which the present 125 µs window of the bit-error monitor began (R194); reset 0 -/
  berFrom : Nat := 0
  /-- invalid sync headers in that window (R194); reset 0 -/
  berCount : Nat := 0
deriving DecidableEq, Repr

/-- A NODE_CMD sent and not yet acknowledged (R224): tag and opcode. -/
structure NodeCmd where
  tag : Nat
  opcode : Nat
deriving DecidableEq, Repr

/-- One head node beside its registers (chapter 09). -/
structure Node where
  /-- identification step under way: 1 IDENTIFY, 2 READ_MEM, 3 SYNC, 4 STREAM_RESET, 5 care parameters, 6 fire map (Table 09-17);
  reset 0 none -/
  step : Nat := 0
  /-- times the present step has been sent, 0 to 3 (R243); reset 0 -/
  tries : Nat := 0
  /-- beat at which it was last sent (R243); reset 0 -/
  stepAt : Nat := 0
  /-- beat at which the SYNC step began (Table 09-17); reset 0 -/
  syncFrom : Nat := 0
  /-- head memory read so far (R241), up to 256 bytes; reset none -/
  memory : List (BitVec 8) := []
  /-- the address has been identified once, so its serial is recorded (R258); reset no -/
  known : Bool := false
  /-- drop_rank and energy_rank bytes of head memory (R251); reset 0, 0 -/
  ranks : Nat × Nat := (0, 0)
  /-- tag of the next NODE_CMD, 16 bits (R224); reset 0 -/
  tag : Nat := 0
  /-- commands not yet acknowledged, oldest first (R224); reset none -/
  cmds : List NodeCmd := []
  /-- beats at which STATUS was last heard at end A and end B (R245); reset none -/
  heardA : Option Nat := none
  heardB : Option Nat := none
  /-- beat at which it last became reachable (R245); reset 0 -/
  reachAt : Nat := 0
  /-- the last STATUS's payload, 40 bytes (Table 09-10); reset none -/
  status : List (BitVec 8) := []
  /-- seq of the next SYNC REQUEST, 16 bits (R229); reset 0 -/
  syncSeq : Nat := 0
  /-- REQUEST waiting for its RESPONSE: seq and t1, link time in 2^-16 ns (R230); reset none -/
  syncReq : Option (Nat × Nat) := none
  /-- its STATUS was heard again after 300 µs of silence, or a lane of its string trained, since it was not served or lost (R243); reset no -/
  retry : Bool := false
  /-- consecutive offsets within limit_ns, 0 to 3 (Table 09-17); reset 0 -/
  syncRun : Nat := 0
  /-- rerouted and its first STATUS through the new end still to come (R246); reset no -/
  rerouting : Bool := false
  /-- first head line of STREAM_RESET or of release from which its lines are sent (R281, R545); reset 0 -/
  fromLine : Nat := 0
  /-- s, service lines executed, modulo 16 (R185, R261); reset 0 -/
  service : Nat := 0
  /-- a HOLD of the device is in force (R279, R280); reset no -/
  held : Bool := false
  /-- the head is held for a recovery that waits, on this resource (R453); reset none -/
  recoveryHold : Option Nat := none
  /-- a release waits for the next parting to be known (R281); reset no -/
  releaseDue : Bool := false
  /-- the line the release takes effect at, while it is to come (R281); reset none -/
  releaseAt : Option Nat := none
deriving DecidableEq, Repr

/-- One string beside its registers (chapter 09). -/
structure LinkString where
  /-- LINKs_OFFSET has been set since reset (R229); reset no -/
  offsetSet : Bool := false
  /-- the string's offset, TB3 less link time, in 2^-16 ns, 64.16 bits signed (R229; LINKs_OFFSET shows its ns); reset 0 -/
  offset : Int := 0
  /-- nodes moved by the last break whose reroute is not yet posted (R246), bitmap; reset 0 -/
  moved : Nat := 0
  /-- end the moved nodes went to, 0 A, 1 B; reset 0 -/
  movedTo : Nat := 0
  /-- nodes kept on their other end until the next parting though the hop is back (R247), bitmap; reset 0 -/
  returning : Nat := 0
  /-- the parting from which they are sent from their original end again, once it is known (R247); reset none -/
  returnAt : Option Nat := none
  /-- hops that have gone DOWN and not come back (R247), bitmap; reset 0 -/
  broken : Nat := 0
  /-- a break or a return waits for the string's running recovery (R453); reset no -/
  stale : Bool := false
deriving DecidableEq, Repr

/-- The Phied link (chapter 09). -/
structure Link where
  /-- nodes by head address; unlisted as at reset -/
  nodes : List (Nat × Node) := []
  /-- strings 0 to 31; unlisted as at reset -/
  strings : List (Nat × LinkString) := []
  /-- lanes 0 to 67 beside their registers (chapter 08); unlisted as at reset -/
  lanes : List (Nat × Lane) := []
  /-- seq of the next FIRE INHIBIT block per lane, 4 bits (R226); unlisted 0 -/
  inhibitSeq : List (Nat × Nat) := []
  /-- the 58 bits last sent on a lane, before any inversion, the oldest in bit 0: its scrambler (R194); unlisted 0 -/
  scrambler : List (Nat × Nat) := []
  /-- the inhibit is sent for a web reversal (R67); reset no -/
  inhibitReversal : Bool := false
  /-- the inhibit is sent for FIRE_INHIBIT_N (R21); reset no -/
  inhibitPin : Bool := false
deriving DecidableEq, Repr

/-- What head care knows of one nozzle (R257, R259, R265). -/
structure Nozzle where
  /-- resistance finding: 0 none, 1 open, 2 short, 3 drift; reset 0 -/
  res : Nat := 0
  /-- gate finding: 0 none, 1 missing, 2 weak; reset 0 -/
  gate : Nat := 0
  /-- print finding: 0 none, 1 missing, 2 deviated, 3 weak; reset 0 -/
  print : Nat := 0
  /-- baseline in 1/64 Ω, 0 for none; reset 0 -/
  base : Nat := 0
  /-- class of the last reading and how many consecutive scans gave it (R259); reset 0, 0 -/
  reading : Nat := 0
  run : Nat := 0
  /-- class of the last print reading of the Foreman and its run (R330); reset 0, 0 -/
  printReading : Nat := 0
  printRun : Nat := 0
deriving DecidableEq, Repr

/-- The Canary's model of one head (R272 to R281). Temperatures in 2^-32 °C. -/
structure HeadModel where
  /-- die node t_d; reset 0 -/
  td : Int := 0
  /-- body node t_b; reset 0 -/
  tb : Int := 0
  /-- both nodes start at the first STATUS to come, at identification (R275); reset no -/
  starts : Bool := false
  /-- energy since the last update, in 10^-11 J, the energy rank included (R273); reset 0 -/
  energy : Nat := 0
  /-- service lines sent and still to fire: TB3 stamp in 2^-16 ns, energy in 10^-11 J (R273); reset none -/
  pulses : List (Nat × Nat) := []
  /-- idle warming counted up to this count of 8 µs of link time (R271, R273); reset 0 -/
  idleCount : Nat := 0
  /-- head lines reported CUT by a hold, newest first (R279); reset none -/
  cuts : List Nat := []
  /-- sense temperature of the newest STATUS, 1/64 °C, and its beat (R274); reset none -/
  sense : Option (Int × Nat) := none
  /-- corrections in a row without a fresh STATUS, 0 to 10 (R274); reset 0 -/
  staleRun : Nat := 0
  /-- corrections in a row with |e| above 10 °C, 0 to 10 (R274); reset 0 -/
  divergeRun : Nat := 0
  /-- beat of the last HEAD_THROTTLE (R278); reset none -/
  throttleAt : Option Nat := none
  /-- beat of the last line or service line fired (R268); reset 0 -/
  fired : Nat := 0
  /-- beat of the last keep-wet SPIT, while idle (R268); reset none -/
  spat : Option Nat := none
  /-- beat of the last SPIT_SKIPPED (R269); reset none -/
  skippedAt : Option Nat := none
deriving DecidableEq, Repr

/-- The keep-wet plan of a plane (R268). -/
structure WetPlan where
  enable : Bool := false
  idleMs : Nat := 0
  intervalMs : Nat := 0
  drops : Nat := 0
  level : Nat := 0
  rows : Nat := 0
  period : Nat := 0
deriving DecidableEq, Repr

/-- A RESIST_SCAN under way (R256). -/
structure ScanOp where
  /-- issue ring and entry of the operation -/
  ring : Nat
  n : Nat
  /-- scans still to be sent: head address and row -/
  todo : List (Nat × Nat)
  /-- scan sent: head address, row, tag; columns reported so far -/
  now : Option (Nat × Nat × Nat × Nat)
  rebaseline : Bool
  deadline : Nat
  /-- heads scanned, heaters measured, not measured, codes changed (Table 15-6) -/
  scanned : Nat
  measured : Nat
  missed : Nat
  changed : Nat
  /-- of the scan sent: measured, not measured, changed, first changed column, baselines set -/
  curMeasured : Nat
  curMissed : Nat
  curChanged : Nat
  curFirst : Nat
  curBased : Nat
  /-- its place among the care operations (R283) -/
  order : Nat
  /-- a named head was not served, so its heaters were not measured (R256) -/
  part : Bool
deriving DecidableEq, Repr

/-- One fired drop's window in a drop check (R262): head column, window start in TB3 2^-16 ns, edges seen, time of flight of the
first in 2^-16 ns. -/
structure DropWindow where
  col : Nat
  start : Int
  edges : Nat
  flight : Int
deriving DecidableEq, Repr

/-- A DROP_CHECK under way on a plane (R261 to R264). -/
structure GateOp where
  ring : Nat
  n : Nat
  plane : Nat
  drops : Nat
  /-- heads and rows still to check, the first the one under check -/
  todo : List (Nat × Nat)
  /-- first column of the group under check -/
  group : Nat
  /-- retry passes done over the row (R263) -/
  pass : Nat
  /-- columns to check again in this pass -/
  retry : List Nat
  /-- columns of the row found MISSING in every attempt so far, and those last DOUBLE -/
  missing : List Nat
  double : List Nat
  /-- windows of the SPIT sent, in time order -/
  windows : List DropWindow
  /-- beat at which the wait for a clear beam began (R264); none once the head is being fired -/
  waitFrom : Option Nat
  /-- per head: OK, slow, missing, unresolved; and in all; heads checked (Table 15-6) -/
  counts : Nat × Nat × Nat × Nat
  total : Nat × Nat × Nat × Nat
  checked : Nat
  /-- codes changed on the head and row: count, first column (R266) -/
  changed : Nat
  first : Nat
  /-- its place among the care operations (R283) -/
  order : Nat
  /-- a named head was not served, or not to the end (R256, R264) -/
  part : Bool
deriving DecidableEq, Repr

/-- Head care and the Canary (chapter 10). -/
structure Care where
  /-- nozzles by head address * 16384 + row * 8192 + column; unlisted as at reset -/
  nozzles : List (Nat × Nozzle) := []
  /-- head models by head address; unlisted as at reset -/
  heads : List (Nat × HeadModel) := []
  /-- keep-wet plans of planes 0 to 9; unlisted none -/
  plans : List (Nat × WetPlan) := []
  /-- RESIST_SCANs, in submission order (R283); reset none -/
  scans : List ScanOp := []
  /-- DROP_CHECKs, in submission order (R283); reset none -/
  gates : List GateOp := []
  /-- care operations begun, which number them in submission order (R283); reset 0 -/
  count : Nat := 0
  /-- what the gate ball of a plane shows (R260); unlisted as at reset -/
  gateBalls : List (Nat × Ball) := []
  /-- beat since which the beam of a plane has been clear, by plane (R264); unlisted 0 -/
  beamClear : List (Nat × Nat) := []
  /-- chip nodes 1 to 6, in 2^-32 °C (R276); reset 0 until BOOT ends -/
  chip : List Int := [0, 0, 0, 0, 0, 0]
  /-- the six on-die sensors as last read, 1/64 °C (R277); reset 0 until they are read -/
  sensors : List Int := [0, 0, 0, 0, 0, 0]
  /-- beat of the last CHIP_THROTTLE (R278); reset none -/
  chipAt : Option Nat := none
deriving DecidableEq, Repr

/-- A camera line stamp (R290): position signed 48.16, TB3 time in ns, the compare unit. -/
structure CamStamp where
  x : Int
  t : Nat
  unit : Nat
  /-- beat in which it was added -/
  beat : Nat
deriving DecidableEq, Repr

/-- Where a camera line lies on the print (R292, R299): λ in 1/64 line, and the panel that holds it, as its first line, its job
number, panel number and index. -/
structure CamPlace where
  lam : Int
  panel : Option (Nat × Nat × Nat × Nat)
deriving DecidableEq, Repr

/-- One line of samples: as accepted (R289), in the elastic buffer, or after stage 2. -/
structure CamLine where
  chan : Nat
  /-- frame number, and line of the frame -/
  frame : Nat
  n : Nat
  /-- reference lines of the port counted before it, which numbers the lines for stage 3 -/
  seq : Nat
  x : Int
  t : Nat
  place : Option CamPlace
  data : List Nat
  /-- its codes after unpacking (R405) -/
  raw : List Nat
  /-- samples served in tiles so far (R296) -/
  served : Nat
deriving DecidableEq, Repr

/-- A frame of a port, from its Frame Start until its record is issued (R293, R294). -/
structure CamFrame where
  no : Nat
  /-- shadowed parameters in force in it: FRAME, LINE, NR, DATUM_LO, DATUM_HI, DELTA1, DELTA2 (R307) -/
  params : List Nat
  /-- calibration, column map and plan fixed at its first reference line (R308); none before it, or where none is loaded -/
  fixed : Bool
  cal : Option (List (BitVec 8))
  map : Option (List (BitVec 8))
  plan : Option (List (BitVec 8))
  /-- per channel: long packets counted, Frame Start received, and Frame End received -/
  counts : List Nat
  started : List Bool
  ended : List Bool
  /-- accepted reference lines: line of the frame, sequence, stamp, place; newest first -/
  refs : List (Nat × Nat × CamStamp × Option CamPlace)
  /-- flags of Table 11-6 -/
  flags : Nat
  /-- the rest of the frame is discarded (R297) -/
  cut : Bool
  closed : Bool
  /-- stamps lost, untriggered lines, packets discarded in the frame -/
  lost : Nat
  untriggered : Nat
  discarded : Nat
  /-- sums of the density of channels 0 to 2 and triples of pixels summed -/
  sums : Nat × Nat × Nat
  pixels : Nat
  /-- lines of channels 1 and 2 that came before channel 0's line of their number (R291): channel, line, samples -/
  early : List (Nat × Nat × List Nat)
deriving DecidableEq, Repr

/-- One density line of an occurrence: λ in 1/64 line, the first pixel kept, and per pixel its column (17.15) and the density of the
three channels. -/
structure DenLine where
  lam : Int
  base : Nat
  cols : List Nat
  dens : List (Nat × Nat × Nat)
deriving DecidableEq, Repr

/-- An occurrence of an inspection region (R311, R312). -/
structure Occurrence where
  region : Nat
  /-- the region record as the plan gave it -/
  record : List (BitVec 8)
  /-- its first datum line -/
  start : Int
  /-- trigger pitch, unsigned 8.8 datum lines -/
  pitch : Nat
  /-- pixels of a line and the columns they span (17.15), for the resolution rule of R313 -/
  pixels : Nat
  span : Nat
  frame : Nat
  firstLi : Nat
  job : Nat
  panelNo : Nat
  stamp : Nat
  flags : Nat
  /-- frames it has lines of that still run -/
  frames : List Nat
  lines : List DenLine
  closed : Bool
deriving DecidableEq, Repr

/-- A CAPTURE under way (R405). -/
structure CaptureOp where
  ring : Nat
  n : Nat
  point : Nat
  lines : Nat
  addr : Nat
  length : Nat
  eff : Nat
  /-- its first frame, once it has begun -/
  first : Option Nat
  done : Nat
  /-- frames it has lines of, and the union of their flags -/
  frames : List Nat
  flags : Nat
  /-- beat at which it was accepted -/
  lastAt : Nat
deriving DecidableEq, Repr

/-- One camera port beside its registers (chapter 11). -/
structure CamPort where
  /-- stamp FIFO, oldest first, at most 64 (R290); reset empty -/
  fifo : List CamStamp := []
  /-- shadowed parameters in force, as CamFrame.params (R307); reset the registers' reset values -/
  live : List Nat := [0x320A0400, 0x040000C8, 0x00008080, 0, 0, 0, 0]
  /-- staged copies committed for the next frame (R307); reset none -/
  commit : Option (List Nat) := none
  /-- beat of that commit (R307); reset 0 -/
  commitAt : Nat := 0
  /-- frames whose record is not yet issued, oldest first; reset none -/
  frames : List CamFrame := []
  /-- lines in the elastic buffer, in arrival order (R296); reset none -/
  buffer : List CamLine := []
  /-- reference lines accepted since the port was enabled; reset 0 -/
  seq : Nat := 0
  /-- reference lines after stage 2 that wait for their triple (R302); reset none -/
  waiting : List CamLine := []
  /-- lines of channels 1 and 2 after stage 2 kept for stage 3, newest first (R302); reset none -/
  others : List CamLine := []
  /-- occurrences open or closed and not yet issued (R311, R312); reset none -/
  occ : List Occurrence := []
  /-- occurrences skipped (R311): region and first line; reset none -/
  skipped : List (Nat × Int) := []
  /-- repeat buffer (R299): 4 j + channel, job, panel index, samples; reset none -/
  repeats : List (Nat × Nat × Nat × List Nat) := []
  /-- beats of the last reference line accepted, the last packet, the last stamp added (R294, R295); reset 0 -/
  lastRef : Nat := 0
  lastPacket : Nat := 0
  lastStamp : Nat := 0
  /-- beat from which stamps have come without a pause of silent_ms (R295); reset 0 -/
  stampsFrom : Nat := 0
  /-- beat of the last event posted, by code (R319); reset none -/
  posted : List (Nat × Nat) := []
  /-- CAPTUREs, in submission order (R405); reset none -/
  captures : List CaptureOp := []
deriving DecidableEq, Repr

/-- The inspection pipeline (chapter 11). -/
structure Assay where
  /-- ports 0 to 3, unlisted as at reset -/
  ports : List (Nat × CamPort) := []
  /-- port served after the last one (R296), 0 to 3; reset 0 -/
  next : Nat := 0
deriving DecidableEq, Repr

/-- One change of a term (Table 12-4): index, what, old value, new value. -/
structure FmItem where
  index : Nat
  what : Nat
  old : Int
  new : Int
deriving DecidableEq, Repr

/-- A change the Foreman has submitted and that is not yet in effect (R325, R341). -/
structure FmChange where
  /-- the load that carries it -/
  load : Nat
  seq : Nat
  loop : Nat
  flags : Nat
  plane : Nat
  /-- head address, 255 when not for one head -/
  head : Nat
  causeFrame : Nat
  causeLi : Nat
  items : List FmItem
  /-- the table: kind, index, sub -/
  table : Nat × Nat × Nat
deriving DecidableEq, Repr

/-- The Foreman (chapter 12). Terms in force of planes stand in FM_PDq and FM_REGq. -/
structure Foreman where
  /-- statistics records issued and not yet taken, oldest first (R318, R326); reset none -/
  queue : List (List (BitVec 8)) := []
  /-- bases: table key and bytes, the last version loaded by the host (R321); reset none -/
  bases : List (Nat × List (BitVec 8)) := []
  /-- bd_q(b) by q * 512 + b (R336); reset 0 -/
  bd : List (Nat × Int) := []
  /-- nz(c, ρ) by (q * 2 + ρ) * 131072 + c (R333); reset 0 -/
  nz : List (Nat × Int) := []
  /-- ff(h, ρ) by 2 h + ρ (R339); reset 0 -/
  ff : List (Nat × Int) := []
  /-- heads whose first feed-forward update of the stream is done (R339); reset none -/
  ffDone : List Nat := []
  /-- per head, sum of t_d in 2^-32 °C over the update interval and how many samples (R339); reset none -/
  ffSum : List (Nat × (Int × Nat)) := []
  /-- reference line of the last feed-forward update (R342); reset none -/
  ffAt : Option Nat := none
  /-- one above the highest first_li of a record taken, which is what the target table has served (R334); reset 0 -/
  targetSeen : Nat := 0
  /-- the bands of a plane's offsets (R322, R336): plane, then first column, last column and band width; reset none -/
  bands : List (Nat × (Nat × Nat × Nat)) := []
  /-- columns moved to their other row against the base: head address, head column (R332); reset none -/
  moves : List (Nat × Nat) := []
  /-- head columns whose move was refused, until the next skew load takes effect (R332): head, column; reset none -/
  refused : List (Nat × Nat) := []
  /-- E by loop * 256 + plane or head (R327); reset none -/
  since : List (Nat × Nat) := []
  /-- changes submitted and not in effect, oldest first; reset none -/
  changes : List FmChange := []
  /-- number of the next load; reset 0 -/
  nextLoad : Nat := 0
  /-- most recent usable found REGMARK per plane: first_li, e_d, e_x (R337); reset none -/
  regmarks : List (Nat × (Nat × Int × Int)) := []
  /-- planes whose last trim load had a sum clamped (R344); reset none -/
  clamped : List Nat := []
  /-- consecutive density updates of a plane beyond the deadband with pd at its bound (R344), by plane; reset 0 -/
  boundRun : List (Nat × Nat) := []
  /-- consecutive weak records of a nozzle with nz at its bound (R333), by nz key; reset 0 -/
  weakRun : List (Nat × Nat) := []
  /-- per loop * 16 + plane: reference line of the last usable record and the camera port of its region (R328); reset none -/
  usable : List (Nat × (Nat × Nat)) := []
  /-- loops held, loop * 16 + plane (R328); reset none -/
  held : List Nat := []
  /-- the Foreman's own log of records, oldest first (R325, R407), each with its byte offset in the 1 MiB area; reset
  empty -/
  log : List (Nat × List (BitVec 8)) := []
  /-- byte offset in the area at which the next record goes, modulo 2^20; reset 0 -/
  logAt : Nat := 0
  /-- the log has dropped a record (R409); reset no -/
  logOver : Bool := false
deriving DecidableEq, Repr

/-- A block in the image store (R350, R360 to R367). -/
structure StoredBlock where
  handle : Nat
  /-- key slot and the number of the KEY_LOAD that filled it (R361) -/
  slot : Nat
  serial : Nat
  kind : Nat
  height : Nat
  width : Nat
  rawLen : Nat
  payLen : Nat
  /-- pages, in order (R363) -/
  pages : List Nat
  /-- being freed (R367) -/
  freeing : Bool
  /-- planes that printed it, with its highest image line begun (R367) -/
  printed : List (Nat × Nat)
  /-- acknowledged by the standby (R448) -/
  mirrored : Bool
deriving DecidableEq, Repr

/-- The handles and blocks of the image store (chapter 13). -/
structure Store where
  /-- live blocks by handle index; reset none -/
  blocks : List (Nat × StoredBlock) := []
  /-- generation an index was last given out with, by index; an index not listed has never been given out (R360); reset none -/
  gens : List (Nat × Nat) := []
  /-- ingests that wait for the standby's acknowledgement (R448): mirror item, ring, entry, result bytes; reset none -/
  await : List (Nat × Nat × Nat × List (BitVec 8)) := []
  /-- STORE_LOW has been posted and the free pages have not been above twice the level since (R369); reset no -/
  lowPosted : Bool := false
  /-- beat of the last STORE_FULL (R369); reset none -/
  fullAt : Option Nat := none
deriving DecidableEq, Repr

/-- A tailings entry (Table 16-7). -/
structure Tailing where
  type : Nat
  source : Nat
  count : Nat
  position : Nat
  location : Nat
  first : Nat
  last : Nat
deriving DecidableEq, Repr

/-- A page migration under way (R430). -/
structure Migration where
  ring : Nat
  n : Nat
  page : Nat
  new : Nat
  corrected : Nat
  poisoned : Nat
deriving DecidableEq, Repr

/-- The arbiter of the image store (R417): the class whose turn it is, the access units left of its turn, and the access units of other
classes served since a background request has waited. -/
structure StoreArb where
  turn : StoreClass := .raster
  left : Nat := 0
  since : Nat := 0
deriving DecidableEq, Repr

/-- Image store and SRAM (chapter 16). -/
structure Mem where
  /-- the image store's data bytes by store address, canonical; an unlisted byte reads 0, as the fill of R414 leaves it (before the
  fill no reader exists); reset nothing listed -/
  dram : List (Nat × BitVec 8) := []
  /-- codewords (store address / 32) that hold the poison check bits (R422); reset none -/
  poison : List Nat := []
  /-- codewords that read as uncorrectable or with an address error until they are written or read clean again (R421); reset
  none -/
  bad : List Nat := []
  /-- SRAM words (Table 16-10) with the poison check bits, and those that read as uncorrectable or with an address error until they are
  written or read clean again; what a table or the Seam ring holds in one stands marked there too; reset none -/
  sramPoison : List Nat := []
  sramBad : List Nat := []
  /-- tailings of the image store and of SRAM, oldest first, at most 32 (R426); reset none -/
  dtt : List Tailing := []
  stt : List Tailing := []
  /-- retired pages (R429); reset none -/
  retired : List Nat := []
  /-- pages of reserved areas replaced: the page first given to the area and the page that now serves (R415, R430); reset
  none -/
  moved : List (Nat × Nat) := []
  /-- migrations under way; reset none -/
  migrations : List Migration := []
  /-- channels trained since the reset (R414); reset none -/
  trained : List Nat := []
  /-- beats of the last MEM_CORRECTED by channel, of SRAM_CORRECTED by 64 + instance, of TAILINGS_FULL by 128 + table (R427, R431);
  reset none -/
  posted : List (Nat × Nat) := []
  /-- beats of uncorrectable codewords within the last second by channel (Table 17-4); reset none -/
  ueTimes : List (Nat × List Nat) := []
  /-- the arbiter of the requester classes (R417); DESIGN CHOICE (notes/assumptions/81.md): the turn before the raster class's, so that
  raster has the first turn -/
  arb : StoreArb := { turn := .mirror }
deriving DecidableEq, Repr

/-- The newest lease message of a device (Table 17-3), as far as a receiver uses it. -/
structure LeaseInfo where
  /-- beat of its acceptance -/
  at_ : Nat
  flags : Nat
  epoch : Nat
  maxH : Nat
deriving DecidableEq, Repr

/-- A pair that a device in arbiter role serves (R443). -/
structure ArbPair where
  /-- end of the holder, 0 A, 1 B -/
  holder : Nat := 0
  epoch : Nat := 0
  /-- beat of the newest GRANT; none is infinitely old -/
  lastGrant : Option Nat := none
  /-- newest HEALTH of end A and end B -/
  a : Option LeaseInfo := none
  b : Option LeaseInfo := none
  /-- a RELEASE of the holder ends the wait (R443) -/
  released : Bool := false
deriving DecidableEq, Repr

/-- A recovery of the Deputy (R453): the event code of its fault, the resource, and the node or plane it serves. -/
structure Recovery where
  code : Nat
  resource : Nat
  who : Nat
deriving DecidableEq, Repr

/-- Tally, pair and Deputy (chapter 17). -/
structure Tally where
  /-- beat of the last renewal: RENEW sent as holder of a pair, GRANT received, or RENEW seen as standby (R438, R442); reset
  none -/
  renewed : Option Nat := none
  /-- sequence of the next lease message sent, 16 bits (Table 17-3); reset 0 -/
  seq : Nat := 0
  /-- sequence of the last message accepted, by sender_id (R437); reset none -/
  heard : List (Nat × Nat) := []
  /-- newest message of the partner (R439, R440); reset none -/
  peer : Option LeaseInfo := none
  /-- last epoch accepted from the partner (R439); reset 0 -/
  peerEpoch : Nat := 0
  /-- the pair's first tally grant has happened (R442); reset no -/
  started : Bool := false
  /-- beat at which READY was entered, or of the last RENEW or HEALTH accepted since (R442); reset 0 -/
  readyAt : Nat := 0
  /-- TALLY_LOST with cause 7 posted for the present lapse (R442); reset no -/
  unfitPosted : Bool := false
  /-- LEASE_LATE posted for the present silence (R442); reset no -/
  latePosted : Bool := false
  /-- handover asked for: operation ring and entry, beat of the request (R444); reset none -/
  handover : Option (Nat × Nat × Nat) := none
  /-- RELEASE sent for the handover (R444); reset no -/
  handed : Bool := false
  /-- further handovers asked for while one is in progress, oldest first: ring, entry, beat of the request (R408); reset none -/
  more : List (Nat × Nat × Nat) := []
  /-- beat of the last renewal before the tally was taken, while the first LINE is to come (R449); reset none -/
  takenFrom : Option Nat := none
  /-- PAIR_POS_DELTA is set, its value (signed 48.16) and the beat of the last sample (R446); reset none -/
  delta : Option (Int × Nat) := none
  /-- mirror items sent and not acknowledged: number and beat of the change (R447); reset none -/
  unacked : List (Nat × Nat) := []
  /-- the item with which the whole state of Table 17-5 has been sent, while it is not acknowledged (R442); reset none -/
  fullItem : Option Nat := none
  /-- number of the next mirror item; reset 0 -/
  mirrorSeq : Nat := 0
  /-- whether the mirror was lost for a cause, and the blocks copied since (R448); reset none -/
  mirrorLost : Option (Nat × Nat) := none
  /-- as active: the state of Table 17-5 has been sent and acknowledged in full (R442); reset no -/
  mirrored : Bool := false
  /-- pair-link lane of each relayed string (R451); reset none -/
  relays : List (Nat × Nat) := []
  /-- first parting at which the sequencer drops PRINT_OK after a halt in solo (R452); reset none -/
  haltLine : Option Nat := none
  /-- the sequencer sends FIRE INHIBIT until the next warm reset (R452); reset no -/
  haltInhibit : Bool := false
  /-- keys of the tables received from the active device since this one entered COLD (R391, R447); reset none -/
  replaced : List Nat := []
  /-- recoveries running and waiting, in order of detection (R453); reset none -/
  running : List Recovery := []
  waiting : List Recovery := []
  /-- pairs served as arbiter, by k; unlisted as at reset -/
  arb : List (Nat × ArbPair) := []
deriving DecidableEq, Repr

/-- The deceleration towards a target, once it has begun (R465): from speed v0 and acceleration 0 over a distance, by a deceleration and
a jerk. -/
structure WinderBrake where
  /-- 10^-12 full step/s -/
  v0 : Nat
  /-- 0.5 · 10^-18 full step -/
  left : Nat
  /-- 10^-6 full step/s², full step/s³ -/
  decel : Nat
  jerk : Nat
  /-- ticks since it began -/
  ticks : Nat
deriving DecidableEq, Repr

/-- A move of a winder channel (R464 to R467). -/
structure WinderMove where
  ring : Nat
  n : Nat
  kind : Nat
  target : Int
  /-- 1/256 full step per second -/
  speed : Nat
  /-- full steps/s²; 0 takes the register -/
  accel : Nat
  decel : Nat
  jerk : Nat
  /-- deceleration towards the target has begun (R465, R468) -/
  brake : Option WinderBrake
  /-- the channel holds its velocity until the stopping distance equals the distance left (R468) -/
  hold : Bool
  /-- the outcome with which the move ends when the channel is at rest: none while nothing has ended it (R473, R475) -/
  ending : Option Nat
  /-- bits of completion byte 9: [0] ACCEL_DEFERRED, [1] chatter -/
  notes : Nat
  /-- the move has completed and the channel runs on at its speed (R466) -/
  done : Bool
deriving DecidableEq, Repr

/-- The chopper of one phase (R469, R470). -/
structure ChopPhase where
  /-- in the off time, fast and then slow decay -/
  off : Bool := false
  /-- beat at which the on time or the off time began -/
  since : Nat := 0
  /-- the sign driven: negative -/
  neg : Bool := false
  /-- consecutive on times whose trip was active at the end of blanking -/
  ocRun : Nat := 0
deriving DecidableEq, Repr

/-- One winder channel beside its registers (chapter 18). -/
structure Winder where
  /-- the integral of the profile, in 0.5 · 10^-18 full step (R459); reset 0 -/
  pos : Int := 0
  /-- position p in 1/256 full step, which WCn_POS shows (R459); reset 0 -/
  p : Int := 0
  /-- velocity in 10^-12 full step/s; reset 0 -/
  vel : Int := 0
  /-- acceleration in 10^-6 full step/s²; reset 0 -/
  acc : Int := 0
  /-- the move in progress, or the one the motion belongs to (R467); reset none -/
  move : Option WinderMove := none
  /-- a command that takes over in the next tick (R467); reset none -/
  next : Option WinderMove := none
  /-- mode selected and not yet taken (R463), as WCn_STATUS.mode; reset BASE -/
  wanted : Nat := 0
  /-- beat at which the last move ended at rest, while run current is held (R471); reset none -/
  endedAt : Option Nat := none
  /-- hold current and the standstill mode apply (R461, R471); reset yes -/
  settled : Bool := true
  /-- choppers of phase A and phase B -/
  phaseA : ChopPhase := {}
  phaseB : ChopPhase := {}
  /-- latched home position (R474); reset none -/
  latch : Option Int := none
  /-- p at the start of SEEK, and p at which the source was accepted inactive in CLEAR (R474); reset 0 -/
  seekFrom : Int := 0
  clearedAt : Option Int := none
  /-- WINDER_CHATTER posted in the move (R476); reset no -/
  chatterPosted : Bool := false
deriving DecidableEq, Repr

/-- One switch input of a winder channel (R472). -/
structure WindSwitch where
  /-- the level its ball shows; reset low -/
  level : Bool := false
  /-- the accepted level; reset low -/
  acc : Bool := false
  /-- newest samples, 1 µs apart, that differ from the accepted level; reset 0 -/
  run : Nat := 0
  /-- p at the first of them; reset 0 -/
  first : Int := 0
deriving DecidableEq, Repr

/-- One SSI scale beside its registers (R478 to R481). -/
structure Ssi where
  /-- beat at which the last frame began (R478); reset none -/
  readAt : Option Nat := none
  /-- consecutive failed reads; reset 0 -/
  failRun : Nat := 0
  /-- beat of the last SSI_ERROR (R479); reset none -/
  postedAt : Option Nat := none
  /-- WINDER_SLIP posted and no read within SSIk_TOL since (R481); reset no -/
  slipping : Bool := false
deriving DecidableEq, Repr

/-- The winder channels and scales (chapter 18). -/
structure Winders where
  /-- channels 0 to 31, unlisted as at reset -/
  ch : List (Nat × Winder) := []
  /-- scales 0 to 7, unlisted as at reset -/
  ssi : List (Nat × Ssi) := []
  /-- switch inputs, number 3 n + 0 negative, 1 positive, 2 home of channel n, unlisted as at reset -/
  sw : List (Nat × WindSwitch) := []
deriving DecidableEq, Repr

/-- The state of the device. -/
structure State where
  /-- the commands waiting, first in first out (the model's own queue); reset empty -/
  pending : List Instr := []
  /-- core beats since the model's start (the model's clock; a beat is 1 ns); reset 0 -/
  beat : Nat := 0
  /-- the register file of BAR0 (R508 to R522): offset and word, unlisted as reset; reset nothing listed -/
  regs : List (Nat × BitVec 32) := []
  /-- offset and bit of the one-bit fields that the device has set in this beat: a write of 1 in the same beat does not clear them
  (R10); reset none -/
  fresh : List (Nat × Nat) := []
  /-- shadows of the LO and HI pairs, 32 bits each, by the offset of the register that shows it, canonical (R510); unlisted 0; reset 0
  (R510, P or W) -/
  shadow : List (Nat × BitVec 32) := []
  /-- LO words written and held until their HI write, by LO offset (R511); reset none -/
  held : List (Nat × BitVec 32) := []
  /-- what the device has given out, oldest first (the MODEL'S OWN record); reset empty -/
  out : List Output := []
  /-- how many free values have been drawn (the MODEL'S OWN counter); reset 0, DESIGN CHOICE -/
  free : Nat := 0
  /-- host rings and operations in flight (chapters 14, 15) -/
  rings : Rings := {}
  /-- power, reset, security, pins (chapters 01, 19, 21) -/
  power : Power := {}
  /-- time bases, PTP, network time (chapter 04) -/
  time : Time := {}
  /-- encoders and triggers (chapter 02) -/
  inputs : Inputs := {}
  /-- observer and compare units (chapter 03) -/
  obs : Observer := {}
  /-- line scheduler, jobs, tables (chapter 05) -/
  sched : Sched := {}
  /-- raster slices (chapter 06) -/
  raster : Raster := {}
  /-- seam buffer (chapter 07) -/
  seam : Seam := {}
  /-- lanes, strings and nodes (chapters 08, 09) -/
  link : Link := {}
  /-- head care and the Canary (chapter 10) -/
  care : Care := {}
  /-- the inspection pipeline (chapter 11) -/
  assay : Assay := {}
  /-- the Foreman (chapter 12) -/
  fm : Foreman := {}
  /-- blocks and handles (chapter 13) -/
  store : Store := {}
  /-- image store and SRAM (chapter 16) -/
  mem : Mem := {}
  /-- tally, pair, Deputy (chapter 17) -/
  tally : Tally := {}
  /-- winder channels and scales (chapter 18) -/
  wind : Winders := {}
deriving DecidableEq, Repr

/-- The state right after reset: BOOT, RESET_N not yet released (R486), every register field at its reset value. -/
def State.reset : State := {}

/-- What a command answers. -/
abbrev Result := Host.Outcome State Fault Refusal


end Sys2Proof.Machine
end

