-- ==== Sys2Proof/Machine/RegMap.lean ====
section
/-! DEFINITION. The BAR0 register map: every register of Table 20-9 with its fields, each field with its place, its access
code (R9), its reset value and the reset classes that restore it (R12), written from the register tables of the chapters.
Field classes are a mask: 1 for P, 2 for W, 4 for H, 8 for D. -/

namespace Sys2Proof.Machine

/-- Access codes of Table 00-2 (R9). -/
inductive Acc where
  | rw | ro | wo | w1c | w1s | rwl
deriving DecidableEq, Repr

/-- One field of a register: lowest bit, width, access code, reset value, classes that restore it. -/
structure FieldRow where
  lo : Nat
  w : Nat
  acc : Acc
  reset : Nat
  cls : Nat
deriving DecidableEq, Repr

/-- One register kind: its name, offset of the first one, distance between repeats, how many, its fields. -/
structure RegRow where
  name : String
  base : Nat
  stride : Nat
  count : Nat
  fields : List FieldRow
deriving DecidableEq, Repr

/-- Registers of the block "Identity and global" (Table 20-1; 20_register_map.md). -/
def rowsGlobal : List RegRow := [
  ⟨"IDREV", 0x0, 0x4, 1, [⟨0, 32, .ro, 0xd1640a00, 1⟩]⟩,
  ⟨"CAPS", 0x4, 0x4, 1, [⟨0, 32, .ro, 0x1c4120ba, 1⟩]⟩,
  ⟨"SETUP_LOCK", 0x8, 0x4, 1, [⟨0, 1, .w1s, 0x0, 3⟩]⟩,
  ⟨"GLB_STATUS", 0xc, 0x4, 1, [⟨0, 3, .ro, 0x0, 3⟩, ⟨3, 1, .ro, 0x0, 3⟩, ⟨4, 1, .ro, 0x0, 3⟩, ⟨5, 1, .ro, 0x0, 3⟩, ⟨6, 1, .ro, 0x0, 3⟩, ⟨7, 1, .ro, 0x0, 3⟩, ⟨8, 1, .ro, 0x0, 3⟩, ⟨9, 1, .w1c, 0x0, 3⟩, ⟨16, 6, .ro, 0x1, 3⟩]⟩,
  ⟨"GLB_CAUSE", 0x10, 0x4, 1, [⟨0, 13, .w1c, 0x0, 7⟩, ⟨16, 1, .w1c, 0x0, 7⟩, ⟨17, 1, .w1c, 0x0, 7⟩]⟩,
  ⟨"GLB_INT_EN", 0x14, 0x4, 1, [⟨0, 13, .rw, 0x0, 7⟩, ⟨16, 1, .rw, 0x0, 7⟩, ⟨17, 1, .rw, 0x0, 7⟩]⟩,
  ⟨"GLB_INT_CFG", 0x18, 0x4, 1, [⟨0, 6, .rw, 0x0, 7⟩]⟩,
  ⟨"GLB_SCRATCH", 0x1c, 0x4, 1, [⟨0, 32, .rw, 0x0, 3⟩]⟩]

/-- Registers of the block "Power, reset, clocks" (Table 20-1; 19_power_reset_and_security.md). -/
def rowsPower : List RegRow := [
  ⟨"PWR_STATE", 0x10000, 0x4, 1, [⟨0, 3, .ro, 0x0, 3⟩, ⟨3, 1, .ro, 0x0, 1⟩, ⟨4, 4, .ro, 0x0, 3⟩, ⟨8, 8, .ro, 0x0, 3⟩]⟩,
  ⟨"PWR_CTRL", 0x10004, 0x4, 1, [⟨0, 1, .wo, 0x0, 3⟩]⟩,
  ⟨"PWR_DOMAINS", 0x10008, 0x4, 1, [⟨0, 10, .ro, 0x0, 3⟩]⟩,
  ⟨"PWR_FAULT", 0x1000c, 0x4, 1, [⟨0, 10, .w1c, 0x0, 3⟩]⟩,
  ⟨"PWR_FAULT_COUNT", 0x10010, 0x4, 1, [⟨0, 32, .ro, 0x0, 3⟩]⟩,
  ⟨"PWR_DOMi_MW", 0x10040, 0x4, 10, [⟨0, 32, .ro, 0x0, 3⟩]⟩]

/-- Registers of the block "Security" (Table 20-1; 19_power_reset_and_security.md). -/
def rowsSecurity : List RegRow := [
  ⟨"SEC_RESP", 0x20000, 0x4, 1, [⟨0, 28, .rwl, 0x2aaaaaa, 3⟩]⟩,
  ⟨"SEC_ALARM", 0x20004, 0x4, 1, [⟨0, 14, .w1c, 0x0, 1⟩, ⟨14, 1, .w1c, 0x0, 1⟩, ⟨16, 14, .ro, 0x0, 1⟩]⟩,
  ⟨"SEC_KEY_STATE", 0x20008, 0x4, 1, [⟨0, 32, .ro, 0x0, 1⟩]⟩,
  ⟨"SEC_UNLOCK", 0x2000c, 0x4, 1, [⟨0, 1, .wo, 0x0, 3⟩]⟩,
  ⟨"SEC_CHIP_ID_LO", 0x20010, 0x4, 1, [⟨0, 32, .ro, 0x0, 0⟩]⟩,
  ⟨"SEC_CHIP_ID_HI", 0x20014, 0x4, 1, [⟨0, 32, .ro, 0x0, 0⟩]⟩,
  ⟨"SEC_ENCL_CFG", 0x20018, 0x4, 1, [⟨0, 8, .rwl, 0xa, 3⟩]⟩,
  ⟨"SEC_ALARM_COUNT", 0x2001c, 0x4, 1, [⟨0, 32, .ro, 0x0, 1⟩]⟩]

/-- Registers of the block "Headstock position, observer, compare" (Table 20-1; 02_web_position_inputs.md, 03_observer_and_compare.md). -/
def rowsHeadstock1 : List RegRow := [
  ⟨"ENCn_CFG", 0x100000, 0x100, 4, [⟨0, 1, .rwl, 0x0, 3⟩, ⟨1, 1, .rwl, 0x0, 3⟩, ⟨2, 1, .rwl, 0x0, 3⟩, ⟨3, 2, .rwl, 0x0, 3⟩, ⟨8, 8, .rwl, 0x7, 3⟩, ⟨16, 8, .rwl, 0x7, 3⟩]⟩,
  ⟨"ENCn_CPR", 0x100004, 0x100, 4, [⟨0, 32, .rwl, 0x0, 3⟩]⟩,
  ⟨"ENCn_INDEX_TOL", 0x100008, 0x100, 4, [⟨0, 16, .rwl, 0x4, 3⟩, ⟨16, 16, .rwl, 0x0, 3⟩]⟩,
  ⟨"ENCn_STATUS", 0x10000c, 0x100, 4, [⟨0, 1, .w1c, 0x0, 3⟩, ⟨1, 1, .w1c, 0x0, 3⟩, ⟨2, 1, .w1c, 0x0, 3⟩, ⟨3, 1, .w1c, 0x0, 3⟩, ⟨4, 1, .w1c, 0x0, 3⟩, ⟨5, 1, .ro, 0x0, 3⟩, ⟨6, 1, .ro, 0x0, 3⟩, ⟨7, 1, .ro, 0x0, 3⟩, ⟨8, 1, .ro, 0x0, 3⟩, ⟨9, 1, .ro, 0x0, 3⟩, ⟨16, 16, .ro, 0x0, 3⟩]⟩,
  ⟨"ENCn_COUNT_LO", 0x100010, 0x100, 4, [⟨0, 32, .ro, 0x0, 3⟩]⟩,
  ⟨"ENCn_COUNT_HI", 0x100014, 0x100, 4, [⟨0, 32, .ro, 0x0, 3⟩]⟩,
  ⟨"ENCn_EDGE_TIME_LO", 0x100018, 0x100, 4, [⟨0, 32, .ro, 0x0, 3⟩]⟩,
  ⟨"ENCn_EDGE_TIME_HI", 0x10001c, 0x100, 4, [⟨0, 32, .ro, 0x0, 3⟩]⟩,
  ⟨"ENCn_INDEX_COUNT_LO", 0x100020, 0x100, 4, [⟨0, 32, .ro, 0x0, 3⟩]⟩,
  ⟨"ENCn_INDEX_COUNT_HI", 0x100024, 0x100, 4, [⟨0, 32, .ro, 0x0, 3⟩]⟩,
  ⟨"ENCn_INDEX_TIME_LO", 0x100028, 0x100, 4, [⟨0, 32, .ro, 0x0, 3⟩]⟩,
  ⟨"ENCn_INDEX_TIME_HI", 0x10002c, 0x100, 4, [⟨0, 32, .ro, 0x0, 3⟩]⟩,
  ⟨"ENCn_INDEX_DRIFT", 0x100030, 0x100, 4, [⟨0, 32, .rw, 0x0, 3⟩]⟩,
  ⟨"ENCn_ERRCNT", 0x100034, 0x100, 4, [⟨0, 16, .ro, 0x0, 3⟩, ⟨16, 16, .ro, 0x0, 3⟩]⟩,
  ⟨"TRIGn_CFG", 0x101000, 0x40, 8, [⟨0, 1, .rwl, 0x0, 3⟩, ⟨1, 2, .rwl, 0x0, 3⟩, ⟨3, 2, .rwl, 0x0, 3⟩, ⟨5, 1, .rwl, 0x0, 3⟩, ⟨8, 8, .rwl, 0x7, 3⟩, ⟨16, 16, .rwl, 0x0, 3⟩]⟩,
  ⟨"TRIGn_FIFO_STATUS", 0x101004, 0x40, 8, [⟨0, 5, .ro, 0x0, 3⟩, ⟨8, 8, .ro, 0x0, 3⟩, ⟨16, 1, .w1c, 0x0, 3⟩]⟩,
  ⟨"TRIGn_CAP_COUNT_LO", 0x101008, 0x40, 8, [⟨0, 32, .ro, 0x0, 3⟩]⟩,
  ⟨"TRIGn_CAP_COUNT_HI", 0x10100c, 0x40, 8, [⟨0, 32, .ro, 0x0, 3⟩]⟩,
  ⟨"TRIGn_CAP_TIME_LO", 0x101010, 0x40, 8, [⟨0, 32, .ro, 0x0, 3⟩]⟩,
  ⟨"TRIGn_CAP_TIME_HI", 0x101014, 0x40, 8, [⟨0, 32, .ro, 0x0, 3⟩]⟩,
  ⟨"TRIGn_CAP_INFO", 0x101018, 0x40, 8, [⟨0, 1, .ro, 0x0, 3⟩, ⟨1, 1, .ro, 0x0, 3⟩]⟩,
  ⟨"TRIGn_POP", 0x10101c, 0x40, 8, [⟨0, 32, .wo, 0x0, 3⟩]⟩,
  ⟨"OBS_CFG", 0x102000, 0x4, 1, [⟨0, 4, .rwl, 0x6, 3⟩, ⟨4, 4, .rwl, 0x2, 3⟩, ⟨8, 8, .rwl, 0x4, 3⟩, ⟨16, 16, .rwl, 0x3e8, 3⟩]⟩,
  ⟨"OBS_SRC", 0x102004, 0x4, 1, [⟨0, 2, .rwl, 0x0, 3⟩, ⟨2, 2, .rwl, 0x0, 3⟩, ⟨4, 2, .rwl, 0x1, 3⟩, ⟨6, 1, .rwl, 0x0, 3⟩, ⟨8, 8, .rwl, 0x40, 3⟩]⟩]

/-- Part 2 of the block. -/
def rowsHeadstock2 : List RegRow := [
  ⟨"OBS_SCALEk", 0x102008, 0x4, 5, [⟨0, 32, .rwl, 0x40000000, 3⟩]⟩,
  ⟨"OBS_SLIP_CFG", 0x10201c, 0x4, 1, [⟨0, 16, .rwl, 0x40, 3⟩, ⟨16, 8, .rwl, 0x64, 3⟩]⟩,
  ⟨"OBS_CTRL", 0x102020, 0x4, 1, [⟨0, 1, .wo, 0x0, 3⟩, ⟨1, 1, .wo, 0x0, 3⟩, ⟨2, 1, .wo, 0x0, 3⟩]⟩,
  ⟨"OBS_STATUS", 0x102024, 0x4, 1, [⟨0, 1, .ro, 0x0, 3⟩, ⟨1, 3, .ro, 0x7, 3⟩, ⟨4, 1, .ro, 0x0, 3⟩, ⟨5, 4, .ro, 0x0, 3⟩, ⟨9, 1, .ro, 0x0, 3⟩, ⟨10, 1, .w1c, 0x0, 3⟩, ⟨11, 1, .w1c, 0x0, 3⟩, ⟨12, 1, .w1c, 0x0, 3⟩, ⟨13, 1, .w1c, 0x0, 3⟩, ⟨16, 16, .ro, 0x0, 3⟩]⟩,
  ⟨"OBS_SNAP_TIME_LO", 0x102030, 0x4, 1, [⟨0, 32, .ro, 0x0, 3⟩]⟩,
  ⟨"OBS_SNAP_TIME_HI", 0x102034, 0x4, 1, [⟨0, 32, .ro, 0x0, 3⟩]⟩,
  ⟨"OBS_SNAP_POS_LO", 0x102038, 0x4, 1, [⟨0, 32, .ro, 0x0, 3⟩]⟩,
  ⟨"OBS_SNAP_POS_HI", 0x10203c, 0x4, 1, [⟨0, 32, .ro, 0x0, 3⟩]⟩,
  ⟨"OBS_SNAP_VEL_LO", 0x102040, 0x4, 1, [⟨0, 32, .ro, 0x0, 3⟩]⟩,
  ⟨"OBS_SNAP_VEL_HI", 0x102044, 0x4, 1, [⟨0, 32, .ro, 0x0, 3⟩]⟩,
  ⟨"OBS_SNAP_ACC_LO", 0x102048, 0x4, 1, [⟨0, 32, .ro, 0x0, 3⟩]⟩,
  ⟨"OBS_SNAP_ACC_HI", 0x10204c, 0x4, 1, [⟨0, 32, .ro, 0x0, 3⟩]⟩,
  ⟨"OBS_SNAP_HW_LO", 0x102050, 0x4, 1, [⟨0, 32, .ro, 0x0, 3⟩]⟩,
  ⟨"OBS_SNAP_HW_HI", 0x102054, 0x4, 1, [⟨0, 32, .ro, 0x0, 3⟩]⟩,
  ⟨"CMPn_CFG", 0x104000, 0x40, 48, [⟨0, 2, .rw, 0x0, 3⟩, ⟨2, 2, .rw, 0x0, 3⟩, ⟨4, 2, .rw, 0x0, 3⟩, ⟨6, 1, .rw, 0x0, 3⟩, ⟨7, 1, .rw, 0x0, 3⟩, ⟨8, 1, .rw, 0x0, 3⟩, ⟨9, 1, .rw, 0x0, 3⟩, ⟨10, 4, .rw, 0x0, 3⟩, ⟨16, 4, .rw, 0x0, 3⟩, ⟨20, 1, .rw, 0x0, 3⟩, ⟨21, 3, .rw, 0x0, 3⟩]⟩,
  ⟨"CMPn_TARGET_LO", 0x104004, 0x40, 48, [⟨0, 32, .rw, 0x0, 3⟩]⟩,
  ⟨"CMPn_TARGET_HI", 0x104008, 0x40, 48, [⟨0, 32, .rw, 0x0, 3⟩]⟩,
  ⟨"CMPn_INTERVAL", 0x10400c, 0x40, 48, [⟨0, 32, .rw, 0x0, 3⟩]⟩,
  ⟨"CMPn_WIDTH", 0x104010, 0x40, 48, [⟨0, 16, .rw, 0x0, 3⟩, ⟨16, 16, .rw, 0x0, 3⟩]⟩,
  ⟨"CMPn_CTRL", 0x104014, 0x40, 48, [⟨0, 1, .wo, 0x0, 3⟩, ⟨1, 1, .wo, 0x0, 3⟩]⟩,
  ⟨"CMPn_STATUS", 0x104018, 0x40, 48, [⟨0, 2, .ro, 0x0, 3⟩, ⟨2, 1, .w1c, 0x0, 3⟩, ⟨3, 1, .w1c, 0x0, 3⟩, ⟨4, 1, .w1c, 0x0, 3⟩, ⟨5, 1, .w1c, 0x0, 3⟩, ⟨16, 8, .ro, 0x0, 3⟩]⟩,
  ⟨"CMPn_LAST_TIME_LO", 0x10401c, 0x40, 48, [⟨0, 32, .ro, 0x0, 3⟩]⟩,
  ⟨"CMPn_LAST_TIME_HI", 0x104020, 0x40, 48, [⟨0, 32, .ro, 0x0, 3⟩]⟩,
  ⟨"CMPn_LAST_POS_LO", 0x104024, 0x40, 48, [⟨0, 32, .ro, 0x0, 3⟩]⟩]

/-- Part 3 of the block. -/
def rowsHeadstock3 : List RegRow := [
  ⟨"CMPn_LAST_POS_HI", 0x104028, 0x40, 48, [⟨0, 32, .ro, 0x0, 3⟩]⟩,
  ⟨"CMP_PINk", 0x105000, 0x4, 16, [⟨0, 1, .rwl, 0x0, 3⟩, ⟨1, 1, .rwl, 0x0, 3⟩]⟩]

/-- The whole block. -/
def rowsHeadstock : List RegRow := rowsHeadstock1 ++ rowsHeadstock2 ++ rowsHeadstock3

/-- Registers of the block "Time bases and PTP" (Table 20-1; 04_time_bases_and_network_time.md). -/
def rowsTime1 : List RegRow := [
  ⟨"TB_CTRL", 0x140000, 0x4, 1, [⟨0, 1, .wo, 0x0, 3⟩, ⟨1, 1, .wo, 0x0, 3⟩]⟩,
  ⟨"TB3_CFG", 0x140004, 0x4, 1, [⟨0, 2, .rwl, 0x0, 3⟩, ⟨2, 1, .rwl, 0x0, 3⟩, ⟨8, 8, .rwl, 0xa, 3⟩, ⟨16, 16, .rwl, 0x3e8, 3⟩]⟩,
  ⟨"TB_STATUS", 0x140008, 0x4, 1, [⟨0, 2, .ro, 0x0, 3⟩, ⟨2, 1, .ro, 0x0, 3⟩, ⟨3, 1, .ro, 0x0, 3⟩, ⟨4, 1, .w1c, 0x0, 3⟩, ⟨5, 1, .w1c, 0x0, 3⟩, ⟨6, 1, .w1c, 0x0, 3⟩]⟩,
  ⟨"TB3_OFFSET", 0x14000c, 0x4, 1, [⟨0, 32, .ro, 0x0, 3⟩]⟩,
  ⟨"TBk_SNAP_LO", 0x140010, 0x10, 4, [⟨0, 32, .ro, 0x0, 3⟩]⟩,
  ⟨"TBk_SNAP_HI", 0x140014, 0x10, 4, [⟨0, 32, .ro, 0x0, 3⟩]⟩,
  ⟨"TBk_SNAP_FRAC", 0x140018, 0x10, 4, [⟨0, 16, .ro, 0x0, 3⟩]⟩,
  ⟨"PTP0_CFG", 0x141000, 0x4, 1, [⟨0, 1, .rwl, 0x0, 3⟩, ⟨1, 1, .rwl, 0x0, 3⟩, ⟨2, 2, .rwl, 0x0, 3⟩, ⟨4, 1, .rwl, 0x0, 3⟩, ⟨8, 8, .rwl, 0x0, 3⟩, ⟨16, 4, .rwl, 0x3, 3⟩]⟩,
  ⟨"PTP1_CFG", 0x141100, 0x4, 1, [⟨0, 1, .rwl, 0x0, 3⟩, ⟨1, 1, .rwl, 0x1, 3⟩, ⟨2, 2, .rwl, 0x0, 3⟩, ⟨4, 1, .rwl, 0x0, 3⟩, ⟨8, 8, .rwl, 0x0, 3⟩, ⟨16, 4, .rwl, 0x3, 3⟩]⟩,
  ⟨"PTPd_SERVO", 0x141004, 0x100, 2, [⟨0, 16, .rwl, 0x64, 3⟩, ⟨16, 16, .rwl, 0x1, 3⟩]⟩,
  ⟨"PTPd_STATUS", 0x141008, 0x100, 2, [⟨0, 2, .ro, 0x0, 3⟩, ⟨2, 1, .ro, 0x1, 3⟩, ⟨3, 1, .w1c, 0x0, 3⟩, ⟨4, 1, .w1c, 0x0, 3⟩, ⟨16, 16, .ro, 0x0, 3⟩]⟩,
  ⟨"PTPd_OFFSET", 0x14100c, 0x100, 2, [⟨0, 32, .ro, 0x0, 3⟩]⟩,
  ⟨"PTPd_PATH_DELAY", 0x141010, 0x100, 2, [⟨0, 32, .ro, 0x0, 3⟩]⟩,
  ⟨"PTPd_RATE", 0x141014, 0x100, 2, [⟨0, 32, .ro, 0x0, 3⟩]⟩,
  ⟨"PTPd_GM_ID_LO", 0x141018, 0x100, 2, [⟨0, 32, .ro, 0x0, 3⟩]⟩,
  ⟨"PTPd_GM_ID_HI", 0x14101c, 0x100, 2, [⟨0, 32, .ro, 0x0, 3⟩]⟩,
  ⟨"PTP_PORTp_DELAY", 0x142000, 0x40, 2, [⟨0, 16, .rwl, 0x0, 3⟩, ⟨16, 16, .rwl, 0x0, 3⟩]⟩,
  ⟨"WC_NET_CFG", 0x143000, 0x4, 1, [⟨0, 1, .rwl, 0x0, 3⟩, ⟨16, 16, .rwl, 0x88b5, 3⟩]⟩,
  ⟨"WC_DEST_MAC_LO", 0x143004, 0x4, 1, [⟨0, 32, .rwl, 0x0, 3⟩]⟩,
  ⟨"WC_DEST_MAC_HI", 0x143008, 0x4, 1, [⟨0, 16, .rwl, 0x0, 3⟩]⟩,
  ⟨"WC_IP_SRC", 0x14300c, 0x4, 1, [⟨0, 32, .rwl, 0x0, 3⟩]⟩,
  ⟨"WC_IP_DST", 0x143010, 0x4, 1, [⟨0, 32, .rwl, 0x0, 3⟩]⟩,
  ⟨"WC_UDP", 0x143014, 0x4, 1, [⟨0, 16, .rwl, 0xb8b5, 3⟩]⟩,
  ⟨"WCP_COUNT_PM", 0x143018, 0x4, 1, [⟨0, 32, .rwl, 0x0, 3⟩]⟩]

/-- Part 2 of the block. -/
def rowsTime2 : List RegRow := [
  ⟨"WCP_CFG", 0x143020, 0x4, 1, [⟨0, 1, .rwl, 0x0, 3⟩, ⟨1, 1, .rwl, 0x0, 3⟩, ⟨4, 12, .rwl, 0x64, 3⟩, ⟨16, 16, .rwl, 0x0, 3⟩]⟩,
  ⟨"WCS_CFG", 0x143024, 0x4, 1, [⟨0, 1, .rwl, 0x0, 3⟩, ⟨8, 12, .rwl, 0x1f4, 3⟩, ⟨20, 12, .rwl, 0xc8, 3⟩]⟩,
  ⟨"WCS_ID", 0x143028, 0x4, 1, [⟨0, 16, .rwl, 0x0, 3⟩]⟩,
  ⟨"WCS_STATUS", 0x14302c, 0x4, 1, [⟨0, 1, .ro, 0x0, 3⟩, ⟨1, 2, .ro, 0x0, 3⟩, ⟨3, 1, .w1c, 0x0, 3⟩, ⟨16, 16, .ro, 0x0, 3⟩]⟩,
  ⟨"WCS_REJECT", 0x143030, 0x4, 1, [⟨0, 8, .ro, 0x0, 3⟩, ⟨8, 8, .ro, 0x0, 3⟩, ⟨16, 8, .ro, 0x0, 3⟩, ⟨24, 8, .ro, 0x0, 3⟩]⟩,
  ⟨"SCM_CFG", 0x143034, 0x4, 1, [⟨0, 1, .rwl, 0x0, 3⟩, ⟨1, 1, .rwl, 0x0, 3⟩]⟩,
  ⟨"WCS_REJECT_AGE", 0x143038, 0x4, 1, [⟨0, 8, .ro, 0x0, 3⟩]⟩]

/-- The whole block. -/
def rowsTime : List RegRow := rowsTime1 ++ rowsTime2

/-- Registers of the block "Line scheduler" (Table 20-1; 05_line_schedule.md). -/
def rowsSched1 : List RegRow := [
  ⟨"LS_STREAM_CFG", 0x180000, 0x4, 1, [⟨0, 1, .rw, 0x0, 3⟩, ⟨1, 1, .rw, 0x0, 3⟩, ⟨2, 1, .rw, 0x0, 3⟩, ⟨3, 3, .rw, 0x0, 3⟩]⟩,
  ⟨"LS_CPL_LO", 0x180004, 0x4, 1, [⟨0, 32, .rw, 0x0, 3⟩]⟩,
  ⟨"LS_CPL_HI", 0x180008, 0x4, 1, [⟨0, 32, .rw, 0x0, 3⟩]⟩,
  ⟨"LS_LEAD", 0x18000c, 0x4, 1, [⟨0, 11, .rw, 0x1e0, 3⟩, ⟨16, 11, .ro, 0x1e0, 3⟩]⟩,
  ⟨"LS_BIND_CFG", 0x180010, 0x4, 1, [⟨0, 7, .rwl, 0x28, 3⟩, ⟨8, 4, .rwl, 0x2, 3⟩]⟩,
  ⟨"LS_START_MARGIN", 0x180014, 0x4, 1, [⟨0, 16, .rw, 0x800, 3⟩]⟩,
  ⟨"LS_SHEET_OFFSET", 0x180018, 0x4, 1, [⟨0, 32, .rw, 0x0, 3⟩]⟩,
  ⟨"LS_SHEET_GAP", 0x18001c, 0x4, 1, [⟨0, 24, .rw, 0x0, 3⟩]⟩,
  ⟨"LS_CEIL_CFG", 0x180020, 0x4, 1, [⟨0, 2, .rwl, 0x1, 3⟩]⟩,
  ⟨"LS_MEM_BUDGET", 0x180024, 0x4, 1, [⟨0, 8, .rw, 0xa0, 3⟩]⟩,
  ⟨"LS_EVENT_CFG", 0x180028, 0x4, 1, [⟨0, 1, .rw, 0x0, 3⟩]⟩,
  ⟨"LS_STATUS", 0x180030, 0x4, 1, [⟨0, 1, .ro, 0x0, 3⟩, ⟨1, 1, .ro, 0x0, 3⟩, ⟨2, 1, .ro, 0x0, 3⟩, ⟨3, 1, .w1c, 0x0, 3⟩, ⟨4, 1, .w1c, 0x0, 3⟩, ⟨5, 1, .w1c, 0x0, 3⟩, ⟨6, 1, .w1c, 0x0, 3⟩, ⟨7, 1, .w1c, 0x0, 3⟩, ⟨8, 1, .w1c, 0x0, 3⟩, ⟨9, 1, .w1c, 0x0, 3⟩, ⟨16, 16, .ro, 0x0, 3⟩]⟩,
  ⟨"LS_CEILING", 0x180034, 0x4, 1, [⟨0, 17, .ro, 0x0, 3⟩, ⟨24, 8, .ro, 0x0, 3⟩]⟩,
  ⟨"LS_CEIL_DETAIL", 0x180038, 0x4, 1, [⟨0, 16, .ro, 0x0, 3⟩]⟩,
  ⟨"LS_CEIL_TERMi", 0x180040, 0x4, 5, [⟨0, 17, .ro, 0x0, 3⟩, ⟨24, 8, .ro, 0x0, 3⟩]⟩,
  ⟨"LS_ORIGIN_LO", 0x180060, 0x4, 1, [⟨0, 32, .ro, 0x0, 3⟩]⟩,
  ⟨"LS_ORIGIN_HI", 0x180064, 0x4, 1, [⟨0, 32, .ro, 0x0, 3⟩]⟩,
  ⟨"LS_REF_LINE_LO", 0x180068, 0x4, 1, [⟨0, 32, .ro, 0x0, 3⟩]⟩,
  ⟨"LS_REF_LINE_HI", 0x18006c, 0x4, 1, [⟨0, 16, .ro, 0x0, 3⟩]⟩,
  ⟨"LS_COMMIT_LINE_LO", 0x180070, 0x4, 1, [⟨0, 32, .ro, 0x0, 3⟩]⟩,
  ⟨"LS_COMMIT_LINE_HI", 0x180074, 0x4, 1, [⟨0, 16, .ro, 0x0, 3⟩]⟩,
  ⟨"LS_NEXT_PARTING_LO", 0x180078, 0x4, 1, [⟨0, 32, .ro, 0x0, 3⟩]⟩,
  ⟨"LS_NEXT_PARTING_HI", 0x18007c, 0x4, 1, [⟨0, 16, .ro, 0x0, 3⟩]⟩,
  ⟨"LS_SKIP_COUNT", 0x180080, 0x4, 1, [⟨0, 32, .ro, 0x0, 3⟩]⟩]

/-- Part 2 of the block. -/
def rowsSched2 : List RegRow := [
  ⟨"LS_LATE_COUNT", 0x180084, 0x4, 1, [⟨0, 32, .ro, 0x0, 3⟩]⟩]

/-- The whole block. -/
def rowsSched : List RegRow := rowsSched1 ++ rowsSched2

/-- Registers of the block "Raster slices" (Table 20-1; 06_raster_path.md). -/
def rowsRaster1 : List RegRow := [
  ⟨"RS0_STATUS", 0x200000, 0x4, 1, [⟨0, 3, .ro, 0x0, 11⟩, ⟨3, 4, .ro, 0x0, 3⟩, ⟨8, 1, .w1c, 0x0, 11⟩, ⟨9, 1, .w1c, 0x0, 11⟩, ⟨10, 1, .w1c, 0x0, 11⟩, ⟨11, 1, .w1c, 0x0, 11⟩]⟩,
  ⟨"RS1_STATUS", 0x210000, 0x4, 1, [⟨0, 3, .ro, 0x0, 11⟩, ⟨3, 4, .ro, 0x1, 3⟩, ⟨8, 1, .w1c, 0x0, 11⟩, ⟨9, 1, .w1c, 0x0, 11⟩, ⟨10, 1, .w1c, 0x0, 11⟩, ⟨11, 1, .w1c, 0x0, 11⟩]⟩,
  ⟨"RS2_STATUS", 0x220000, 0x4, 1, [⟨0, 3, .ro, 0x0, 11⟩, ⟨3, 4, .ro, 0x2, 3⟩, ⟨8, 1, .w1c, 0x0, 11⟩, ⟨9, 1, .w1c, 0x0, 11⟩, ⟨10, 1, .w1c, 0x0, 11⟩, ⟨11, 1, .w1c, 0x0, 11⟩]⟩,
  ⟨"RS3_STATUS", 0x230000, 0x4, 1, [⟨0, 3, .ro, 0x0, 11⟩, ⟨3, 4, .ro, 0x3, 3⟩, ⟨8, 1, .w1c, 0x0, 11⟩, ⟨9, 1, .w1c, 0x0, 11⟩, ⟨10, 1, .w1c, 0x0, 11⟩, ⟨11, 1, .w1c, 0x0, 11⟩]⟩,
  ⟨"RS4_STATUS", 0x240000, 0x4, 1, [⟨0, 3, .ro, 0x0, 11⟩, ⟨3, 4, .ro, 0x4, 3⟩, ⟨8, 1, .w1c, 0x0, 11⟩, ⟨9, 1, .w1c, 0x0, 11⟩, ⟨10, 1, .w1c, 0x0, 11⟩, ⟨11, 1, .w1c, 0x0, 11⟩]⟩,
  ⟨"RS5_STATUS", 0x250000, 0x4, 1, [⟨0, 3, .ro, 0x0, 11⟩, ⟨3, 4, .ro, 0x5, 3⟩, ⟨8, 1, .w1c, 0x0, 11⟩, ⟨9, 1, .w1c, 0x0, 11⟩, ⟨10, 1, .w1c, 0x0, 11⟩, ⟨11, 1, .w1c, 0x0, 11⟩]⟩,
  ⟨"RS6_STATUS", 0x260000, 0x4, 1, [⟨0, 3, .ro, 0x0, 11⟩, ⟨3, 4, .ro, 0x6, 3⟩, ⟨8, 1, .w1c, 0x0, 11⟩, ⟨9, 1, .w1c, 0x0, 11⟩, ⟨10, 1, .w1c, 0x0, 11⟩, ⟨11, 1, .w1c, 0x0, 11⟩]⟩,
  ⟨"RS7_STATUS", 0x270000, 0x4, 1, [⟨0, 3, .ro, 0x0, 11⟩, ⟨3, 4, .ro, 0x7, 3⟩, ⟨8, 1, .w1c, 0x0, 11⟩, ⟨9, 1, .w1c, 0x0, 11⟩, ⟨10, 1, .w1c, 0x0, 11⟩, ⟨11, 1, .w1c, 0x0, 11⟩]⟩,
  ⟨"RS8_STATUS", 0x280000, 0x4, 1, [⟨0, 3, .ro, 0x0, 11⟩, ⟨3, 4, .ro, 0x8, 3⟩, ⟨8, 1, .w1c, 0x0, 11⟩, ⟨9, 1, .w1c, 0x0, 11⟩, ⟨10, 1, .w1c, 0x0, 11⟩, ⟨11, 1, .w1c, 0x0, 11⟩]⟩,
  ⟨"RS9_STATUS", 0x290000, 0x4, 1, [⟨0, 3, .ro, 0x0, 11⟩, ⟨3, 4, .ro, 0x9, 3⟩, ⟨8, 1, .w1c, 0x0, 11⟩, ⟨9, 1, .w1c, 0x0, 11⟩, ⟨10, 1, .w1c, 0x0, 11⟩, ⟨11, 1, .w1c, 0x0, 11⟩]⟩,
  ⟨"RS10_STATUS", 0x2a0000, 0x4, 1, [⟨0, 3, .ro, 0x0, 11⟩, ⟨3, 4, .ro, 0xf, 3⟩, ⟨8, 1, .w1c, 0x0, 11⟩, ⟨9, 1, .w1c, 0x0, 11⟩, ⟨10, 1, .w1c, 0x0, 11⟩, ⟨11, 1, .w1c, 0x0, 11⟩]⟩,
  ⟨"RSn_LINE_LO", 0x200004, 0x10000, 11, [⟨0, 32, .ro, 0x0, 11⟩]⟩,
  ⟨"RSn_LINE_HI", 0x200008, 0x10000, 11, [⟨0, 16, .ro, 0x0, 11⟩]⟩,
  ⟨"RSn_SUBST_COUNT", 0x20000c, 0x10000, 11, [⟨0, 32, .ro, 0x0, 11⟩]⟩,
  ⟨"RSn_LATE_COUNT", 0x200010, 0x10000, 11, [⟨0, 32, .ro, 0x0, 11⟩]⟩,
  ⟨"RSn_UNCOVERED", 0x200014, 0x10000, 11, [⟨0, 32, .ro, 0x0, 11⟩]⟩,
  ⟨"RSn_UNUSABLE", 0x200018, 0x10000, 11, [⟨0, 32, .ro, 0x0, 11⟩]⟩,
  ⟨"RSn_BIST", 0x20001c, 0x10000, 11, [⟨0, 1, .ro, 0x0, 3⟩, ⟨1, 1, .ro, 0x0, 3⟩]⟩,
  ⟨"RS_MAP_LO", 0x2f0000, 0x4, 1, [⟨0, 32, .ro, 0x76543210, 3⟩]⟩,
  ⟨"RS_MAP_HI", 0x2f0004, 0x4, 1, [⟨0, 8, .ro, 0x98, 3⟩]⟩,
  ⟨"RS_SPARE_CFG", 0x2f0008, 0x4, 1, [⟨0, 1, .rwl, 0x1, 3⟩, ⟨1, 1, .rwl, 0x1, 3⟩, ⟨8, 16, .rwl, 0x1000, 3⟩]⟩,
  ⟨"RS_SPARE_CTRL", 0x2f000c, 0x4, 1, [⟨0, 4, .wo, 0x0, 3⟩, ⟨4, 1, .wo, 0x0, 3⟩, ⟨8, 4, .wo, 0x0, 3⟩, ⟨12, 1, .wo, 0x0, 3⟩]⟩,
  ⟨"RS_SPARE_STATUS", 0x2f0010, 0x4, 1, [⟨0, 3, .ro, 0x0, 11⟩, ⟨3, 4, .ro, 0x0, 11⟩, ⟨8, 1, .w1c, 0x0, 11⟩, ⟨9, 1, .w1c, 0x0, 11⟩]⟩,
  ⟨"RS_AUDIT_COUNT", 0x2f0014, 0x4, 1, [⟨0, 32, .ro, 0x0, 11⟩]⟩]

/-- Part 2 of the block. -/
def rowsRaster2 : List RegRow := [
  ⟨"RS_AUDIT_MISMATCH", 0x2f0018, 0x4, 1, [⟨0, 16, .ro, 0x0, 11⟩]⟩,
  ⟨"RS_UNUSABLE_MASK", 0x2f001c, 0x4, 1, [⟨0, 16, .rwl, 0x178, 3⟩]⟩,
  ⟨"RS_REDIST_CFG", 0x2f0020, 0x4, 1, [⟨0, 4, .rw, 0x3, 3⟩, ⟨4, 4, .rw, 0x1, 3⟩, ⟨8, 10, .rw, 0x100, 3⟩]⟩,
  ⟨"RS_PLANEq_CFG", 0x2f0040, 0x4, 10, [⟨0, 1, .rw, 0x0, 3⟩, ⟨1, 1, .rw, 0x1, 3⟩, ⟨2, 1, .rw, 0x1, 3⟩, ⟨3, 1, .rw, 0x0, 3⟩, ⟨4, 8, .rw, 0x8, 3⟩, ⟨12, 17, .rw, 0x0, 3⟩]⟩]

/-- The whole block. -/
def rowsRaster : List RegRow := rowsRaster1 ++ rowsRaster2

/-- Registers of the block "Seam" (Table 20-1; 07_seam_buffer_and_skew.md). -/
def rowsSeam : List RegRow := [
  ⟨"SEAM_STATUS", 0x300000, 0x4, 1, [⟨0, 1, .w1c, 0x0, 11⟩, ⟨1, 1, .w1c, 0x0, 11⟩, ⟨2, 1, .w1c, 0x0, 11⟩, ⟨3, 1, .w1c, 0x0, 11⟩, ⟨4, 1, .w1c, 0x0, 11⟩, ⟨5, 1, .w1c, 0x0, 11⟩, ⟨6, 1, .w1c, 0x0, 11⟩]⟩,
  ⟨"SEAM_LAST_REFUSAL", 0x300004, 0x4, 1, [⟨0, 4, .ro, 0x0, 3⟩, ⟨8, 8, .ro, 0x0, 3⟩, ⟨16, 4, .ro, 0x0, 3⟩]⟩,
  ⟨"SEAM_POISON_COUNT", 0x300008, 0x4, 1, [⟨0, 32, .ro, 0x0, 11⟩]⟩,
  ⟨"SEAM_SWITCH_LOSS", 0x30000c, 0x4, 1, [⟨0, 32, .ro, 0x0, 11⟩]⟩,
  ⟨"SEAM_PLANEq", 0x300100, 0x4, 10, [⟨0, 6, .ro, 0x0, 3⟩, ⟨8, 4, .ro, 0x0, 3⟩, ⟨12, 1, .ro, 0x0, 3⟩, ⟨13, 1, .ro, 0x0, 3⟩]⟩]

/-- Registers of the block "Lanes" (Table 20-1; 08_phied_lanes.md). -/
def rowsLanes : List RegRow := [
  ⟨"LANEn_CFG", 0x400000, 0x1000, 68, [⟨0, 1, .rwl, 0x0, 3⟩, ⟨1, 2, .rwl, 0x1, 3⟩, ⟨3, 1, .rwl, 0x0, 3⟩, ⟨4, 1, .rwl, 0x0, 3⟩, ⟨5, 1, .rwl, 0x1, 3⟩, ⟨6, 1, .rwl, 0x0, 3⟩, ⟨8, 4, .rwl, 0x3, 3⟩, ⟨12, 8, .rwl, 0x32, 3⟩]⟩,
  ⟨"LANEn_CTRL", 0x400004, 0x1000, 68, [⟨0, 1, .wo, 0x0, 3⟩, ⟨1, 1, .wo, 0x0, 3⟩, ⟨2, 1, .wo, 0x0, 3⟩, ⟨3, 1, .wo, 0x0, 3⟩, ⟨4, 1, .wo, 0x0, 3⟩, ⟨5, 1, .wo, 0x0, 3⟩, ⟨6, 1, .wo, 0x0, 3⟩]⟩,
  ⟨"LANEn_STATUS", 0x400008, 0x1000, 68, [⟨0, 3, .ro, 0x0, 11⟩, ⟨3, 1, .ro, 0x0, 11⟩, ⟨4, 1, .ro, 0x0, 11⟩, ⟨5, 1, .ro, 0x0, 11⟩, ⟨6, 1, .ro, 0x0, 11⟩, ⟨7, 1, .ro, 0x0, 11⟩, ⟨8, 1, .w1c, 0x0, 11⟩, ⟨9, 1, .w1c, 0x0, 11⟩, ⟨10, 1, .w1c, 0x0, 11⟩, ⟨11, 1, .w1c, 0x0, 11⟩, ⟨12, 1, .ro, 0x0, 11⟩, ⟨13, 1, .w1c, 0x0, 11⟩, ⟨16, 4, .ro, 0x0, 11⟩]⟩,
  ⟨"LANEn_TXFIR", 0x40000c, 0x1000, 68, [⟨0, 4, .ro, 0x0, 3⟩, ⟨8, 6, .ro, 0x3f, 3⟩, ⟨16, 5, .ro, 0x0, 3⟩]⟩,
  ⟨"LANEn_CTLE", 0x400010, 0x1000, 68, [⟨0, 5, .ro, 0x0, 11⟩]⟩,
  ⟨"LANEn_DFE_LO", 0x400014, 0x1000, 68, [⟨0, 32, .ro, 0x0, 11⟩]⟩,
  ⟨"LANEn_DFE_HI", 0x400018, 0x1000, 68, [⟨0, 32, .ro, 0x0, 11⟩]⟩,
  ⟨"LANEn_EYE_CTRL", 0x400020, 0x1000, 68, [⟨0, 6, .rw, 0x0, 3⟩, ⟨8, 8, .rw, 0x0, 3⟩, ⟨16, 5, .rw, 0x0, 3⟩]⟩,
  ⟨"LANEn_EYE_BITS_LO", 0x400024, 0x1000, 68, [⟨0, 32, .ro, 0x0, 11⟩]⟩,
  ⟨"LANEn_EYE_BITS_HI", 0x400028, 0x1000, 68, [⟨0, 9, .ro, 0x0, 11⟩]⟩,
  ⟨"LANEn_EYE_ERR", 0x40002c, 0x1000, 68, [⟨0, 32, .ro, 0x0, 11⟩]⟩,
  ⟨"LANEn_ERRCNT", 0x400030, 0x1000, 68, [⟨0, 16, .ro, 0x0, 11⟩, ⟨16, 8, .ro, 0x0, 11⟩, ⟨24, 8, .ro, 0x0, 11⟩]⟩,
  ⟨"LANEn_TRAIN_TIME", 0x400034, 0x1000, 68, [⟨0, 32, .ro, 0x0, 11⟩]⟩,
  ⟨"LANE_UP_0", 0x480000, 0x4, 1, [⟨0, 32, .ro, 0x0, 11⟩]⟩,
  ⟨"LANE_UP_1", 0x480004, 0x4, 1, [⟨0, 32, .ro, 0x0, 11⟩]⟩,
  ⟨"LANE_UP_2", 0x480008, 0x4, 1, [⟨0, 4, .ro, 0x0, 11⟩]⟩]

/-- Registers of the block "Phied link layer" (Table 20-1; 09_phied_link_protocol.md). -/
def rowsLink : List RegRow := [
  ⟨"LINKs_CFG", 0x500000, 0x100, 32, [⟨0, 4, .rwl, 0x0, 3⟩]⟩,
  ⟨"LINKs_STATUS", 0x500004, 0x100, 32, [⟨0, 8, .ro, 0x0, 11⟩, ⟨8, 9, .ro, 0x0, 11⟩, ⟨17, 8, .ro, 0x0, 11⟩, ⟨25, 1, .w1c, 0x0, 11⟩, ⟨26, 1, .w1c, 0x0, 11⟩, ⟨27, 1, .w1c, 0x0, 11⟩]⟩,
  ⟨"LINKs_OFFSET_LO", 0x500008, 0x100, 32, [⟨0, 32, .ro, 0x0, 11⟩]⟩,
  ⟨"LINKs_OFFSET_HI", 0x50000c, 0x100, 32, [⟨0, 32, .ro, 0x0, 11⟩]⟩,
  ⟨"LINKs_ERRCNT", 0x500010, 0x100, 32, [⟨0, 16, .ro, 0x0, 11⟩, ⟨16, 16, .ro, 0x0, 11⟩]⟩,
  ⟨"LINK_SYNC_CFG", 0x503000, 0x4, 1, [⟨0, 8, .rwl, 0x8, 3⟩]⟩,
  ⟨"LINK_INHIBIT", 0x503004, 0x4, 1, [⟨0, 1, .ro, 0x0, 11⟩]⟩,
  ⟨"NODEa_STATE", 0x502000, 0x10, 256, [⟨0, 3, .ro, 0x0, 11⟩, ⟨3, 4, .ro, 0x0, 11⟩, ⟨7, 1, .ro, 0x0, 11⟩, ⟨8, 3, .ro, 0x0, 11⟩, ⟨16, 16, .ro, 0x0, 11⟩]⟩,
  ⟨"NODEa_SYNC", 0x502004, 0x10, 256, [⟨0, 32, .ro, 0x0, 11⟩]⟩,
  ⟨"NODEa_SERIAL_LO", 0x502008, 0x10, 256, [⟨0, 32, .ro, 0x0, 11⟩]⟩,
  ⟨"NODEa_SERIAL_HI", 0x50200c, 0x10, 256, [⟨0, 32, .ro, 0x0, 11⟩]⟩]

/-- Registers of the block "Head care and Canary" (Table 20-1; 10_head_care_and_canary.md). -/
def rowsCare : List RegRow := [
  ⟨"HC_CFG", 0x600000, 0x4, 1, [⟨0, 1, .rw, 0x1, 3⟩, ⟨1, 2, .rw, 0x1, 3⟩, ⟨3, 2, .rw, 0x2, 3⟩, ⟨6, 10, .rw, 0x1e, 3⟩]⟩,
  ⟨"HC_STATUS", 0x600004, 0x4, 1, [⟨0, 1, .w1c, 0x0, 11⟩, ⟨1, 1, .w1c, 0x0, 11⟩, ⟨2, 1, .w1c, 0x0, 11⟩, ⟨3, 1, .w1c, 0x0, 11⟩, ⟨4, 1, .w1c, 0x0, 11⟩, ⟨5, 1, .w1c, 0x0, 11⟩, ⟨6, 1, .w1c, 0x0, 11⟩]⟩,
  ⟨"HC_THERMAL_CFG", 0x600008, 0x4, 1, [⟨0, 6, .rwl, 0xa, 3⟩, ⟨8, 6, .rwl, 0x14, 3⟩]⟩,
  ⟨"HC_WARM", 0x60000c, 0x4, 1, [⟨0, 8, .rw, 0x0, 3⟩]⟩,
  ⟨"HC_CHIP_AMB", 0x600010, 0x4, 1, [⟨0, 16, .rw, 0xb40, 3⟩]⟩,
  ⟨"HC_HEAD_RELEASE", 0x600014, 0x4, 1, [⟨0, 8, .wo, 0x0, 3⟩, ⟨8, 1, .wo, 0x0, 3⟩]⟩,
  ⟨"HC_CHIP_MAX", 0x600018, 0x4, 1, [⟨0, 16, .ro, 0x0, 11⟩, ⟨16, 3, .ro, 0x0, 11⟩]⟩,
  ⟨"HC_SPIT_SKIPS", 0x60001c, 0x4, 1, [⟨0, 32, .ro, 0x0, 11⟩]⟩,
  ⟨"HC_CHIP_TEMPi", 0x600020, 0x4, 6, [⟨0, 16, .ro, 0x0, 11⟩, ⟨16, 16, .ro, 0x0, 11⟩]⟩,
  ⟨"HC_INK_TEMPq", 0x600040, 0x4, 10, [⟨0, 16, .rw, 0x780, 3⟩]⟩,
  ⟨"DGq_CFG", 0x600100, 0x10, 10, [⟨0, 1, .rwl, 0x0, 3⟩, ⟨1, 1, .rwl, 0x0, 3⟩, ⟨8, 8, .rwl, 0x7, 3⟩]⟩,
  ⟨"DGq_WINDOW", 0x600104, 0x10, 10, [⟨0, 16, .rw, 0x1770, 3⟩, ⟨16, 16, .rw, 0x1d4c, 3⟩]⟩,
  ⟨"DGq_PACE", 0x600108, 0x10, 10, [⟨0, 16, .rw, 0x7d0, 3⟩]⟩,
  ⟨"DGq_STATUS", 0x60010c, 0x10, 10, [⟨0, 1, .ro, 0x0, 11⟩, ⟨1, 1, .w1c, 0x0, 11⟩, ⟨2, 1, .ro, 0x0, 11⟩, ⟨16, 16, .ro, 0x0, 11⟩]⟩,
  ⟨"HC_HEADa_TEMP", 0x601000, 0x8, 256, [⟨0, 16, .ro, 0x0, 11⟩, ⟨16, 16, .ro, 0x0, 11⟩]⟩,
  ⟨"HC_HEADa_STATE", 0x601004, 0x8, 256, [⟨0, 17, .ro, 0x0, 11⟩, ⟨17, 1, .ro, 0x0, 11⟩, ⟨18, 1, .ro, 0x0, 11⟩, ⟨19, 1, .ro, 0x0, 11⟩, ⟨20, 4, .ro, 0x0, 11⟩]⟩]

/-- Registers of the block "Assay" (Table 20-1; 11_assay_inspection.md). -/
def rowsAssay : List RegRow := [
  ⟨"CAMp_CFG", 0x700000, 0x1000, 4, [⟨0, 1, .rwl, 0x0, 3⟩, ⟨1, 2, .rwl, 0x2, 3⟩, ⟨3, 1, .rwl, 0x1, 3⟩, ⟨4, 1, .rwl, 0x1, 3⟩, ⟨5, 1, .rwl, 0x1, 3⟩, ⟨8, 14, .rwl, 0x1bb0, 3⟩]⟩,
  ⟨"CAMp_FRAME", 0x700004, 0x1000, 4, [⟨0, 16, .rw, 0x400, 3⟩, ⟨16, 8, .rw, 0xa, 3⟩, ⟨24, 8, .rw, 0x32, 3⟩]⟩,
  ⟨"CAMp_LINE", 0x700008, 0x1000, 4, [⟨0, 16, .rw, 0xc8, 3⟩, ⟨16, 16, .rw, 0x400, 3⟩]⟩,
  ⟨"CAMp_NR", 0x70000c, 0x1000, 4, [⟨0, 2, .rw, 0x0, 3⟩, ⟨4, 4, .rw, 0x8, 3⟩, ⟨8, 12, .rw, 0x80, 3⟩]⟩,
  ⟨"CAMp_DATUM_LO", 0x700010, 0x1000, 4, [⟨0, 32, .rw, 0x0, 3⟩]⟩,
  ⟨"CAMp_DATUM_HI", 0x700014, 0x1000, 4, [⟨0, 32, .rw, 0x0, 3⟩]⟩,
  ⟨"CAMp_DELTA1", 0x700018, 0x1000, 4, [⟨0, 32, .rw, 0x0, 3⟩]⟩,
  ⟨"CAMp_DELTA2", 0x70001c, 0x1000, 4, [⟨0, 32, .rw, 0x0, 3⟩]⟩,
  ⟨"CAMp_CTRL", 0x700020, 0x1000, 4, [⟨0, 1, .wo, 0x0, 3⟩, ⟨1, 1, .wo, 0x0, 3⟩]⟩,
  ⟨"CAMp_STATUS", 0x700024, 0x1000, 4, [⟨0, 2, .ro, 0x0, 11⟩, ⟨2, 1, .ro, 0x0, 11⟩, ⟨3, 1, .ro, 0x0, 11⟩, ⟨4, 1, .w1c, 0x0, 11⟩, ⟨5, 1, .w1c, 0x0, 11⟩, ⟨6, 1, .w1c, 0x0, 11⟩, ⟨7, 1, .w1c, 0x0, 11⟩, ⟨8, 1, .w1c, 0x0, 11⟩, ⟨9, 1, .w1c, 0x0, 11⟩]⟩,
  ⟨"CAMp_FRAME_NO", 0x700028, 0x1000, 4, [⟨0, 32, .ro, 0x0, 11⟩]⟩,
  ⟨"CAMp_ERRCNT_A", 0x70002c, 0x1000, 4, [⟨0, 16, .ro, 0x0, 11⟩, ⟨16, 16, .ro, 0x0, 11⟩]⟩,
  ⟨"CAMp_ERRCNT_B", 0x700030, 0x1000, 4, [⟨0, 16, .ro, 0x0, 11⟩, ⟨16, 16, .ro, 0x0, 11⟩]⟩,
  ⟨"CAMp_BUF", 0x700034, 0x1000, 4, [⟨0, 16, .ro, 0x0, 11⟩, ⟨16, 16, .ro, 0x0, 11⟩]⟩,
  ⟨"ASSAY_CFG", 0x708000, 0x4, 1, [⟨0, 5, .rwl, 0x1f, 3⟩, ⟨16, 16, .rwl, 0x0, 3⟩]⟩,
  ⟨"ASSAY_LADDER", 0x708004, 0x4, 1, [⟨0, 12, .rw, 0xc8, 3⟩]⟩,
  ⟨"ASSAY_STATUS", 0x708008, 0x4, 1, [⟨0, 4, .w1c, 0x0, 11⟩]⟩]

/-- Registers of the block "Foreman" (Table 20-1; 12_foreman_adaptation.md). -/
def rowsForeman : List RegRow := [
  ⟨"FM_CFG", 0x800000, 0x4, 1, [⟨0, 2, .rw, 0x0, 3⟩, ⟨2, 2, .rw, 0x0, 3⟩, ⟨4, 2, .rw, 0x0, 3⟩, ⟨6, 2, .rw, 0x0, 3⟩, ⟨8, 1, .rw, 0x1, 3⟩, ⟨9, 1, .rw, 0x0, 3⟩, ⟨10, 6, .rw, 0x10, 3⟩, ⟨16, 16, .rw, 0x1000, 3⟩]⟩,
  ⟨"FM_STATUS", 0x800004, 0x4, 1, [⟨0, 1, .w1c, 0x0, 11⟩, ⟨1, 1, .w1c, 0x0, 11⟩, ⟨2, 1, .w1c, 0x0, 11⟩, ⟨3, 1, .w1c, 0x0, 11⟩, ⟨4, 1, .w1c, 0x0, 11⟩]⟩,
  ⟨"FM_NOZ_CFG", 0x800008, 0x4, 1, [⟨0, 4, .rw, 0x2, 3⟩, ⟨4, 4, .rw, 0x4, 3⟩, ⟨8, 8, .rw, 0x50, 3⟩, ⟨16, 8, .rw, 0x8, 3⟩, ⟨24, 8, .rw, 0x20, 3⟩]⟩,
  ⟨"FM_DEN_CFG", 0x80000c, 0x4, 1, [⟨0, 4, .rw, 0x5, 3⟩, ⟨4, 8, .rw, 0xa, 3⟩, ⟨12, 8, .rw, 0x80, 3⟩]⟩,
  ⟨"FM_BOUNDS", 0x800010, 0x4, 1, [⟨0, 9, .rw, 0x80, 3⟩, ⟨9, 9, .rw, 0x40, 3⟩, ⟨18, 9, .rw, 0x80, 3⟩]⟩,
  ⟨"FM_REG_CFG", 0x800014, 0x4, 1, [⟨0, 4, .rw, 0xf, 3⟩, ⟨4, 8, .rw, 0x4, 3⟩, ⟨12, 4, .rw, 0x2, 3⟩, ⟨16, 8, .rw, 0x30, 3⟩, ⟨24, 4, .rw, 0x4, 3⟩]⟩,
  ⟨"FM_REG_BOUND", 0x800018, 0x4, 1, [⟨0, 8, .rw, 0x20, 3⟩, ⟨8, 8, .rw, 0x10, 3⟩]⟩,
  ⟨"FM_FF_BOUND", 0x80001c, 0x4, 1, [⟨0, 9, .rw, 0xc8, 3⟩]⟩,
  ⟨"FM_NOZ_CLEAR", 0x800020, 0x4, 1, [⟨0, 8, .wo, 0x0, 3⟩, ⟨8, 1, .wo, 0x0, 3⟩, ⟨9, 13, .wo, 0x0, 3⟩, ⟨22, 1, .wo, 0x0, 3⟩, ⟨23, 1, .wo, 0x0, 3⟩]⟩,
  ⟨"FM_SEQ", 0x800024, 0x4, 1, [⟨0, 32, .ro, 0x0, 11⟩]⟩,
  ⟨"FM_PDq", 0x800100, 0x4, 10, [⟨0, 10, .ro, 0x0, 3⟩]⟩,
  ⟨"FM_REGq", 0x800140, 0x4, 10, [⟨0, 16, .ro, 0x0, 3⟩, ⟨16, 16, .ro, 0x0, 3⟩]⟩,
  ⟨"FM_FFq", 0x800180, 0x4, 10, [⟨0, 16, .rw, 0x1388, 3⟩, ⟨16, 8, .rw, 0x2d, 3⟩, ⟨24, 8, .rw, 0xa, 3⟩]⟩]

/-- Registers of the block "Crusher" (Table 20-1; 13_crusher_and_tardamet_format.md). -/
def rowsCrusher : List RegRow := [
  ⟨"CR_CFG", 0x900000, 0x4, 1, [⟨0, 8, .rw, 0xa, 3⟩]⟩,
  ⟨"CR_STATUS", 0x900004, 0x4, 1, [⟨0, 1, .ro, 0x0, 11⟩, ⟨1, 1, .w1c, 0x0, 11⟩, ⟨2, 1, .w1c, 0x0, 11⟩, ⟨3, 1, .w1c, 0x0, 11⟩]⟩,
  ⟨"CR_AREA_PAGES", 0x900008, 0x4, 1, [⟨0, 32, .ro, 0x0, 3⟩]⟩,
  ⟨"CR_FREE_PAGES", 0x90000c, 0x4, 1, [⟨0, 32, .ro, 0x0, 11⟩]⟩,
  ⟨"CR_FREEING_PAGES", 0x900010, 0x4, 1, [⟨0, 32, .ro, 0x0, 11⟩]⟩,
  ⟨"CR_BLOCKS", 0x900014, 0x4, 1, [⟨0, 32, .ro, 0x0, 11⟩]⟩,
  ⟨"CR_RAW_BYTES_LO", 0x900018, 0x4, 1, [⟨0, 32, .ro, 0x0, 11⟩]⟩,
  ⟨"CR_RAW_BYTES_HI", 0x90001c, 0x4, 1, [⟨0, 32, .ro, 0x0, 11⟩]⟩,
  ⟨"CR_STORED_BYTES_LO", 0x900020, 0x4, 1, [⟨0, 32, .ro, 0x0, 11⟩]⟩,
  ⟨"CR_STORED_BYTES_HI", 0x900024, 0x4, 1, [⟨0, 32, .ro, 0x0, 11⟩]⟩,
  ⟨"CR_FALLBACKS", 0x900028, 0x4, 1, [⟨0, 16, .ro, 0x0, 11⟩, ⟨16, 16, .ro, 0x0, 11⟩]⟩]

/-- Registers of the block "Host rings" (Table 20-1; 14_host_interface_and_rings.md). -/
def rowsRings1 : List RegRow := [
  ⟨"HR_CFG", 0xa00000, 0x4, 1, [⟨0, 6, .rw, 0x0, 7⟩]⟩,
  ⟨"HR_STATUS", 0xa00004, 0x4, 1, [⟨0, 1, .w1c, 0x0, 7⟩, ⟨1, 1, .w1c, 0x0, 7⟩, ⟨2, 1, .w1c, 0x0, 7⟩, ⟨3, 1, .w1c, 0x0, 7⟩, ⟨4, 1, .w1c, 0x0, 7⟩]⟩,
  ⟨"HR_INFLIGHT", 0xa00008, 0x4, 1, [⟨0, 11, .ro, 0x0, 7⟩]⟩,
  ⟨"HR_DB_ERRORS", 0xa0000c, 0x4, 1, [⟨0, 32, .ro, 0x0, 7⟩]⟩,
  ⟨"HR_EVT_LOST", 0xa00010, 0x4, 1, [⟨0, 32, .ro, 0x0, 3⟩]⟩,
  ⟨"HR_STAT_DROPPED", 0xa00014, 0x4, 1, [⟨0, 32, .ro, 0x0, 7⟩]⟩,
  ⟨"HR_CPL_LOST", 0xa00018, 0x4, 1, [⟨0, 32, .ro, 0x0, 7⟩]⟩,
  ⟨"HR_EVT_MASK", 0xa0001c, 0x4, 1, [⟨0, 13, .rw, 0x1fff, 7⟩]⟩,
  ⟨"HR_ISQi_BASE_LO", 0xa01000, 0x40, 16, [⟨12, 20, .rw, 0x0, 7⟩]⟩,
  ⟨"HR_ISQi_BASE_HI", 0xa01004, 0x40, 16, [⟨0, 32, .rw, 0x0, 7⟩]⟩,
  ⟨"HR_ISQi_CFG", 0xa01008, 0x40, 16, [⟨0, 1, .rw, 0x0, 7⟩, ⟨1, 1, .rw, 0x0, 7⟩, ⟨2, 5, .rw, 0x6, 7⟩, ⟨8, 4, .rw, 0x0, 7⟩]⟩,
  ⟨"HR_ISQi_STATUS", 0xa0100c, 0x40, 16, [⟨0, 1, .ro, 0x0, 7⟩, ⟨1, 1, .w1c, 0x0, 7⟩, ⟨2, 3, .ro, 0x0, 7⟩]⟩,
  ⟨"HR_ISQi_WB_LO", 0xa01010, 0x40, 16, [⟨3, 29, .rw, 0x0, 7⟩]⟩,
  ⟨"HR_ISQi_WB_HI", 0xa01014, 0x40, 16, [⟨0, 32, .rw, 0x0, 7⟩]⟩,
  ⟨"HR_ISQi_PROD", 0xa01018, 0x40, 16, [⟨0, 32, .ro, 0x0, 7⟩]⟩,
  ⟨"HR_ISQi_CONS", 0xa0101c, 0x40, 16, [⟨0, 32, .ro, 0x0, 7⟩]⟩,
  ⟨"HR_CQj_BASE_LO", 0xa02000, 0x40, 16, [⟨12, 20, .rw, 0x0, 7⟩]⟩,
  ⟨"HR_CQj_BASE_HI", 0xa02004, 0x40, 16, [⟨0, 32, .rw, 0x0, 7⟩]⟩,
  ⟨"HR_CQj_CFG", 0xa02008, 0x40, 16, [⟨0, 1, .rw, 0x0, 7⟩, ⟨1, 5, .rw, 0x6, 7⟩, ⟨6, 6, .rw, 0x0, 7⟩, ⟨12, 8, .rw, 0x1, 7⟩, ⟨20, 12, .rw, 0x0, 7⟩]⟩,
  ⟨"HR_CQj_STATUS", 0xa0200c, 0x40, 16, [⟨0, 1, .ro, 0x0, 7⟩, ⟨1, 1, .w1c, 0x0, 7⟩, ⟨2, 3, .ro, 0x0, 7⟩, ⟨5, 1, .ro, 0x0, 7⟩]⟩,
  ⟨"HR_CQj_PROD", 0xa02010, 0x40, 16, [⟨0, 32, .ro, 0x0, 7⟩]⟩,
  ⟨"HR_CQj_CONS", 0xa02014, 0x40, 16, [⟨0, 32, .ro, 0x0, 7⟩]⟩,
  ⟨"HR_EVQ_BASE_LO", 0xa03000, 0x40, 1, [⟨12, 20, .rw, 0x0, 7⟩]⟩,
  ⟨"HR_EVQ_BASE_HI", 0xa03004, 0x40, 1, [⟨0, 32, .rw, 0x0, 7⟩]⟩]

/-- Part 2 of the block. -/
def rowsRings2 : List RegRow := [
  ⟨"HR_EVQ_CFG", 0xa03008, 0x40, 1, [⟨0, 1, .rw, 0x0, 7⟩, ⟨1, 5, .rw, 0x6, 7⟩, ⟨6, 6, .rw, 0x0, 7⟩, ⟨12, 8, .rw, 0x1, 7⟩, ⟨20, 12, .rw, 0x0, 7⟩]⟩,
  ⟨"HR_EVQ_STATUS", 0xa0300c, 0x40, 1, [⟨0, 1, .ro, 0x0, 7⟩, ⟨1, 1, .w1c, 0x0, 7⟩, ⟨2, 3, .ro, 0x0, 7⟩, ⟨5, 1, .ro, 0x0, 7⟩]⟩,
  ⟨"HR_EVQ_PROD", 0xa03010, 0x40, 1, [⟨0, 32, .ro, 0x0, 7⟩]⟩,
  ⟨"HR_EVQ_CONS", 0xa03014, 0x40, 1, [⟨0, 32, .ro, 0x0, 7⟩]⟩,
  ⟨"HR_STQ_BASE_LO", 0xa03100, 0x40, 1, [⟨12, 20, .rw, 0x0, 7⟩]⟩,
  ⟨"HR_STQ_BASE_HI", 0xa03104, 0x40, 1, [⟨0, 32, .rw, 0x0, 7⟩]⟩,
  ⟨"HR_STQ_CFG", 0xa03108, 0x40, 1, [⟨0, 1, .rw, 0x0, 7⟩, ⟨1, 5, .rw, 0x6, 7⟩, ⟨6, 6, .rw, 0x0, 7⟩, ⟨12, 8, .rw, 0x1, 7⟩, ⟨20, 12, .rw, 0x0, 7⟩]⟩,
  ⟨"HR_STQ_STATUS", 0xa0310c, 0x40, 1, [⟨0, 1, .ro, 0x0, 7⟩, ⟨1, 1, .w1c, 0x0, 7⟩, ⟨2, 3, .ro, 0x0, 7⟩, ⟨5, 1, .ro, 0x0, 7⟩]⟩,
  ⟨"HR_STQ_PROD", 0xa03110, 0x40, 1, [⟨0, 32, .ro, 0x0, 7⟩]⟩,
  ⟨"HR_STQ_CONS", 0xa03114, 0x40, 1, [⟨0, 32, .ro, 0x0, 7⟩]⟩,
  ⟨"HR_STAT_WB_LO", 0xa03118, 0x4, 1, [⟨3, 29, .rw, 0x0, 7⟩]⟩,
  ⟨"HR_STAT_WB_HI", 0xa0311c, 0x4, 1, [⟨0, 32, .rw, 0x0, 7⟩]⟩]

/-- The whole block. -/
def rowsRings : List RegRow := rowsRings1 ++ rowsRings2

/-- Registers of the block "Memory and ECC" (Table 20-1; 16_memory_and_ecc.md). -/
def rowsMemory : List RegRow := [
  ⟨"MEM_CFG", 0xb00000, 0x4, 1, [⟨0, 2, .rwl, 0x1, 3⟩, ⟨2, 2, .rwl, 0x2, 3⟩, ⟨4, 1, .rwl, 0x1, 3⟩]⟩,
  ⟨"MEM_STATUS", 0xb00004, 0x4, 1, [⟨0, 1, .ro, 0x0, 3⟩, ⟨1, 1, .w1c, 0x0, 3⟩, ⟨2, 1, .w1c, 0x0, 3⟩, ⟨3, 1, .w1c, 0x0, 3⟩]⟩,
  ⟨"MEM_SCRUB", 0xb00008, 0x4, 1, [⟨0, 1, .rw, 0x1, 3⟩, ⟨1, 1, .rw, 0x1, 3⟩, ⟨8, 8, .rw, 0x18, 3⟩, ⟨16, 16, .rw, 0x3c, 3⟩]⟩,
  ⟨"MEM_SHARE", 0xb0000c, 0x4, 1, [⟨0, 4, .rw, 0x8, 3⟩, ⟨4, 4, .rw, 0x2, 3⟩, ⟨8, 4, .rw, 0x4, 3⟩, ⟨12, 4, .rw, 0x2, 3⟩]⟩,
  ⟨"MEM_STORE_PAGES", 0xb00010, 0x4, 1, [⟨0, 32, .ro, 0x0, 3⟩]⟩,
  ⟨"MEM_RESERVED_PAGES", 0xb00014, 0x4, 1, [⟨0, 32, .ro, 0x0, 3⟩]⟩,
  ⟨"MEM_RETIRED", 0xb00018, 0x4, 1, [⟨0, 13, .ro, 0x0, 3⟩]⟩,
  ⟨"MEM_CHc_CE", 0xb00020, 0x4, 6, [⟨0, 32, .ro, 0x0, 3⟩]⟩,
  ⟨"MEM_CHc_UE", 0xb00040, 0x4, 6, [⟨0, 32, .ro, 0x0, 3⟩]⟩,
  ⟨"MEM_SRAM_CE", 0xb00060, 0x4, 1, [⟨0, 32, .ro, 0x0, 3⟩]⟩,
  ⟨"MEM_SRAM_UE", 0xb00064, 0x4, 1, [⟨0, 32, .ro, 0x0, 3⟩]⟩,
  ⟨"MEM_SRAM_ADDR_ERR", 0xb00068, 0x4, 1, [⟨0, 32, .ro, 0x0, 3⟩]⟩,
  ⟨"MEM_DTT_STATUS", 0xb00070, 0x4, 1, [⟨0, 6, .ro, 0x0, 3⟩, ⟨8, 1, .ro, 0x0, 3⟩]⟩,
  ⟨"MEM_STT_STATUS", 0xb00074, 0x4, 1, [⟨0, 6, .ro, 0x0, 3⟩, ⟨8, 1, .ro, 0x0, 3⟩]⟩]

/-- Registers of the block "Tally, Deputy, pair link" (Table 20-1; 17_tally_and_failover.md). -/
def rowsTally : List RegRow := [
  ⟨"PAIR_CFG", 0xc00000, 0x4, 1, [⟨0, 2, .rwl, 0x0, 3⟩, ⟨2, 1, .rwl, 0x0, 3⟩, ⟨3, 1, .rwl, 0x1, 3⟩, ⟨4, 2, .rwl, 0x3, 3⟩, ⟨16, 16, .rwl, 0x0, 3⟩]⟩,
  ⟨"TALLY_STATUS", 0xc00004, 0x4, 1, [⟨0, 2, .ro, 0x0, 11⟩, ⟨2, 1, .ro, 0x0, 11⟩, ⟨3, 1, .ro, 0x0, 11⟩, ⟨4, 1, .ro, 0x0, 11⟩, ⟨5, 1, .ro, 0x0, 11⟩, ⟨6, 1, .ro, 0x0, 11⟩, ⟨7, 1, .ro, 0x0, 3⟩, ⟨8, 1, .w1c, 0x0, 11⟩, ⟨9, 1, .w1c, 0x0, 11⟩, ⟨10, 1, .w1c, 0x0, 11⟩, ⟨11, 1, .w1c, 0x0, 11⟩]⟩,
  ⟨"TALLY_EPOCH", 0xc00008, 0x4, 1, [⟨0, 32, .ro, 0x0, 11⟩]⟩,
  ⟨"TALLY_MAX_H", 0xc0000c, 0x4, 1, [⟨0, 32, .ro, 0x0, 11⟩]⟩,
  ⟨"PAIR_POS_DELTA_LO", 0xc00010, 0x4, 1, [⟨0, 32, .ro, 0x0, 11⟩]⟩,
  ⟨"PAIR_POS_DELTA_HI", 0xc00014, 0x4, 1, [⟨0, 32, .ro, 0x0, 11⟩]⟩,
  ⟨"RELAY_STRINGS", 0xc00018, 0x4, 1, [⟨0, 32, .ro, 0x0, 11⟩]⟩,
  ⟨"MIRROR_LAG", 0xc0001c, 0x4, 1, [⟨0, 32, .ro, 0x0, 11⟩]⟩,
  ⟨"TALLY_COUNTS", 0xc00020, 0x4, 1, [⟨0, 16, .ro, 0x0, 11⟩, ⟨16, 16, .ro, 0x0, 11⟩]⟩,
  ⟨"PAIR_ARB_ID", 0xc00024, 0x4, 1, [⟨0, 16, .rwl, 0x0, 3⟩]⟩,
  ⟨"ARB_PAIRk", 0xc00040, 0x4, 8, [⟨0, 16, .rwl, 0x0, 3⟩, ⟨16, 1, .rwl, 0x0, 3⟩]⟩]

/-- Registers of the block "Winders and SSI" (Table 20-1; 18_winder_axes.md). -/
def rowsWinder : List RegRow := [
  ⟨"WCn_CFG", 0xd00000, 0x40, 32, [⟨0, 1, .rwl, 0x0, 3⟩, ⟨1, 1, .rwl, 0x0, 3⟩, ⟨2, 2, .rwl, 0x0, 3⟩, ⟨4, 3, .rwl, 0x0, 3⟩, ⟨8, 4, .rwl, 0x2, 3⟩, ⟨12, 4, .rwl, 0x8, 3⟩]⟩,
  ⟨"WCn_CURRENT", 0xd00004, 0x40, 32, [⟨0, 8, .rw, 0x80, 3⟩, ⟨8, 8, .rw, 0x40, 3⟩, ⟨16, 8, .rw, 0x64, 3⟩]⟩,
  ⟨"WCn_CHOP", 0xd00008, 0x40, 32, [⟨0, 6, .rwl, 0x28, 3⟩, ⟨8, 4, .rwl, 0x8, 3⟩, ⟨12, 3, .rwl, 0x3, 3⟩, ⟨15, 1, .rwl, 0x0, 3⟩]⟩,
  ⟨"WCn_MSTEP", 0xd0000c, 0x40, 32, [⟨0, 10, .rw, 0x4b, 3⟩, ⟨10, 10, .rw, 0xfa, 3⟩, ⟨20, 10, .rw, 0x1f4, 3⟩]⟩,
  ⟨"WCn_ACCEL", 0xd00010, 0x40, 32, [⟨0, 32, .rw, 0x4e20, 3⟩]⟩,
  ⟨"WCn_DECEL", 0xd00014, 0x40, 32, [⟨0, 32, .rw, 0x4e20, 3⟩]⟩,
  ⟨"WCn_HARD_DECEL", 0xd00018, 0x40, 32, [⟨0, 32, .rwl, 0x186a0, 3⟩]⟩,
  ⟨"WCn_SW", 0xd0001c, 0x40, 32, [⟨0, 12, .rwl, 0x1f4, 3⟩, ⟨12, 1, .rwl, 0x0, 3⟩, ⟨13, 1, .rwl, 0x0, 3⟩, ⟨14, 1, .rwl, 0x0, 3⟩, ⟨15, 2, .rwl, 0x0, 3⟩, ⟨17, 1, .rwl, 0x0, 3⟩, ⟨18, 1, .rwl, 0x0, 3⟩, ⟨19, 1, .rwl, 0x0, 3⟩, ⟨20, 8, .rwl, 0x10, 3⟩]⟩,
  ⟨"WCn_HOME", 0xd00020, 0x40, 32, [⟨0, 16, .rw, 0x32, 3⟩, ⟨16, 16, .rw, 0x64, 3⟩]⟩,
  ⟨"WCn_HOME_TRAVEL", 0xd00024, 0x40, 32, [⟨0, 32, .rw, 0x10000, 3⟩]⟩,
  ⟨"WCn_POS", 0xd00028, 0x40, 32, [⟨0, 32, .ro, 0x0, 11⟩]⟩,
  ⟨"WCn_VEL", 0xd0002c, 0x40, 32, [⟨0, 32, .ro, 0x0, 11⟩]⟩,
  ⟨"WCn_STATUS", 0xd00030, 0x40, 32, [⟨0, 3, .ro, 0x0, 11⟩, ⟨3, 3, .ro, 0x0, 11⟩, ⟨6, 1, .ro, 0x0, 11⟩, ⟨7, 2, .ro, 0x0, 11⟩, ⟨9, 1, .ro, 0x0, 11⟩, ⟨10, 1, .ro, 0x0, 11⟩, ⟨11, 1, .ro, 0x0, 11⟩, ⟨12, 1, .w1c, 0x0, 11⟩, ⟨13, 1, .w1c, 0x0, 11⟩, ⟨14, 1, .w1c, 0x0, 11⟩, ⟨15, 1, .w1c, 0x0, 11⟩]⟩,
  ⟨"WCn_CTRL", 0xd00034, 0x40, 32, [⟨0, 1, .wo, 0x0, 3⟩]⟩,
  ⟨"WCn_CHATTER", 0xd00038, 0x40, 32, [⟨0, 16, .ro, 0x0, 11⟩]⟩,
  ⟨"SSIk_CFG", 0xd01000, 0x20, 8, [⟨0, 1, .rwl, 0x0, 3⟩, ⟨1, 6, .rwl, 0x19, 3⟩, ⟨7, 1, .rwl, 0x1, 3⟩, ⟨8, 1, .rwl, 0x0, 3⟩, ⟨9, 1, .rwl, 0x1, 3⟩, ⟨10, 3, .rwl, 0x3, 3⟩, ⟨16, 5, .rwl, 0x0, 3⟩, ⟨21, 1, .rwl, 0x0, 3⟩]⟩,
  ⟨"SSIk_PERIOD", 0xd01004, 0x20, 8, [⟨0, 16, .rwl, 0x3e8, 3⟩, ⟨16, 8, .rwl, 0x14, 3⟩]⟩,
  ⟨"SSIk_SCALE", 0xd01008, 0x20, 8, [⟨0, 32, .rwl, 0x10000, 3⟩]⟩,
  ⟨"SSIk_OFFSET", 0xd0100c, 0x20, 8, [⟨0, 32, .rw, 0x0, 3⟩]⟩,
  ⟨"SSIk_TOL", 0xd01010, 0x20, 8, [⟨0, 32, .rw, 0x0, 3⟩]⟩,
  ⟨"SSIk_RAW", 0xd01014, 0x20, 8, [⟨0, 32, .ro, 0x0, 11⟩]⟩,
  ⟨"SSIk_TIME_LO", 0xd01018, 0x20, 8, [⟨0, 32, .ro, 0x0, 11⟩]⟩,
  ⟨"SSIk_STATUS", 0xd0101c, 0x20, 8, [⟨0, 1, .ro, 0x0, 11⟩, ⟨1, 1, .w1c, 0x0, 11⟩, ⟨2, 1, .w1c, 0x0, 11⟩, ⟨16, 16, .ro, 0x0, 11⟩]⟩,
  ⟨"SSIk_TIME_HI", 0xd01800, 0x4, 8, [⟨0, 32, .ro, 0x0, 11⟩]⟩]

/-- Registers of the block "Ethernet MACs" (Table 20-1; 20_register_map.md). -/
def rowsEther : List RegRow := [
  ⟨"ETHp_CFG", 0xe00000, 0x1000, 2, [⟨0, 1, .rwl, 0x0, 3⟩, ⟨1, 1, .rwl, 0x1, 3⟩]⟩,
  ⟨"ETHp_MAC_LO", 0xe00004, 0x1000, 2, [⟨0, 32, .rwl, 0x0, 3⟩]⟩,
  ⟨"ETHp_MAC_HI", 0xe00008, 0x1000, 2, [⟨0, 16, .rwl, 0x0, 3⟩]⟩,
  ⟨"ETHp_STATUS", 0xe0000c, 0x1000, 2, [⟨0, 1, .ro, 0x0, 11⟩, ⟨1, 1, .w1c, 0x0, 11⟩]⟩,
  ⟨"ETHp_RX_FRAMES", 0xe00010, 0x1000, 2, [⟨0, 32, .ro, 0x0, 11⟩]⟩,
  ⟨"ETHp_RX_ERRORS", 0xe00014, 0x1000, 2, [⟨0, 32, .ro, 0x0, 11⟩]⟩,
  ⟨"ETHp_TX_FRAMES", 0xe00018, 0x1000, 2, [⟨0, 32, .ro, 0x0, 11⟩]⟩,
  ⟨"ETHp_RX_FILTERED", 0xe0001c, 0x1000, 2, [⟨0, 32, .ro, 0x0, 11⟩]⟩]

/-- One block of Table 20-1 (R508): first offset, end (exclusive), power domain (Table 19-1 numbers), registers. -/
structure Block where
  lo : Nat
  hi : Nat
  domain : Nat
  rows : List RegRow
deriving DecidableEq, Repr

/-- The blocks of BAR0 (R508, Table 20-1). -/
def blocks : List Block := [
  ⟨0x0, 0x10000, 1, rowsGlobal⟩,
  ⟨0x10000, 0x20000, 1, rowsPower⟩,
  ⟨0x20000, 0x30000, 1, rowsSecurity⟩,
  ⟨0x100000, 0x140000, 2, rowsHeadstock⟩,
  ⟨0x140000, 0x180000, 2, rowsTime⟩,
  ⟨0x180000, 0x200000, 2, rowsSched⟩,
  ⟨0x200000, 0x300000, 6, rowsRaster⟩,
  ⟨0x300000, 0x400000, 6, rowsSeam⟩,
  ⟨0x400000, 0x500000, 7, rowsLanes⟩,
  ⟨0x500000, 0x600000, 7, rowsLink⟩,
  ⟨0x600000, 0x700000, 7, rowsCare⟩,
  ⟨0x700000, 0x800000, 8, rowsAssay⟩,
  ⟨0x800000, 0x900000, 10, rowsForeman⟩,
  ⟨0x900000, 0xa00000, 10, rowsCrusher⟩,
  ⟨0xa00000, 0xb00000, 3, rowsRings⟩,
  ⟨0xb00000, 0xc00000, 5, rowsMemory⟩,
  ⟨0xc00000, 0xd00000, 10, rowsTally⟩,
  ⟨0xd00000, 0xe00000, 9, rowsWinder⟩,
  ⟨0xe00000, 0xf00000, 4, rowsEther⟩]

/-- The block an offset lies in; none for the reserved ranges of R508. -/
def blockOf (off : Nat) : Option Block := blocks.find? (fun b => b.lo ≤ off && off < b.hi)

/-- Whether a register kind has a register at this offset. -/
def RegRow.covers (r : RegRow) (off : Nat) : Bool :=
  r.base ≤ off && (off - r.base) % r.stride == 0 && (off - r.base) / r.stride < r.count

/-- The register kind at an offset; none for a reserved offset (R5, R508). -/
def regRow (off : Nat) : Option RegRow :=
  match blockOf off with
  | some b => b.rows.find? (fun r => r.covers off)
  | none => none

/-- The fields of the register at an offset; a reserved offset has none. -/
def fieldsAt (off : Nat) : List FieldRow :=
  match regRow off with
  | some r => r.fields
  | none => []

/-- The reset value of a field, in place. -/
def FieldRow.resetBits (f : FieldRow) : BitVec 32 := BitVec.ofNat 32 (f.reset <<< f.lo)

/-- The mask of a field, in place. -/
def FieldRow.mask (f : FieldRow) : BitVec 32 := BitVec.ofNat 32 ((2 ^ f.w - 1) <<< f.lo)

/-- The value every field of the register at an offset has after a power-on reset; 0 at a reserved offset. -/
def resetVal (off : Nat) : BitVec 32 := (fieldsAt off).foldl (fun a f => a ||| f.resetBits) 0#32

end Sys2Proof.Machine
end

