-- ==== Sys2Proof/Machine/RegNames.lean ====
section
/-! DEFINITION. A name for every field of every BAR0 register, under the spec's own names: ENCn_CFG_enable n is the field
enable of ENCn_CFG. A register whose word is one value has the register's name alone. The text after each name gives the
table or rule of the register. -/

namespace Sys2Proof.Machine

/-- Where a register field lies: byte offset in BAR0, lowest bit, width. -/
structure Fld where
  off : Nat
  lo : Nat
  w : Nat
deriving DecidableEq, Repr

/-- IDREV.idrev, bits 31:0 (R514, Table 20-3). -/
def Reg.IDREV_idrev : Fld := ⟨0x0, 0, 32⟩
/-- CAPS.caps, bits 31:0 (R515, Table 20-4). -/
def Reg.CAPS_caps : Fld := ⟨0x4, 0, 32⟩
/-- SETUP_LOCK.lock, bits 0:0 (R516). -/
def Reg.SETUP_LOCK_lock : Fld := ⟨0x8, 0, 1⟩
/-- GLB_STATUS.state, bits 2:0 (Table 20-5). -/
def Reg.GLB_STATUS_state : Fld := ⟨0xc, 0, 3⟩
/-- GLB_STATUS.setup_locked, bits 3:3 (Table 20-5). -/
def Reg.GLB_STATUS_setup_locked : Fld := ⟨0xc, 3, 1⟩
/-- GLB_STATUS.print_ok, bits 4:4 (Table 20-5). -/
def Reg.GLB_STATUS_print_ok : Fld := ⟨0xc, 4, 1⟩
/-- GLB_STATUS.alive, bits 5:5 (Table 20-5). -/
def Reg.GLB_STATUS_alive : Fld := ⟨0xc, 5, 1⟩
/-- GLB_STATUS.tally_held, bits 6:6 (Table 20-5). -/
def Reg.GLB_STATUS_tally_held : Fld := ⟨0xc, 6, 1⟩
/-- GLB_STATUS.fire_inhibit, bits 7:7 (Table 20-5). -/
def Reg.GLB_STATUS_fire_inhibit : Fld := ⟨0xc, 7, 1⟩
/-- GLB_STATUS.pos_valid, bits 8:8 (Table 20-5). -/
def Reg.GLB_STATUS_pos_valid : Fld := ⟨0xc, 8, 1⟩
/-- GLB_STATUS.off_access, bits 9:9 (Table 20-5). -/
def Reg.GLB_STATUS_off_access : Fld := ⟨0xc, 9, 1⟩
/-- GLB_STATUS.low_cause, bits 21:16 (Table 20-5). -/
def Reg.GLB_STATUS_low_cause : Fld := ⟨0xc, 16, 6⟩
/-- GLB_CAUSE.classes, bits 12:0 (R518). -/
def Reg.GLB_CAUSE_classes : Fld := ⟨0x10, 0, 13⟩
/-- GLB_CAUSE.evt_lost, bits 16:16 (R518). -/
def Reg.GLB_CAUSE_evt_lost : Fld := ⟨0x10, 16, 1⟩
/-- GLB_CAUSE.print_ok_fell, bits 17:17 (R518). -/
def Reg.GLB_CAUSE_print_ok_fell : Fld := ⟨0x10, 17, 1⟩
/-- GLB_INT_EN.classes, bits 12:0 (R518). -/
def Reg.GLB_INT_EN_classes : Fld := ⟨0x14, 0, 13⟩
/-- GLB_INT_EN.evt_lost, bits 16:16 (R518). -/
def Reg.GLB_INT_EN_evt_lost : Fld := ⟨0x14, 16, 1⟩
/-- GLB_INT_EN.print_ok_fell, bits 17:17 (R518). -/
def Reg.GLB_INT_EN_print_ok_fell : Fld := ⟨0x14, 17, 1⟩
/-- GLB_INT_CFG.vector, bits 5:0 (Table 20-2). -/
def Reg.GLB_INT_CFG_vector : Fld := ⟨0x18, 0, 6⟩
/-- GLB_SCRATCH.scratch, bits 31:0 (Table 20-2). -/
def Reg.GLB_SCRATCH_scratch : Fld := ⟨0x1c, 0, 32⟩
/-- PWR_STATE.state, bits 2:0 (Table 19-11). -/
def Reg.PWR_STATE_state : Fld := ⟨0x10000, 0, 3⟩
/-- PWR_STATE.thermal_trip, bits 3:3 (Table 19-11). -/
def Reg.PWR_STATE_thermal_trip : Fld := ⟨0x10000, 3, 1⟩
/-- PWR_STATE.deep_cause, bits 7:4 (Table 19-11). -/
def Reg.PWR_STATE_deep_cause : Fld := ⟨0x10000, 4, 4⟩
/-- PWR_STATE.boot_fail, bits 15:8 (Table 19-11). -/
def Reg.PWR_STATE_boot_fail : Fld := ⟨0x10000, 8, 8⟩
/-- PWR_CTRL.wake, bits 0:0 (Table 19-10). -/
def Reg.PWR_CTRL_wake : Fld := ⟨0x10004, 0, 1⟩
/-- PWR_DOMAINS.powered, bits 9:0 (Table 19-10). -/
def Reg.PWR_DOMAINS_powered : Fld := ⟨0x10008, 0, 10⟩
/-- PWR_FAULT.fault, bits 9:0 (Table 19-10). -/
def Reg.PWR_FAULT_fault : Fld := ⟨0x1000c, 0, 10⟩
/-- PWR_FAULT_COUNT.count, bits 31:0 (Table 19-10). -/
def Reg.PWR_FAULT_COUNT_count : Fld := ⟨0x10010, 0, 32⟩
/-- PWR_DOMi_MW.mw, bits 31:0 (Table 19-10). -/
def Reg.PWR_DOMi_MW_mw (i : Nat) : Fld := ⟨0x10040 + 0x4 * i, 0, 32⟩
/-- SEC_RESP.resp, bits 27:0 (Table 19-12). -/
def Reg.SEC_RESP_resp : Fld := ⟨0x20000, 0, 28⟩
/-- SEC_ALARM.seen, bits 13:0 (Table 19-13). -/
def Reg.SEC_ALARM_seen : Fld := ⟨0x20004, 0, 14⟩
/-- SEC_ALARM.unlock_refused, bits 14:14 (Table 19-13). -/
def Reg.SEC_ALARM_unlock_refused : Fld := ⟨0x20004, 14, 1⟩
/-- SEC_ALARM.active, bits 29:16 (Table 19-13). -/
def Reg.SEC_ALARM_active : Fld := ⟨0x20004, 16, 14⟩
/-- SEC_KEY_STATE.state, bits 31:0 (Table 19-12). -/
def Reg.SEC_KEY_STATE_state : Fld := ⟨0x20008, 0, 32⟩
/-- SEC_UNLOCK.go, bits 0:0 (Table 19-12). -/
def Reg.SEC_UNLOCK_go : Fld := ⟨0x2000c, 0, 1⟩
/-- SEC_CHIP_ID_LO.id, bits 31:0 (Table 19-12). -/
def Reg.SEC_CHIP_ID_LO_id : Fld := ⟨0x20010, 0, 32⟩
/-- SEC_CHIP_ID_HI.id, bits 31:0 (Table 19-12). -/
def Reg.SEC_CHIP_ID_HI_id : Fld := ⟨0x20014, 0, 32⟩
/-- SEC_ENCL_CFG.filter_ms, bits 7:0 (Table 19-12). -/
def Reg.SEC_ENCL_CFG_filter_ms : Fld := ⟨0x20018, 0, 8⟩
/-- SEC_ALARM_COUNT.count, bits 31:0 (Table 19-12). -/
def Reg.SEC_ALARM_COUNT_count : Fld := ⟨0x2001c, 0, 32⟩
/-- ENCn_CFG.enable, bits 0:0 (Table 02-7). -/
def Reg.ENCn_CFG_enable (i : Nat) : Fld := ⟨0x100000 + 0x100 * i, 0, 1⟩
/-- ENCn_CFG.invert_dir, bits 1:1 (Table 02-7). -/
def Reg.ENCn_CFG_invert_dir (i : Nat) : Fld := ⟨0x100000 + 0x100 * i, 1, 1⟩
/-- ENCn_CFG.z_polarity, bits 2:2 (Table 02-7). -/
def Reg.ENCn_CFG_z_polarity (i : Nat) : Fld := ⟨0x100000 + 0x100 * i, 2, 1⟩
/-- ENCn_CFG.z_gate, bits 4:3 (Table 02-7). -/
def Reg.ENCn_CFG_z_gate (i : Nat) : Fld := ⟨0x100000 + 0x100 * i, 3, 2⟩
/-- ENCn_CFG.filter_n, bits 15:8 (Table 02-7). -/
def Reg.ENCn_CFG_filter_n (i : Nat) : Fld := ⟨0x100000 + 0x100 * i, 8, 8⟩
/-- ENCn_CFG.z_filter_n, bits 23:16 (Table 02-7). -/
def Reg.ENCn_CFG_z_filter_n (i : Nat) : Fld := ⟨0x100000 + 0x100 * i, 16, 8⟩
/-- ENCn_CPR.cpr, bits 31:0 (Table 02-6). -/
def Reg.ENCn_CPR_cpr (i : Nat) : Fld := ⟨0x100004 + 0x100 * i, 0, 32⟩
/-- ENCn_INDEX_TOL.tolerance, bits 15:0 (Table 02-8). -/
def Reg.ENCn_INDEX_TOL_tolerance (i : Nat) : Fld := ⟨0x100008 + 0x100 * i, 0, 16⟩
/-- ENCn_INDEX_TOL.drift_warn, bits 31:16 (Table 02-8). -/
def Reg.ENCn_INDEX_TOL_drift_warn (i : Nat) : Fld := ⟨0x100008 + 0x100 * i, 16, 16⟩
/-- ENCn_STATUS.overspeed, bits 0:0 (Table 02-9). -/
def Reg.ENCn_STATUS_overspeed (i : Nat) : Fld := ⟨0x10000c + 0x100 * i, 0, 1⟩
/-- ENCn_STATUS.quad_error, bits 1:1 (Table 02-9). -/
def Reg.ENCn_STATUS_quad_error (i : Nat) : Fld := ⟨0x10000c + 0x100 * i, 1, 1⟩
/-- ENCn_STATUS.index_slip, bits 2:2 (Table 02-9). -/
def Reg.ENCn_STATUS_index_slip (i : Nat) : Fld := ⟨0x10000c + 0x100 * i, 2, 1⟩
/-- ENCn_STATUS.drift_warn, bits 3:3 (Table 02-9). -/
def Reg.ENCn_STATUS_drift_warn (i : Nat) : Fld := ⟨0x10000c + 0x100 * i, 3, 1⟩
/-- ENCn_STATUS.drift_sat, bits 4:4 (Table 02-9). -/
def Reg.ENCn_STATUS_drift_sat (i : Nat) : Fld := ⟨0x10000c + 0x100 * i, 4, 1⟩
/-- ENCn_STATUS.dir, bits 5:5 (Table 02-9). -/
def Reg.ENCn_STATUS_dir (i : Nat) : Fld := ⟨0x10000c + 0x100 * i, 5, 1⟩
/-- ENCn_STATUS.index_valid, bits 6:6 (Table 02-9). -/
def Reg.ENCn_STATUS_index_valid (i : Nat) : Fld := ⟨0x10000c + 0x100 * i, 6, 1⟩
/-- ENCn_STATUS.level_a, bits 7:7 (Table 02-9). -/
def Reg.ENCn_STATUS_level_a (i : Nat) : Fld := ⟨0x10000c + 0x100 * i, 7, 1⟩
/-- ENCn_STATUS.level_b, bits 8:8 (Table 02-9). -/
def Reg.ENCn_STATUS_level_b (i : Nat) : Fld := ⟨0x10000c + 0x100 * i, 8, 1⟩
/-- ENCn_STATUS.level_z, bits 9:9 (Table 02-9). -/
def Reg.ENCn_STATUS_level_z (i : Nat) : Fld := ⟨0x10000c + 0x100 * i, 9, 1⟩
/-- ENCn_STATUS.slip_count, bits 31:16 (Table 02-9). -/
def Reg.ENCn_STATUS_slip_count (i : Nat) : Fld := ⟨0x10000c + 0x100 * i, 16, 16⟩
/-- ENCn_COUNT_LO.v, bits 31:0 (Table 02-6). -/
def Reg.ENCn_COUNT_LO (i : Nat) : Fld := ⟨0x100010 + 0x100 * i, 0, 32⟩
/-- ENCn_COUNT_HI.v, bits 31:0 (Table 02-6). -/
def Reg.ENCn_COUNT_HI (i : Nat) : Fld := ⟨0x100014 + 0x100 * i, 0, 32⟩
/-- ENCn_EDGE_TIME_LO.v, bits 31:0 (Table 02-6). -/
def Reg.ENCn_EDGE_TIME_LO (i : Nat) : Fld := ⟨0x100018 + 0x100 * i, 0, 32⟩
/-- ENCn_EDGE_TIME_HI.v, bits 31:0 (Table 02-6). -/
def Reg.ENCn_EDGE_TIME_HI (i : Nat) : Fld := ⟨0x10001c + 0x100 * i, 0, 32⟩
/-- ENCn_INDEX_COUNT_LO.v, bits 31:0 (Table 02-6). -/
def Reg.ENCn_INDEX_COUNT_LO (i : Nat) : Fld := ⟨0x100020 + 0x100 * i, 0, 32⟩
/-- ENCn_INDEX_COUNT_HI.v, bits 31:0 (Table 02-6). -/
def Reg.ENCn_INDEX_COUNT_HI (i : Nat) : Fld := ⟨0x100024 + 0x100 * i, 0, 32⟩
/-- ENCn_INDEX_TIME_LO.v, bits 31:0 (Table 02-6). -/
def Reg.ENCn_INDEX_TIME_LO (i : Nat) : Fld := ⟨0x100028 + 0x100 * i, 0, 32⟩
/-- ENCn_INDEX_TIME_HI.v, bits 31:0 (Table 02-6). -/
def Reg.ENCn_INDEX_TIME_HI (i : Nat) : Fld := ⟨0x10002c + 0x100 * i, 0, 32⟩
/-- ENCn_INDEX_DRIFT.drift, bits 31:0 (R42). -/
def Reg.ENCn_INDEX_DRIFT_drift (i : Nat) : Fld := ⟨0x100030 + 0x100 * i, 0, 32⟩
/-- ENCn_ERRCNT.quad_error_count, bits 15:0 (Table 02-10). -/
def Reg.ENCn_ERRCNT_quad_error_count (i : Nat) : Fld := ⟨0x100034 + 0x100 * i, 0, 16⟩
/-- ENCn_ERRCNT.glitch_count, bits 31:16 (Table 02-10). -/
def Reg.ENCn_ERRCNT_glitch_count (i : Nat) : Fld := ⟨0x100034 + 0x100 * i, 16, 16⟩
/-- TRIGn_CFG.enable, bits 0:0 (Table 02-11). -/
def Reg.TRIGn_CFG_enable (i : Nat) : Fld := ⟨0x101000 + 0x40 * i, 0, 1⟩
/-- TRIGn_CFG.edge, bits 2:1 (Table 02-11). -/
def Reg.TRIGn_CFG_edge (i : Nat) : Fld := ⟨0x101000 + 0x40 * i, 1, 2⟩
/-- TRIGn_CFG.enc_src, bits 4:3 (Table 02-11). -/
def Reg.TRIGn_CFG_enc_src (i : Nat) : Fld := ⟨0x101000 + 0x40 * i, 3, 2⟩
/-- TRIGn_CFG.post_event, bits 5:5 (Table 02-11). -/
def Reg.TRIGn_CFG_post_event (i : Nat) : Fld := ⟨0x101000 + 0x40 * i, 5, 1⟩
/-- TRIGn_CFG.filter_n, bits 15:8 (Table 02-11). -/
def Reg.TRIGn_CFG_filter_n (i : Nat) : Fld := ⟨0x101000 + 0x40 * i, 8, 8⟩
/-- TRIGn_CFG.lockout_counts, bits 31:16 (Table 02-11). -/
def Reg.TRIGn_CFG_lockout_counts (i : Nat) : Fld := ⟨0x101000 + 0x40 * i, 16, 16⟩
/-- TRIGn_FIFO_STATUS.level, bits 4:0 (R50). -/
def Reg.TRIGn_FIFO_STATUS_level (i : Nat) : Fld := ⟨0x101004 + 0x40 * i, 0, 5⟩
/-- TRIGn_FIFO_STATUS.overflow_count, bits 15:8 (R50). -/
def Reg.TRIGn_FIFO_STATUS_overflow_count (i : Nat) : Fld := ⟨0x101004 + 0x40 * i, 8, 8⟩
/-- TRIGn_FIFO_STATUS.overflow, bits 16:16 (R50). -/
def Reg.TRIGn_FIFO_STATUS_overflow (i : Nat) : Fld := ⟨0x101004 + 0x40 * i, 16, 1⟩
/-- TRIGn_CAP_COUNT_LO.v, bits 31:0 (Table 02-6). -/
def Reg.TRIGn_CAP_COUNT_LO (i : Nat) : Fld := ⟨0x101008 + 0x40 * i, 0, 32⟩
/-- TRIGn_CAP_COUNT_HI.v, bits 31:0 (Table 02-6). -/
def Reg.TRIGn_CAP_COUNT_HI (i : Nat) : Fld := ⟨0x10100c + 0x40 * i, 0, 32⟩
/-- TRIGn_CAP_TIME_LO.v, bits 31:0 (Table 02-6). -/
def Reg.TRIGn_CAP_TIME_LO (i : Nat) : Fld := ⟨0x101010 + 0x40 * i, 0, 32⟩
/-- TRIGn_CAP_TIME_HI.v, bits 31:0 (Table 02-6). -/
def Reg.TRIGn_CAP_TIME_HI (i : Nat) : Fld := ⟨0x101014 + 0x40 * i, 0, 32⟩
/-- TRIGn_CAP_INFO.valid, bits 0:0 (R50). -/
def Reg.TRIGn_CAP_INFO_valid (i : Nat) : Fld := ⟨0x101018 + 0x40 * i, 0, 1⟩
/-- TRIGn_CAP_INFO.edge_level, bits 1:1 (R50). -/
def Reg.TRIGn_CAP_INFO_edge_level (i : Nat) : Fld := ⟨0x101018 + 0x40 * i, 1, 1⟩
/-- TRIGn_POP.pop, bits 31:0 (Table 02-6). -/
def Reg.TRIGn_POP_pop (i : Nat) : Fld := ⟨0x10101c + 0x40 * i, 0, 32⟩
/-- OBS_CFG.bw_code, bits 3:0 (Table 03-8). -/
def Reg.OBS_CFG_bw_code : Fld := ⟨0x102000, 0, 4⟩
/-- OBS_CFG.remote_bw_code, bits 7:4 (Table 03-8). -/
def Reg.OBS_CFG_remote_bw_code : Fld := ⟨0x102000, 4, 4⟩
/-- OBS_CFG.rev_window, bits 15:8 (Table 03-8). -/
def Reg.OBS_CFG_rev_window : Fld := ⟨0x102000, 8, 8⟩
/-- OBS_CFG.min_speed, bits 31:16 (Table 03-8). -/
def Reg.OBS_CFG_min_speed : Fld := ⟨0x102000, 16, 16⟩
/-- OBS_SRC.mode, bits 1:0 (Table 03-9). -/
def Reg.OBS_SRC_mode : Fld := ⟨0x102004, 0, 2⟩
/-- OBS_SRC.primary, bits 3:2 (Table 03-9). -/
def Reg.OBS_SRC_primary : Fld := ⟨0x102004, 2, 2⟩
/-- OBS_SRC.secondary, bits 5:4 (Table 03-9). -/
def Reg.OBS_SRC_secondary : Fld := ⟨0x102004, 4, 2⟩
/-- OBS_SRC.remote_en, bits 6:6 (Table 03-9). -/
def Reg.OBS_SRC_remote_en : Fld := ⟨0x102004, 6, 1⟩
/-- OBS_SRC.blend_w, bits 15:8 (Table 03-9). -/
def Reg.OBS_SRC_blend_w : Fld := ⟨0x102004, 8, 8⟩
/-- OBS_SCALEk.scale, bits 31:0 (R51). -/
def Reg.OBS_SCALEk (i : Nat) : Fld := ⟨0x102008 + 0x4 * i, 0, 32⟩
/-- OBS_SLIP_CFG.threshold, bits 15:0 (Table 03-10). -/
def Reg.OBS_SLIP_CFG_threshold : Fld := ⟨0x10201c, 0, 16⟩
/-- OBS_SLIP_CFG.tau_ms, bits 23:16 (Table 03-10). -/
def Reg.OBS_SLIP_CFG_tau_ms : Fld := ⟨0x10201c, 16, 8⟩
/-- OBS_CTRL.snapshot, bits 0:0 (Table 03-11). -/
def Reg.OBS_CTRL_snapshot : Fld := ⟨0x102020, 0, 1⟩
/-- OBS_CTRL.readmit, bits 1:1 (Table 03-11). -/
def Reg.OBS_CTRL_readmit : Fld := ⟨0x102020, 1, 1⟩
/-- OBS_CTRL.resync, bits 2:2 (Table 03-11). -/
def Reg.OBS_CTRL_resync : Fld := ⟨0x102020, 2, 1⟩
/-- OBS_STATUS.pos_valid, bits 0:0 (Table 03-12). -/
def Reg.OBS_STATUS_pos_valid : Fld := ⟨0x102024, 0, 1⟩
/-- OBS_STATUS.active, bits 3:1 (Table 03-12). -/
def Reg.OBS_STATUS_active : Fld := ⟨0x102024, 1, 3⟩
/-- OBS_STATUS.reversal, bits 4:4 (Table 03-12). -/
def Reg.OBS_STATUS_reversal : Fld := ⟨0x102024, 4, 1⟩
/-- OBS_STATUS.enc_removed, bits 8:5 (Table 03-12). -/
def Reg.OBS_STATUS_enc_removed : Fld := ⟨0x102024, 5, 4⟩
/-- OBS_STATUS.remote_removed, bits 9:9 (Table 03-12). -/
def Reg.OBS_STATUS_remote_removed : Fld := ⟨0x102024, 9, 1⟩
/-- OBS_STATUS.slip, bits 10:10 (Table 03-12). -/
def Reg.OBS_STATUS_slip : Fld := ⟨0x102024, 10, 1⟩
/-- OBS_STATUS.switched, bits 11:11 (Table 03-12). -/
def Reg.OBS_STATUS_switched : Fld := ⟨0x102024, 11, 1⟩
/-- OBS_STATUS.lost, bits 12:12 (Table 03-12). -/
def Reg.OBS_STATUS_lost : Fld := ⟨0x102024, 12, 1⟩
/-- OBS_STATUS.reversal_seen, bits 13:13 (Table 03-12). -/
def Reg.OBS_STATUS_reversal_seen : Fld := ⟨0x102024, 13, 1⟩
/-- OBS_STATUS.reversal_count, bits 31:16 (Table 03-12). -/
def Reg.OBS_STATUS_reversal_count : Fld := ⟨0x102024, 16, 16⟩
/-- OBS_SNAP_TIME_LO.v, bits 31:0 (R82). -/
def Reg.OBS_SNAP_TIME_LO : Fld := ⟨0x102030, 0, 32⟩
/-- OBS_SNAP_TIME_HI.v, bits 31:0 (R82). -/
def Reg.OBS_SNAP_TIME_HI : Fld := ⟨0x102034, 0, 32⟩
/-- OBS_SNAP_POS_LO.v, bits 31:0 (R82). -/
def Reg.OBS_SNAP_POS_LO : Fld := ⟨0x102038, 0, 32⟩
/-- OBS_SNAP_POS_HI.v, bits 31:0 (R82). -/
def Reg.OBS_SNAP_POS_HI : Fld := ⟨0x10203c, 0, 32⟩
/-- OBS_SNAP_VEL_LO.v, bits 31:0 (R82). -/
def Reg.OBS_SNAP_VEL_LO : Fld := ⟨0x102040, 0, 32⟩
/-- OBS_SNAP_VEL_HI.v, bits 31:0 (R82). -/
def Reg.OBS_SNAP_VEL_HI : Fld := ⟨0x102044, 0, 32⟩
/-- OBS_SNAP_ACC_LO.v, bits 31:0 (R82). -/
def Reg.OBS_SNAP_ACC_LO : Fld := ⟨0x102048, 0, 32⟩
/-- OBS_SNAP_ACC_HI.v, bits 31:0 (R82). -/
def Reg.OBS_SNAP_ACC_HI : Fld := ⟨0x10204c, 0, 32⟩
/-- OBS_SNAP_HW_LO.v, bits 31:0 (R82). -/
def Reg.OBS_SNAP_HW_LO : Fld := ⟨0x102050, 0, 32⟩
/-- OBS_SNAP_HW_HI.v, bits 31:0 (R82). -/
def Reg.OBS_SNAP_HW_HI : Fld := ⟨0x102054, 0, 32⟩
/-- CMPn_CFG.mode, bits 1:0 (Table 03-13). -/
def Reg.CMPn_CFG_mode (i : Nat) : Fld := ⟨0x104000 + 0x40 * i, 0, 2⟩
/-- CMPn_CFG.src, bits 3:2 (Table 03-13). -/
def Reg.CMPn_CFG_src (i : Nat) : Fld := ⟨0x104000 + 0x40 * i, 2, 2⟩
/-- CMPn_CFG.dir, bits 5:4 (Table 03-13). -/
def Reg.CMPn_CFG_dir (i : Nat) : Fld := ⟨0x104000 + 0x40 * i, 4, 2⟩
/-- CMPn_CFG.late_ok, bits 6:6 (Table 03-13). -/
def Reg.CMPn_CFG_late_ok (i : Nat) : Fld := ⟨0x104000 + 0x40 * i, 6, 1⟩
/-- CMPn_CFG.periodic, bits 7:7 (Table 03-13). -/
def Reg.CMPn_CFG_periodic (i : Nat) : Fld := ⟨0x104000 + 0x40 * i, 7, 1⟩
/-- CMPn_CFG.hold_on_reversal, bits 8:8 (Table 03-13). -/
def Reg.CMPn_CFG_hold_on_reversal (i : Nat) : Fld := ⟨0x104000 + 0x40 * i, 8, 1⟩
/-- CMPn_CFG.target_kind, bits 9:9 (Table 03-13). -/
def Reg.CMPn_CFG_target_kind (i : Nat) : Fld := ⟨0x104000 + 0x40 * i, 9, 1⟩
/-- CMPn_CFG.plane, bits 13:10 (Table 03-13). -/
def Reg.CMPn_CFG_plane (i : Nat) : Fld := ⟨0x104000 + 0x40 * i, 10, 4⟩
/-- CMPn_CFG.pin, bits 19:16 (Table 03-13). -/
def Reg.CMPn_CFG_pin (i : Nat) : Fld := ⟨0x104000 + 0x40 * i, 16, 4⟩
/-- CMPn_CFG.pin_en, bits 20:20 (Table 03-13). -/
def Reg.CMPn_CFG_pin_en (i : Nat) : Fld := ⟨0x104000 + 0x40 * i, 20, 1⟩
/-- CMPn_CFG.cam, bits 23:21 (Table 03-13). -/
def Reg.CMPn_CFG_cam (i : Nat) : Fld := ⟨0x104000 + 0x40 * i, 21, 3⟩
/-- CMPn_TARGET_LO.v, bits 31:0 (R71). -/
def Reg.CMPn_TARGET_LO (i : Nat) : Fld := ⟨0x104004 + 0x40 * i, 0, 32⟩
/-- CMPn_TARGET_HI.v, bits 31:0 (R71). -/
def Reg.CMPn_TARGET_HI (i : Nat) : Fld := ⟨0x104008 + 0x40 * i, 0, 32⟩
/-- CMPn_INTERVAL.v, bits 31:0 (R77). -/
def Reg.CMPn_INTERVAL (i : Nat) : Fld := ⟨0x10400c + 0x40 * i, 0, 32⟩
/-- CMPn_WIDTH.width, bits 15:0 (R83). -/
def Reg.CMPn_WIDTH_width (i : Nat) : Fld := ⟨0x104010 + 0x40 * i, 0, 16⟩
/-- CMPn_WIDTH.repeat, bits 31:16 (R83). -/
def Reg.CMPn_WIDTH_repeat (i : Nat) : Fld := ⟨0x104010 + 0x40 * i, 16, 16⟩
/-- CMPn_CTRL.arm, bits 0:0 (R83). -/
def Reg.CMPn_CTRL_arm (i : Nat) : Fld := ⟨0x104014 + 0x40 * i, 0, 1⟩
/-- CMPn_CTRL.disarm, bits 1:1 (R83). -/
def Reg.CMPn_CTRL_disarm (i : Nat) : Fld := ⟨0x104014 + 0x40 * i, 1, 1⟩
/-- CMPn_STATUS.state, bits 1:0 (Table 03-14). -/
def Reg.CMPn_STATUS_state (i : Nat) : Fld := ⟨0x104018 + 0x40 * i, 0, 2⟩
/-- CMPn_STATUS.unpredicted, bits 2:2 (Table 03-14). -/
def Reg.CMPn_STATUS_unpredicted (i : Nat) : Fld := ⟨0x104018 + 0x40 * i, 2, 1⟩
/-- CMPn_STATUS.late_pulse, bits 3:3 (Table 03-14). -/
def Reg.CMPn_STATUS_late_pulse (i : Nat) : Fld := ⟨0x104018 + 0x40 * i, 3, 1⟩
/-- CMPn_STATUS.overlap, bits 4:4 (Table 03-14). -/
def Reg.CMPn_STATUS_overlap (i : Nat) : Fld := ⟨0x104018 + 0x40 * i, 4, 1⟩
/-- CMPn_STATUS.bad_target, bits 5:5 (Table 03-14). -/
def Reg.CMPn_STATUS_bad_target (i : Nat) : Fld := ⟨0x104018 + 0x40 * i, 5, 1⟩
/-- CMPn_STATUS.skip_count, bits 23:16 (Table 03-14). -/
def Reg.CMPn_STATUS_skip_count (i : Nat) : Fld := ⟨0x104018 + 0x40 * i, 16, 8⟩
/-- CMPn_LAST_TIME_LO.v, bits 31:0 (R79). -/
def Reg.CMPn_LAST_TIME_LO (i : Nat) : Fld := ⟨0x10401c + 0x40 * i, 0, 32⟩
/-- CMPn_LAST_TIME_HI.v, bits 31:0 (R79). -/
def Reg.CMPn_LAST_TIME_HI (i : Nat) : Fld := ⟨0x104020 + 0x40 * i, 0, 32⟩
/-- CMPn_LAST_POS_LO.v, bits 31:0 (R79). -/
def Reg.CMPn_LAST_POS_LO (i : Nat) : Fld := ⟨0x104024 + 0x40 * i, 0, 32⟩
/-- CMPn_LAST_POS_HI.v, bits 31:0 (R79). -/
def Reg.CMPn_LAST_POS_HI (i : Nat) : Fld := ⟨0x104028 + 0x40 * i, 0, 32⟩
/-- CMP_PINk.polarity, bits 0:0 (R83). -/
def Reg.CMP_PINk_polarity (i : Nat) : Fld := ⟨0x105000 + 0x4 * i, 0, 1⟩
/-- CMP_PINk.drive_en, bits 1:1 (R83). -/
def Reg.CMP_PINk_drive_en (i : Nat) : Fld := ⟨0x105000 + 0x4 * i, 1, 1⟩
/-- TB_CTRL.snapshot, bits 0:0 (Table 04-10). -/
def Reg.TB_CTRL_snapshot : Fld := ⟨0x140000, 0, 1⟩
/-- TB_CTRL.step_tb3, bits 1:1 (Table 04-10). -/
def Reg.TB_CTRL_step_tb3 : Fld := ⟨0x140000, 1, 1⟩
/-- TB3_CFG.select, bits 1:0 (Table 04-11). -/
def Reg.TB3_CFG_select : Fld := ⟨0x140004, 0, 2⟩
/-- TB3_CFG.revert, bits 2:2 (Table 04-11). -/
def Reg.TB3_CFG_revert : Fld := ⟨0x140004, 2, 1⟩
/-- TB3_CFG.slew_ppm, bits 15:8 (Table 04-11). -/
def Reg.TB3_CFG_slew_ppm : Fld := ⟨0x140004, 8, 8⟩
/-- TB3_CFG.disagree_ns, bits 31:16 (Table 04-11). -/
def Reg.TB3_CFG_disagree_ns : Fld := ⟨0x140004, 16, 16⟩
/-- TB_STATUS.src, bits 1:0 (R103). -/
def Reg.TB_STATUS_src : Fld := ⟨0x140008, 0, 2⟩
/-- TB_STATUS.tb3_aligned, bits 2:2 (R103). -/
def Reg.TB_STATUS_tb3_aligned : Fld := ⟨0x140008, 2, 1⟩
/-- TB_STATUS.slewing, bits 3:3 (R103). -/
def Reg.TB_STATUS_slewing : Fld := ⟨0x140008, 3, 1⟩
/-- TB_STATUS.switched, bits 4:4 (R103). -/
def Reg.TB_STATUS_switched : Fld := ⟨0x140008, 4, 1⟩
/-- TB_STATUS.stepped, bits 5:5 (R103). -/
def Reg.TB_STATUS_stepped : Fld := ⟨0x140008, 5, 1⟩
/-- TB_STATUS.disagree, bits 6:6 (R103). -/
def Reg.TB_STATUS_disagree : Fld := ⟨0x140008, 6, 1⟩
/-- TB3_OFFSET.offset, bits 31:0 (Table 04-10). -/
def Reg.TB3_OFFSET : Fld := ⟨0x14000c, 0, 32⟩
/-- TBk_SNAP_LO.v, bits 31:0 (R102). -/
def Reg.TBk_SNAP_LO (i : Nat) : Fld := ⟨0x140010 + 0x10 * i, 0, 32⟩
/-- TBk_SNAP_HI.v, bits 31:0 (R102). -/
def Reg.TBk_SNAP_HI (i : Nat) : Fld := ⟨0x140014 + 0x10 * i, 0, 32⟩
/-- TBk_SNAP_FRAC.frac, bits 15:0 (R102). -/
def Reg.TBk_SNAP_FRAC_frac (i : Nat) : Fld := ⟨0x140018 + 0x10 * i, 0, 16⟩
/-- PTP0_CFG.enable, bits 0:0 (Table 04-12). -/
def Reg.PTP0_CFG_enable : Fld := ⟨0x141000, 0, 1⟩
/-- PTP0_CFG.port, bits 1:1 (Table 04-12). -/
def Reg.PTP0_CFG_port : Fld := ⟨0x141000, 1, 1⟩
/-- PTP0_CFG.profile, bits 3:2 (Table 04-12). -/
def Reg.PTP0_CFG_profile : Fld := ⟨0x141000, 2, 2⟩
/-- PTP0_CFG.transport, bits 4:4 (Table 04-12). -/
def Reg.PTP0_CFG_transport : Fld := ⟨0x141000, 4, 1⟩
/-- PTP0_CFG.domain_number, bits 15:8 (Table 04-12). -/
def Reg.PTP0_CFG_domain_number : Fld := ⟨0x141000, 8, 8⟩
/-- PTP0_CFG.sync_loss_count, bits 19:16 (Table 04-12). -/
def Reg.PTP0_CFG_sync_loss_count : Fld := ⟨0x141000, 16, 4⟩
/-- PTP1_CFG.enable, bits 0:0 (Table 04-12). -/
def Reg.PTP1_CFG_enable : Fld := ⟨0x141100, 0, 1⟩
/-- PTP1_CFG.port, bits 1:1 (Table 04-12). -/
def Reg.PTP1_CFG_port : Fld := ⟨0x141100, 1, 1⟩
/-- PTP1_CFG.profile, bits 3:2 (Table 04-12). -/
def Reg.PTP1_CFG_profile : Fld := ⟨0x141100, 2, 2⟩
/-- PTP1_CFG.transport, bits 4:4 (Table 04-12). -/
def Reg.PTP1_CFG_transport : Fld := ⟨0x141100, 4, 1⟩
/-- PTP1_CFG.domain_number, bits 15:8 (Table 04-12). -/
def Reg.PTP1_CFG_domain_number : Fld := ⟨0x141100, 8, 8⟩
/-- PTP1_CFG.sync_loss_count, bits 19:16 (Table 04-12). -/
def Reg.PTP1_CFG_sync_loss_count : Fld := ⟨0x141100, 16, 4⟩
/-- PTPd_SERVO.lock_ns, bits 15:0 (Table 04-10). -/
def Reg.PTPd_SERVO_lock_ns (i : Nat) : Fld := ⟨0x141004 + 0x100 * i, 0, 16⟩
/-- PTPd_SERVO.step_us, bits 31:16 (Table 04-10). -/
def Reg.PTPd_SERVO_step_us (i : Nat) : Fld := ⟨0x141004 + 0x100 * i, 16, 16⟩
/-- PTPd_STATUS.state, bits 1:0 (Table 04-13). -/
def Reg.PTPd_STATUS_state (i : Nat) : Fld := ⟨0x141008 + 0x100 * i, 0, 2⟩
/-- PTPd_STATUS.eligible, bits 2:2 (Table 04-13). -/
def Reg.PTPd_STATUS_eligible (i : Nat) : Fld := ⟨0x141008 + 0x100 * i, 2, 1⟩
/-- PTPd_STATUS.stepped, bits 3:3 (Table 04-13). -/
def Reg.PTPd_STATUS_stepped (i : Nat) : Fld := ⟨0x141008 + 0x100 * i, 3, 1⟩
/-- PTPd_STATUS.holdover_seen, bits 4:4 (Table 04-13). -/
def Reg.PTPd_STATUS_holdover_seen (i : Nat) : Fld := ⟨0x141008 + 0x100 * i, 4, 1⟩
/-- PTPd_STATUS.ignored_count, bits 31:16 (Table 04-13). -/
def Reg.PTPd_STATUS_ignored_count (i : Nat) : Fld := ⟨0x141008 + 0x100 * i, 16, 16⟩
/-- PTPd_OFFSET.v, bits 31:0 (Table 04-10). -/
def Reg.PTPd_OFFSET (i : Nat) : Fld := ⟨0x14100c + 0x100 * i, 0, 32⟩
/-- PTPd_PATH_DELAY.v, bits 31:0 (Table 04-10). -/
def Reg.PTPd_PATH_DELAY (i : Nat) : Fld := ⟨0x141010 + 0x100 * i, 0, 32⟩
/-- PTPd_RATE.v, bits 31:0 (Table 04-10). -/
def Reg.PTPd_RATE (i : Nat) : Fld := ⟨0x141014 + 0x100 * i, 0, 32⟩
/-- PTPd_GM_ID_LO.v, bits 31:0 (Table 04-10). -/
def Reg.PTPd_GM_ID_LO (i : Nat) : Fld := ⟨0x141018 + 0x100 * i, 0, 32⟩
/-- PTPd_GM_ID_HI.v, bits 31:0 (Table 04-10). -/
def Reg.PTPd_GM_ID_HI (i : Nat) : Fld := ⟨0x14101c + 0x100 * i, 0, 32⟩
/-- PTP_PORTp_DELAY.tx_delay, bits 15:0 (R90). -/
def Reg.PTP_PORTp_DELAY_tx_delay (i : Nat) : Fld := ⟨0x142000 + 0x40 * i, 0, 16⟩
/-- PTP_PORTp_DELAY.rx_delay, bits 31:16 (R90). -/
def Reg.PTP_PORTp_DELAY_rx_delay (i : Nat) : Fld := ⟨0x142000 + 0x40 * i, 16, 16⟩
/-- WC_NET_CFG.encap, bits 0:0 (R103). -/
def Reg.WC_NET_CFG_encap : Fld := ⟨0x143000, 0, 1⟩
/-- WC_NET_CFG.ethertype, bits 31:16 (R103). -/
def Reg.WC_NET_CFG_ethertype : Fld := ⟨0x143000, 16, 16⟩
/-- WC_DEST_MAC_LO.v, bits 31:0 (Table 04-10). -/
def Reg.WC_DEST_MAC_LO : Fld := ⟨0x143004, 0, 32⟩
/-- WC_DEST_MAC_HI.v, bits 15:0 (Table 04-10). -/
def Reg.WC_DEST_MAC_HI : Fld := ⟨0x143008, 0, 16⟩
/-- WC_IP_SRC.v, bits 31:0 (Table 04-10). -/
def Reg.WC_IP_SRC : Fld := ⟨0x14300c, 0, 32⟩
/-- WC_IP_DST.v, bits 31:0 (Table 04-10). -/
def Reg.WC_IP_DST : Fld := ⟨0x143010, 0, 32⟩
/-- WC_UDP.port, bits 15:0 (Table 04-10). -/
def Reg.WC_UDP_port : Fld := ⟨0x143014, 0, 16⟩
/-- WCP_COUNT_PM.v, bits 31:0 (Table 04-10). -/
def Reg.WCP_COUNT_PM : Fld := ⟨0x143018, 0, 32⟩
/-- WCP_CFG.enable, bits 0:0 (R103). -/
def Reg.WCP_CFG_enable : Fld := ⟨0x143020, 0, 1⟩
/-- WCP_CFG.domain, bits 1:1 (R103). -/
def Reg.WCP_CFG_domain : Fld := ⟨0x143020, 1, 1⟩
/-- WCP_CFG.period_us, bits 15:4 (R103). -/
def Reg.WCP_CFG_period_us : Fld := ⟨0x143020, 4, 12⟩
/-- WCP_CFG.publisher_id, bits 31:16 (R103). -/
def Reg.WCP_CFG_publisher_id : Fld := ⟨0x143020, 16, 16⟩
/-- WCS_CFG.enable, bits 0:0 (R103). -/
def Reg.WCS_CFG_enable : Fld := ⟨0x143024, 0, 1⟩
/-- WCS_CFG.stale_us, bits 19:8 (R103). -/
def Reg.WCS_CFG_stale_us : Fld := ⟨0x143024, 8, 12⟩
/-- WCS_CFG.max_age_us, bits 31:20 (R103). -/
def Reg.WCS_CFG_max_age_us : Fld := ⟨0x143024, 20, 12⟩
/-- WCS_ID.publisher_id, bits 15:0 (Table 04-10). -/
def Reg.WCS_ID_publisher_id : Fld := ⟨0x143028, 0, 16⟩
/-- WCS_STATUS.stale, bits 0:0 (Table 04-10). -/
def Reg.WCS_STATUS_stale : Fld := ⟨0x14302c, 0, 1⟩
/-- WCS_STATUS.reason, bits 2:1 (Table 04-10). -/
def Reg.WCS_STATUS_reason : Fld := ⟨0x14302c, 1, 2⟩
/-- WCS_STATUS.stale_seen, bits 3:3 (Table 04-10). -/
def Reg.WCS_STATUS_stale_seen : Fld := ⟨0x14302c, 3, 1⟩
/-- WCS_STATUS.last_sequence, bits 31:16 (Table 04-10). -/
def Reg.WCS_STATUS_last_sequence : Fld := ⟨0x14302c, 16, 16⟩
/-- WCS_REJECT.id_reject, bits 7:0 (Table 04-10). -/
def Reg.WCS_REJECT_id_reject : Fld := ⟨0x143030, 0, 8⟩
/-- WCS_REJECT.crc_reject, bits 15:8 (Table 04-10). -/
def Reg.WCS_REJECT_crc_reject : Fld := ⟨0x143030, 8, 8⟩
/-- WCS_REJECT.domain_reject, bits 23:16 (Table 04-10). -/
def Reg.WCS_REJECT_domain_reject : Fld := ⟨0x143030, 16, 8⟩
/-- WCS_REJECT.seq_reject, bits 31:24 (Table 04-10). -/
def Reg.WCS_REJECT_seq_reject : Fld := ⟨0x143030, 24, 8⟩
/-- SCM_CFG.enable, bits 0:0 (Table 04-10). -/
def Reg.SCM_CFG_enable : Fld := ⟨0x143034, 0, 1⟩
/-- SCM_CFG.domain, bits 1:1 (Table 04-10). -/
def Reg.SCM_CFG_domain : Fld := ⟨0x143034, 1, 1⟩
/-- WCS_REJECT_AGE.age_reject, bits 7:0 (Table 04-10). -/
def Reg.WCS_REJECT_AGE_age_reject : Fld := ⟨0x143038, 0, 8⟩
/-- LS_STREAM_CFG.lpi, bits 0:0 (Table 05-13). -/
def Reg.LS_STREAM_CFG_lpi : Fld := ⟨0x180000, 0, 1⟩
/-- LS_STREAM_CFG.one_bit, bits 1:1 (Table 05-13). -/
def Reg.LS_STREAM_CFG_one_bit : Fld := ⟨0x180000, 1, 1⟩
/-- LS_STREAM_CFG.sheet_mode, bits 2:2 (Table 05-13). -/
def Reg.LS_STREAM_CFG_sheet_mode : Fld := ⟨0x180000, 2, 1⟩
/-- LS_STREAM_CFG.sheet_trig, bits 5:3 (Table 05-13). -/
def Reg.LS_STREAM_CFG_sheet_trig : Fld := ⟨0x180000, 3, 3⟩
/-- LS_CPL_LO.v, bits 31:0 (R104). -/
def Reg.LS_CPL_LO : Fld := ⟨0x180004, 0, 32⟩
/-- LS_CPL_HI.v, bits 31:0 (R104). -/
def Reg.LS_CPL_HI : Fld := ⟨0x180008, 0, 32⟩
/-- LS_LEAD.lead, bits 10:0 (Table 05-14). -/
def Reg.LS_LEAD_lead : Fld := ⟨0x18000c, 0, 11⟩
/-- LS_LEAD.lead_in_force, bits 26:16 (Table 05-14). -/
def Reg.LS_LEAD_lead_in_force : Fld := ⟨0x18000c, 16, 11⟩
/-- LS_BIND_CFG.horizon_us, bits 6:0 (Table 05-15). -/
def Reg.LS_BIND_CFG_horizon_us : Fld := ⟨0x180010, 0, 7⟩
/-- LS_BIND_CFG.late_guard_us, bits 11:8 (Table 05-15). -/
def Reg.LS_BIND_CFG_late_guard_us : Fld := ⟨0x180010, 8, 4⟩
/-- LS_START_MARGIN.lines, bits 15:0 (Table 05-12). -/
def Reg.LS_START_MARGIN_lines : Fld := ⟨0x180014, 0, 16⟩
/-- LS_SHEET_OFFSET.offset, bits 31:0 (Table 05-12). -/
def Reg.LS_SHEET_OFFSET : Fld := ⟨0x180018, 0, 32⟩
/-- LS_SHEET_GAP.max_gap_lines, bits 23:0 (Table 05-12). -/
def Reg.LS_SHEET_GAP_max_gap_lines : Fld := ⟨0x18001c, 0, 24⟩
/-- LS_CEIL_CFG.pwm_freq, bits 1:0 (Table 05-12). -/
def Reg.LS_CEIL_CFG_pwm_freq : Fld := ⟨0x180020, 0, 2⟩
/-- LS_MEM_BUDGET.gbps, bits 7:0 (Table 05-12). -/
def Reg.LS_MEM_BUDGET_gbps : Fld := ⟨0x180024, 0, 8⟩
/-- LS_EVENT_CFG.parting_events, bits 0:0 (Table 05-12). -/
def Reg.LS_EVENT_CFG_parting_events : Fld := ⟨0x180028, 0, 1⟩
/-- LS_STATUS.origin_set, bits 0:0 (Table 05-16). -/
def Reg.LS_STATUS_origin_set : Fld := ⟨0x180030, 0, 1⟩
/-- LS_STATUS.draining, bits 1:1 (Table 05-16). -/
def Reg.LS_STATUS_draining : Fld := ⟨0x180030, 1, 1⟩
/-- LS_STATUS.sheet_wait, bits 2:2 (Table 05-16). -/
def Reg.LS_STATUS_sheet_wait : Fld := ⟨0x180030, 2, 1⟩
/-- LS_STATUS.lead_refused, bits 3:3 (Table 05-16). -/
def Reg.LS_STATUS_lead_refused : Fld := ⟨0x180030, 3, 1⟩
/-- LS_STATUS.late, bits 4:4 (Table 05-16). -/
def Reg.LS_STATUS_late : Fld := ⟨0x180030, 4, 1⟩
/-- LS_STATUS.skipped, bits 5:5 (Table 05-16). -/
def Reg.LS_STATUS_skipped : Fld := ⟨0x180030, 5, 1⟩
/-- LS_STATUS.over_ceiling, bits 6:6 (Table 05-16). -/
def Reg.LS_STATUS_over_ceiling : Fld := ⟨0x180030, 6, 1⟩
/-- LS_STATUS.table_late, bits 7:7 (Table 05-16). -/
def Reg.LS_STATUS_table_late : Fld := ⟨0x180030, 7, 1⟩
/-- LS_STATUS.sheet_late, bits 8:8 (Table 05-16). -/
def Reg.LS_STATUS_sheet_late : Fld := ⟨0x180030, 8, 1⟩
/-- LS_STATUS.sheet_missing, bits 9:9 (Table 05-16). -/
def Reg.LS_STATUS_sheet_missing : Fld := ⟨0x180030, 9, 1⟩
/-- LS_STATUS.edges_ignored, bits 31:16 (Table 05-16). -/
def Reg.LS_STATUS_edges_ignored : Fld := ⟨0x180030, 16, 16⟩
/-- LS_CEILING.ceiling, bits 16:0 (R544). -/
def Reg.LS_CEILING_ceiling : Fld := ⟨0x180034, 0, 17⟩
/-- LS_CEILING.code, bits 31:24 (R544). -/
def Reg.LS_CEILING_code : Fld := ⟨0x180034, 24, 8⟩
/-- LS_CEIL_DETAIL.detail, bits 15:0 (R544). -/
def Reg.LS_CEIL_DETAIL_detail : Fld := ⟨0x180038, 0, 16⟩
/-- LS_CEIL_TERMi.term, bits 16:0 (Table 05-12). -/
def Reg.LS_CEIL_TERMi_term (i : Nat) : Fld := ⟨0x180040 + 0x4 * i, 0, 17⟩
/-- LS_CEIL_TERMi.who, bits 31:24 (Table 05-12). -/
def Reg.LS_CEIL_TERMi_who (i : Nat) : Fld := ⟨0x180040 + 0x4 * i, 24, 8⟩
/-- LS_ORIGIN_LO.v, bits 31:0 (Table 05-12). -/
def Reg.LS_ORIGIN_LO : Fld := ⟨0x180060, 0, 32⟩
/-- LS_ORIGIN_HI.v, bits 31:0 (Table 05-12). -/
def Reg.LS_ORIGIN_HI : Fld := ⟨0x180064, 0, 32⟩
/-- LS_REF_LINE_LO.v, bits 31:0 (Table 05-12). -/
def Reg.LS_REF_LINE_LO : Fld := ⟨0x180068, 0, 32⟩
/-- LS_REF_LINE_HI.v, bits 15:0 (Table 05-12). -/
def Reg.LS_REF_LINE_HI : Fld := ⟨0x18006c, 0, 16⟩
/-- LS_COMMIT_LINE_LO.v, bits 31:0 (Table 05-12). -/
def Reg.LS_COMMIT_LINE_LO : Fld := ⟨0x180070, 0, 32⟩
/-- LS_COMMIT_LINE_HI.v, bits 15:0 (Table 05-12). -/
def Reg.LS_COMMIT_LINE_HI : Fld := ⟨0x180074, 0, 16⟩
/-- LS_NEXT_PARTING_LO.v, bits 31:0 (Table 05-12). -/
def Reg.LS_NEXT_PARTING_LO : Fld := ⟨0x180078, 0, 32⟩
/-- LS_NEXT_PARTING_HI.v, bits 15:0 (Table 05-12). -/
def Reg.LS_NEXT_PARTING_HI : Fld := ⟨0x18007c, 0, 16⟩
/-- LS_SKIP_COUNT.v, bits 31:0 (R116). -/
def Reg.LS_SKIP_COUNT : Fld := ⟨0x180080, 0, 32⟩
/-- LS_LATE_COUNT.v, bits 31:0 (R120). -/
def Reg.LS_LATE_COUNT : Fld := ⟨0x180084, 0, 32⟩
/-- RSn_STATUS.state, bits 2:0 (Table 06-11). -/
def Reg.RSn_STATUS_state (i : Nat) : Fld := ⟨0x200000 + 0x10000 * i, 0, 3⟩
/-- RSn_STATUS.plane, bits 6:3 (Table 06-11). -/
def Reg.RSn_STATUS_plane (i : Nat) : Fld := ⟨0x200000 + 0x10000 * i, 3, 4⟩
/-- RSn_STATUS.subst_seen, bits 8:8 (Table 06-11). -/
def Reg.RSn_STATUS_subst_seen (i : Nat) : Fld := ⟨0x200000 + 0x10000 * i, 8, 1⟩
/-- RSn_STATUS.poison_seen, bits 9:9 (Table 06-11). -/
def Reg.RSn_STATUS_poison_seen (i : Nat) : Fld := ⟨0x200000 + 0x10000 * i, 9, 1⟩
/-- RSn_STATUS.key_unavail, bits 10:10 (Table 06-11). -/
def Reg.RSn_STATUS_key_unavail (i : Nat) : Fld := ⟨0x200000 + 0x10000 * i, 10, 1⟩
/-- RSn_STATUS.late_seen, bits 11:11 (Table 06-11). -/
def Reg.RSn_STATUS_late_seen (i : Nat) : Fld := ⟨0x200000 + 0x10000 * i, 11, 1⟩
/-- RSn_LINE_LO.v, bits 31:0 (Table 06-10). -/
def Reg.RSn_LINE_LO (i : Nat) : Fld := ⟨0x200004 + 0x10000 * i, 0, 32⟩
/-- RSn_LINE_HI.v, bits 15:0 (Table 06-10). -/
def Reg.RSn_LINE_HI (i : Nat) : Fld := ⟨0x200008 + 0x10000 * i, 0, 16⟩
/-- RSn_SUBST_COUNT.v, bits 31:0 (Table 06-10). -/
def Reg.RSn_SUBST_COUNT (i : Nat) : Fld := ⟨0x20000c + 0x10000 * i, 0, 32⟩
/-- RSn_LATE_COUNT.v, bits 31:0 (Table 06-10). -/
def Reg.RSn_LATE_COUNT (i : Nat) : Fld := ⟨0x200010 + 0x10000 * i, 0, 32⟩
/-- RSn_UNCOVERED.v, bits 31:0 (Table 06-10). -/
def Reg.RSn_UNCOVERED (i : Nat) : Fld := ⟨0x200014 + 0x10000 * i, 0, 32⟩
/-- RSn_UNUSABLE.v, bits 31:0 (Table 06-10). -/
def Reg.RSn_UNUSABLE (i : Nat) : Fld := ⟨0x200018 + 0x10000 * i, 0, 32⟩
/-- RSn_BIST.done, bits 0:0 (Table 06-10). -/
def Reg.RSn_BIST_done (i : Nat) : Fld := ⟨0x20001c + 0x10000 * i, 0, 1⟩
/-- RSn_BIST.pass, bits 1:1 (Table 06-10). -/
def Reg.RSn_BIST_pass (i : Nat) : Fld := ⟨0x20001c + 0x10000 * i, 1, 1⟩
/-- RS_MAP_LO.map, bits 31:0 (R134). -/
def Reg.RS_MAP_LO_map : Fld := ⟨0x2f0000, 0, 32⟩
/-- RS_MAP_HI.map, bits 7:0 (R134). -/
def Reg.RS_MAP_HI_map : Fld := ⟨0x2f0004, 0, 8⟩
/-- RS_SPARE_CFG.auto_takeover, bits 0:0 (Table 06-13). -/
def Reg.RS_SPARE_CFG_auto_takeover : Fld := ⟨0x2f0008, 0, 1⟩
/-- RS_SPARE_CFG.audit_en, bits 1:1 (Table 06-13). -/
def Reg.RS_SPARE_CFG_audit_en : Fld := ⟨0x2f0008, 1, 1⟩
/-- RS_SPARE_CFG.audit_dwell, bits 23:8 (Table 06-13). -/
def Reg.RS_SPARE_CFG_audit_dwell : Fld := ⟨0x2f0008, 8, 16⟩
/-- RS_SPARE_CTRL.take_slice, bits 3:0 (R166). -/
def Reg.RS_SPARE_CTRL_take_slice : Fld := ⟨0x2f000c, 0, 4⟩
/-- RS_SPARE_CTRL.take, bits 4:4 (R166). -/
def Reg.RS_SPARE_CTRL_take : Fld := ⟨0x2f000c, 4, 1⟩
/-- RS_SPARE_CTRL.restore_slice, bits 11:8 (R166). -/
def Reg.RS_SPARE_CTRL_restore_slice : Fld := ⟨0x2f000c, 8, 4⟩
/-- RS_SPARE_CTRL.restore, bits 12:12 (R166). -/
def Reg.RS_SPARE_CTRL_restore : Fld := ⟨0x2f000c, 12, 1⟩
/-- RS_SPARE_STATUS.state, bits 2:0 (R166). -/
def Reg.RS_SPARE_STATUS_state : Fld := ⟨0x2f0010, 0, 3⟩
/-- RS_SPARE_STATUS.plane, bits 6:3 (R166). -/
def Reg.RS_SPARE_STATUS_plane : Fld := ⟨0x2f0010, 3, 4⟩
/-- RS_SPARE_STATUS.mismatch, bits 8:8 (R166). -/
def Reg.RS_SPARE_STATUS_mismatch : Fld := ⟨0x2f0010, 8, 1⟩
/-- RS_SPARE_STATUS.takeover, bits 9:9 (R166). -/
def Reg.RS_SPARE_STATUS_takeover : Fld := ⟨0x2f0010, 9, 1⟩
/-- RS_AUDIT_COUNT.v, bits 31:0 (Table 06-10). -/
def Reg.RS_AUDIT_COUNT : Fld := ⟨0x2f0014, 0, 32⟩
/-- RS_AUDIT_MISMATCH.v, bits 15:0 (Table 06-10). -/
def Reg.RS_AUDIT_MISMATCH : Fld := ⟨0x2f0018, 0, 16⟩
/-- RS_UNUSABLE_MASK.mask, bits 15:0 (R154). -/
def Reg.RS_UNUSABLE_MASK_mask : Fld := ⟨0x2f001c, 0, 16⟩
/-- RS_REDIST_CFG.w1, bits 3:0 (R166). -/
def Reg.RS_REDIST_CFG_w1 : Fld := ⟨0x2f0020, 0, 4⟩
/-- RS_REDIST_CFG.w2, bits 7:4 (R166). -/
def Reg.RS_REDIST_CFG_w2 : Fld := ⟨0x2f0020, 4, 4⟩
/-- RS_REDIST_CFG.gain, bits 17:8 (R166). -/
def Reg.RS_REDIST_CFG_gain : Fld := ⟨0x2f0020, 8, 10⟩
/-- RS_PLANEq_CFG.prescreened, bits 0:0 (Table 06-12). -/
def Reg.RS_PLANEq_CFG_prescreened (i : Nat) : Fld := ⟨0x2f0040 + 0x4 * i, 0, 1⟩
/-- RS_PLANEq_CFG.kernel_x, bits 1:1 (Table 06-12). -/
def Reg.RS_PLANEq_CFG_kernel_x (i : Nat) : Fld := ⟨0x2f0040 + 0x4 * i, 1, 1⟩
/-- RS_PLANEq_CFG.kernel_y, bits 2:2 (Table 06-12). -/
def Reg.RS_PLANEq_CFG_kernel_y (i : Nat) : Fld := ⟨0x2f0040 + 0x4 * i, 2, 1⟩
/-- RS_PLANEq_CFG.subst_mode, bits 3:3 (Table 06-12). -/
def Reg.RS_PLANEq_CFG_subst_mode (i : Nat) : Fld := ⟨0x2f0040 + 0x4 * i, 3, 1⟩
/-- RS_PLANEq_CFG.max_repeat, bits 11:4 (Table 06-12). -/
def Reg.RS_PLANEq_CFG_max_repeat (i : Nat) : Fld := ⟨0x2f0040 + 0x4 * i, 4, 8⟩
/-- RS_PLANEq_CFG.x_start, bits 28:12 (Table 06-12). -/
def Reg.RS_PLANEq_CFG_x_start (i : Nat) : Fld := ⟨0x2f0040 + 0x4 * i, 12, 17⟩
/-- SEAM_STATUS.refused, bits 0:0 (Table 07-8). -/
def Reg.SEAM_STATUS_refused : Fld := ⟨0x300000, 0, 1⟩
/-- SEAM_STATUS.phase_limit, bits 1:1 (Table 07-8). -/
def Reg.SEAM_STATUS_phase_limit : Fld := ⟨0x300000, 1, 1⟩
/-- SEAM_STATUS.map_late, bits 2:2 (Table 07-8). -/
def Reg.SEAM_STATUS_map_late : Fld := ⟨0x300000, 2, 1⟩
/-- SEAM_STATUS.switch_loss, bits 3:3 (Table 07-8). -/
def Reg.SEAM_STATUS_switch_loss : Fld := ⟨0x300000, 3, 1⟩
/-- SEAM_STATUS.ring_poison, bits 4:4 (Table 07-8). -/
def Reg.SEAM_STATUS_ring_poison : Fld := ⟨0x300000, 4, 1⟩
/-- SEAM_STATUS.skew_poison, bits 5:5 (Table 07-8). -/
def Reg.SEAM_STATUS_skew_poison : Fld := ⟨0x300000, 5, 1⟩
/-- SEAM_STATUS.bank_spared, bits 6:6 (Table 07-8). -/
def Reg.SEAM_STATUS_bank_spared : Fld := ⟨0x300000, 6, 1⟩
/-- SEAM_LAST_REFUSAL.reason, bits 3:0 (Table 07-9). -/
def Reg.SEAM_LAST_REFUSAL_reason : Fld := ⟨0x300004, 0, 4⟩
/-- SEAM_LAST_REFUSAL.head, bits 15:8 (Table 07-9). -/
def Reg.SEAM_LAST_REFUSAL_head : Fld := ⟨0x300004, 8, 8⟩
/-- SEAM_LAST_REFUSAL.slot, bits 19:16 (Table 07-9). -/
def Reg.SEAM_LAST_REFUSAL_slot : Fld := ⟨0x300004, 16, 4⟩
/-- SEAM_POISON_COUNT.v, bits 31:0 (R186). -/
def Reg.SEAM_POISON_COUNT : Fld := ⟨0x300008, 0, 32⟩
/-- SEAM_SWITCH_LOSS.v, bits 31:0 (R183). -/
def Reg.SEAM_SWITCH_LOSS : Fld := ⟨0x30000c, 0, 32⟩
/-- SEAM_PLANEq.depth_max, bits 5:0 (Table 07-10). -/
def Reg.SEAM_PLANEq_depth_max (i : Nat) : Fld := ⟨0x300100 + 0x4 * i, 0, 6⟩
/-- SEAM_PLANEq.spared_bank, bits 11:8 (Table 07-10). -/
def Reg.SEAM_PLANEq_spared_bank (i : Nat) : Fld := ⟨0x300100 + 0x4 * i, 8, 4⟩
/-- SEAM_PLANEq.spare_in_use, bits 12:12 (Table 07-10). -/
def Reg.SEAM_PLANEq_spare_in_use (i : Nat) : Fld := ⟨0x300100 + 0x4 * i, 12, 1⟩
/-- SEAM_PLANEq.copying, bits 13:13 (Table 07-10). -/
def Reg.SEAM_PLANEq_copying (i : Nat) : Fld := ⟨0x300100 + 0x4 * i, 13, 1⟩
/-- LANEn_CFG.enable, bits 0:0 (Table 08-10). -/
def Reg.LANEn_CFG_enable (i : Nat) : Fld := ⟨0x400000 + 0x1000 * i, 0, 1⟩
/-- LANEn_CFG.rate, bits 2:1 (Table 08-10). -/
def Reg.LANEn_CFG_rate (i : Nat) : Fld := ⟨0x400000 + 0x1000 * i, 1, 2⟩
/-- LANEn_CFG.tx_invert, bits 3:3 (Table 08-10). -/
def Reg.LANEn_CFG_tx_invert (i : Nat) : Fld := ⟨0x400000 + 0x1000 * i, 3, 1⟩
/-- LANEn_CFG.rx_invert, bits 4:4 (Table 08-10). -/
def Reg.LANEn_CFG_rx_invert (i : Nat) : Fld := ⟨0x400000 + 0x1000 * i, 4, 1⟩
/-- LANEn_CFG.auto_retrain, bits 5:5 (Table 08-10). -/
def Reg.LANEn_CFG_auto_retrain (i : Nat) : Fld := ⟨0x400000 + 0x1000 * i, 5, 1⟩
/-- LANEn_CFG.adapt_freeze, bits 6:6 (Table 08-10). -/
def Reg.LANEn_CFG_adapt_freeze (i : Nat) : Fld := ⟨0x400000 + 0x1000 * i, 6, 1⟩
/-- LANEn_CFG.max_attempts, bits 11:8 (Table 08-10). -/
def Reg.LANEn_CFG_max_attempts (i : Nat) : Fld := ⟨0x400000 + 0x1000 * i, 8, 4⟩
/-- LANEn_CFG.train_timeout_ms, bits 19:12 (Table 08-10). -/
def Reg.LANEn_CFG_train_timeout_ms (i : Nat) : Fld := ⟨0x400000 + 0x1000 * i, 12, 8⟩
/-- LANEn_CTRL.retrain, bits 0:0 (Table 08-9). -/
def Reg.LANEn_CTRL_retrain (i : Nat) : Fld := ⟨0x400004 + 0x1000 * i, 0, 1⟩
/-- LANEn_CTRL.sleep_tx, bits 1:1 (Table 08-9). -/
def Reg.LANEn_CTRL_sleep_tx (i : Nat) : Fld := ⟨0x400004 + 0x1000 * i, 1, 1⟩
/-- LANEn_CTRL.wake_tx, bits 2:2 (Table 08-9). -/
def Reg.LANEn_CTRL_wake_tx (i : Nat) : Fld := ⟨0x400004 + 0x1000 * i, 2, 1⟩
/-- LANEn_CTRL.sleep_rx, bits 3:3 (Table 08-9). -/
def Reg.LANEn_CTRL_sleep_rx (i : Nat) : Fld := ⟨0x400004 + 0x1000 * i, 3, 1⟩
/-- LANEn_CTRL.wake_rx, bits 4:4 (Table 08-9). -/
def Reg.LANEn_CTRL_wake_rx (i : Nat) : Fld := ⟨0x400004 + 0x1000 * i, 4, 1⟩
/-- LANEn_CTRL.eye_start, bits 5:5 (Table 08-9). -/
def Reg.LANEn_CTRL_eye_start (i : Nat) : Fld := ⟨0x400004 + 0x1000 * i, 5, 1⟩
/-- LANEn_CTRL.eye_stop, bits 6:6 (Table 08-9). -/
def Reg.LANEn_CTRL_eye_stop (i : Nat) : Fld := ⟨0x400004 + 0x1000 * i, 6, 1⟩
/-- LANEn_STATUS.state, bits 2:0 (Table 08-11). -/
def Reg.LANEn_STATUS_state (i : Nat) : Fld := ⟨0x400008 + 0x1000 * i, 0, 3⟩
/-- LANEn_STATUS.signal, bits 3:3 (Table 08-11). -/
def Reg.LANEn_STATUS_signal (i : Nat) : Fld := ⟨0x400008 + 0x1000 * i, 3, 1⟩
/-- LANEn_STATUS.block_lock, bits 4:4 (Table 08-11). -/
def Reg.LANEn_STATUS_block_lock (i : Nat) : Fld := ⟨0x400008 + 0x1000 * i, 4, 1⟩
/-- LANEn_STATUS.tx_asleep, bits 5:5 (Table 08-11). -/
def Reg.LANEn_STATUS_tx_asleep (i : Nat) : Fld := ⟨0x400008 + 0x1000 * i, 5, 1⟩
/-- LANEn_STATUS.rx_asleep, bits 6:6 (Table 08-11). -/
def Reg.LANEn_STATUS_rx_asleep (i : Nat) : Fld := ⟨0x400008 + 0x1000 * i, 6, 1⟩
/-- LANEn_STATUS.far_tx_asleep, bits 7:7 (Table 08-11). -/
def Reg.LANEn_STATUS_far_tx_asleep (i : Nat) : Fld := ⟨0x400008 + 0x1000 * i, 7, 1⟩
/-- LANEn_STATUS.went_down, bits 8:8 (Table 08-11). -/
def Reg.LANEn_STATUS_went_down (i : Nat) : Fld := ⟨0x400008 + 0x1000 * i, 8, 1⟩
/-- LANEn_STATUS.train_fail, bits 9:9 (Table 08-11). -/
def Reg.LANEn_STATUS_train_fail (i : Nat) : Fld := ⟨0x400008 + 0x1000 * i, 9, 1⟩
/-- LANEn_STATUS.hi_ber, bits 10:10 (Table 08-11). -/
def Reg.LANEn_STATUS_hi_ber (i : Nat) : Fld := ⟨0x400008 + 0x1000 * i, 10, 1⟩
/-- LANEn_STATUS.sleep_refused, bits 11:11 (Table 08-11). -/
def Reg.LANEn_STATUS_sleep_refused (i : Nat) : Fld := ⟨0x400008 + 0x1000 * i, 11, 1⟩
/-- LANEn_STATUS.eye_busy, bits 12:12 (Table 08-11). -/
def Reg.LANEn_STATUS_eye_busy (i : Nat) : Fld := ⟨0x400008 + 0x1000 * i, 12, 1⟩
/-- LANEn_STATUS.eye_done, bits 13:13 (Table 08-11). -/
def Reg.LANEn_STATUS_eye_done (i : Nat) : Fld := ⟨0x400008 + 0x1000 * i, 13, 1⟩
/-- LANEn_STATUS.attempts, bits 19:16 (Table 08-11). -/
def Reg.LANEn_STATUS_attempts (i : Nat) : Fld := ⟨0x400008 + 0x1000 * i, 16, 4⟩
/-- LANEn_TXFIR.pre, bits 3:0 (R196). -/
def Reg.LANEn_TXFIR_pre (i : Nat) : Fld := ⟨0x40000c + 0x1000 * i, 0, 4⟩
/-- LANEn_TXFIR.main, bits 13:8 (R196). -/
def Reg.LANEn_TXFIR_main (i : Nat) : Fld := ⟨0x40000c + 0x1000 * i, 8, 6⟩
/-- LANEn_TXFIR.post, bits 20:16 (R196). -/
def Reg.LANEn_TXFIR_post (i : Nat) : Fld := ⟨0x40000c + 0x1000 * i, 16, 5⟩
/-- LANEn_CTLE.ctle, bits 4:0 (R195). -/
def Reg.LANEn_CTLE_ctle (i : Nat) : Fld := ⟨0x400010 + 0x1000 * i, 0, 5⟩
/-- LANEn_DFE_LO.v, bits 31:0 (R195). -/
def Reg.LANEn_DFE_LO (i : Nat) : Fld := ⟨0x400014 + 0x1000 * i, 0, 32⟩
/-- LANEn_DFE_HI.v, bits 31:0 (R195). -/
def Reg.LANEn_DFE_HI (i : Nat) : Fld := ⟨0x400018 + 0x1000 * i, 0, 32⟩
/-- LANEn_EYE_CTRL.phase, bits 5:0 (R207). -/
def Reg.LANEn_EYE_CTRL_phase (i : Nat) : Fld := ⟨0x400020 + 0x1000 * i, 0, 6⟩
/-- LANEn_EYE_CTRL.voffset, bits 15:8 (R207). -/
def Reg.LANEn_EYE_CTRL_voffset (i : Nat) : Fld := ⟨0x400020 + 0x1000 * i, 8, 8⟩
/-- LANEn_EYE_CTRL.prescale, bits 20:16 (R207). -/
def Reg.LANEn_EYE_CTRL_prescale (i : Nat) : Fld := ⟨0x400020 + 0x1000 * i, 16, 5⟩
/-- LANEn_EYE_BITS_LO.v, bits 31:0 (R207). -/
def Reg.LANEn_EYE_BITS_LO (i : Nat) : Fld := ⟨0x400024 + 0x1000 * i, 0, 32⟩
/-- LANEn_EYE_BITS_HI.v, bits 8:0 (R207). -/
def Reg.LANEn_EYE_BITS_HI (i : Nat) : Fld := ⟨0x400028 + 0x1000 * i, 0, 9⟩
/-- LANEn_EYE_ERR.v, bits 31:0 (R207). -/
def Reg.LANEn_EYE_ERR (i : Nat) : Fld := ⟨0x40002c + 0x1000 * i, 0, 32⟩
/-- LANEn_ERRCNT.invalid_headers, bits 15:0 (Table 08-9). -/
def Reg.LANEn_ERRCNT_invalid_headers (i : Nat) : Fld := ⟨0x400030 + 0x1000 * i, 0, 16⟩
/-- LANEn_ERRCNT.lock_losses, bits 23:16 (Table 08-9). -/
def Reg.LANEn_ERRCNT_lock_losses (i : Nat) : Fld := ⟨0x400030 + 0x1000 * i, 16, 8⟩
/-- LANEn_ERRCNT.trainings, bits 31:24 (Table 08-9). -/
def Reg.LANEn_ERRCNT_trainings (i : Nat) : Fld := ⟨0x400030 + 0x1000 * i, 24, 8⟩
/-- LANEn_TRAIN_TIME.v, bits 31:0 (R199). -/
def Reg.LANEn_TRAIN_TIME (i : Nat) : Fld := ⟨0x400034 + 0x1000 * i, 0, 32⟩
/-- LANE_UP_0.up, bits 31:0 (R212). -/
def Reg.LANE_UP_0_up : Fld := ⟨0x480000, 0, 32⟩
/-- LANE_UP_1.up, bits 31:0 (R212). -/
def Reg.LANE_UP_1_up : Fld := ⟨0x480004, 0, 32⟩
/-- LANE_UP_2.up, bits 3:0 (R212). -/
def Reg.LANE_UP_2_up : Fld := ⟨0x480008, 0, 4⟩
/-- LINKs_CFG.node_count, bits 3:0 (R249). -/
def Reg.LINKs_CFG_node_count (i : Nat) : Fld := ⟨0x500000 + 0x100 * i, 0, 4⟩
/-- LINKs_STATUS.reachable, bits 7:0 (Table 09-23). -/
def Reg.LINKs_STATUS_reachable (i : Nat) : Fld := ⟨0x500004 + 0x100 * i, 0, 8⟩
/-- LINKs_STATUS.hop_up, bits 16:8 (Table 09-23). -/
def Reg.LINKs_STATUS_hop_up (i : Nat) : Fld := ⟨0x500004 + 0x100 * i, 8, 9⟩
/-- LINKs_STATUS.served_b, bits 24:17 (Table 09-23). -/
def Reg.LINKs_STATUS_served_b (i : Nat) : Fld := ⟨0x500004 + 0x100 * i, 17, 8⟩
/-- LINKs_STATUS.break_seen, bits 25:25 (Table 09-23). -/
def Reg.LINKs_STATUS_break_seen (i : Nat) : Fld := ⟨0x500004 + 0x100 * i, 25, 1⟩
/-- LINKs_STATUS.rerouted, bits 26:26 (Table 09-23). -/
def Reg.LINKs_STATUS_rerouted (i : Nat) : Fld := ⟨0x500004 + 0x100 * i, 26, 1⟩
/-- LINKs_STATUS.miswire, bits 27:27 (Table 09-23). -/
def Reg.LINKs_STATUS_miswire (i : Nat) : Fld := ⟨0x500004 + 0x100 * i, 27, 1⟩
/-- LINKs_OFFSET_LO.v, bits 31:0 (R249). -/
def Reg.LINKs_OFFSET_LO (i : Nat) : Fld := ⟨0x500008 + 0x100 * i, 0, 32⟩
/-- LINKs_OFFSET_HI.v, bits 31:0 (R249). -/
def Reg.LINKs_OFFSET_HI (i : Nat) : Fld := ⟨0x50000c + 0x100 * i, 0, 32⟩
/-- LINKs_ERRCNT.crc_errors, bits 15:0 (R223). -/
def Reg.LINKs_ERRCNT_crc_errors (i : Nat) : Fld := ⟨0x500010 + 0x100 * i, 0, 16⟩
/-- LINKs_ERRCNT.passthrough, bits 31:16 (R223). -/
def Reg.LINKs_ERRCNT_passthrough (i : Nat) : Fld := ⟨0x500010 + 0x100 * i, 16, 16⟩
/-- LINK_SYNC_CFG.limit_ns, bits 7:0 (R232). -/
def Reg.LINK_SYNC_CFG_limit_ns : Fld := ⟨0x503000, 0, 8⟩
/-- LINK_INHIBIT.sending, bits 0:0 (R249). -/
def Reg.LINK_INHIBIT_sending : Fld := ⟨0x503004, 0, 1⟩
/-- NODEa_STATE.state, bits 2:0 (Table 09-24). -/
def Reg.NODEa_STATE_state (i : Nat) : Fld := ⟨0x502000 + 0x10 * i, 0, 3⟩
/-- NODEa_STATE.reason, bits 6:3 (Table 09-24). -/
def Reg.NODEa_STATE_reason (i : Nat) : Fld := ⟨0x502000 + 0x10 * i, 3, 4⟩
/-- NODEa_STATE.end, bits 7:7 (Table 09-24). -/
def Reg.NODEa_STATE_end (i : Nat) : Fld := ⟨0x502000 + 0x10 * i, 7, 1⟩
/-- NODEa_STATE.node_state, bits 10:8 (Table 09-24). -/
def Reg.NODEa_STATE_node_state (i : Nat) : Fld := ⟨0x502000 + 0x10 * i, 8, 3⟩
/-- NODEa_STATE.class_code, bits 31:16 (Table 09-24). -/
def Reg.NODEa_STATE_class_code (i : Nat) : Fld := ⟨0x502000 + 0x10 * i, 16, 16⟩
/-- NODEa_SYNC.v, bits 31:0 (R249). -/
def Reg.NODEa_SYNC (i : Nat) : Fld := ⟨0x502004 + 0x10 * i, 0, 32⟩
/-- NODEa_SERIAL_LO.v, bits 31:0 (R249). -/
def Reg.NODEa_SERIAL_LO (i : Nat) : Fld := ⟨0x502008 + 0x10 * i, 0, 32⟩
/-- NODEa_SERIAL_HI.v, bits 31:0 (R249). -/
def Reg.NODEa_SERIAL_HI (i : Nat) : Fld := ⟨0x50200c + 0x10 * i, 0, 32⟩
/-- HC_CFG.auto_release, bits 0:0 (Table 10-10). -/
def Reg.HC_CFG_auto_release : Fld := ⟨0x600000, 0, 1⟩
/-- HC_CFG.gate_retries, bits 2:1 (Table 10-10). -/
def Reg.HC_CFG_gate_retries : Fld := ⟨0x600000, 1, 2⟩
/-- HC_CFG.confirm, bits 4:3 (Table 10-10). -/
def Reg.HC_CFG_confirm : Fld := ⟨0x600000, 3, 2⟩
/-- HC_CFG.drift_pm, bits 15:6 (Table 10-10). -/
def Reg.HC_CFG_drift_pm : Fld := ⟨0x600000, 6, 10⟩
/-- HC_STATUS.head_throttle, bits 0:0 (R286). -/
def Reg.HC_STATUS_head_throttle : Fld := ⟨0x600004, 0, 1⟩
/-- HC_STATUS.chip_throttle, bits 1:1 (R286). -/
def Reg.HC_STATUS_chip_throttle : Fld := ⟨0x600004, 1, 1⟩
/-- HC_STATUS.shutdown, bits 2:2 (R286). -/
def Reg.HC_STATUS_shutdown : Fld := ⟨0x600004, 2, 1⟩
/-- HC_STATUS.health_change, bits 3:3 (R286). -/
def Reg.HC_STATUS_health_change : Fld := ⟨0x600004, 3, 1⟩
/-- HC_STATUS.spit_skipped, bits 4:4 (R286). -/
def Reg.HC_STATUS_spit_skipped : Fld := ⟨0x600004, 4, 1⟩
/-- HC_STATUS.gate_blocked, bits 5:5 (R286). -/
def Reg.HC_STATUS_gate_blocked : Fld := ⟨0x600004, 5, 1⟩
/-- HC_STATUS.sense_stale, bits 6:6 (R286). -/
def Reg.HC_STATUS_sense_stale : Fld := ⟨0x600004, 6, 1⟩
/-- HC_THERMAL_CFG.head_margin, bits 5:0 (Table 10-11). -/
def Reg.HC_THERMAL_CFG_head_margin : Fld := ⟨0x600008, 0, 6⟩
/-- HC_THERMAL_CFG.chip_margin, bits 13:8 (Table 10-11). -/
def Reg.HC_THERMAL_CFG_chip_margin : Fld := ⟨0x600008, 8, 6⟩
/-- HC_WARM.warm_target, bits 7:0 (R270). -/
def Reg.HC_WARM_warm_target : Fld := ⟨0x60000c, 0, 8⟩
/-- HC_CHIP_AMB.amb, bits 15:0 (R276). -/
def Reg.HC_CHIP_AMB_amb : Fld := ⟨0x600010, 0, 16⟩
/-- HC_HEAD_RELEASE.head, bits 7:0 (R281). -/
def Reg.HC_HEAD_RELEASE_head : Fld := ⟨0x600014, 0, 8⟩
/-- HC_HEAD_RELEASE.release, bits 8:8 (R281). -/
def Reg.HC_HEAD_RELEASE_release : Fld := ⟨0x600014, 8, 1⟩
/-- HC_CHIP_MAX.t_c, bits 15:0 (R277). -/
def Reg.HC_CHIP_MAX_t_c : Fld := ⟨0x600018, 0, 16⟩
/-- HC_CHIP_MAX.node, bits 18:16 (R277). -/
def Reg.HC_CHIP_MAX_node : Fld := ⟨0x600018, 16, 3⟩
/-- HC_SPIT_SKIPS.v, bits 31:0 (R269). -/
def Reg.HC_SPIT_SKIPS : Fld := ⟨0x60001c, 0, 32⟩
/-- HC_CHIP_TEMPi.model, bits 15:0 (R277). -/
def Reg.HC_CHIP_TEMPi_model (i : Nat) : Fld := ⟨0x600020 + 0x4 * i, 0, 16⟩
/-- HC_CHIP_TEMPi.sensor, bits 31:16 (R277). -/
def Reg.HC_CHIP_TEMPi_sensor (i : Nat) : Fld := ⟨0x600020 + 0x4 * i, 16, 16⟩
/-- HC_INK_TEMPq.t_ink, bits 15:0 (R272). -/
def Reg.HC_INK_TEMPq_t_ink (i : Nat) : Fld := ⟨0x600040 + 0x4 * i, 0, 16⟩
/-- DGq_CFG.enable, bits 0:0 (Table 10-12). -/
def Reg.DGq_CFG_enable (i : Nat) : Fld := ⟨0x600100 + 0x10 * i, 0, 1⟩
/-- DGq_CFG.polarity, bits 1:1 (Table 10-12). -/
def Reg.DGq_CFG_polarity (i : Nat) : Fld := ⟨0x600100 + 0x10 * i, 1, 1⟩
/-- DGq_CFG.filter_n, bits 15:8 (Table 10-12). -/
def Reg.DGq_CFG_filter_n (i : Nat) : Fld := ⟨0x600100 + 0x10 * i, 8, 8⟩
/-- DGq_WINDOW.tof_min, bits 15:0 (R262). -/
def Reg.DGq_WINDOW_tof_min (i : Nat) : Fld := ⟨0x600104 + 0x10 * i, 0, 16⟩
/-- DGq_WINDOW.tof_slow, bits 31:16 (R262). -/
def Reg.DGq_WINDOW_tof_slow (i : Nat) : Fld := ⟨0x600104 + 0x10 * i, 16, 16⟩
/-- DGq_PACE.interval, bits 15:0 (R261). -/
def Reg.DGq_PACE_interval (i : Nat) : Fld := ⟨0x600108 + 0x10 * i, 0, 16⟩
/-- DGq_STATUS.level, bits 0:0 (Table 10-9). -/
def Reg.DGq_STATUS_level (i : Nat) : Fld := ⟨0x60010c + 0x10 * i, 0, 1⟩
/-- DGq_STATUS.blocked, bits 1:1 (Table 10-9). -/
def Reg.DGq_STATUS_blocked (i : Nat) : Fld := ⟨0x60010c + 0x10 * i, 1, 1⟩
/-- DGq_STATUS.busy, bits 2:2 (Table 10-9). -/
def Reg.DGq_STATUS_busy (i : Nat) : Fld := ⟨0x60010c + 0x10 * i, 2, 1⟩
/-- DGq_STATUS.unassigned, bits 31:16 (Table 10-9). -/
def Reg.DGq_STATUS_unassigned (i : Nat) : Fld := ⟨0x60010c + 0x10 * i, 16, 16⟩
/-- HC_HEADa_TEMP.t_d, bits 15:0 (R272). -/
def Reg.HC_HEADa_TEMP_t_d (i : Nat) : Fld := ⟨0x601000 + 0x8 * i, 0, 16⟩
/-- HC_HEADa_TEMP.sense, bits 31:16 (R272). -/
def Reg.HC_HEADa_TEMP_sense (i : Nat) : Fld := ⟨0x601000 + 0x8 * i, 16, 16⟩
/-- HC_HEADa_STATE.limit, bits 16:0 (Table 10-13). -/
def Reg.HC_HEADa_STATE_limit (i : Nat) : Fld := ⟨0x601004 + 0x8 * i, 0, 17⟩
/-- HC_HEADa_STATE.held, bits 17:17 (Table 10-13). -/
def Reg.HC_HEADa_STATE_held (i : Nat) : Fld := ⟨0x601004 + 0x8 * i, 17, 1⟩
/-- HC_HEADa_STATE.sense_stale, bits 18:18 (Table 10-13). -/
def Reg.HC_HEADa_STATE_sense_stale (i : Nat) : Fld := ⟨0x601004 + 0x8 * i, 18, 1⟩
/-- HC_HEADa_STATE.baseline_valid, bits 19:19 (Table 10-13). -/
def Reg.HC_HEADa_STATE_baseline_valid (i : Nat) : Fld := ⟨0x601004 + 0x8 * i, 19, 1⟩
/-- HC_HEADa_STATE.warm_level, bits 23:20 (Table 10-13). -/
def Reg.HC_HEADa_STATE_warm_level (i : Nat) : Fld := ⟨0x601004 + 0x8 * i, 20, 4⟩
/-- CAMp_CFG.enable, bits 0:0 (Table 11-10). -/
def Reg.CAMp_CFG_enable (i : Nat) : Fld := ⟨0x700000 + 0x1000 * i, 0, 1⟩
/-- CAMp_CFG.lanes, bits 2:1 (Table 11-10). -/
def Reg.CAMp_CFG_lanes (i : Nat) : Fld := ⟨0x700000 + 0x1000 * i, 1, 2⟩
/-- CAMp_CFG.trilinear, bits 3:3 (Table 11-10). -/
def Reg.CAMp_CFG_trilinear (i : Nat) : Fld := ⟨0x700000 + 0x1000 * i, 3, 1⟩
/-- CAMp_CFG.data_type, bits 4:4 (Table 11-10). -/
def Reg.CAMp_CFG_data_type (i : Nat) : Fld := ⟨0x700000 + 0x1000 * i, 4, 1⟩
/-- CAMp_CFG.tnr_en, bits 5:5 (Table 11-10). -/
def Reg.CAMp_CFG_tnr_en (i : Nat) : Fld := ⟨0x700000 + 0x1000 * i, 5, 1⟩
/-- CAMp_CFG.pixels, bits 21:8 (Table 11-10). -/
def Reg.CAMp_CFG_pixels (i : Nat) : Fld := ⟨0x700000 + 0x1000 * i, 8, 14⟩
/-- CAMp_FRAME.lines, bits 15:0 (Table 11-9). -/
def Reg.CAMp_FRAME_lines (i : Nat) : Fld := ⟨0x700004 + 0x1000 * i, 0, 16⟩
/-- CAMp_FRAME.timeout_ms, bits 23:16 (Table 11-9). -/
def Reg.CAMp_FRAME_timeout_ms (i : Nat) : Fld := ⟨0x700004 + 0x1000 * i, 16, 8⟩
/-- CAMp_FRAME.silent_ms, bits 31:24 (Table 11-9). -/
def Reg.CAMp_FRAME_silent_ms (i : Nat) : Fld := ⟨0x700004 + 0x1000 * i, 24, 8⟩
/-- CAMp_LINE.max_latency_us, bits 15:0 (Table 11-9). -/
def Reg.CAMp_LINE_max_latency_us (i : Nat) : Fld := ⟨0x700008 + 0x1000 * i, 0, 16⟩
/-- CAMp_LINE.pitch, bits 31:16 (Table 11-9). -/
def Reg.CAMp_LINE_pitch (i : Nat) : Fld := ⟨0x700008 + 0x1000 * i, 16, 16⟩
/-- CAMp_NR.sn_mode, bits 1:0 (Table 11-9). -/
def Reg.CAMp_NR_sn_mode (i : Nat) : Fld := ⟨0x70000c + 0x1000 * i, 0, 2⟩
/-- CAMp_NR.tnr_w, bits 7:4 (Table 11-9). -/
def Reg.CAMp_NR_tnr_w (i : Nat) : Fld := ⟨0x70000c + 0x1000 * i, 4, 4⟩
/-- CAMp_NR.tnr_limit, bits 19:8 (Table 11-9). -/
def Reg.CAMp_NR_tnr_limit (i : Nat) : Fld := ⟨0x70000c + 0x1000 * i, 8, 12⟩
/-- CAMp_DATUM_LO.v, bits 31:0 (Table 11-9). -/
def Reg.CAMp_DATUM_LO (i : Nat) : Fld := ⟨0x700010 + 0x1000 * i, 0, 32⟩
/-- CAMp_DATUM_HI.v, bits 31:0 (Table 11-9). -/
def Reg.CAMp_DATUM_HI (i : Nat) : Fld := ⟨0x700014 + 0x1000 * i, 0, 32⟩
/-- CAMp_DELTA1.v, bits 31:0 (R302). -/
def Reg.CAMp_DELTA1 (i : Nat) : Fld := ⟨0x700018 + 0x1000 * i, 0, 32⟩
/-- CAMp_DELTA2.v, bits 31:0 (R302). -/
def Reg.CAMp_DELTA2 (i : Nat) : Fld := ⟨0x70001c + 0x1000 * i, 0, 32⟩
/-- CAMp_CTRL.commit, bits 0:0 (Table 11-9). -/
def Reg.CAMp_CTRL_commit (i : Nat) : Fld := ⟨0x700020 + 0x1000 * i, 0, 1⟩
/-- CAMp_CTRL.flush_stamps, bits 1:1 (Table 11-9). -/
def Reg.CAMp_CTRL_flush_stamps (i : Nat) : Fld := ⟨0x700020 + 0x1000 * i, 1, 1⟩
/-- CAMp_STATUS.state, bits 1:0 (Table 11-11). -/
def Reg.CAMp_STATUS_state (i : Nat) : Fld := ⟨0x700024 + 0x1000 * i, 0, 2⟩
/-- CAMp_STATUS.silent, bits 2:2 (Table 11-11). -/
def Reg.CAMp_STATUS_silent (i : Nat) : Fld := ⟨0x700024 + 0x1000 * i, 2, 1⟩
/-- CAMp_STATUS.tnr_ok, bits 3:3 (Table 11-11). -/
def Reg.CAMp_STATUS_tnr_ok (i : Nat) : Fld := ⟨0x700024 + 0x1000 * i, 3, 1⟩
/-- CAMp_STATUS.short_seen, bits 4:4 (Table 11-11). -/
def Reg.CAMp_STATUS_short_seen (i : Nat) : Fld := ⟨0x700024 + 0x1000 * i, 4, 1⟩
/-- CAMp_STATUS.long_seen, bits 5:5 (Table 11-11). -/
def Reg.CAMp_STATUS_long_seen (i : Nat) : Fld := ⟨0x700024 + 0x1000 * i, 5, 1⟩
/-- CAMp_STATUS.partial_seen, bits 6:6 (Table 11-11). -/
def Reg.CAMp_STATUS_partial_seen (i : Nat) : Fld := ⟨0x700024 + 0x1000 * i, 6, 1⟩
/-- CAMp_STATUS.lost_seen, bits 7:7 (Table 11-11). -/
def Reg.CAMp_STATUS_lost_seen (i : Nat) : Fld := ⟨0x700024 + 0x1000 * i, 7, 1⟩
/-- CAMp_STATUS.untrig_seen, bits 8:8 (Table 11-11). -/
def Reg.CAMp_STATUS_untrig_seen (i : Nat) : Fld := ⟨0x700024 + 0x1000 * i, 8, 1⟩
/-- CAMp_STATUS.skip_seen, bits 9:9 (Table 11-11). -/
def Reg.CAMp_STATUS_skip_seen (i : Nat) : Fld := ⟨0x700024 + 0x1000 * i, 9, 1⟩
/-- CAMp_FRAME_NO.v, bits 31:0 (R293). -/
def Reg.CAMp_FRAME_NO (i : Nat) : Fld := ⟨0x700028 + 0x1000 * i, 0, 32⟩
/-- CAMp_ERRCNT_A.corrected, bits 15:0 (R289). -/
def Reg.CAMp_ERRCNT_A_corrected (i : Nat) : Fld := ⟨0x70002c + 0x1000 * i, 0, 16⟩
/-- CAMp_ERRCNT_A.discarded, bits 31:16 (R289). -/
def Reg.CAMp_ERRCNT_A_discarded (i : Nat) : Fld := ⟨0x70002c + 0x1000 * i, 16, 16⟩
/-- CAMp_ERRCNT_B.stamps_lost, bits 15:0 (R291). -/
def Reg.CAMp_ERRCNT_B_stamps_lost (i : Nat) : Fld := ⟨0x700030 + 0x1000 * i, 0, 16⟩
/-- CAMp_ERRCNT_B.untriggered, bits 31:16 (R291). -/
def Reg.CAMp_ERRCNT_B_untriggered (i : Nat) : Fld := ⟨0x700030 + 0x1000 * i, 16, 16⟩
/-- CAMp_BUF.level, bits 15:0 (Table 11-9). -/
def Reg.CAMp_BUF_level (i : Nat) : Fld := ⟨0x700034 + 0x1000 * i, 0, 16⟩
/-- CAMp_BUF.peak, bits 31:16 (Table 11-9). -/
def Reg.CAMp_BUF_peak (i : Nat) : Fld := ⟨0x700034 + 0x1000 * i, 16, 16⟩
/-- ASSAY_CFG.host_kinds, bits 4:0 (Table 11-9). -/
def Reg.ASSAY_CFG_host_kinds : Fld := ⟨0x708000, 0, 5⟩
/-- ASSAY_CFG.tnr_lines, bits 31:16 (Table 11-9). -/
def Reg.ASSAY_CFG_tnr_lines : Fld := ⟨0x708000, 16, 16⟩
/-- ASSAY_LADDER.found_md, bits 11:0 (Table 11-9). -/
def Reg.ASSAY_LADDER_found_md : Fld := ⟨0x708004, 0, 12⟩
/-- ASSAY_STATUS.ports, bits 3:0 (Table 11-9). -/
def Reg.ASSAY_STATUS_ports : Fld := ⟨0x708008, 0, 4⟩
/-- FM_CFG.noz_mode, bits 1:0 (Table 12-12). -/
def Reg.FM_CFG_noz_mode : Fld := ⟨0x800000, 0, 2⟩
/-- FM_CFG.den_mode, bits 3:2 (Table 12-12). -/
def Reg.FM_CFG_den_mode : Fld := ⟨0x800000, 2, 2⟩
/-- FM_CFG.reg_mode, bits 5:4 (Table 12-12). -/
def Reg.FM_CFG_reg_mode : Fld := ⟨0x800000, 4, 2⟩
/-- FM_CFG.ff_mode, bits 7:6 (Table 12-12). -/
def Reg.FM_CFG_ff_mode : Fld := ⟨0x800000, 6, 2⟩
/-- FM_CFG.host_records, bits 8:8 (Table 12-12). -/
def Reg.FM_CFG_host_records : Fld := ⟨0x800000, 8, 1⟩
/-- FM_CFG.ff_at_partings, bits 9:9 (Table 12-12). -/
def Reg.FM_CFG_ff_at_partings : Fld := ⟨0x800000, 9, 1⟩
/-- FM_CFG.hold_lines, bits 15:10 (Table 12-12). -/
def Reg.FM_CFG_hold_lines : Fld := ⟨0x800000, 10, 6⟩
/-- FM_CFG.ff_lines, bits 31:16 (Table 12-12). -/
def Reg.FM_CFG_ff_lines : Fld := ⟨0x800000, 16, 16⟩
/-- FM_STATUS.bound, bits 0:0 (R347). -/
def Reg.FM_STATUS_bound : Fld := ⟨0x800004, 0, 1⟩
/-- FM_STATUS.escalated, bits 1:1 (R347). -/
def Reg.FM_STATUS_escalated : Fld := ⟨0x800004, 1, 1⟩
/-- FM_STATUS.rebased, bits 2:2 (R347). -/
def Reg.FM_STATUS_rebased : Fld := ⟨0x800004, 2, 1⟩
/-- FM_STATUS.move_refused, bits 3:3 (R347). -/
def Reg.FM_STATUS_move_refused : Fld := ⟨0x800004, 3, 1⟩
/-- FM_STATUS.held, bits 4:4 (R347). -/
def Reg.FM_STATUS_held : Fld := ⟨0x800004, 4, 1⟩
/-- FM_NOZ_CFG.confirm, bits 3:0 (Table 12-13). -/
def Reg.FM_NOZ_CFG_confirm : Fld := ⟨0x800008, 0, 4⟩
/-- FM_NOZ_CFG.clear_confirm, bits 7:4 (Table 12-13). -/
def Reg.FM_NOZ_CFG_clear_confirm : Fld := ⟨0x800008, 4, 4⟩
/-- FM_NOZ_CFG.weak_pct, bits 15:8 (Table 12-13). -/
def Reg.FM_NOZ_CFG_weak_pct : Fld := ⟨0x800008, 8, 8⟩
/-- FM_NOZ_CFG.dev_limit, bits 23:16 (Table 12-13). -/
def Reg.FM_NOZ_CFG_dev_limit : Fld := ⟨0x800008, 16, 8⟩
/-- FM_NOZ_CFG.max_masked, bits 31:24 (Table 12-13). -/
def Reg.FM_NOZ_CFG_max_masked : Fld := ⟨0x800008, 24, 8⟩
/-- FM_DEN_CFG.step, bits 3:0 (Table 12-11). -/
def Reg.FM_DEN_CFG_step : Fld := ⟨0x80000c, 0, 4⟩
/-- FM_DEN_CFG.deadband_md, bits 11:4 (Table 12-11). -/
def Reg.FM_DEN_CFG_deadband_md : Fld := ⟨0x80000c, 4, 8⟩
/-- FM_DEN_CFG.gain, bits 19:12 (Table 12-11). -/
def Reg.FM_DEN_CFG_gain : Fld := ⟨0x80000c, 12, 8⟩
/-- FM_BOUNDS.plane_bound, bits 8:0 (Table 12-11). -/
def Reg.FM_BOUNDS_plane_bound : Fld := ⟨0x800010, 0, 9⟩
/-- FM_BOUNDS.band_bound, bits 17:9 (Table 12-11). -/
def Reg.FM_BOUNDS_band_bound : Fld := ⟨0x800010, 9, 9⟩
/-- FM_BOUNDS.noz_bound, bits 26:18 (Table 12-11). -/
def Reg.FM_BOUNDS_noz_bound : Fld := ⟨0x800010, 18, 9⟩
/-- FM_REG_CFG.ref_plane, bits 3:0 (Table 12-14). -/
def Reg.FM_REG_CFG_ref_plane : Fld := ⟨0x800014, 0, 4⟩
/-- FM_REG_CFG.down_deadband, bits 11:4 (Table 12-14). -/
def Reg.FM_REG_CFG_down_deadband : Fld := ⟨0x800014, 4, 8⟩
/-- FM_REG_CFG.down_step, bits 15:12 (Table 12-14). -/
def Reg.FM_REG_CFG_down_step : Fld := ⟨0x800014, 12, 4⟩
/-- FM_REG_CFG.cross_deadband, bits 23:16 (Table 12-14). -/
def Reg.FM_REG_CFG_cross_deadband : Fld := ⟨0x800014, 16, 8⟩
/-- FM_REG_CFG.gain, bits 27:24 (Table 12-14). -/
def Reg.FM_REG_CFG_gain : Fld := ⟨0x800014, 24, 4⟩
/-- FM_REG_BOUND.down_bound, bits 7:0 (Table 12-11). -/
def Reg.FM_REG_BOUND_down_bound : Fld := ⟨0x800018, 0, 8⟩
/-- FM_REG_BOUND.cross_bound, bits 15:8 (Table 12-11). -/
def Reg.FM_REG_BOUND_cross_bound : Fld := ⟨0x800018, 8, 8⟩
/-- FM_FF_BOUND.ff_bound, bits 8:0 (Table 12-11). -/
def Reg.FM_FF_BOUND_ff_bound : Fld := ⟨0x80001c, 0, 9⟩
/-- FM_NOZ_CLEAR.head, bits 7:0 (R347). -/
def Reg.FM_NOZ_CLEAR_head : Fld := ⟨0x800020, 0, 8⟩
/-- FM_NOZ_CLEAR.row, bits 8:8 (R347). -/
def Reg.FM_NOZ_CLEAR_row : Fld := ⟨0x800020, 8, 1⟩
/-- FM_NOZ_CLEAR.column, bits 21:9 (R347). -/
def Reg.FM_NOZ_CLEAR_column : Fld := ⟨0x800020, 9, 13⟩
/-- FM_NOZ_CLEAR.all, bits 22:22 (R347). -/
def Reg.FM_NOZ_CLEAR_all : Fld := ⟨0x800020, 22, 1⟩
/-- FM_NOZ_CLEAR.go, bits 23:23 (R347). -/
def Reg.FM_NOZ_CLEAR_go : Fld := ⟨0x800020, 23, 1⟩
/-- FM_SEQ.v, bits 31:0 (R325). -/
def Reg.FM_SEQ : Fld := ⟨0x800024, 0, 32⟩
/-- FM_PDq.pd, bits 9:0 (R346). -/
def Reg.FM_PDq_pd (i : Nat) : Fld := ⟨0x800100 + 0x4 * i, 0, 10⟩
/-- FM_REGq.dt, bits 15:0 (R346). -/
def Reg.FM_REGq_dt (i : Nat) : Fld := ⟨0x800140 + 0x4 * i, 0, 16⟩
/-- FM_REGq.xoff, bits 31:16 (R346). -/
def Reg.FM_REGq_xoff (i : Nat) : Fld := ⟨0x800140 + 0x4 * i, 16, 16⟩
/-- FM_FFq.kappa, bits 15:0 (R339). -/
def Reg.FM_FFq_kappa (i : Nat) : Fld := ⟨0x800180 + 0x4 * i, 0, 16⟩
/-- FM_FFq.t_ref, bits 23:16 (R339). -/
def Reg.FM_FFq_t_ref (i : Nat) : Fld := ⟨0x800180 + 0x4 * i, 16, 8⟩
/-- FM_FFq.ff_step, bits 31:24 (R339). -/
def Reg.FM_FFq_ff_step (i : Nat) : Fld := ⟨0x800180 + 0x4 * i, 24, 8⟩
/-- CR_CFG.low_pct, bits 7:0 (Table 13-12). -/
def Reg.CR_CFG_low_pct : Fld := ⟨0x900000, 0, 8⟩
/-- CR_STATUS.low, bits 0:0 (Table 13-13). -/
def Reg.CR_STATUS_low : Fld := ⟨0x900004, 0, 1⟩
/-- CR_STATUS.low_seen, bits 1:1 (Table 13-13). -/
def Reg.CR_STATUS_low_seen : Fld := ⟨0x900004, 1, 1⟩
/-- CR_STATUS.full_seen, bits 2:2 (Table 13-13). -/
def Reg.CR_STATUS_full_seen : Fld := ⟨0x900004, 2, 1⟩
/-- CR_STATUS.verify_seen, bits 3:3 (Table 13-13). -/
def Reg.CR_STATUS_verify_seen : Fld := ⟨0x900004, 3, 1⟩
/-- CR_AREA_PAGES.v, bits 31:0 (R362). -/
def Reg.CR_AREA_PAGES : Fld := ⟨0x900008, 0, 32⟩
/-- CR_FREE_PAGES.v, bits 31:0 (Table 13-11). -/
def Reg.CR_FREE_PAGES : Fld := ⟨0x90000c, 0, 32⟩
/-- CR_FREEING_PAGES.v, bits 31:0 (Table 13-11). -/
def Reg.CR_FREEING_PAGES : Fld := ⟨0x900010, 0, 32⟩
/-- CR_BLOCKS.v, bits 31:0 (Table 13-11). -/
def Reg.CR_BLOCKS : Fld := ⟨0x900014, 0, 32⟩
/-- CR_RAW_BYTES_LO.v, bits 31:0 (Table 13-11). -/
def Reg.CR_RAW_BYTES_LO : Fld := ⟨0x900018, 0, 32⟩
/-- CR_RAW_BYTES_HI.v, bits 31:0 (Table 13-11). -/
def Reg.CR_RAW_BYTES_HI : Fld := ⟨0x90001c, 0, 32⟩
/-- CR_STORED_BYTES_LO.v, bits 31:0 (Table 13-11). -/
def Reg.CR_STORED_BYTES_LO : Fld := ⟨0x900020, 0, 32⟩
/-- CR_STORED_BYTES_HI.v, bits 31:0 (Table 13-11). -/
def Reg.CR_STORED_BYTES_HI : Fld := ⟨0x900024, 0, 32⟩
/-- CR_FALLBACKS.reason1, bits 15:0 (Table 13-11). -/
def Reg.CR_FALLBACKS_reason1 : Fld := ⟨0x900028, 0, 16⟩
/-- CR_FALLBACKS.reason2, bits 31:16 (Table 13-11). -/
def Reg.CR_FALLBACKS_reason2 : Fld := ⟨0x900028, 16, 16⟩
/-- HR_CFG.err_vector, bits 5:0 (Table 14-10). -/
def Reg.HR_CFG_err_vector : Fld := ⟨0xa00000, 0, 6⟩
/-- HR_STATUS.ring_error, bits 0:0 (Table 14-11). -/
def Reg.HR_STATUS_ring_error : Fld := ⟨0xa00004, 0, 1⟩
/-- HR_STATUS.cfg_ignored, bits 1:1 (Table 14-11). -/
def Reg.HR_STATUS_cfg_ignored : Fld := ⟨0xa00004, 1, 1⟩
/-- HR_STATUS.evt_lost, bits 2:2 (Table 14-11). -/
def Reg.HR_STATUS_evt_lost : Fld := ⟨0xa00004, 2, 1⟩
/-- HR_STATUS.stat_dropped, bits 3:3 (Table 14-11). -/
def Reg.HR_STATUS_stat_dropped : Fld := ⟨0xa00004, 3, 1⟩
/-- HR_STATUS.cpl_lost, bits 4:4 (Table 14-11). -/
def Reg.HR_STATUS_cpl_lost : Fld := ⟨0xa00004, 4, 1⟩
/-- HR_INFLIGHT.v, bits 10:0 (R383). -/
def Reg.HR_INFLIGHT : Fld := ⟨0xa00008, 0, 11⟩
/-- HR_DB_ERRORS.v, bits 31:0 (R384). -/
def Reg.HR_DB_ERRORS : Fld := ⟨0xa0000c, 0, 32⟩
/-- HR_EVT_LOST.v, bits 31:0 (R387). -/
def Reg.HR_EVT_LOST : Fld := ⟨0xa00010, 0, 32⟩
/-- HR_STAT_DROPPED.v, bits 31:0 (R388). -/
def Reg.HR_STAT_DROPPED : Fld := ⟨0xa00014, 0, 32⟩
/-- HR_CPL_LOST.v, bits 31:0 (R385). -/
def Reg.HR_CPL_LOST : Fld := ⟨0xa00018, 0, 32⟩
/-- HR_EVT_MASK.mask, bits 12:0 (R387). -/
def Reg.HR_EVT_MASK_mask : Fld := ⟨0xa0001c, 0, 13⟩
/-- HR_ISQi_BASE_LO.base, bits 31:12 (R374). -/
def Reg.HR_ISQi_BASE_LO_base (i : Nat) : Fld := ⟨0xa01000 + 0x40 * i, 12, 20⟩
/-- HR_ISQi_BASE_HI.base, bits 31:0 (R374). -/
def Reg.HR_ISQi_BASE_HI_base (i : Nat) : Fld := ⟨0xa01004 + 0x40 * i, 0, 32⟩
/-- HR_ISQi_CFG.enable, bits 0:0 (Table 14-12). -/
def Reg.HR_ISQi_CFG_enable (i : Nat) : Fld := ⟨0xa01008 + 0x40 * i, 0, 1⟩
/-- HR_ISQi_CFG.high, bits 1:1 (Table 14-12). -/
def Reg.HR_ISQi_CFG_high (i : Nat) : Fld := ⟨0xa01008 + 0x40 * i, 1, 1⟩
/-- HR_ISQi_CFG.size_log2, bits 6:2 (Table 14-12). -/
def Reg.HR_ISQi_CFG_size_log2 (i : Nat) : Fld := ⟨0xa01008 + 0x40 * i, 2, 5⟩
/-- HR_ISQi_CFG.cq, bits 11:8 (Table 14-12). -/
def Reg.HR_ISQi_CFG_cq (i : Nat) : Fld := ⟨0xa01008 + 0x40 * i, 8, 4⟩
/-- HR_ISQi_STATUS.enabled, bits 0:0 (Table 14-10). -/
def Reg.HR_ISQi_STATUS_enabled (i : Nat) : Fld := ⟨0xa0100c + 0x40 * i, 0, 1⟩
/-- HR_ISQi_STATUS.error, bits 1:1 (Table 14-10). -/
def Reg.HR_ISQi_STATUS_error (i : Nat) : Fld := ⟨0xa0100c + 0x40 * i, 1, 1⟩
/-- HR_ISQi_STATUS.cause, bits 4:2 (Table 14-10). -/
def Reg.HR_ISQi_STATUS_cause (i : Nat) : Fld := ⟨0xa0100c + 0x40 * i, 2, 3⟩
/-- HR_ISQi_WB_LO.wb, bits 31:3 (R376). -/
def Reg.HR_ISQi_WB_LO_wb (i : Nat) : Fld := ⟨0xa01010 + 0x40 * i, 3, 29⟩
/-- HR_ISQi_WB_HI.wb, bits 31:0 (R376). -/
def Reg.HR_ISQi_WB_HI_wb (i : Nat) : Fld := ⟨0xa01014 + 0x40 * i, 0, 32⟩
/-- HR_ISQi_PROD.v, bits 31:0 (R376). -/
def Reg.HR_ISQi_PROD (i : Nat) : Fld := ⟨0xa01018 + 0x40 * i, 0, 32⟩
/-- HR_ISQi_CONS.v, bits 31:0 (R376). -/
def Reg.HR_ISQi_CONS (i : Nat) : Fld := ⟨0xa0101c + 0x40 * i, 0, 32⟩
/-- HR_CQj_BASE_LO.base, bits 31:12 (R374). -/
def Reg.HR_CQj_BASE_LO_base (i : Nat) : Fld := ⟨0xa02000 + 0x40 * i, 12, 20⟩
/-- HR_CQj_BASE_HI.base, bits 31:0 (R374). -/
def Reg.HR_CQj_BASE_HI_base (i : Nat) : Fld := ⟨0xa02004 + 0x40 * i, 0, 32⟩
/-- HR_CQj_CFG.enable, bits 0:0 (Table 14-13). -/
def Reg.HR_CQj_CFG_enable (i : Nat) : Fld := ⟨0xa02008 + 0x40 * i, 0, 1⟩
/-- HR_CQj_CFG.size_log2, bits 5:1 (Table 14-13). -/
def Reg.HR_CQj_CFG_size_log2 (i : Nat) : Fld := ⟨0xa02008 + 0x40 * i, 1, 5⟩
/-- HR_CQj_CFG.vector, bits 11:6 (Table 14-13). -/
def Reg.HR_CQj_CFG_vector (i : Nat) : Fld := ⟨0xa02008 + 0x40 * i, 6, 6⟩
/-- HR_CQj_CFG.mod_count, bits 19:12 (Table 14-13). -/
def Reg.HR_CQj_CFG_mod_count (i : Nat) : Fld := ⟨0xa02008 + 0x40 * i, 12, 8⟩
/-- HR_CQj_CFG.mod_time_us, bits 31:20 (Table 14-13). -/
def Reg.HR_CQj_CFG_mod_time_us (i : Nat) : Fld := ⟨0xa02008 + 0x40 * i, 20, 12⟩
/-- HR_CQj_STATUS.enabled, bits 0:0 (Table 14-10). -/
def Reg.HR_CQj_STATUS_enabled (i : Nat) : Fld := ⟨0xa0200c + 0x40 * i, 0, 1⟩
/-- HR_CQj_STATUS.error, bits 1:1 (Table 14-10). -/
def Reg.HR_CQj_STATUS_error (i : Nat) : Fld := ⟨0xa0200c + 0x40 * i, 1, 1⟩
/-- HR_CQj_STATUS.cause, bits 4:2 (Table 14-10). -/
def Reg.HR_CQj_STATUS_cause (i : Nat) : Fld := ⟨0xa0200c + 0x40 * i, 2, 3⟩
/-- HR_CQj_STATUS.armed, bits 5:5 (Table 14-10). -/
def Reg.HR_CQj_STATUS_armed (i : Nat) : Fld := ⟨0xa0200c + 0x40 * i, 5, 1⟩
/-- HR_CQj_PROD.v, bits 31:0 (Table 14-10). -/
def Reg.HR_CQj_PROD (i : Nat) : Fld := ⟨0xa02010 + 0x40 * i, 0, 32⟩
/-- HR_CQj_CONS.v, bits 31:0 (Table 14-10). -/
def Reg.HR_CQj_CONS (i : Nat) : Fld := ⟨0xa02014 + 0x40 * i, 0, 32⟩
/-- HR_EVQ_BASE_LO.base, bits 31:12 (R374). -/
def Reg.HR_EVQ_BASE_LO_base : Fld := ⟨0xa03000, 12, 20⟩
/-- HR_EVQ_BASE_HI.base, bits 31:0 (R374). -/
def Reg.HR_EVQ_BASE_HI_base : Fld := ⟨0xa03004, 0, 32⟩
/-- HR_EVQ_CFG.enable, bits 0:0 (Table 14-13). -/
def Reg.HR_EVQ_CFG_enable : Fld := ⟨0xa03008, 0, 1⟩
/-- HR_EVQ_CFG.size_log2, bits 5:1 (Table 14-13). -/
def Reg.HR_EVQ_CFG_size_log2 : Fld := ⟨0xa03008, 1, 5⟩
/-- HR_EVQ_CFG.vector, bits 11:6 (Table 14-13). -/
def Reg.HR_EVQ_CFG_vector : Fld := ⟨0xa03008, 6, 6⟩
/-- HR_EVQ_CFG.mod_count, bits 19:12 (Table 14-13). -/
def Reg.HR_EVQ_CFG_mod_count : Fld := ⟨0xa03008, 12, 8⟩
/-- HR_EVQ_CFG.mod_time_us, bits 31:20 (Table 14-13). -/
def Reg.HR_EVQ_CFG_mod_time_us : Fld := ⟨0xa03008, 20, 12⟩
/-- HR_EVQ_STATUS.enabled, bits 0:0 (Table 14-10). -/
def Reg.HR_EVQ_STATUS_enabled : Fld := ⟨0xa0300c, 0, 1⟩
/-- HR_EVQ_STATUS.error, bits 1:1 (Table 14-10). -/
def Reg.HR_EVQ_STATUS_error : Fld := ⟨0xa0300c, 1, 1⟩
/-- HR_EVQ_STATUS.cause, bits 4:2 (Table 14-10). -/
def Reg.HR_EVQ_STATUS_cause : Fld := ⟨0xa0300c, 2, 3⟩
/-- HR_EVQ_STATUS.armed, bits 5:5 (Table 14-10). -/
def Reg.HR_EVQ_STATUS_armed : Fld := ⟨0xa0300c, 5, 1⟩
/-- HR_EVQ_PROD.v, bits 31:0 (Table 14-10). -/
def Reg.HR_EVQ_PROD : Fld := ⟨0xa03010, 0, 32⟩
/-- HR_EVQ_CONS.v, bits 31:0 (Table 14-10). -/
def Reg.HR_EVQ_CONS : Fld := ⟨0xa03014, 0, 32⟩
/-- HR_STQ_BASE_LO.base, bits 31:12 (R374). -/
def Reg.HR_STQ_BASE_LO_base : Fld := ⟨0xa03100, 12, 20⟩
/-- HR_STQ_BASE_HI.base, bits 31:0 (R374). -/
def Reg.HR_STQ_BASE_HI_base : Fld := ⟨0xa03104, 0, 32⟩
/-- HR_STQ_CFG.enable, bits 0:0 (Table 14-13). -/
def Reg.HR_STQ_CFG_enable : Fld := ⟨0xa03108, 0, 1⟩
/-- HR_STQ_CFG.size_log2, bits 5:1 (Table 14-13). -/
def Reg.HR_STQ_CFG_size_log2 : Fld := ⟨0xa03108, 1, 5⟩
/-- HR_STQ_CFG.vector, bits 11:6 (Table 14-13). -/
def Reg.HR_STQ_CFG_vector : Fld := ⟨0xa03108, 6, 6⟩
/-- HR_STQ_CFG.mod_count, bits 19:12 (Table 14-13). -/
def Reg.HR_STQ_CFG_mod_count : Fld := ⟨0xa03108, 12, 8⟩
/-- HR_STQ_CFG.mod_time_us, bits 31:20 (Table 14-13). -/
def Reg.HR_STQ_CFG_mod_time_us : Fld := ⟨0xa03108, 20, 12⟩
/-- HR_STQ_STATUS.enabled, bits 0:0 (Table 14-10). -/
def Reg.HR_STQ_STATUS_enabled : Fld := ⟨0xa0310c, 0, 1⟩
/-- HR_STQ_STATUS.error, bits 1:1 (Table 14-10). -/
def Reg.HR_STQ_STATUS_error : Fld := ⟨0xa0310c, 1, 1⟩
/-- HR_STQ_STATUS.cause, bits 4:2 (Table 14-10). -/
def Reg.HR_STQ_STATUS_cause : Fld := ⟨0xa0310c, 2, 3⟩
/-- HR_STQ_STATUS.armed, bits 5:5 (Table 14-10). -/
def Reg.HR_STQ_STATUS_armed : Fld := ⟨0xa0310c, 5, 1⟩
/-- HR_STQ_PROD.v, bits 31:0 (Table 14-10). -/
def Reg.HR_STQ_PROD : Fld := ⟨0xa03110, 0, 32⟩
/-- HR_STQ_CONS.v, bits 31:0 (Table 14-10). -/
def Reg.HR_STQ_CONS : Fld := ⟨0xa03114, 0, 32⟩
/-- HR_STAT_WB_LO.wb, bits 31:3 (R388). -/
def Reg.HR_STAT_WB_LO_wb : Fld := ⟨0xa03118, 3, 29⟩
/-- HR_STAT_WB_HI.wb, bits 31:0 (R388). -/
def Reg.HR_STAT_WB_HI_wb : Fld := ⟨0xa0311c, 0, 32⟩
/-- MEM_CFG.channels, bits 1:0 (Table 16-12). -/
def Reg.MEM_CFG_channels : Fld := ⟨0xb00000, 0, 2⟩
/-- MEM_CFG.capacity, bits 3:2 (Table 16-12). -/
def Reg.MEM_CFG_capacity : Fld := ⟨0xb00000, 2, 2⟩
/-- MEM_CFG.read_writeback, bits 4:4 (Table 16-12). -/
def Reg.MEM_CFG_read_writeback : Fld := ⟨0xb00000, 4, 1⟩
/-- MEM_STATUS.ready, bits 0:0 (Table 16-11). -/
def Reg.MEM_STATUS_ready : Fld := ⟨0xb00004, 0, 1⟩
/-- MEM_STATUS.train_fail, bits 1:1 (Table 16-11). -/
def Reg.MEM_STATUS_train_fail : Fld := ⟨0xb00004, 1, 1⟩
/-- MEM_STATUS.poison_written, bits 2:2 (Table 16-11). -/
def Reg.MEM_STATUS_poison_written : Fld := ⟨0xb00004, 2, 1⟩
/-- MEM_STATUS.retired, bits 3:3 (Table 16-11). -/
def Reg.MEM_STATUS_retired : Fld := ⟨0xb00004, 3, 1⟩
/-- MEM_SCRUB.dram_en, bits 0:0 (Table 16-13). -/
def Reg.MEM_SCRUB_dram_en : Fld := ⟨0xb00008, 0, 1⟩
/-- MEM_SCRUB.sram_en, bits 1:1 (Table 16-13). -/
def Reg.MEM_SCRUB_sram_en : Fld := ⟨0xb00008, 1, 1⟩
/-- MEM_SCRUB.dram_period_h, bits 15:8 (Table 16-13). -/
def Reg.MEM_SCRUB_dram_period_h : Fld := ⟨0xb00008, 8, 8⟩
/-- MEM_SCRUB.sram_period_s, bits 31:16 (Table 16-13). -/
def Reg.MEM_SCRUB_sram_period_s : Fld := ⟨0xb00008, 16, 16⟩
/-- MEM_SHARE.w_raster, bits 3:0 (R417). -/
def Reg.MEM_SHARE_w_raster : Fld := ⟨0xb0000c, 0, 4⟩
/-- MEM_SHARE.w_assay, bits 7:4 (R417). -/
def Reg.MEM_SHARE_w_assay : Fld := ⟨0xb0000c, 4, 4⟩
/-- MEM_SHARE.w_crusher, bits 11:8 (R417). -/
def Reg.MEM_SHARE_w_crusher : Fld := ⟨0xb0000c, 8, 4⟩
/-- MEM_SHARE.w_mirror, bits 15:12 (R417). -/
def Reg.MEM_SHARE_w_mirror : Fld := ⟨0xb0000c, 12, 4⟩
/-- MEM_STORE_PAGES.v, bits 31:0 (Table 16-11). -/
def Reg.MEM_STORE_PAGES : Fld := ⟨0xb00010, 0, 32⟩
/-- MEM_RESERVED_PAGES.v, bits 31:0 (Table 16-11). -/
def Reg.MEM_RESERVED_PAGES : Fld := ⟨0xb00014, 0, 32⟩
/-- MEM_RETIRED.v, bits 12:0 (Table 16-11). -/
def Reg.MEM_RETIRED : Fld := ⟨0xb00018, 0, 13⟩
/-- MEM_CHc_CE.v, bits 31:0 (Table 16-11). -/
def Reg.MEM_CHc_CE (i : Nat) : Fld := ⟨0xb00020 + 0x4 * i, 0, 32⟩
/-- MEM_CHc_UE.v, bits 31:0 (Table 16-11). -/
def Reg.MEM_CHc_UE (i : Nat) : Fld := ⟨0xb00040 + 0x4 * i, 0, 32⟩
/-- MEM_SRAM_CE.v, bits 31:0 (Table 16-11). -/
def Reg.MEM_SRAM_CE : Fld := ⟨0xb00060, 0, 32⟩
/-- MEM_SRAM_UE.v, bits 31:0 (Table 16-11). -/
def Reg.MEM_SRAM_UE : Fld := ⟨0xb00064, 0, 32⟩
/-- MEM_SRAM_ADDR_ERR.v, bits 31:0 (Table 16-11). -/
def Reg.MEM_SRAM_ADDR_ERR : Fld := ⟨0xb00068, 0, 32⟩
/-- MEM_DTT_STATUS.entries, bits 5:0 (Table 16-11). -/
def Reg.MEM_DTT_STATUS_entries : Fld := ⟨0xb00070, 0, 6⟩
/-- MEM_DTT_STATUS.overflow, bits 8:8 (Table 16-11). -/
def Reg.MEM_DTT_STATUS_overflow : Fld := ⟨0xb00070, 8, 1⟩
/-- MEM_STT_STATUS.entries, bits 5:0 (Table 16-11). -/
def Reg.MEM_STT_STATUS_entries : Fld := ⟨0xb00074, 0, 6⟩
/-- MEM_STT_STATUS.overflow, bits 8:8 (Table 16-11). -/
def Reg.MEM_STT_STATUS_overflow : Fld := ⟨0xb00074, 8, 1⟩
/-- PAIR_CFG.config, bits 1:0 (Table 17-12). -/
def Reg.PAIR_CFG_config : Fld := ⟨0xc00000, 0, 2⟩
/-- PAIR_CFG.end, bits 2:2 (Table 17-12). -/
def Reg.PAIR_CFG_end : Fld := ⟨0xc00000, 2, 1⟩
/-- PAIR_CFG.mirror_store, bits 3:3 (Table 17-12). -/
def Reg.PAIR_CFG_mirror_store : Fld := ⟨0xc00000, 3, 1⟩
/-- PAIR_CFG.net_ports, bits 5:4 (Table 17-12). -/
def Reg.PAIR_CFG_net_ports : Fld := ⟨0xc00000, 4, 2⟩
/-- PAIR_CFG.pair_id, bits 31:16 (Table 17-12). -/
def Reg.PAIR_CFG_pair_id : Fld := ⟨0xc00000, 16, 16⟩
/-- TALLY_STATUS.role, bits 1:0 (Table 17-13). -/
def Reg.TALLY_STATUS_role : Fld := ⟨0xc00004, 0, 2⟩
/-- TALLY_STATUS.held, bits 2:2 (Table 17-13). -/
def Reg.TALLY_STATUS_held : Fld := ⟨0xc00004, 2, 1⟩
/-- TALLY_STATUS.warming, bits 3:3 (Table 17-13). -/
def Reg.TALLY_STATUS_warming : Fld := ⟨0xc00004, 3, 1⟩
/-- TALLY_STATUS.self_fit, bits 4:4 (Table 17-13). -/
def Reg.TALLY_STATUS_self_fit : Fld := ⟨0xc00004, 4, 1⟩
/-- TALLY_STATUS.peer_fit, bits 5:5 (Table 17-13). -/
def Reg.TALLY_STATUS_peer_fit : Fld := ⟨0xc00004, 5, 1⟩
/-- TALLY_STATUS.mirror_current, bits 6:6 (Table 17-13). -/
def Reg.TALLY_STATUS_mirror_current : Fld := ⟨0xc00004, 6, 1⟩
/-- TALLY_STATUS.deputy_halted, bits 7:7 (Table 17-13). -/
def Reg.TALLY_STATUS_deputy_halted : Fld := ⟨0xc00004, 7, 1⟩
/-- TALLY_STATUS.lost_seen, bits 8:8 (Table 17-13). -/
def Reg.TALLY_STATUS_lost_seen : Fld := ⟨0xc00004, 8, 1⟩
/-- TALLY_STATUS.late_seen, bits 9:9 (Table 17-13). -/
def Reg.TALLY_STATUS_late_seen : Fld := ⟨0xc00004, 9, 1⟩
/-- TALLY_STATUS.double_seen, bits 10:10 (Table 17-13). -/
def Reg.TALLY_STATUS_double_seen : Fld := ⟨0xc00004, 10, 1⟩
/-- TALLY_STATUS.relay_overload, bits 11:11 (Table 17-13). -/
def Reg.TALLY_STATUS_relay_overload : Fld := ⟨0xc00004, 11, 1⟩
/-- TALLY_EPOCH.v, bits 31:0 (R439). -/
def Reg.TALLY_EPOCH : Fld := ⟨0xc00008, 0, 32⟩
/-- TALLY_MAX_H.v, bits 31:0 (R439). -/
def Reg.TALLY_MAX_H : Fld := ⟨0xc0000c, 0, 32⟩
/-- PAIR_POS_DELTA_LO.v, bits 31:0 (R446). -/
def Reg.PAIR_POS_DELTA_LO : Fld := ⟨0xc00010, 0, 32⟩
/-- PAIR_POS_DELTA_HI.v, bits 31:0 (R446). -/
def Reg.PAIR_POS_DELTA_HI : Fld := ⟨0xc00014, 0, 32⟩
/-- RELAY_STRINGS.v, bits 31:0 (R451). -/
def Reg.RELAY_STRINGS : Fld := ⟨0xc00018, 0, 32⟩
/-- MIRROR_LAG.v, bits 31:0 (R455). -/
def Reg.MIRROR_LAG : Fld := ⟨0xc0001c, 0, 32⟩
/-- TALLY_COUNTS.takeovers, bits 15:0 (R455). -/
def Reg.TALLY_COUNTS_takeovers : Fld := ⟨0xc00020, 0, 16⟩
/-- TALLY_COUNTS.lease_late, bits 31:16 (R455). -/
def Reg.TALLY_COUNTS_lease_late : Fld := ⟨0xc00020, 16, 16⟩
/-- PAIR_ARB_ID.arbiter_id, bits 15:0 (R455). -/
def Reg.PAIR_ARB_ID_arbiter_id : Fld := ⟨0xc00024, 0, 16⟩
/-- ARB_PAIRk.pair_id, bits 15:0 (R455). -/
def Reg.ARB_PAIRk_pair_id (i : Nat) : Fld := ⟨0xc00040 + 0x4 * i, 0, 16⟩
/-- ARB_PAIRk.enable, bits 16:16 (R455). -/
def Reg.ARB_PAIRk_enable (i : Nat) : Fld := ⟨0xc00040 + 0x4 * i, 16, 1⟩
/-- WCn_CFG.enable, bits 0:0 (Table 18-9). -/
def Reg.WCn_CFG_enable (i : Nat) : Fld := ⟨0xd00000 + 0x40 * i, 0, 1⟩
/-- WCn_CFG.invert, bits 1:1 (Table 18-9). -/
def Reg.WCn_CFG_invert (i : Nat) : Fld := ⟨0xd00000 + 0x40 * i, 1, 1⟩
/-- WCn_CFG.standstill, bits 3:2 (Table 18-9). -/
def Reg.WCn_CFG_standstill (i : Nat) : Fld := ⟨0xd00000 + 0x40 * i, 2, 2⟩
/-- WCn_CFG.base_res, bits 6:4 (Table 18-9). -/
def Reg.WCn_CFG_base_res (i : Nat) : Fld := ⟨0xd00000 + 0x40 * i, 4, 3⟩
/-- WCn_CFG.hyst, bits 11:8 (Table 18-9). -/
def Reg.WCn_CFG_hyst (i : Nat) : Fld := ⟨0xd00000 + 0x40 * i, 8, 4⟩
/-- WCn_CFG.oc_cycles, bits 15:12 (Table 18-9). -/
def Reg.WCn_CFG_oc_cycles (i : Nat) : Fld := ⟨0xd00000 + 0x40 * i, 12, 4⟩
/-- WCn_CURRENT.run, bits 7:0 (Table 18-8). -/
def Reg.WCn_CURRENT_run (i : Nat) : Fld := ⟨0xd00004 + 0x40 * i, 0, 8⟩
/-- WCn_CURRENT.hold, bits 15:8 (Table 18-8). -/
def Reg.WCn_CURRENT_hold (i : Nat) : Fld := ⟨0xd00004 + 0x40 * i, 8, 8⟩
/-- WCn_CURRENT.hold_delay_ms, bits 23:16 (Table 18-8). -/
def Reg.WCn_CURRENT_hold_delay_ms (i : Nat) : Fld := ⟨0xd00004 + 0x40 * i, 16, 8⟩
/-- WCn_CHOP.toff, bits 5:0 (Table 18-10). -/
def Reg.WCn_CHOP_toff (i : Nat) : Fld := ⟨0xd00008 + 0x40 * i, 0, 6⟩
/-- WCn_CHOP.blank, bits 11:8 (Table 18-10). -/
def Reg.WCn_CHOP_blank (i : Nat) : Fld := ⟨0xd00008 + 0x40 * i, 8, 4⟩
/-- WCn_CHOP.fd, bits 14:12 (Table 18-10). -/
def Reg.WCn_CHOP_fd (i : Nat) : Fld := ⟨0xd00008 + 0x40 * i, 12, 3⟩
/-- WCn_CHOP.trip_pol, bits 15:15 (Table 18-10). -/
def Reg.WCn_CHOP_trip_pol (i : Nat) : Fld := ⟨0xd00008 + 0x40 * i, 15, 1⟩
/-- WCn_MSTEP.thr_8, bits 9:0 (Table 18-8). -/
def Reg.WCn_MSTEP_thr_8 (i : Nat) : Fld := ⟨0xd0000c + 0x40 * i, 0, 10⟩
/-- WCn_MSTEP.thr_2, bits 19:10 (Table 18-8). -/
def Reg.WCn_MSTEP_thr_2 (i : Nat) : Fld := ⟨0xd0000c + 0x40 * i, 10, 10⟩
/-- WCn_MSTEP.thr_full, bits 29:20 (Table 18-8). -/
def Reg.WCn_MSTEP_thr_full (i : Nat) : Fld := ⟨0xd0000c + 0x40 * i, 20, 10⟩
/-- WCn_ACCEL.v, bits 31:0 (R468). -/
def Reg.WCn_ACCEL (i : Nat) : Fld := ⟨0xd00010 + 0x40 * i, 0, 32⟩
/-- WCn_DECEL.v, bits 31:0 (R468). -/
def Reg.WCn_DECEL (i : Nat) : Fld := ⟨0xd00014 + 0x40 * i, 0, 32⟩
/-- WCn_HARD_DECEL.v, bits 31:0 (R466). -/
def Reg.WCn_HARD_DECEL (i : Nat) : Fld := ⟨0xd00018 + 0x40 * i, 0, 32⟩
/-- WCn_SW.filter_us, bits 11:0 (Table 18-11). -/
def Reg.WCn_SW_filter_us (i : Nat) : Fld := ⟨0xd0001c + 0x40 * i, 0, 12⟩
/-- WCn_SW.neg_pol, bits 12:12 (Table 18-11). -/
def Reg.WCn_SW_neg_pol (i : Nat) : Fld := ⟨0xd0001c + 0x40 * i, 12, 1⟩
/-- WCn_SW.pos_pol, bits 13:13 (Table 18-11). -/
def Reg.WCn_SW_pos_pol (i : Nat) : Fld := ⟨0xd0001c + 0x40 * i, 13, 1⟩
/-- WCn_SW.home_pol, bits 14:14 (Table 18-11). -/
def Reg.WCn_SW_home_pol (i : Nat) : Fld := ⟨0xd0001c + 0x40 * i, 14, 1⟩
/-- WCn_SW.home_src, bits 16:15 (Table 18-11). -/
def Reg.WCn_SW_home_src (i : Nat) : Fld := ⟨0xd0001c + 0x40 * i, 15, 2⟩
/-- WCn_SW.home_dir, bits 17:17 (Table 18-11). -/
def Reg.WCn_SW_home_dir (i : Nat) : Fld := ⟨0xd0001c + 0x40 * i, 17, 1⟩
/-- WCn_SW.neg_en, bits 18:18 (Table 18-11). -/
def Reg.WCn_SW_neg_en (i : Nat) : Fld := ⟨0xd0001c + 0x40 * i, 18, 1⟩
/-- WCn_SW.pos_en, bits 19:19 (Table 18-11). -/
def Reg.WCn_SW_pos_en (i : Nat) : Fld := ⟨0xd0001c + 0x40 * i, 19, 1⟩
/-- WCn_SW.chatter_max, bits 27:20 (Table 18-11). -/
def Reg.WCn_SW_chatter_max (i : Nat) : Fld := ⟨0xd0001c + 0x40 * i, 20, 8⟩
/-- WCn_HOME.creep, bits 15:0 (Table 18-8). -/
def Reg.WCn_HOME_creep (i : Nat) : Fld := ⟨0xd00020 + 0x40 * i, 0, 16⟩
/-- WCn_HOME.backoff, bits 31:16 (Table 18-8). -/
def Reg.WCn_HOME_backoff (i : Nat) : Fld := ⟨0xd00020 + 0x40 * i, 16, 16⟩
/-- WCn_HOME_TRAVEL.v, bits 31:0 (R474). -/
def Reg.WCn_HOME_TRAVEL (i : Nat) : Fld := ⟨0xd00024 + 0x40 * i, 0, 32⟩
/-- WCn_POS.v, bits 31:0 (R459). -/
def Reg.WCn_POS (i : Nat) : Fld := ⟨0xd00028 + 0x40 * i, 0, 32⟩
/-- WCn_VEL.v, bits 31:0 (Table 18-8). -/
def Reg.WCn_VEL (i : Nat) : Fld := ⟨0xd0002c + 0x40 * i, 0, 32⟩
/-- WCn_STATUS.state, bits 2:0 (Table 18-12). -/
def Reg.WCn_STATUS_state (i : Nat) : Fld := ⟨0xd00030 + 0x40 * i, 0, 3⟩
/-- WCn_STATUS.home_state, bits 5:3 (Table 18-12). -/
def Reg.WCn_STATUS_home_state (i : Nat) : Fld := ⟨0xd00030 + 0x40 * i, 3, 3⟩
/-- WCn_STATUS.homed, bits 6:6 (Table 18-12). -/
def Reg.WCn_STATUS_homed (i : Nat) : Fld := ⟨0xd00030 + 0x40 * i, 6, 1⟩
/-- WCn_STATUS.mode, bits 8:7 (Table 18-12). -/
def Reg.WCn_STATUS_mode (i : Nat) : Fld := ⟨0xd00030 + 0x40 * i, 7, 2⟩
/-- WCn_STATUS.neg_active, bits 9:9 (Table 18-12). -/
def Reg.WCn_STATUS_neg_active (i : Nat) : Fld := ⟨0xd00030 + 0x40 * i, 9, 1⟩
/-- WCn_STATUS.pos_active, bits 10:10 (Table 18-12). -/
def Reg.WCn_STATUS_pos_active (i : Nat) : Fld := ⟨0xd00030 + 0x40 * i, 10, 1⟩
/-- WCn_STATUS.home_active, bits 11:11 (Table 18-12). -/
def Reg.WCn_STATUS_home_active (i : Nat) : Fld := ⟨0xd00030 + 0x40 * i, 11, 1⟩
/-- WCn_STATUS.accel_deferred, bits 12:12 (Table 18-12). -/
def Reg.WCn_STATUS_accel_deferred (i : Nat) : Fld := ⟨0xd00030 + 0x40 * i, 12, 1⟩
/-- WCn_STATUS.limit_seen, bits 13:13 (Table 18-12). -/
def Reg.WCn_STATUS_limit_seen (i : Nat) : Fld := ⟨0xd00030 + 0x40 * i, 13, 1⟩
/-- WCn_STATUS.overcurrent, bits 14:14 (Table 18-12). -/
def Reg.WCn_STATUS_overcurrent (i : Nat) : Fld := ⟨0xd00030 + 0x40 * i, 14, 1⟩
/-- WCn_STATUS.chatter, bits 15:15 (Table 18-12). -/
def Reg.WCn_STATUS_chatter (i : Nat) : Fld := ⟨0xd00030 + 0x40 * i, 15, 1⟩
/-- WCn_CTRL.clear_fault, bits 0:0 (R470). -/
def Reg.WCn_CTRL_clear_fault (i : Nat) : Fld := ⟨0xd00034 + 0x40 * i, 0, 1⟩
/-- WCn_CHATTER.v, bits 15:0 (R476). -/
def Reg.WCn_CHATTER (i : Nat) : Fld := ⟨0xd00038 + 0x40 * i, 0, 16⟩
/-- SSIk_CFG.enable, bits 0:0 (Table 18-13). -/
def Reg.SSIk_CFG_enable (i : Nat) : Fld := ⟨0xd01000 + 0x20 * i, 0, 1⟩
/-- SSIk_CFG.nbits, bits 6:1 (Table 18-13). -/
def Reg.SSIk_CFG_nbits (i : Nat) : Fld := ⟨0xd01000 + 0x20 * i, 1, 6⟩
/-- SSIk_CFG.gray, bits 7:7 (Table 18-13). -/
def Reg.SSIk_CFG_gray (i : Nat) : Fld := ⟨0xd01000 + 0x20 * i, 7, 1⟩
/-- SSIk_CFG.err_bit, bits 8:8 (Table 18-13). -/
def Reg.SSIk_CFG_err_bit (i : Nat) : Fld := ⟨0xd01000 + 0x20 * i, 8, 1⟩
/-- SSIk_CFG.err_pol, bits 9:9 (Table 18-13). -/
def Reg.SSIk_CFG_err_pol (i : Nat) : Fld := ⟨0xd01000 + 0x20 * i, 9, 1⟩
/-- SSIk_CFG.clk, bits 12:10 (Table 18-13). -/
def Reg.SSIk_CFG_clk (i : Nat) : Fld := ⟨0xd01000 + 0x20 * i, 10, 3⟩
/-- SSIk_CFG.channel, bits 20:16 (Table 18-13). -/
def Reg.SSIk_CFG_channel (i : Nat) : Fld := ⟨0xd01000 + 0x20 * i, 16, 5⟩
/-- SSIk_CFG.check_en, bits 21:21 (Table 18-13). -/
def Reg.SSIk_CFG_check_en (i : Nat) : Fld := ⟨0xd01000 + 0x20 * i, 21, 1⟩
/-- SSIk_PERIOD.period_us, bits 15:0 (Table 18-8). -/
def Reg.SSIk_PERIOD_period_us (i : Nat) : Fld := ⟨0xd01004 + 0x20 * i, 0, 16⟩
/-- SSIk_PERIOD.monoflop_us, bits 23:16 (Table 18-8). -/
def Reg.SSIk_PERIOD_monoflop_us (i : Nat) : Fld := ⟨0xd01004 + 0x20 * i, 16, 8⟩
/-- SSIk_SCALE.v, bits 31:0 (R481). -/
def Reg.SSIk_SCALE (i : Nat) : Fld := ⟨0xd01008 + 0x20 * i, 0, 32⟩
/-- SSIk_OFFSET.v, bits 31:0 (R481). -/
def Reg.SSIk_OFFSET (i : Nat) : Fld := ⟨0xd0100c + 0x20 * i, 0, 32⟩
/-- SSIk_TOL.v, bits 31:0 (R481). -/
def Reg.SSIk_TOL (i : Nat) : Fld := ⟨0xd01010 + 0x20 * i, 0, 32⟩
/-- SSIk_RAW.v, bits 31:0 (R479). -/
def Reg.SSIk_RAW (i : Nat) : Fld := ⟨0xd01014 + 0x20 * i, 0, 32⟩
/-- SSIk_TIME_LO.v, bits 31:0 (R479). -/
def Reg.SSIk_TIME_LO (i : Nat) : Fld := ⟨0xd01018 + 0x20 * i, 0, 32⟩
/-- SSIk_STATUS.valid, bits 0:0 (Table 18-8). -/
def Reg.SSIk_STATUS_valid (i : Nat) : Fld := ⟨0xd0101c + 0x20 * i, 0, 1⟩
/-- SSIk_STATUS.error_seen, bits 1:1 (Table 18-8). -/
def Reg.SSIk_STATUS_error_seen (i : Nat) : Fld := ⟨0xd0101c + 0x20 * i, 1, 1⟩
/-- SSIk_STATUS.slip, bits 2:2 (Table 18-8). -/
def Reg.SSIk_STATUS_slip (i : Nat) : Fld := ⟨0xd0101c + 0x20 * i, 2, 1⟩
/-- SSIk_STATUS.failed, bits 31:16 (Table 18-8). -/
def Reg.SSIk_STATUS_failed (i : Nat) : Fld := ⟨0xd0101c + 0x20 * i, 16, 16⟩
/-- SSIk_TIME_HI.v, bits 31:0 (Table 18-8). -/
def Reg.SSIk_TIME_HI (i : Nat) : Fld := ⟨0xd01800 + 0x4 * i, 0, 32⟩
/-- ETHp_CFG.enable, bits 0:0 (R520). -/
def Reg.ETHp_CFG_enable (i : Nat) : Fld := ⟨0xe00000 + 0x1000 * i, 0, 1⟩
/-- ETHp_CFG.speed, bits 1:1 (R520). -/
def Reg.ETHp_CFG_speed (i : Nat) : Fld := ⟨0xe00000 + 0x1000 * i, 1, 1⟩
/-- ETHp_MAC_LO.v, bits 31:0 (R520). -/
def Reg.ETHp_MAC_LO (i : Nat) : Fld := ⟨0xe00004 + 0x1000 * i, 0, 32⟩
/-- ETHp_MAC_HI.v, bits 15:0 (R520). -/
def Reg.ETHp_MAC_HI (i : Nat) : Fld := ⟨0xe00008 + 0x1000 * i, 0, 16⟩
/-- ETHp_STATUS.link_up, bits 0:0 (R520). -/
def Reg.ETHp_STATUS_link_up (i : Nat) : Fld := ⟨0xe0000c + 0x1000 * i, 0, 1⟩
/-- ETHp_STATUS.link_changed, bits 1:1 (R520). -/
def Reg.ETHp_STATUS_link_changed (i : Nat) : Fld := ⟨0xe0000c + 0x1000 * i, 1, 1⟩
/-- ETHp_RX_FRAMES.v, bits 31:0 (R520). -/
def Reg.ETHp_RX_FRAMES (i : Nat) : Fld := ⟨0xe00010 + 0x1000 * i, 0, 32⟩
/-- ETHp_RX_ERRORS.v, bits 31:0 (R520). -/
def Reg.ETHp_RX_ERRORS (i : Nat) : Fld := ⟨0xe00014 + 0x1000 * i, 0, 32⟩
/-- ETHp_TX_FRAMES.v, bits 31:0 (R520). -/
def Reg.ETHp_TX_FRAMES (i : Nat) : Fld := ⟨0xe00018 + 0x1000 * i, 0, 32⟩
/-- ETHp_RX_FILTERED.v, bits 31:0 (R520). -/
def Reg.ETHp_RX_FILTERED (i : Nat) : Fld := ⟨0xe0001c + 0x1000 * i, 0, 32⟩

end Sys2Proof.Machine
end

