-- ==== Sys2Proof/Machine/Tab.lean ====
section
/-! DEFINITION. Sparse tables: a list of key and value pairs in one canonical form (keys strictly rising, no value equal to
what an unlisted key reads as), with what an unlisted key reads as given by a function. The register file, the byte
memories and every per-lane, per-node and per-plane record of State are held in this form. -/

namespace Sys2Proof.Machine

/-- The value at a key; an unlisted key reads as `d key`. -/
def Tab.get {α : Type} (d : Nat → α) : List (Nat × α) → Nat → α
  | [], k => d k
  | (k', v) :: t, k => if k = k' then v else Tab.get d t k

/-- Remove the entry of a key. -/
def Tab.del {α : Type} (m : List (Nat × α)) (k : Nat) : List (Nat × α) := m.filter fun e => e.1 != k

/-- Put an entry in its place, replacing one of the same key. -/
def Tab.put {α : Type} : List (Nat × α) → Nat → α → List (Nat × α)
  | [], k, v => [(k, v)]
  | (k', v') :: t, k, v =>
    if k < k' then (k, v) :: (k', v') :: t
    else if k = k' then (k, v) :: t
    else (k', v') :: Tab.put t k v

/-- Write a key: the value an unlisted key reads as removes the entry. -/
def Tab.set {α : Type} [DecidableEq α] (d : Nat → α) (m : List (Nat × α)) (k : Nat) (v : α) : List (Nat × α) :=
  if v = d k then Tab.del m k else Tab.put m k v

/-- Every key of the list is above a bound, and the keys rise strictly. -/
def Tab.above {α : Type} : Nat → List (Nat × α) → Bool
  | _, [] => true
  | b, (k, _) :: t => b ≤ k && Tab.above (k + 1) t

/-- The canonical form. -/
def Tab.wf {α : Type} [DecidableEq α] (d : Nat → α) (m : List (Nat × α)) : Bool :=
  Tab.above 0 m && m.all (fun e => decide (e.2 ≠ d e.1))

end Sys2Proof.Machine
end

