-- ==== Sys2Proof/Machine/Update.lean ====
section
/-! DEFINITION. One updater per field of State: each applies a function to its field and leaves the others alone. The
meanings change State through these; Laws/State.lean says once what each leaves unchanged. -/

namespace Sys2Proof.Machine

/-- Apply a function to `pending`. -/
def State.modPending (s : State) (f : (List Instr) → (List Instr)) : State := { s with pending := f s.pending }

/-- Apply a function to `beat`. -/
def State.modBeat (s : State) (f : Nat → Nat) : State := { s with beat := f s.beat }

/-- Apply a function to `regs`. -/
def State.modRegs (s : State) (f : (List (Nat × BitVec 32)) → (List (Nat × BitVec 32))) : State := { s with regs := f s.regs }

/-- Apply a function to `fresh`. -/
def State.modFresh (s : State) (f : (List (Nat × Nat)) → (List (Nat × Nat))) : State := { s with fresh := f s.fresh }

/-- Apply a function to `shadow`. -/
def State.modShadow (s : State) (f : (List (Nat × BitVec 32)) → (List (Nat × BitVec 32))) : State := { s with shadow := f s.shadow }

/-- Apply a function to `held`. -/
def State.modHeld (s : State) (f : (List (Nat × BitVec 32)) → (List (Nat × BitVec 32))) : State := { s with held := f s.held }

/-- Apply a function to `out`. -/
def State.modOut (s : State) (f : (List Output) → (List Output)) : State := { s with out := f s.out }

/-- Apply a function to `free`. -/
def State.modFree (s : State) (f : Nat → Nat) : State := { s with free := f s.free }

/-- Apply a function to `rings`. -/
def State.modRings (s : State) (f : Rings → Rings) : State := { s with rings := f s.rings }

/-- Apply a function to `power`. -/
def State.modPower (s : State) (f : Power → Power) : State := { s with power := f s.power }

/-- Apply a function to `time`. -/
def State.modTime (s : State) (f : Time → Time) : State := { s with time := f s.time }

/-- Apply a function to `inputs`. -/
def State.modInputs (s : State) (f : Inputs → Inputs) : State := { s with inputs := f s.inputs }

/-- Apply a function to `obs`. -/
def State.modObs (s : State) (f : Observer → Observer) : State := { s with obs := f s.obs }

/-- Apply a function to `sched`. -/
def State.modSched (s : State) (f : Sched → Sched) : State := { s with sched := f s.sched }

/-- Apply a function to `raster`. -/
def State.modRaster (s : State) (f : Raster → Raster) : State := { s with raster := f s.raster }

/-- Apply a function to `seam`. -/
def State.modSeam (s : State) (f : Seam → Seam) : State := { s with seam := f s.seam }

/-- Apply a function to `link`. -/
def State.modLink (s : State) (f : Link → Link) : State := { s with link := f s.link }

/-- Apply a function to `care`. -/
def State.modCare (s : State) (f : Care → Care) : State := { s with care := f s.care }

/-- Apply a function to `assay`. -/
def State.modAssay (s : State) (f : Assay → Assay) : State := { s with assay := f s.assay }

/-- Apply a function to `fm`. -/
def State.modFm (s : State) (f : Foreman → Foreman) : State := { s with fm := f s.fm }

/-- Apply a function to `store`. -/
def State.modStore (s : State) (f : Store → Store) : State := { s with store := f s.store }

/-- Apply a function to `mem`. -/
def State.modMem (s : State) (f : Mem → Mem) : State := { s with mem := f s.mem }

/-- Apply a function to `tally`. -/
def State.modTally (s : State) (f : Tally → Tally) : State := { s with tally := f s.tally }

/-- Apply a function to `wind`. -/
def State.modWind (s : State) (f : Winders → Winders) : State := { s with wind := f s.wind }

end Sys2Proof.Machine
end

