-- ==== Sys2Proof/Machine/Ops.lean ====
section
/-! DEFINITION. The named operations over the state that every command shares: the clock, registers and their fields, the
record of outputs, free values, MSI-X vectors, the global cause register, the rings the host consumes, posting an event and
ending an operation. -/

namespace Sys2Proof.Machine

/-! ### The clock (R84) -/

/-- A time base runs modulo 2^64 ns, with 48 fraction bits (R84). -/
def tbMod : Nat := 2 ^ 112

/-- A time base after n beats: 1 ns plus the rate correction each (R84). -/
def tbAdvance (tb : Nat) (rate : Int) (n : Nat) : Nat :=
  ((tb : Int) + n * ((2 ^ 48 : Nat) + rate)).toNat % tbMod

/-- Let n beats pass: the beat count and the four time bases move on, and what was set in the beat before is no longer of this beat (R10);
nothing else changes by itself (notes/assumptions/2.md). -/
def State.advance (s : State) (n : Nat) : State :=
  { s with
    beat := s.beat + n
    fresh := if n = 0 then s.fresh else []
    time := { s.time with tb := List.zipWith (fun t r => tbAdvance t r n) s.time.tb s.time.rate } }

/-- Time base k in 2^-48 ns. -/
def State.tb (s : State) (k : Nat) : Nat := s.time.tb.getD k 0

/-- The 80-bit stamp of time base k, in 2^-16 ns (R84). -/
def State.stamp80 (s : State) (k : Nat) : Nat := s.tb k / 2 ^ 32

/-- Nanoseconds of time base k, 64 bits. -/
def State.tbNs (s : State) (k : Nat) : Nat := s.tb k / 2 ^ 48

/-- The TB3 stamp in nanoseconds that events carry (R411). -/
def State.tb3 (s : State) : Nat := s.tbNs 3

/-- Set time base k. -/
def State.setTb (s : State) (k v : Nat) : State :=
  s.modTime fun t => { t with tb := t.tb.set k (v % tbMod) }

/-- Set the rate correction of time base k. -/
def State.setRate (s : State) (k : Nat) (r : Int) : State :=
  s.modTime fun t => { t with rate := t.rate.set k r }

/-! ### Registers -/

/-- The word of a register. -/
def State.reg (s : State) (off : Nat) : BitVec 32 := Tab.get resetVal s.regs off

/-- Set the word of a register. -/
def State.setReg (s : State) (off : Nat) (v : BitVec 32) : State :=
  { s with regs := Tab.set resetVal s.regs off v }

/-- A word with a field replaced. -/
def insertField (x : BitVec 32) (lo w v : Nat) : BitVec 32 :=
  (x &&& ~~~ BitVec.ofNat 32 ((2 ^ w - 1) <<< lo)) ||| BitVec.ofNat 32 ((v % 2 ^ w) <<< lo)

/-- The value of a field. -/
def State.get (s : State) (f : Fld) : Nat := (s.reg f.off).toNat / 2 ^ f.lo % 2 ^ f.w

/-- Set a field, modulo its width. -/
def State.set (s : State) (f : Fld) (v : Nat) : State :=
  s.setReg f.off (insertField (s.reg f.off) f.lo f.w v)

/-- Whether a one-bit field is 1. -/
def State.on (s : State) (f : Fld) : Bool := s.get f == 1

/-- The device sets a one-bit field to 1, and keeps that it did so in this beat (R10). -/
def State.raise (s : State) (f : Fld) : State := (s.set f 1).modFresh fun l => (f.off, f.lo) :: l

/-- Set a field to 0. -/
def State.clear (s : State) (f : Fld) : State := s.set f 0

/-- Set a one-bit field from a Bool. -/
def State.setOn (s : State) (f : Fld) (b : Bool) : State := s.set f (b2n b)

/-- Add to a counter that saturates at its width. -/
def State.bump (s : State) (f : Fld) (n : Nat) : State := s.set f (min (2 ^ f.w - 1) (s.get f + n))

/-- A field as a two's-complement number. -/
def State.getI (s : State) (f : Fld) : Int := signed f.w (s.get f)

/-- Set a field to a two's-complement number. -/
def State.setI (s : State) (f : Fld) (v : Int) : State := s.set f (wrap f.w v)

/-- Set a field to a two's-complement number, saturating. -/
def State.setSat (s : State) (f : Fld) (v : Int) : State :=
  s.setI f (clampI (-(2 ^ (f.w - 1) : Nat)) ((2 ^ (f.w - 1) : Nat) - 1) v)

/-- The value of a register pair, low part first. -/
def State.get2 (s : State) (lo hi : Fld) : Nat := s.get lo + 2 ^ lo.w * s.get hi

/-- Set a register pair. -/
def State.set2 (s : State) (lo hi : Fld) (v : Nat) : State := (s.set lo v).set hi (v / 2 ^ lo.w)

/-- A register pair as a two's-complement number. -/
def State.getI2 (s : State) (lo hi : Fld) : Int := signed (lo.w + hi.w) (s.get2 lo hi)

/-- Set a register pair to a two's-complement number. -/
def State.setI2 (s : State) (lo hi : Fld) (v : Int) : State := s.set2 lo hi (wrap (lo.w + hi.w) v)

/-- Return to its reset value every field of a register word whose classes meet a mask (R12). -/
def resetWord (classes : Nat) (off : Nat) (x : BitVec 32) : BitVec 32 :=
  (fieldsAt off).foldl
    (fun a f => if f.cls &&& classes = 0 then a else (a &&& ~~~ f.mask) ||| f.resetBits) x

/-- A reset of some classes, over the registers an offset test selects (R12, R496). -/
def State.resetRegs (s : State) (classes : Nat) (sel : Nat → Bool) : State :=
  s.modRegs fun rs => rs.foldl
      (fun m e => if sel e.1 then Tab.set resetVal m e.1 (resetWord classes e.1 (Tab.get resetVal rs e.1)) else m) rs

/-! ### Outputs and free values -/

/-- Give something out. -/
def State.emit (s : State) (o : Output) : State := { s with out := s.out ++ [o] }

/-- Give several things out, in order. -/
def State.emits (s : State) (os : List Output) : State := { s with out := s.out ++ os }

/-- Draw a free number: nothing constrains it. -/
def State.drawNat (s : State) : Nat × State := (Config.freeNat s.free, { s with free := s.free + 1 })

/-- Draw n free values, by the number of the first. -/
def State.drawBlock (s : State) (n : Nat) : Nat × State := (s.free, { s with free := s.free + n })

/-- Draw a free integer. -/
def State.drawInt (s : State) : Int × State := (Config.freeInt s.free, { s with free := s.free + 1 })

/-- Draw free bytes. -/
def State.drawBytes (s : State) : List (BitVec 8) × State := (Config.freeBytes s.free, { s with free := s.free + 1 })

/-- A quotient where the spec does not say how it rounds: exact when it is exact, otherwise either neighbour, freely. -/
def State.drawQuot (s : State) (num : Int) (den : Nat) : Int × State :=
  if num % (den : Int) = 0 then (num / den, s)
  else (num / den + (if Config.roundUp s.free then 1 else 0), { s with free := s.free + 1 })

/-! ### Device state (R23) -/

/-- BOOT. -/
def stBoot : Nat := 0
/-- SETUP. -/
def stSetup : Nat := 1
/-- READY. -/
def stReady : Nat := 2
/-- PRINTING. -/
def stPrinting : Nat := 3
/-- DRAINING. -/
def stDraining : Nat := 4
/-- COLD. -/
def stCold : Nat := 5
/-- DEEP. -/
def stDeep : Nat := 6

/-- The device state (Table 19-11). -/
def State.dev (s : State) : Nat := s.get Reg.PWR_STATE_state

/-- SETUP_LOCK.lock (R516). -/
def State.locked (s : State) : Bool := s.on Reg.SETUP_LOCK_lock

/-- Whether power domain d, 1 to 10, is powered (Table 19-10). -/
def State.powered (s : State) (d : Nat) : Bool := bit (s.get Reg.PWR_DOMAINS_powered) (d - 1)

/-- What a block of domain d does on its own it does only while the domain is powered (R484, R492). -/
def State.whenOn (s : State) (d : Nat) (f : State → Host.Outcome State Fault Refusal) : Host.Outcome State Fault Refusal :=
  if s.powered d then f s else .next s

/-! ### Interrupts (R386, R519) -/

/-- Send an MSI-X vector: a masked one goes to the pending bits (R386). -/
def State.sendVector (s : State) (v : Nat) : State :=
  let e := Tab.get (fun _ => MsixEntry.mk 0#64 0#32 0#32) s.rings.msix v
  if e.control.getLsbD 0 then
    (s.modRings fun r => { r with pba := r.pba ||| BitVec.ofNat 64 (2 ^ v) }).emit (.msix v false)
  else s.emit (.msix v true)

/-- The device sets a bit of GLB_CAUSE: a rise while its enable bit is 1 sends the global vector (R518, R519). -/
def State.raiseCause (s : State) (i : Nat) : State :=
  let f : Fld := ⟨Reg.GLB_CAUSE_classes.off, i, 1⟩
  let e : Fld := ⟨Reg.GLB_INT_EN_classes.off, i, 1⟩
  let s' := s.raise f
  if !s.on f && s.on e then s'.sendVector (s.get Reg.GLB_INT_CFG_vector) else s'

/-! ### Rings the host consumes (R374, R385, R386)

Number k: 0 to 15 the completion rings, 16 the event ring, 17 the statistics ring. -/

/-- The register block of a consumer ring (Table 14-10). -/
def ringBase (k : Nat) : Nat :=
  if k = 16 then 0xA03000 else if k = 17 then 0xA03100 else 0xA02000 + 0x40 * k

/-- A field of HR_CQ0, moved to ring k. -/
def onRing (k : Nat) (f : Fld) : Fld := { f with off := f.off - 0xA02000 + ringBase k }

/-- STATUS.enabled of consumer ring k. -/
def ringEnabled (k : Nat) : Fld := onRing k (Reg.HR_CQj_STATUS_enabled 0)
/-- STATUS.error of consumer ring k. -/
def ringErr (k : Nat) : Fld := onRing k (Reg.HR_CQj_STATUS_error 0)
/-- STATUS.cause of consumer ring k. -/
def ringCause (k : Nat) : Fld := onRing k (Reg.HR_CQj_STATUS_cause 0)
/-- STATUS.armed of consumer ring k. -/
def ringArmed (k : Nat) : Fld := onRing k (Reg.HR_CQj_STATUS_armed 0)
/-- Producer count of consumer ring k. -/
def ringProd (k : Nat) : Fld := onRing k (Reg.HR_CQj_PROD 0)
/-- Consumer count of consumer ring k. -/
def ringCons (k : Nat) : Fld := onRing k (Reg.HR_CQj_CONS 0)

/-- Base address of consumer ring k (R374: aligned to 4 KiB). -/
def State.ringAddr (s : State) (k : Nat) : Nat :=
  4096 * s.get (onRing k (Reg.HR_CQj_BASE_LO_base 0)) + 2 ^ 32 * s.get (onRing k (Reg.HR_CQj_BASE_HI_base 0))

/-- Size of consumer ring k: entries 64 to 65,536, or bytes 64 KiB to 256 MiB for the statistics ring; a value outside
is taken as the nearer end (Tables 14-3, 14-12, 14-13). -/
def State.ringSize (s : State) (k : Nat) : Nat :=
  let e := s.get (onRing k (Reg.HR_CQj_CFG_size_log2 0))
  if k = 17 then 2 ^ clampN 16 28 e else 2 ^ clampN 6 16 e

/-- Entries (bytes for the statistics ring) the host has not consumed: the counts compared by their signed 32-bit difference
(R374). -/
def State.ringUsed (s : State) (k : Nat) : Int :=
  signed 32 (wrap 32 ((s.get (ringProd k) : Int) - s.get (ringCons k)))

/-- The phase bit of entry n of a ring of a size: 1 when floor(n / size) is even (R380). -/
def phaseOf (n size : Nat) : Nat := if (n / size) % 2 = 0 then 1 else 0

/-- The entries of ring k that wait for the host: moderation start and size (R386). -/
def State.waiting (s : State) (k : Nat) : List (Nat × Nat) := Tab.get (fun _ => []) s.rings.waiting k

/-- Set them. -/
def State.setWaiting (s : State) (k : Nat) (l : List (Nat × Nat)) : State :=
  s.modRings fun r => { r with waiting := Tab.set (fun _ => []) r.waiting k l }

/-- Stop a ring and send the error vector (R385). `stop` numbers it as Rings.stopped does. -/
def State.stopRing (s : State) (stop : Nat) (err cause : Fld) (code : Nat) : State :=
  (((s.modRings fun r => { r with stopped := stop :: r.stopped }).raise err).set cause code
    |>.raise Reg.HR_STATUS_ring_error).sendVector (s.get Reg.HR_CFG_err_vector)

/-- Whether consumer ring k is enabled and not stopped. -/
def State.ringLive (s : State) (k : Nat) : Bool :=
  s.on (ringEnabled k) && !s.rings.stopped.contains (16 + k)

/-- Send the vector of an enabled, armed ring that holds entries, when their count has reached mod_count, the oldest has waited
mod_time_us, or an urgent completion was just written; the vector clears the arm bit (R386). -/
def State.moderate (s : State) (k : Nat) (urgent : Bool) : State :=
  match s.waiting k with
  | [] => s
  | (t, _) :: _ =>
    let mc := max 1 (s.get (onRing k (Reg.HR_CQj_CFG_mod_count 0)))
    let mt := 1000 * s.get (onRing k (Reg.HR_CQj_CFG_mod_time_us 0))
    if s.on (ringEnabled k) && s.on (ringArmed k) && (mc ≤ (s.waiting k).length || t + mt ≤ s.beat || urgent) then
      (s.clear (ringArmed k)).sendVector (s.get (onRing k (Reg.HR_CQj_CFG_vector 0)))
    else s

/-- Write a 32-byte entry to completion ring or event ring k, its phase in byte 31 bit 7, and moderate (R379, R380, R386). -/
def State.writeEntry (s : State) (k : Nat) (entry : List (BitVec 8)) (urgent : Bool) : State :=
  let n := s.get (ringProd k)
  let size := s.ringSize k
  let last := (entry.getD 31 0#8).toNat % 128 + 128 * phaseOf n size
  let bytes := slice entry 0 31 ++ leBytes 1 last
  ((s.emit (.dmaWrite (s.ringAddr k + 32 * (n % size)) bytes)).set (ringProd k) (n + 1)
    |>.setWaiting k (s.waiting k ++ [(s.beat, 1)])).moderate k urgent

/-! ### Events (R387, R407, R410, R411, R518) -/

/-- The class of an event code. -/
def eventClass (code : Nat) : Nat := code / 256

/-- Keep a record in log 4, which holds the newest 1,024 (R407). -/
def State.logEvent (s : State) (e : EventRec) : State :=
  s.modRings fun r =>
    { r with
      log := (r.log ++ [e]).drop (r.log.length + 1 - 1024)
      logOver := r.logOver || decide (1024 ≤ r.log.length)
      evtSeq := (r.evtSeq + 1) % 65536 }

/-- An event that the ring cannot take is lost and counted (R373, R387). -/
def State.loseEvent (s : State) : State :=
  ((s.bump Reg.HR_EVT_LOST 1).raise Reg.HR_STATUS_evt_lost).raiseCause 16

/-- The 32 bytes of an event record, phase left 0 (R410). -/
def eventBytes (e : EventRec) : List (BitVec 8) :=
  leBytes 2 e.code ++ leBytes 2 e.seq ++ slice e.args 0 27 ++ leBytes 1 (e.args.length % 128)

/-- Give an event to the event ring (R387): masked classes are not written; a full, disabled or stopped ring loses it. -/
def State.ringEvent (s : State) (e : EventRec) : State :=
  if bit (s.get Reg.HR_EVT_MASK_mask) (eventClass e.code - 1) then
    if s.ringLive 16 && decide (s.ringUsed 16 < (s.ringSize 16 : Int)) then s.writeEntry 16 (eventBytes e) false
    else s.loseEvent
  else s

/-- Post an event (R387, R410, R518, R519): it takes the next sequence number, is kept in log 4, sets its class's bit of
GLB_CAUSE, and goes to the event ring. -/
def State.post (s : State) (code : Nat) (args : List EArg) : State :=
  let e : EventRec := ⟨code, s.rings.evtSeq, packArgs args⟩
  ((s.logEvent e).raiseCause (eventClass code - 1)).ringEvent e

/-! ### Operations in flight (R379, R383) -/

/-- The operation of an issue ring entry, if it is in flight. -/
def State.flight (s : State) (ring n : Nat) : Option Flight :=
  s.rings.flight.find? (fun f => f.ring == ring && f.n == n)

/-- Replace an operation in flight. -/
def State.setFlight (s : State) (f : Flight) : State :=
  s.modRings fun r => { r with flight := r.flight.map (fun g => if g.ring == f.ring && g.n == f.n then f else g) }

/-- The opcode of an operation. -/
def Flight.opcode (f : Flight) : Nat := leAt f.desc 0 1
/-- Its fence flag (R377). -/
def Flight.fence (f : Flight) : Bool := bit (leAt f.desc 1 1) 0
/-- Its urgent flag (R377). -/
def Flight.urgent (f : Flight) : Bool := bit (leAt f.desc 1 1) 1
/-- Its tag (R377). -/
def Flight.tag (f : Flight) : Nat := leAt f.desc 2 2 % 1024
/-- Its effective line index (R377). -/
def Flight.effLi (f : Flight) : Nat := leAt f.desc 8 6
/-- A little-endian field of the descriptor, by the offset the catalogue gives. -/
def Flight.fld (f : Flight) (off n : Nat) : Nat := leAt f.desc off n

/-- Completion status OK. -/
def stOk : Nat := 0x00
/-- OK_CORRECTED. -/
def stOkCorrected : Nat := 0x01
/-- PARTIAL. -/
def stPartial : Nat := 0x02
/-- BAD_DESCRIPTOR. -/
def stBad : Nat := 0x10
/-- NO_SPACE. -/
def stNoSpace : Nat := 0x11
/-- VERIFY_FAIL. -/
def stVerifyFail : Nat := 0x12
/-- CHECK_FAIL. -/
def stCheckFail : Nat := 0x13
/-- HEAD_UNREACHABLE. -/
def stUnreachable : Nat := 0x20
/-- TIMEOUT. -/
def stTimeout : Nat := 0x21
/-- UNCORRECTABLE. -/
def stUncorrectable : Nat := 0x30
/-- ABORTED_BY_TALLY. -/
def stAborted : Nat := 0x40
/-- KEY_UNAVAILABLE. -/
def stKeyUnavailable : Nat := 0x41

/-- Take an operation out of flight and show how many are left (R383): those whose completion a host reset discards do not count. -/
def State.dropFlight (s : State) (ring n : Nat) : State :=
  let s1 := s.modRings fun r => { r with flight := r.flight.filter fun g => !(g.ring == ring && g.n == n) }
  s1.set Reg.HR_INFLIGHT (s1.rings.flight.filter fun g => g.cq < 16).length

/-- End an operation: its status and result wait for the completion to be written (R379, R393), which a host reset discards (R373). An
operation that is not in flight, or has ended, is left as it is. -/
def State.endOp (s : State) (ring n status : Nat) (result : List (Nat × List (BitVec 8))) : State :=
  match s.flight ring n with
  | some f =>
    match f.ended with
    | none =>
      if f.cq = 16 then s.dropFlight ring n
      else s.setFlight { f with begun := true, ended := some (status, resBytes result) }
    | some _ => s
  | none => s

/-- Mark an operation as begun. -/
def State.beginOp (s : State) (ring n : Nat) : State :=
  match s.flight ring n with
  | some f => s.setFlight { f with begun := true }
  | none => s

/-- Whether an operation in flight may begin (R381): not begun, not ended; every earlier one of its ring has begun; with a fence, the completion
of every earlier one has been written. -/
def State.mayBegin (s : State) (ring n : Nat) : Bool :=
  match s.rings.flight.findIdx? (fun f => f.ring == ring && f.n == n) with
  | none => false
  | some i =>
    match s.rings.flight[i]? with
    | none => false
    | some f =>
      let earlier := (s.rings.flight.take i).filter (fun g => g.ring == ring)
      !f.begun && f.ended.isNone && !(f.fence && !earlier.isEmpty) && earlier.all (fun g => g.begun || g.ended.isSome)

end Sys2Proof.Machine
end

