-- ==== Sys2Proof/Machine/Status.lean ====
section
/-! DEFINITION. The device at a glance: key slots named by jobs, fitness (R441), why PRINT_OK is low (R517), the change of
state (R23), the lanes a device uses (R15), and the tables in force. -/

namespace Sys2Proof.Machine

/-- State of key slot j (Table 19-6). -/
def State.keyState (s : State) (j : Nat) : Nat := s.get Reg.SEC_KEY_STATE_state / 4 ^ j % 4

/-- Set it. -/
def State.setKeyState (s : State) (j v : Nat) : State :=
  s.set ⟨Reg.SEC_KEY_STATE_state.off, 2 * j, 2⟩ v

/-- Whether slot j is LOADED, the only state in which it can be used (R499). -/
def State.keyUsable (s : State) (j : Nat) : Bool := s.keyState j == 1

/-- Whether a queued or running job names slot j (R406, R505). -/
def State.keyNamed (s : State) (j : Nat) : Bool := s.sched.jobs.any (fun b => b.keySlot == j)

/-- Every slot a queued or running job names is LOADED. -/
def State.keysGood (s : State) : Bool := s.sched.jobs.all (fun b => s.keyUsable b.keySlot)

/-- PAIR_CFG.config: 0 solo, 1 pair, 2 arbitrated pair, 3 arbiter (Table 17-12). -/
def State.config (s : State) : Nat := s.get Reg.PAIR_CFG_config

/-- Whether the device is one of a pair. -/
def State.inPair (s : State) : Bool := s.config == 1 || s.config == 2

/-- Whether the device holds the tally (TALLY_STATUS.held). -/
def State.held_ (s : State) : Bool := s.on Reg.TALLY_STATUS_held

/-- State code of lane n (Table 08-5). -/
def State.laneState (s : State) (n : Nat) : Nat := s.get (Reg.LANEn_STATUS_state n)

/-- Whether lane n is UP. -/
def State.laneUp (s : State) (n : Nat) : Bool := s.laneState n == 3

/-- Whether a string is configured: node_count is 1 to 8 (Table 09-22); a value above 8 is reserved and names no node (R8). -/
def State.nodeCount (s : State) (str : Nat) : Nat :=
  let n := s.get (Reg.LINKs_CFG_node_count str)
  if n ≤ 8 then n else 0

/-- Whether the device uses a ring end of its strings, 0 A, 1 B: both in solo, its own in a pair, none as arbiter (R15). -/
def State.usesEnd (s : State) (e : Nat) : Bool :=
  s.config == 0 || (s.inPair && s.get Reg.PAIR_CFG_end == e)

/-- The head lane of a string's end (R15). -/
def laneOf (str e : Nat) : Nat := 2 * str + e

/-- Whether the Deputy is halted (R452). -/
def State.deputyHalted (s : State) : Bool := s.on Reg.TALLY_STATUS_deputy_halted

/-- Whether the device is fit (R441). Without a mirrored store the standby is never fit while a job runs (R448). -/
def State.fit (s : State) : Bool :=
  (s.dev == stCold || s.dev == stPrinting || (s.dev == stReady && !s.tally.started))
  && s.on Reg.OBS_STATUS_pos_valid && s.on Reg.TB_STATUS_tb3_aligned
  && (List.range 32).all (fun str => s.nodeCount str == 0 || s.laneUp (laneOf str (s.get Reg.PAIR_CFG_end)))
  && (List.range 4).any (fun i => s.laneUp (64 + i))
  && (s.on Reg.TALLY_STATUS_mirror_current || s.dev == stReady)
  && !(s.dev == stCold && !s.on Reg.PAIR_CFG_mirror_store && s.on Reg.LS_STATUS_origin_set)
  && s.keysGood

/-- GLB_STATUS.low_cause: one bit per reason of Table 20-6 that holds (R517). -/
def State.lowCause (s : State) : Nat :=
  b2n (s.dev == stBoot || s.dev == stSetup || s.dev == stDeep)
  + 2 * b2n (s.dev == stCold && !s.fit)
  + 4 * b2n (!s.keysGood)
  + 8 * b2n s.power.lowDeputy
  + 16 * b2n s.power.lowThermal
  + 32 * b2n s.power.lowFault

/-- While PRINT_OK is low the speed ceiling is 0 with code 6, and its output low (R129, R544). -/
def State.ceilingLow (s : State) : State :=
  (((s.set Reg.LS_CEILING_ceiling 0).set Reg.LS_CEILING_code 6).set Reg.LS_CEIL_DETAIL_detail 0).modSched fun x => { x with pwm := (0, x.pwm.2) }

/-- Whether ALIVE toggles (R23, R24): not in BOOT and DEEP, and only while the timing path runs, which is in the POS domain. The Deputy, or
after its halt the last-resort sequencer, which AON powers, confirms it then (R452). -/
def State.aliveRuns (s : State) : Bool := s.dev != stBoot && s.dev != stDeep && s.powered 2

/-- Drive PRINT_OK from the causes that hold (R517): a fall sets GLB_CAUSE.print_ok_fell (R518), and CEILING_CHANGE tells that the ceiling's
limit code is 6 (R544). -/
def State.refresh (s : State) : State :=
  let c := s.lowCause
  let ok := c == 0
  let s1 := (s.set Reg.GLB_STATUS_low_cause c).modPower fun p => { p with printOk := ok }
  let s2 := s1.setOn Reg.TALLY_STATUS_self_fit s.fit
  if ok then s2
  else
    let s3 := s2.ceilingLow
    if s.power.printOk then
      (if s.get Reg.LS_CEILING_code = 6 then s3 else s3.post 0x030A [.n 0, .b 6, .n 0]).raiseCause 17
    else s3

/-- Whether a camera port's set-up lets it run (Table 11-10). -/
def State.portValid (s : State) (p : Nat) : Bool :=
  let n := s.get (Reg.CAMp_CFG_pixels p)
  s.on (Reg.CAMp_CFG_enable p) && s.get (Reg.CAMp_CFG_lanes p) != 3 && decide (16 ≤ n) && decide (n ≤ 8192)
    && n % (if s.on (Reg.CAMp_CFG_data_type p) then 2 else 4) == 0

/-- CAMp_STATUS.state: off, cold, in a frame or between frames (Table 11-11). -/
def State.showPort (s : State) (p : Nat) : State :=
  let c := Tab.get (fun _ => ({} : CamPort)) s.assay.ports p
  s.set (Reg.CAMp_STATUS_state p)
    (if !s.portValid p || !s.powered 8 || s.dev == stBoot || s.dev == stDeep then 0
     else if s.dev == stCold then 3
     else if c.frames.any (!·.closed) then 2 else 1)

/-- The same for every port. -/
def State.showPorts (s : State) : State := (((s.showPort 0).showPort 1).showPort 2).showPort 3

/-- Enter a device state (R23) and drive PRINT_OK for it. -/
def State.enter (s : State) (st : Nat) : State := (s.set Reg.PWR_STATE_state st).showPorts.refresh

/-- Whether a stream runs: an origin is set (LS_STATUS.origin_set). -/
def State.streaming (s : State) : Bool := s.on Reg.LS_STATUS_origin_set

/-- Whether the slices work: in PRINTING and DRAINING, and in COLD during warm-up (R445, R446). -/
def State.slicing (s : State) : Bool :=
  s.dev == stPrinting || s.dev == stDraining || (s.dev == stCold && s.on Reg.TALLY_STATUS_warming)

/-! ### Tables in force (R125) -/

/-- Placement. -/
def tPlacement : Nat := 1
/-- Trim. -/
def tTrim : Nat := 2
/-- Tone classes. -/
def tTone : Nat := 3
/-- Screen. -/
def tScreen : Nat := 4
/-- Skew. -/
def tSkew : Nat := 5
/-- Stitch. -/
def tStitch : Nat := 6
/-- Host mask. -/
def tMask : Nat := 7
/-- Port calibration. -/
def tCal : Nat := 8
/-- Column map. -/
def tColumn : Nat := 9
/-- Inspection plan. -/
def tPlan : Nat := 10
/-- Foreman target. -/
def tTarget : Nat := 11

/-- Whether a table switches at frames (R308): port tables and the inspection plan. -/
def atFrames (kind : Nat) : Bool := kind == tCal || kind == tColumn || kind == tPlan

/-- The key of a table's banks. -/
def bankKey (kind index sub : Nat) : Nat := kind * 65536 + index * 256 + sub

/-- The banks kept of a table, newest first. -/
def State.banksOf (s : State) (kind index sub : Nat) : List Bank :=
  Tab.get (fun _ => []) s.sched.banks (bankKey kind index sub)

/-- Set them. -/
def State.setBanks (s : State) (kind index sub : Nat) (l : List Bank) : State :=
  s.modSched fun c => { c with banks := Tab.set (fun _ => []) c.banks (bankKey kind index sub) l }

/-- Whether the 32-byte word of a bank at a byte offset reads as poisoned. -/
def badAt (bad : List Nat) (off : Nat) : Bool := bad.contains (off / 32 * 32)

/-- Change the poisoned words of a table's bank in force, or of its standby bank: the first staged, else the one kept. -/
def State.onBad (s : State) (kind index sub : Nat) (standby : Bool) (f : List Nat → List Nat) : State :=
  let mine := s.sched.staged.find? (fun g => g.kind == kind && g.index == index && g.sub == sub)
  match standby, mine, s.banksOf kind index sub with
  | false, _, b :: t => s.setBanks kind index sub ({ b with bad := f b.bad } :: t)
  | true, some g, _ => s.modSched fun c => { c with staged := c.staged.map fun h => if h = g then { h with bad := f h.bad } else h }
  | true, none, a :: b :: t => s.setBanks kind index sub (a :: { b with bad := f b.bad } :: t)
  | _, _, _ => s

/-- The poisoned words of that bank. -/
def State.badOf (s : State) (kind index sub : Nat) (standby : Bool) : List Nat :=
  let mine := s.sched.staged.find? (fun g => g.kind == kind && g.index == index && g.sub == sub)
  match standby, mine, s.banksOf kind index sub with
  | false, _, b :: _ => b.bad
  | true, some g, _ => g.bad
  | true, none, _ :: b :: _ => b.bad
  | _, _, _ => []

/-- The bank in force at a line: the newest one that starts at or below it. -/
def bankAt (l : List Bank) (line : Nat) : Option Bank := l.find? (fun b => b.start ≤ line)

/-- The bytes of the bank in force at a line; none where no bank is in force. -/
def State.tableAt (s : State) (kind index sub line : Nat) : Option (List (BitVec 8)) :=
  (bankAt (s.banksOf kind index sub) line).map (·.data)

/-- The bytes of the bank in force now: the newest. -/
def State.tableNow (s : State) (kind index sub : Nat) : Option (List (BitVec 8)) :=
  (s.banksOf kind index sub).head?.map (·.data)

/-- The newest bank of a table, staged or in force (R172). -/
def State.tableNewest (s : State) (kind index sub : Nat) : Option (List (BitVec 8)) :=
  match (s.sched.staged.filter (fun g => g.kind == kind && g.index == index && g.sub == sub)).getLast? with
  | some g => some g.data
  | none => s.tableNow kind index sub

/-! ### The head placement table (R108) -/

/-- Bar offset b_q, signed 48.16 counts (Table 05-2). -/
def plBarOffset (d : List (BitVec 8)) (q : Nat) : Int := signed 64 (leAt d (16 * q) 8)
/-- Bar trim t_q, 1/16 line. -/
def plBarTrim (d : List (BitVec 8)) (q : Nat) : Int := signed 16 (leAt d (16 * q + 8) 2)
/-- plane_en. -/
def plPlaneEn (d : List (BitVec 8)) (q : Nat) : Bool := bit (leAt d (16 * q + 10) 1) 0
/-- Offset of the record of head a (Table 05-3). -/
def plHead (a : Nat) : Nat := 160 + 16 * a
/-- down_offset o_h, signed 16.16 lines. -/
def plDown (d : List (BitVec 8)) (a : Nat) : Int := signed 32 (leAt d (plHead a) 4)
/-- The place word of head a. -/
def plPlace (d : List (BitVec 8)) (a : Nat) : Nat := leAt d (plHead a + 4) 4
/-- first_column. -/
def plFirst (d : List (BitVec 8)) (a : Nat) : Nat := bits (plPlace d a) 16 0
/-- plane. -/
def plPlane (d : List (BitVec 8)) (a : Nat) : Nat := bits (plPlace d a) 20 17
/-- head_en. -/
def plEn (d : List (BitVec 8)) (a : Nat) : Bool := bit (plPlace d a) 23
/-- stitch_width. -/
def plStitch (d : List (BitVec 8)) (a : Nat) : Nat := leAt d (plHead a + 8) 2
/-- class_code. -/
def plClass (d : List (BitVec 8)) (a : Nat) : Nat := leAt d (plHead a + 10) 2

/-- Columns of a class code (Table 09-16): (class_code[4:0] + 1) * 256. -/
def classColumns (code : Nat) : Nat := 256 * (code % 32 + 1)

/-- Node record of head address a. -/
def State.node (s : State) (a : Nat) : Node := Tab.get (fun _ => {}) s.link.nodes a

/-- Set it. -/
def State.setNode (s : State) (a : Nat) (n : Node) : State :=
  s.modLink fun l => { l with nodes := Tab.set (fun _ => {}) l.nodes a n }

/-- Change it. -/
def State.onNode (s : State) (a : Nat) (f : Node → Node) : State := s.setNode a (f (s.node a))

/-- Whether head a is served (NODEa_STATE.state 2, Table 09-24). -/
def State.served (s : State) (a : Nat) : Bool := s.get (Reg.NODEa_STATE_state a) == 2

/-- Whether head a is held for head line k: its HOLD is in force, and its release, if any, takes effect later (R279, R281). -/
def State.heldAt (s : State) (a k : Nat) : Bool :=
  (s.node a).held && match (s.node a).releaseAt with | some l => decide (k < l) | none => true

/-- Whether head a is held and its release has not been given (R281). -/
def State.holding (s : State) (a : Nat) : Bool := (s.node a).held && (s.node a).releaseAt.isNone

/-- The class code of head a: the placement record's when it names one, else that of the identified node (R109). -/
def State.classOf (s : State) (d : List (BitVec 8)) (a : Nat) : Nat :=
  if plClass d a ≠ 0 then plClass d a else s.get (Reg.NODEa_STATE_class_code a)

/-- The column count of head a. -/
def State.columnsOf (s : State) (d : List (BitVec 8)) (a : Nat) : Nat := classColumns (s.classOf d a)

/-- The enabled heads of a plane in a placement bank, in address order. -/
def plHeads (d : List (BitVec 8)) (q : Nat) : List Nat := upto 256 (fun a => plEn d a && plPlane d a == q)

/-- The placement bank for a head line; the newest where none starts so early. -/
def State.placementAt (s : State) (line : Nat) : List (BitVec 8) :=
  match s.tableAt tPlacement 0 0 line with
  | some d => d
  | none => (s.tableNow tPlacement 0 0).getD []

/-- Scheduler record of head a. -/
def State.head (s : State) (a : Nat) : HeadSched := Tab.get (fun _ => {}) s.sched.heads a

/-- Set it. -/
def State.setHead (s : State) (a : Nat) (h : HeadSched) : State :=
  s.modSched fun c => { c with heads := Tab.set (fun _ => {}) c.heads a h }

/-- Change it. -/
def State.onHead (s : State) (a : Nat) (f : HeadSched → HeadSched) : State := s.setHead a (f (s.head a))

/-- The committed line (R122). -/
def State.committed (s : State) : Nat := s.get2 Reg.LS_COMMIT_LINE_LO Reg.LS_COMMIT_LINE_HI

/-- X0, signed 48.16 (R105). -/
def State.x0 (s : State) : Int := s.getI2 Reg.LS_ORIGIN_LO Reg.LS_ORIGIN_HI

/-- The lead in force (R117). -/
def State.lead (s : State) : Nat := s.get Reg.LS_LEAD_lead_in_force

/-- The sampled stream settings (Table 05-13): one_bit. -/
def State.oneBit (s : State) : Bool := bit s.sched.streamCfg 1
/-- sheet_mode of the stream. -/
def State.sheetMode (s : State) : Bool := bit s.sched.streamCfg 2
/-- sheet_trig of the stream. -/
def State.sheetTrig (s : State) : Nat := bits s.sched.streamCfg 5 3

end Sys2Proof.Machine
end

