-- ==== Sys2Proof/Machine/ObsMath.lean ====
section
/-! DEFINITION. The arithmetic of the tracking observer (chapter 03): positions in 2^-16 counts, velocities and accelerations in
2^-32 counts per second (Table 03-1), times in 2^-16 ns; what a prediction, a crossing (R57, R58) and a line's position
(R106, R107) come to. An instance keeps 48 guard bits below these formats, so that what its roundings add up to stays within R57. A
quotient the spec does not say how to round goes to either neighbour; a predicted position is any value within the 2^-8 count of R57 of
the exact one (notes/assumptions/7.md). -/

namespace Sys2Proof.Machine

/-- Position, velocity and acceleration, with guard bits. -/
structure Kin where
  p : Int
  v : Int
  a : Int
deriving DecidableEq, Repr

/-- The signed difference of two stamps, 2^-16 ns (R86). -/
def stampDiff (t u : Nat) : Int := signed 80 (wrap 80 ((t : Int) - u))

/-- Whether one stamp lies before another, by their signed difference (R86). -/
def before (t u : Nat) : Bool := decide (stampDiff t u < 0)

/-- The signed difference of two positions in 48.16: counts are compared by their signed 48-bit difference (R34). -/
def posDiff (x y : Int) : Int := signed 64 (wrap 64 (x - y))

/-- 2^49 · 10^18, the common denominator of a propagated position. -/
def propDen : Nat := 2 ^ 49 * 10 ^ 18

/-- The guard bits of an instance, as a factor (R57). -/
def guard : Nat := 2 ^ 48

/-- A position propagated by k · 2^-16 ns, exact, over `propDen` (R53). -/
def Kin.propNum (x : Kin) (k : Int) : Int :=
  x.p * (propDen : Nat) + x.v * k * (2 ^ 17 * 10 ^ 9 : Nat) + x.a * k * k

/-- A velocity propagated by k · 2^-16 ns, exact, over 2^16 · 10^9 (R53). -/
def Kin.velNum (x : Kin) (k : Int) : Int := x.v * (2 ^ 16 * 10 ^ 9 : Nat) + x.a * k

/-- Record of instance k: encoders 0 to 3, remote 4. -/
def State.inst (s : State) (k : Nat) : Instance := Tab.get (fun _ => {}) s.obs.inst k

/-- Set it. -/
def State.setInst (s : State) (k : Nat) (i : Instance) : State :=
  s.modObs fun o => { o with inst := Tab.set (fun _ => {}) o.inst k i }

/-- s_k, unsigned 2.30 (R51). -/
def State.scale (s : State) (k : Nat) : Nat := s.get (Reg.OBS_SCALEk k)

/-- What `estNum` is over. -/
def estDen : Nat := propDen * 2 ^ 30 * guard

/-- The web estimate of source k at TB3 time t, exact, over `estDen` in 2^-16 counts (R51, R57). -/
def State.estNum (s : State) (k t : Nat) : Int :=
  let i := s.inst k
  Kin.propNum ⟨i.p, i.v, i.a⟩ (stampDiff t i.tu) * s.scale k + i.o * estDen

/-- The same, rounded. -/
def State.estimate (s : State) (k t : Nat) : Int := quot (s.estNum k t) estDen

/-- Web velocity of source k at time t (R51). -/
def State.estVel (s : State) (k t : Nat) : Int :=
  let i := s.inst k
  quot (Kin.velNum ⟨i.p, i.v, i.a⟩ (stampDiff t i.tu) * s.scale k) (2 ^ 16 * 10 ^ 9 * 2 ^ 30 * guard)

/-- Web acceleration of source k (R51). -/
def State.estAcc (s : State) (k : Nat) : Int := quot ((s.inst k).a * s.scale k) (2 ^ 30 * guard)

/-- OBS_SRC.mode; 3 is taken as SINGLE (R59). -/
def State.srcMode (s : State) : Nat := let m := s.get Reg.OBS_SRC_mode; if m = 3 then 0 else m

/-- The primary encoder. -/
def State.primary (s : State) : Nat := s.get Reg.OBS_SRC_primary

/-- The secondary encoder: none in SINGLE or when equal to the primary (Table 03-9). -/
def State.secondary (s : State) : Option Nat :=
  let k := s.get Reg.OBS_SRC_secondary
  if s.srcMode = 0 || k == s.primary then none else some k

/-- The primary weight in 1/128 (Table 03-9). -/
def State.blendW (s : State) : Nat := min 128 (s.get Reg.OBS_SRC_blend_w)

/-- OBS_STATUS.active: 0 to 3 encoder, 4 remote, 5 blend, 7 none (Table 03-12). -/
def State.active (s : State) : Nat := s.get Reg.OBS_STATUS_active

/-- The velocity of the web, at time t (R57, Table 03-3). -/
def State.webVel (s : State) (t : Nat) : Int :=
  if s.active ≤ 4 then s.estVel s.active t
  else if s.active = 5 then
    quot (s.blendW * s.estVel s.obs.pair.1 t + (128 - s.blendW : Nat) * s.estVel s.obs.pair.2 t) 128
  else 0

/-- The acceleration of the web. -/
def State.webAcc (s : State) : Int :=
  if s.active ≤ 4 then s.estAcc s.active
  else if s.active = 5 then
    quot (s.blendW * s.estAcc s.obs.pair.1 + (128 - s.blendW : Nat) * s.estAcc s.obs.pair.2) 128
  else 0

/-- What is left at time t of a difference that is slewed out at |v|/1024, at least 16 counts/s (R63). -/
def State.slewLeft (s : State) (t : Nat) : Int :=
  let rate : Nat := max (s.webVel t).natAbs (16 * 2 ^ 42)
  let gone : Nat := rate * (stampDiff t s.obs.slewAt).toNat / (2 ^ 42 * 10 ^ 9)
  let d := s.obs.slew
  if d.natAbs ≤ gone then 0 else if 0 < d then d - gone else d + gone

/-- What the observer and prediction arithmetic makes of the exact web position num / den: at most 2^-8 count from it (R57). -/
def predicted (t : Nat) (num : Int) (den : Nat) : Int :=
  clampI (-(-num / (den : Int)) - 256) (num / (den : Int) + 256) (num / (den : Int) + Config.predErr t (num / (den : Int)))

/-- The web position at TB3 time t, from the sources, the slewed difference taken out (R57, R59, R63). -/
def State.webPosAt (s : State) (t : Nat) : Int :=
  if s.active ≤ 4 then predicted t (s.estNum s.active t - s.slewLeft t * estDen) estDen
  else if s.active = 5 then
    predicted t (s.blendW * s.estNum s.obs.pair.1 t + (128 - s.blendW : Nat) * s.estNum s.obs.pair.2 t
      - s.slewLeft t * (128 * estDen : Nat)) (128 * estDen)
  else s.obs.frozen

/-- The present TB3 stamp, 2^-16 ns. -/
def State.now (s : State) : Nat := s.stamp80 3

/-- The present web position, signed 48.16. -/
def State.webPos (s : State) : Int := s.webPosAt s.now

/-- The reverse window W, counts (R65). -/
def State.revWindow (s : State) : Nat := max 1 (s.get Reg.OBS_CFG_rev_window)

/-- 64 µs in 2^-16 ns, the horizon of a prediction (R57). -/
def horizonMax : Nat := 64000 * 65536

/-- The time from now to the crossing of a web position, in 2^-16 ns (R58); none where no crossing is predicted. -/
def State.crossing (s : State) (x : Int) : Option Nat :=
  let d := posDiff x s.webPos
  let v := s.webVel s.now
  let a := s.webAcc
  if v.natAbs < s.get Reg.OBS_CFG_min_speed * 2 ^ 32 || v = 0 then none
  else
    let w := v * v + a * d * 2 ^ 16
    if w ≤ 0 then none
    else
      let num : Int := d * ((2 ^ 32 * 10 ^ 9 : Nat) : Int) * (v * v + a * d * 2 ^ 15)
      let num' : Int := if v < 0 then -num else num
      let den : Nat := v.natAbs * w.toNat
      if num' < 0 || (horizonMax * den : Nat) < num' then none else some (quot num' den).toNat

/-- The line period P in 2^-8 ns when a crossing lies tau · 2^-16 ns ahead (R110); 0 where the speed there is not above 0. -/
def State.periodAt (s : State) (tau : Nat) : Nat :=
  let vv := s.webVel s.now + quot (s.webAcc * tau) (2 ^ 16 * 10 ^ 9)
  if vv ≤ 0 then 0 else quotN (s.sched.cpl * 10 ^ 9 * 256) vv.toNat

/-! ### Lines (R106, R107) -/

/-- The reference line index of a web position, without the floor at 0 (R106, R116). -/
def State.refLineOf (s : State) (x : Int) : Int :=
  if s.sched.cpl = 0 then 0 else posDiff x s.x0 * 65536 / (s.sched.cpl : Int)

/-- The present reference line index; 0 while the position is behind X0 (R106). -/
def State.refLine (s : State) : Nat := (s.refLineOf s.webPos).toNat

/-- x0 + b_q + (t_q/16) · cpl + a line index in signed 48.16 times cpl (R107, R74). -/
def State.planeLine (s : State) (d : List (BitVec 8)) (q : Nat) (line16 : Int) : Int :=
  s.x0 + plBarOffset d q + divRound (plBarTrim d q * s.sched.cpl) (2 ^ 20) + divRound (line16 * s.sched.cpl) (2 ^ 32)

/-- xh(h, k), phase 0 of head line k of head h, by a placement bank (R107). -/
def State.xh (s : State) (d : List (BitVec 8)) (h k : Nat) : Int :=
  s.planeLine d (plPlane d h) ((k : Int) * 65536 + plDown d h)

end Sys2Proof.Machine
end

