-- ==== Sys2Proof/Machine/FmCore.lean ====
section
/-! DEFINITION. The Foreman's records and its terms (chapter 12): issuing a record (R325), terms that take effect (R327, R341),
loads withdrawn and rebased (R343). -/

namespace Sys2Proof.Machine

/-- A record for the host waits for the statistics ring (R388). -/
def State.sendStat (s : State) (rec : List (BitVec 8)) : State :=
  s.modRings fun r => { r with statQ := r.statQ ++ [rec] }

/-- The bytes of an item (Table 12-4). -/
def FmItem.bytes (i : FmItem) : List (BitVec 8) :=
  leBytes 3 i.index ++ leBytes 1 i.what ++ leBytes 2 (wrap 16 i.old) ++ leBytes 2 (wrap 16 i.new)

/-- A Foreman record (Table 12-3). -/
def FmChange.bytes (c : FmChange) (kind flags effLi : Nat) : List (BitVec 8) :=
  leBytes 1 kind ++ leBytes 1 c.loop ++ leBytes 2 flags ++ leBytes 4 c.seq ++ leBytes 6 effLi ++ leBytes 1 c.plane
  ++ leBytes 1 c.head ++ leBytes 4 c.causeFrame ++ leBytes 6 c.causeLi ++ leBytes 2 c.items.length ++ leBytes 4 0
  ++ c.items.flatMap FmItem.bytes

/-- The newest records that fit in 1 MiB, newest first (R407). -/
def fmKeep : Nat → List (Nat × List (BitVec 8)) → List (Nat × List (BitVec 8))
  | _, [] => []
  | room, e :: t => if e.2.length ≤ room then e :: fmKeep (room - e.2.length) t else []

/-- Issue a record: to the Foreman's log, and to the host when host_records is 1 (R325, R407). -/
def State.issueFm (s : State) (c : FmChange) (kind flags effLi : Nat) : State :=
  let b := c.bytes kind flags effLi
  let l := s.fm.log ++ [(s.fm.logAt, b)]
  let kept := (fmKeep (2 ^ 20) l.reverse).reverse
  let s1 := s.modFm fun f => { f with
    log := kept, logAt := (f.logAt + b.length) % 2 ^ 20, logOver := f.logOver || kept.length != l.length }
  if s.on Reg.FM_CFG_host_records then s1.sendStat b else s1

/-- Split items into records of at most 1,024 (R325). -/
def fmSplit : Nat → List FmItem → List (List FmItem)
  | 0, _ => []
  | n + 1, is => if is.length ≤ 1024 then [is] else is.take 1024 :: fmSplit n (is.drop 1024)

/-- Issue the records of a change, each with its own sequence number: kind 0x10 PROPOSAL or 0x11 ACTION. The answer holds the
changes as issued. -/
def State.issueChange (s : State) (c : FmChange) (kind effLi : Nat) : List FmChange × State :=
  (fmSplit (c.items.length / 1024 + 1) c.items).foldl (fun (acc, s) is =>
    let q := (s.get Reg.FM_SEQ + 1) % 2 ^ 32
    let c' := { c with seq := q, items := is }
    (acc ++ [c'], (s.set Reg.FM_SEQ q).issueFm c' kind c.flags effLi)) ([], s)

/-- E of a loop for a plane or head (R327). -/
def State.fmSince (s : State) (loop who : Nat) : Nat := Tab.get (fun _ => 0) s.fm.since (loop * 256 + who)

/-- Set it. -/
def State.setFmSince (s : State) (loop who line : Nat) : State :=
  s.modFm fun f => { f with since := Tab.set (fun _ => 0) f.since (loop * 256 + who) line }

/-- The key of nz: plane, row, plane column (R333). -/
def nzKey (q row col : Nat) : Nat := (q * 2 + row) * 131072 + col

/-- nz(c, ρ) in force. -/
def State.fmNz (s : State) (q row col : Nat) : Int := Tab.get (fun _ => (0 : Int)) s.fm.nz (nzKey q row col)

/-- bd_q(b) in force. -/
def State.fmBd (s : State) (q b : Nat) : Int := Tab.get (fun _ => (0 : Int)) s.fm.bd (q * 512 + b)

/-- ff(h, ρ) in force. -/
def State.fmFf (s : State) (h row : Nat) : Int := Tab.get (fun _ => (0 : Int)) s.fm.ff (2 * h + row)

/-- A term takes its new value (Table 12-1, Table 12-4). -/
def State.fmApply (s : State) (c : FmChange) (i : FmItem) : State :=
  match i.what with
  | 1 => s.setI (Reg.FM_PDq_pd c.plane) i.new
  | 2 => s.modFm fun f => { f with bd := Tab.set (fun _ => (0 : Int)) f.bd (c.plane * 512 + i.index) i.new }
  | 3 => s.modFm fun f => { f with nz := Tab.set (fun _ => (0 : Int)) f.nz (nzKey c.plane 0 i.index) i.new }
  | 4 => s.modFm fun f => { f with nz := Tab.set (fun _ => (0 : Int)) f.nz (nzKey c.plane 1 i.index) i.new }
  | 5 => s.modFm fun f => { f with
      moves := if f.moves.contains (c.head, i.index) then f.moves.filter (fun m => m != (c.head, i.index))
        else (c.head, i.index) :: f.moves }
  | 7 => s.setI (Reg.FM_REGq_dt c.plane) i.new
  | 8 => s.setI (Reg.FM_REGq_xoff c.plane) i.new
  | 9 => s.modFm fun f => { f with ff := Tab.set (fun _ => (0 : Int)) f.ff (2 * c.head) i.new }
  | 10 => s.modFm fun f => { f with ff := Tab.set (fun _ => (0 : Int)) f.ff (2 * c.head + 1) i.new }
  | _ => s

/-- A load of the Foreman takes effect at a line, all ones for none: its terms are in force, E moves, and its records are issued
again with the line (R325, R327, R340). -/
def State.fmEffect (s : State) (load line : Nat) : State :=
  let mine := s.fm.changes.filter (fun c => c.load == load)
  mine.foldl (fun s c =>
    let s1 := c.items.foldl (fun s i => s.fmApply c i) s
    let e := if line = 2 ^ 48 - 1 then 0 else line
    let s2 := match c.loop with
      | 1 => s1.setFmSince 1 c.head e
      | 2 => s1.setFmSince 2 c.plane e
      | 3 => s1.setFmSince 3 c.plane e
      | _ => s1
    s2.issueFm c 0x11 c.flags line) (s.modFm fun f => { f with changes := f.changes.filter (fun c => c.load != load) })

/-- Withdraw every load of the Foreman for a table that has not taken effect: its records again, with the withdrawn flag (R343). -/
def State.fmWithdraw (s : State) (kind index : Nat) : State :=
  let mine := s.fm.changes.filter (fun c => c.table.1 == kind && c.table.2.1 == index)
  let s1 := s.modFm fun f => { f with changes := f.changes.filter (fun c => !(c.table.1 == kind && c.table.2.1 == index)) }
  let s2 := s1.modSched fun c => { c with
    staged := c.staged.filter (fun g => !(g.kind == kind && g.index == index && g.fm.isSome)) }
  mine.foldl (fun s c => s.issueFm c 0x11 (c.flags ||| 4) (2 ^ 48 - 1)) s2

/-- A host table of kind 1, 2 or 5 takes effect at a line, all ones for none: it is the base, the terms of its table are 0, E of
the loops is the line, and FM_REBASE is posted (R343). -/
def State.fmRebase (s : State) (kind index : Nat) (data : List (BitVec 8)) (heads : List Nat) (line : Nat) : State :=
  let e := if line = 2 ^ 48 - 1 then 0 else line
  let s0 := s.modFm fun f => { f with
    bases := Tab.set (fun _ => []) f.bases (bankKey kind index 0) data }
  let s1 := match kind with
    | 1 => (List.range 10).foldl (fun (s : State) q => (s.setI (Reg.FM_REGq_dt q) 0).setFmSince 3 q e) s0
    | 2 =>
      let z := s0.modFm fun f => { f with
        bd := f.bd.filter (fun x => x.1 / 512 != index), nz := f.nz.filter (fun x => x.1 / 262144 != index) }
      heads.foldl (fun (s : State) h => s.setFmSince 1 h e) ((z.setI (Reg.FM_PDq_pd index) 0).setFmSince 2 index e)
    | _ =>
      heads.foldl (fun (s : State) h => s.setFmSince 1 h e) (s0.modFm fun f => { f with moves := f.moves.filter (fun m => m.1 / 8 != index) })
  (s1.raise Reg.FM_STATUS_rebased).post 0x0803 [.b kind, .b index, .li line]

end Sys2Proof.Machine
end

