-- ==== Sys2Proof/Machine/HeadClass.lean ====
section
/-! DEFINITION. The head class table in ROM (R250, Table 10-1) and the drop energy of a line (R251, R273). -/

namespace Sys2Proof.Machine

/-- The constants of a head model: columns, 600 dpi native, R_nom in 1/64 Ω, E1 to E3 and e_w in nJ, t_meas in µs, c_d and c_b in
mJ/K, r_db and r_bi in mK/W, T_shut in 1/64 °C. -/
structure HeadClass where
  columns : Nat
  dpi600 : Bool
  rNom : Nat
  e1 : Nat
  e2 : Nat
  e3 : Nat
  ew : Nat
  tMeas : Nat
  cd : Nat
  cb : Nat
  rdb : Nat
  rbi : Nat
  tShut : Int
deriving DecidableEq, Repr

/-- Table 10-1. -/
def headClass (model : Nat) : Option HeadClass :=
  match model with
  | 12 => some ⟨5120, false, 7680, 400, 600, 800, 10, 2, 500, 20000, 50, 150, 4608⟩
  | 13 => some ⟨2560, false, 7680, 400, 600, 800, 10, 2, 250, 10000, 100, 300, 4608⟩
  | 14 => some ⟨8192, false, 7680, 400, 600, 800, 10, 2, 800, 32000, 31, 94, 4608⟩
  | 31 => some ⟨4096, true, 6080, 900, 1300, 1700, 20, 3, 600, 24000, 45, 125, 4992⟩
  | _ => none

/-- The model of a class code (Table 09-16). -/
def modelOf (code : Nat) : Nat := code / 64

/-- The class of head a, from its head memory. -/
def State.headClassOf (s : State) (a : Nat) : Option HeadClass := headClass (modelOf (s.get (Reg.NODEa_STATE_class_code a)))

/-- k_E of head a, in 1/100 (R251). -/
def State.energyScale (s : State) (a : Nat) : Nat := 85 + 2 * ((s.node a).ranks.2 % 16)

/-- Drop energy of a level, in nJ; in one-bit mode a code of 1 counts at E3 (R273). -/
def HeadClass.dropNj (c : HeadClass) (oneBit : Bool) (code : Nat) : Nat :=
  if code = 0 then 0 else if oneBit then c.e3 else if code = 1 then c.e1 else if code = 2 then c.e2 else c.e3

/-- The energy of a line's codes on head a in 10^-11 J, and how many columns fire (R273). -/
def State.lineEnergy (s : State) (a : Nat) (codes : List Nat) : Nat × Nat :=
  match s.headClassOf a with
  | none => (0, 0)
  | some c =>
    let fires := codes.filter (· != 0)
    ((fires.map (c.dropNj s.oneBit)).sum * s.energyScale a, fires.length)

/-- Energy of n service drops at a level on head a, in 10^-11 J. -/
def State.spitEnergy (s : State) (a n level : Nat) : Nat :=
  match s.headClassOf a with
  | none => 0
  | some c => n * c.dropNj false level * s.energyScale a

/-- Energy of n warming pulses on head a, in 10^-11 J. -/
def State.warmEnergy (s : State) (a n : Nat) : Nat :=
  match s.headClassOf a with
  | none => 0
  | some c => n * c.ew * s.energyScale a

end Sys2Proof.Machine
end

