-- ==== Sys2Proof/Machine/Flags.lean ====
section
/-! DEFINITION. Check computations: CRC-32C of packets, messages, tables and blocks (R219), the CRC-8 of training blocks and FIRE
INHIBIT blocks (R197), the CRC-16 of head memory (R241). -/

namespace Sys2Proof.Machine

/-- One bit of the reflected CRC-32C: polynomial 0x1EDC_6F41, reflected 0x82F6_3B78 (R219). -/
def crc32cBit (crc : Nat) : Nat := if crc % 2 = 1 then (crc / 2) ^^^ 0x82F63B78 else crc / 2

/-- One byte of the CRC-32C. -/
def crc32cByte (crc b : Nat) : Nat :=
  crc32cBit (crc32cBit (crc32cBit (crc32cBit (crc32cBit (crc32cBit (crc32cBit (crc32cBit (crc ^^^ b))))))))

/-- The CRC-32C of bytes: initial value 0xFFFF_FFFF, final exclusive-or 0xFFFF_FFFF (R219). -/
def crc32c (bs : List (BitVec 8)) : Nat :=
  bs.foldl (fun c b => crc32cByte c b.toNat) 0xFFFFFFFF ^^^ 0xFFFFFFFF

/-- One bit of the CRC-8 of R197: polynomial x^8 + x^2 + x + 1, not reflected. -/
def crc8Bit (crc : Nat) (b : Bool) : Nat :=
  let fb := b != (crc / 128 % 2 == 1)
  let c := (crc * 2) % 256
  if fb then c ^^^ 0x07 else c

/-- The CRC-8 over bits 0 to n - 1 of a payload, bit 0 first (R197). -/
def crc8 (payload n : Nat) : Nat := (List.range n).foldl (fun c i => crc8Bit c (payload.testBit i)) 0

/-- A 48-bit payload with its CRC-8 in bits 55..48, the x^7 coefficient in bit 48 (R197). -/
def withCrc8 (payload : Nat) : Nat :=
  let p := payload % 2 ^ 48
  let c := crc8 p 48
  (List.range 8).foldl (fun a j => a + (if c.testBit (7 - j) then 2 ^ (48 + j) else 0)) p

/-- Whether a 56-bit payload passes its check: the loop over all 56 bits ends at 0 (R197). -/
def crc8Ok (payload : Nat) : Bool := crc8 payload 56 == 0

/-- One bit of the CRC-16 of R241: polynomial 0x1021, not reflected. -/
def crc16Bit (crc : Nat) (b : Bool) : Nat :=
  let fb := b != (crc / 32768 % 2 == 1)
  let c := (crc * 2) % 65536
  if fb then c ^^^ 0x1021 else c

/-- The CRC-16 of bytes: initial 0xFFFF, most significant bit first, no final exclusive-or (R241). -/
def crc16 (bs : List (BitVec 8)) : Nat :=
  bs.foldl (fun c b => (List.range 8).foldl (fun c i => crc16Bit c (b.getLsbD (7 - i))) c) 0xFFFF

end Sys2Proof.Machine
end

