-- ==== Sys2Proof/Machine/Pcs.lean ====
section
/-! DEFINITION. 64b/66b coding of the lanes (R194, R215, R216): the scrambler, the blocks of a packet, what a lane sends, and what a
receiver makes of the blocks that arrive. -/

namespace Sys2Proof.Machine

/-- Data: sync header 0b01. -/
def headData : BitVec 2 := 1#2
/-- Control: sync header 0b10. -/
def headControl : BitVec 2 := 2#2

/-! ### The scrambler 1 + x^39 + x^58 (R194). `w` holds the 58 bits sent or received before, the oldest in bit 0. -/

/-- 32 bits scrambled, and descrambled: each bit with the bits 39 and 58 before it on the line. -/
def mix32 (w x : Nat) : Nat := (x ^^^ (w / 2 ^ 19) ^^^ w) % 2 ^ 32

/-- The 58 bits last on the line after 32 more. -/
def shift32 (w x : Nat) : Nat := w / 2 ^ 32 + 2 ^ 26 * (x % 2 ^ 32)

/-- A body scrambled: the line's bits, and the 58 bits before the next. -/
def scramble (w : Nat) (body : BitVec 64) : Nat × BitVec 64 :=
  let a := mix32 w body.toNat
  let w1 := shift32 w a
  let b := mix32 w1 (body.toNat / 2 ^ 32)
  (shift32 w1 b, BitVec.ofNat 64 (a + 2 ^ 32 * b))

/-- A body of the line descrambled. -/
def descramble (w : Nat) (body : BitVec 64) : Nat × BitVec 64 :=
  let w1 := shift32 w body.toNat
  (shift32 w1 (body.toNat / 2 ^ 32), BitVec.ofNat 64 (mix32 w body.toNat + 2 ^ 32 * mix32 w1 (body.toNat / 2 ^ 32)))

/-- Blocks scrambled in order; sync headers are not. -/
def scrambleAll (w : Nat) : List LaneBlock → Nat × List LaneBlock
  | [] => (w, [])
  | b :: t =>
    let (w1, x) := scramble w b.body
    let (w2, r) := scrambleAll w1 t
    (w2, ⟨b.head, x⟩ :: r)

/-- A block in the opposite polarity (R209). -/
def invertBlock (on : Bool) (b : LaneBlock) : LaneBlock := if on then ⟨~~~b.head, ~~~b.body⟩ else b

/-! ### Blocks (Table 09-1, R197) -/

/-- A control block of a type. -/
def control (ty rest : Nat) : LaneBlock := ⟨headControl, BitVec.ofNat 64 (ty + 256 * rest)⟩

/-- Idle. -/
def idleBlock : LaneBlock := control 0x1E 0

/-- An ordered set with its 56-bit payload. -/
def orderedBlock (payload : Nat) : LaneBlock := control 0x4B payload

/-- Types of the terminate blocks with 0 to 7 octets. -/
def termTypes : List Nat := [0x87, 0x99, 0xAA, 0xB4, 0xCC, 0xD2, 0xE1, 0xFF]

/-- Data blocks and the terminate block of the bytes after a start block's seven. -/
def restBlocks : Nat → List (BitVec 8) → List LaneBlock
  | 0, _ => []
  | fuel + 1, bs =>
    if bs.length < 8 then [control (termTypes.getD bs.length 0) (leAt bs 0 bs.length)]
    else ⟨headData, BitVec.ofNat 64 (leAt bs 0 8)⟩ :: restBlocks fuel (bs.drop 8)

/-- The blocks of a packet and the two idle blocks after it (R216). -/
def packetBlocks (p : List (BitVec 8)) : List LaneBlock :=
  control 0x78 (leAt p 0 7) :: (restBlocks (p.length + 1) (p.drop 7) ++ [idleBlock, idleBlock])

/-- The scrambler after n idle blocks. -/
def afterIdles : Nat → Nat → Nat
  | 0, w => w
  | n + 1, w => afterIdles n (scramble w idleBlock.body).1

/-! ### Sending -/

/-- Lane record. -/
def State.lane (s : State) (n : Nat) : Lane := Tab.get (fun _ => {}) s.link.lanes n

/-- Set it. -/
def State.setLane (s : State) (n : Nat) (l : Lane) : State :=
  s.modLink fun k => { k with lanes := Tab.set (fun _ => {}) k.lanes n l }

/-- Change it. -/
def State.onLane (s : State) (n : Nat) (f : Lane → Lane) : State := s.setLane n (f (s.lane n))

/-- Whether a transmitter is asleep: it sends electrical idle (R203). -/
def State.txAsleep (s : State) (n : Nat) : Bool := s.on (Reg.LANEn_STATUS_tx_asleep n)

/-- A lane sends blocks, unless its transmitter is asleep: after the idle blocks since its last, whose number is free (the blocks' time is
not kept: notes/assumptions/6.md), scrambled, and inverted where tx_invert asks for it (R194, R203, R209). -/
def State.laneSend (s : State) (n : Nat) (blocks : List LaneBlock) (o : List LaneBlock → Output) : State :=
  if s.txAsleep n then s
  else
    let (idles, s1) := s.drawNat
    let (w, line) := scrambleAll (afterIdles idles (Tab.get (fun _ => 0) s.link.scrambler n)) blocks
    (s1.modLink fun k => { k with scrambler := Tab.set (fun _ => 0) k.scrambler n w }).emit
      (o (line.map (invertBlock (s.on (Reg.LANEn_CFG_tx_invert n)))))

/-- A lane sends a packet. -/
def State.sendPacket (s : State) (n : Nat) (p : List (BitVec 8)) : State := s.laneSend n (packetBlocks p) (.lanePacket n p)

/-! ### Receiving -/

/-- What a receiver makes of blocks, in order. -/
inductive RxItem where
  /-- a whole packet -/
  | packet (p : List (BitVec 8))
  /-- a packet ended as an error (R215) -/
  | broken
  /-- an ordered set and its payload -/
  | ordered (payload : Nat)
  /-- an invalid sync header under block lock -/
  | badHeader
  /-- block lock is reached -/
  | locked
  /-- block lock is lost -/
  | lost
deriving DecidableEq, Repr

/-- What a receiver keeps between blocks: block lock, the headers and invalid headers counted, the packet in progress. -/
structure Pcs where
  locked : Bool
  headers : Nat
  invalid : Nat
  packet : Option (List (BitVec 8))
deriving DecidableEq, Repr

/-- Whether a sync header is valid. -/
def headOk (h : BitVec 2) : Bool := h == headData || h == headControl

/-- The block-lock process of Clause 49 takes one sync header (R194): 64 valid ones in a row give lock; 16 invalid ones among 64 lose it.
Without lock, an invalid one slips and counting starts again. -/
def Pcs.header (p : Pcs) (ok : Bool) : Pcs × List RxItem :=
  if !p.locked then
    if !ok then ({ p with headers := 0 }, [])
    else if p.headers + 1 = 64 then ({ p with locked := true, headers := 0, invalid := 0 }, [.locked])
    else ({ p with headers := p.headers + 1 }, [])
  else
    let bad := p.invalid + b2n (!ok)
    let items := if ok then [] else [.badHeader]
    if bad = 16 then ({ p with locked := false, headers := 0, invalid := 0, packet := none }, items ++ [.lost])
    else if p.headers + 1 = 64 then ({ p with headers := 0, invalid := 0 }, items)
    else ({ p with headers := p.headers + 1, invalid := bad }, items)

/-- The packet in progress ends as an error. -/
def Pcs.break_ (p : Pcs) : Pcs × List RxItem := ({ p with packet := none }, if p.packet.isSome then [.broken] else [])

/-- The n octets of a body from octet i on. -/
def octets (body : BitVec 64) (i n : Nat) : List (BitVec 8) := leBytes n (body.toNat / 256 ^ i)

/-- A descrambled block under block lock (Table 09-1, R215, R217): an idle or start block, like any block the table does not list, ends a
packet in progress as an error; an ordered set leaves it as it is, but for one that passes its check and is of no kind the table lists (notes/assumptions/44.md). -/
def Pcs.block (p : Pcs) (head : BitVec 2) (body : BitVec 64) : Pcs × List RxItem :=
  if head = headData then
    match p.packet with
    | some bs => ({ p with packet := some (bs ++ octets body 0 8) }, [])
    | none => (p, [])
  else if head = headControl then
    let ty := body.toNat % 256
    if ty = 0x4B then
      let x := body.toNat / 256
      if crc8Ok x && !([0x1, 0xA, 0xB].contains (x % 16)) then p.break_ else (p, [.ordered x])
    else if ty = 0x78 then
      let (p1, items) := p.break_
      ({ p1 with packet := some (octets body 1 7) }, items)
    else if termTypes.contains ty then
      match p.packet with
      | some bs => ({ p with packet := none }, [.packet (bs ++ octets body 1 (termTypes.idxOf ty))])
      | none => (p, [])
    else p.break_
  else p.break_

/-- The blocks that arrive, one by one: a block counts for the lock, and is decoded where the lock stands before and after it. -/
def pcsRun (w : Nat) (p : Pcs) : List LaneBlock → Pcs × List RxItem
  | [] => (p, [])
  | b :: t =>
    let (w1, body) := descramble w b.body
    let (p1, i1) := p.header (headOk b.head)
    let (p2, i2) := if p.locked && p1.locked then p1.block b.head body else (p1, [])
    let (p3, i3) := pcsRun w1 p2 t
    (p3, i1 ++ i2 ++ i3)

/-- What the receiver of lane n makes of what arrives, in the polarity of rx_invert (R209). -/
def State.pcsIn (s : State) (n : Nat) (rx : LaneRx) : Pcs × List RxItem :=
  let inv := s.on (Reg.LANEn_CFG_rx_invert n)
  let l := s.lane n
  pcsRun (if inv then (~~~rx.before).toNat else rx.before.toNat) ⟨s.on (Reg.LANEn_STATUS_block_lock n), l.headers, l.invalid, l.packet⟩
    (rx.blocks.map (invertBlock inv))

end Sys2Proof.Machine
end

