-- ==== Sys2Proof/Machine/Stream.lean ====
section
/-! DEFINITION. The job stream (chapters 05, 15): panels placed at their partings, the next parting, PARTING events, runs of
skipped reference lines. -/

namespace Sys2Proof.Machine

/-- The panel span that holds an image line; a line in none is blank. -/
def State.spanAt (s : State) (line : Nat) : Option Span :=
  s.sched.spans.find? (fun p => p.start ≤ line && line < p.start + p.len)

/-- The panel placed last. -/
def State.lastSpan (s : State) : Option Span := s.sched.spans.getLast?

/-- Whether a job has panels still to place; repeat 0 has always (R398). -/
def jobMore (b : Job) : Bool := b.repeats == 0 || b.begun < b.repeats * b.panels.length

/-- The job whose panel comes next. -/
def State.nextJob (s : State) : Option Job := s.sched.jobs.find? jobMore

/-- One panel of a list begun: the first job with panels left counts one more. -/
def beginPanel : List Job → List Job
  | [] => []
  | b :: t => if (jobMore b) then { b with begun := b.begun + 1 } :: t else b :: beginPanel t

/-- Place the next panel of a job at a line (R121, R122, R400). -/
def State.placePanel (s : State) (b : Job) (start : Nat) : State :=
  let i := b.begun % b.panels.length
  match b.panels[i]? with
  | none => s
  | some p =>
    s.modSched fun c => { c with
      jobs := beginPanel c.jobs
      spans := c.spans ++ [⟨start, p.length, b.job, b.begun % 65536, i, b.keySlot, p.chains, false⟩] }

/-- The first line of the next panel without sheets: after the last panel, and the gap before a job's first (R121). -/
def State.nextStart (s : State) (b : Job) : Nat :=
  let gap := if b.begun = 0 then b.gap else 0
  match s.lastSpan with
  | none => if b.begun = 0 then max gap s.sched.minStart else gap
  | some p => if b.begun = 0 then max (p.start + p.len + gap) s.sched.minStart else p.start + p.len

/-- The first parting above the committed line (R132: all ones when none). -/
def State.nextParting (s : State) : Option Nat :=
  (s.sched.spans.find? (fun p => s.committed < p.start || !s.sched.anyBegun)).map (·.start)

/-- Strings whose nodes wait for a parting to be sent from their original end again take a parting (R247). -/
def State.setReturns (s : State) (f : Option Nat → Option Nat) : State :=
  s.modLink fun l => { l with
    strings := l.strings.map fun e => if e.2.returning = 0 then e else (e.1, { e.2 with returnAt := f e.2.returnAt }) }

/-- LS_NEXT_PARTING follows the spans and the committed line (Table 05-12); what waits for the next parting learns of it (R247). -/
def State.showParting (s : State) : State :=
  let p := s.nextParting
  (s.set2 Reg.LS_NEXT_PARTING_LO Reg.LS_NEXT_PARTING_HI (p.getD (2 ^ 48 - 1))).setReturns fun r => r.or p

/-- Without sheets, place the next panel as soon as no parting stands above the committed line (R121). -/
def State.extend (s : State) : State :=
  let s' :=
    if s.streaming && !s.sheetMode && !s.sched.stopping && s.nextParting.isNone then
      match s.nextJob with
      | some b => s.placePanel b (s.nextStart b)
      | none => s
    else s
  s'.showParting

/-- The last line of the stream, once it is known: fixed by a stop, or the end of the last panel when no panel is left
(R124). -/
def State.lastLine (s : State) : Option Int :=
  match s.sched.last with
  | some l => some l
  | none =>
    match s.nextJob with
    | some _ => none
    | none => s.lastSpan.map (fun p => (p.start : Int) + p.len - 1)

/-- A job that has placed all its panels leaves when the reference line has passed the last of them. -/
def State.retireJobs (s : State) : State :=
  let r := s.refLine
  s.modSched fun c => { c with
    jobs := c.jobs.filter (fun b => (jobMore b) || c.spans.any (fun p => p.job == b.job && r < p.start + p.len)) }

/-- After a halt of the Deputy in solo, PRINT_OK falls at the next parting line (R452). -/
def State.haltParting (s : State) (starts : List Nat) : State :=
  match s.tally.haltLine with
  | some l =>
    if starts.any (fun x => decide (l ≤ x)) then
      ((s.modTally fun t => { t with haltLine := none }).modPower fun p => { p with lowDeputy := true }).refresh
    else s
  | none => s

/-- Post PARTING for every parting the reference line has reached (R121). -/
def State.partings (s : State) : State :=
  if s.streaming && 0 ≤ posDiff s.webPos s.x0 then
    let r := s.refLine
    let due := s.sched.spans.filter (fun p => !p.posted && p.start ≤ r)
    if due.isEmpty then s
    else
      let s1 := s.modSched fun c => { c with
        spans := c.spans.map (fun p => if p.start ≤ r then { p with posted := true } else p) }
      let s2 := if s.on Reg.LS_EVENT_CFG_parting_events then
          due.foldl (fun s p => s.post 0x0305 [.li p.start, .n p.job, .n p.panelNo]) s1
        else s1
      (s2.haltParting (due.map (·.start))).retireJobs
  else s

/-! ### Skipped lines (R116) -/

/-- End a run, its reason, first line and count: LINES_SKIPPED. -/
def State.closeRun (s : State) (r : Nat × Int × Nat) : State :=
  ((s.modSched fun c => { c with skipRuns := c.skipRuns.filter (· != r) }).raise Reg.LS_STATUS_skipped).post 0x0304
    [.b r.1, .li r.2.1.toNat, .n r.2.2]

/-- A line joins the open runs of its reason: it extends those it adjoins, or begins one. -/
def joinRun (reason : Nat) (l : Int) (rs : List (Nat × Int × Nat)) : List (Nat × Int × Nat) :=
  let by_ (r : Nat × Int × Nat) : Bool := r.1 == reason && (r.2.1 + r.2.2 == l || l + 1 == r.2.1)
  let mine := rs.filter by_
  rs.filter (!by_ ·) ++ [(reason, mine.foldl (fun m r => min m r.2.1) l, 1 + (mine.map (·.2.2)).sum)]

/-- A head line that converts to reference line l is skipped for a reason: the line counts once, and belongs once to a run of that
reason. -/
def State.noteSkip (s : State) (reason : Nat) (l : Int) : State :=
  if s.sched.skipSeen.contains (reason, l) then s
  else
    (if s.sched.skipSeen.any (·.2 == l) then s else s.bump Reg.LS_SKIP_COUNT 1).modSched fun c =>
      { c with skipSeen := (reason, l) :: c.skipSeen, skipRuns := joinRun reason l c.skipRuns }

end Sys2Proof.Machine
end

