-- ==== Sys2Proof/Machine/Inhibit.lean ====
section
/-! DEFINITION. FIRE INHIBIT blocks (R21, R67, R226, R227), what they do to bound lines (R116), and the stamps that compare
pulses give to camera ports (R290). -/

namespace Sys2Proof.Machine

/-- The head lanes that are UP, that the device uses and whose transmitter is awake (R15, R21, R203). -/
def State.activeLanes (s : State) : List Nat := upto 64 (fun n => s.usesEnd (n % 2) && s.laneUp n && !s.txAsleep n)

/-- Payload of a FIRE INHIBIT block on a head lane (Table 09-13): its end and string are the lane's. -/
def inhibitPayload (assert : Bool) (lane seq : Nat) : Nat :=
  withCrc8 (0x1 + 16 * (seq % 16) + 2 ^ 8 * b2n assert + 2 ^ 9 * (lane % 2) + 2 ^ 10 * (lane / 2 % 32))

/-- Send one FIRE INHIBIT block on a lane (R226). -/
def State.sendInhibit (s : State) (assert : Bool) (lane : Nat) : State :=
  let q := Tab.get (fun _ => 0) s.link.inhibitSeq lane
  (s.modLink fun l => { l with inhibitSeq := Tab.set (fun _ => 0) l.inhibitSeq lane ((q + 1) % 16) }).laneSend lane
    [orderedBlock (inhibitPayload assert lane q)] (.inhibitBlock lane assert q)

/-- Send one on every active head lane. -/
def State.inhibitAll (s : State) (assert : Bool) : State := s.activeLanes.foldl (fun s n => s.sendInhibit assert n) s

/-- Whether the device inhibits: for FIRE_INHIBIT_N, a reversal, or a halted Deputy (R21, R67, R452). -/
def State.inhibiting (s : State) : Bool := s.link.inhibitPin || s.link.inhibitReversal || s.tally.haltInhibit

/-- The Canary's model of head a. -/
def State.model (s : State) (a : Nat) : HeadModel := Tab.get (fun _ => {}) s.care.heads a

/-- Change it. -/
def State.onModel (s : State) (a : Nat) (f : HeadModel → HeadModel) : State :=
  s.modCare fun c => { c with heads := Tab.set (fun _ => {}) c.heads a (f (s.model a)) }

/-- Columns of head a whose selected row the fire map in force enables. -/
def State.enabledColumns (s : State) (a : Nat) : Nat :=
  match s.tableNow tSkew (a / 8) 0 with
  | none => 0
  | some d => ((List.range (s.columnsOf ((s.tableNow tPlacement 0 0).getD []) a)).filter fun i =>
      let row := bits (leAt d (32768 * (a % 8) + 4 * i) 2) 10 10
      !bit (leAt d (32768 * (a % 8) + 4 * i + 2 * row) 2) 11).length

/-- Whether a node applies warming pulses: not while held, inhibited, NOT_SYNCED by its last STATUS, or measuring for a SCAN (R271). -/
def State.warms (s : State) (a : Nat) : Bool :=
  !(s.node a).held && !s.inhibiting && leAt (s.node a).status 0 1 ≠ 0 &&
    !(s.care.scans.any fun c => match c.now with | some (h, _) => h == a | none => false)

/-- A head line fires: its drops and warming pulses heat the head (R271, R273); a line that is not known to have been sent adds only
warming, and a held head nothing. A bound line with data makes the head ineligible for keep-wet spits, whose idle time starts anew (R268). -/
def State.heatLine (s : State) (a : Nat) (b : Bound) : State :=
  if s.heldAt a b.k then s
  else
    let (e, n, data) := match (s.head a).loads.find? (fun x => x.1 == b.k) with
      | some (_, e, n) => (e, n, true)
      | none => (0, 0, false)
    let w := s.get (Reg.HC_HEADa_STATE_warm_level a)
    let pulses := if b.k % 16 < w && (n ≠ 0 || s.warms a) then s.enabledColumns a - n else 0
    let warm := s.warmEnergy a pulses
    let ago := (stampDiff s.now b.t).toNat / 65536
    s.onModel a fun m => { m with
      energy := m.energy + e + warm, spat := if data then none else m.spat
      fired := max (if n = 0 then m.fired else max m.fired (s.beat - ago)) (if data then m.spat.getD 0 else 0) }

/-- Bound lines of a head whose T(k) has passed leave, and heat the head; those that passed inside a running inhibit are skipped for
its reason (R112, R116, R273). -/
def State.retireHead (s : State) (h : Nat) : State :=
  let c := s.head h
  let gone := c.bound.filter (fun b => before b.t s.now)
  if gone.isEmpty then s
  else
    let last := gone.foldl (fun m b => max m b.k) 0
    let fired (b : Bound) : Bool := match s.sched.inhibitFrom with | none => true | some (start, _) => before b.t start
    let s0 := gone.foldl (fun (s : State) b => if fired b then s.heatLine h b else s) s
    let s1 := s0.onHead h fun c => { c with
      bound := c.bound.filter (fun b => !before b.t s.now), loads := c.loads.filter (fun x => last < x.1) }
    match s.sched.inhibitFrom with
    | none => s1
    | some (start, reason) =>
      gone.foldl (fun s b =>
        if !before b.t start then s.noteSkip reason (s.refLineOf (s.xh (s.placementAt b.k) h b.k)) else s) s1

/-- The same for every head. -/
def State.retireBound (s : State) : State := s.sched.heads.foldl (fun s e => s.retireHead e.1) s

/-- The reason of Table 05-5 for the inhibit now in force. -/
def State.inhibitReason (s : State) : Nat := if s.link.inhibitReversal && !s.link.inhibitPin then 2 else 1

/-- The inhibit begins for one more cause, which `set` records. -/
def State.startInhibit (s : State) (set : Link → Link) : State :=
  let was := s.inhibiting
  let s1 := s.retireBound.modLink set
  if was then s1
  else
    ((s1.modSched fun c => { c with inhibitFrom := some (s1.now, s1.inhibitReason) }).raise Reg.LINK_INHIBIT_sending).inhibitAll
      true

/-- The inhibit ends for one cause, which `set` records: when none is left, 8 release blocks leave
(R227). -/
def State.endInhibit (s : State) (set : Link → Link) : State :=
  let s1 := s.retireBound.modLink set
  if s1.inhibiting then
    s1.modSched fun c => { c with inhibitFrom := some (s1.now, s1.inhibitReason) }
  else
    (List.range 8).foldl (fun s _ => s.inhibitAll false)
      ((s1.modSched fun c => { c with inhibitFrom := none }).clear Reg.LINK_INHIBIT_sending)

/-! ### Camera ports -/

/-- Camera port p. -/
def State.cam (s : State) (p : Nat) : CamPort := Tab.get (fun _ => {}) s.assay.ports p

/-- Set it. -/
def State.setCam (s : State) (p : Nat) (c : CamPort) : State :=
  s.modAssay fun a => { a with ports := Tab.set (fun _ => {}) a.ports p c }

/-- Change it. -/
def State.onCam (s : State) (p : Nat) (f : CamPort → CamPort) : State := s.setCam p (f (s.cam p))

/-- Post an Assay event and set its flags (R319, Tables 11-9 and 11-11): those that `limited` are posted at most once per port per
1 ms. -/
def State.postCam (s : State) (p code : Nat) (limited : Bool) (flag : Option Fld) (args : List EArg) : State :=
  let last := (s.cam p).posted.find? (fun e => e.1 == code)
  let free := match last with
    | some (_, t) => !limited || t + 1000000 ≤ s.beat
    | none => true
  if free then
    let s1 := s.onCam p fun c => { c with posted := (code, s.beat) :: c.posted.filter (fun e => e.1 != code) }
    let s2 := match flag with
      | some f => s1.raise f
      | none => s1
    (s2.raise ⟨Reg.ASSAY_STATUS_ports.off, p, 1⟩).post code args
  else s

/-- Whether a port takes part: enabled and not cold (Table 11-11). -/
def State.camOn (s : State) (p : Nat) : Bool :=
  let st := s.get (Reg.CAMp_STATUS_state p)
  st == 1 || st == 2

/-- A stamp joins a FIFO: behind those of earlier beats, and among those of its own beat in order of unit number (R290). -/
def addStamp (x : CamStamp) : List CamStamp → List CamStamp
  | [] => [x]
  | e :: t => if e.beat = x.beat && decide (x.unit < e.unit) then x :: e :: t else e :: addStamp x t

/-- A compare pulse adds a stamp to a port's FIFO; the last of more than 64 is discarded (R290). Stamps that come again after a pause of
silent_ms are a new run of them (R295; notes/assumptions/51.md). -/
def State.pushStamp (s : State) (p : Nat) (x : Int) (t unit : Nat) : State :=
  if s.camOn p then
    let old := s.cam p
    let stopped := decide (old.lastStamp + 1000000 * max 1 (bits (old.live.getD 0 0) 31 24) ≤ s.beat)
    let c := { old with lastStamp := s.beat, stampsFrom := if stopped then s.beat else old.stampsFrom }
    let l := addStamp ⟨x, t, unit, s.beat⟩ c.fifo
    if 64 < l.length then
      ((s.setCam p { c with fifo := l.take 64 }).bump (Reg.CAMp_ERRCNT_B_stamps_lost p) 1).postCam p 0x0704 true
        (some (Reg.CAMp_STATUS_lost_seen p)) [.b p, .b ((l.getLast?.map (·.unit)).getD unit)]
    else s.setCam p { c with fifo := l }
  else s

end Sys2Proof.Machine
end

