-- ==== Sys2Proof/Machine/Crypto.lean ====
section
/-! DEFINITION. The ciphers the spec names and does not spell out: AES-256 (FIPS 197), its XTS mode (IEEE 1619; R138, R365, R406) and
the key unwrapping of RFC 3394 (R406). PRESUMED from those standards (notes/assumptions/12.md). Bytes are numbers below 256. -/

namespace Sys2Proof.Machine

/-- Multiplication by x in GF(2^8) modulo x^8 + x^4 + x^3 + x + 1. -/
def aesX (a : Nat) : Nat := if a < 128 then 2 * a else (2 * a) ^^^ 0x11B

/-- Multiplication in GF(2^8). -/
def aesMul (a b : Nat) : Nat :=
  ((List.range 8).foldl (fun (acc : Nat × Nat) i =>
    (if b.testBit i then acc.1 ^^^ acc.2 else acc.1, aesX acc.2)) (0, a)).1

/-- The inverse in GF(2^8), as the 254th power; 0 has 0. -/
def aesInv (a : Nat) : Nat := (List.range 253).foldl (fun x _ => aesMul x a) a

/-- A byte rotated left by n bits. -/
def rotl8 (a n : Nat) : Nat := (a * 2 ^ n) % 256 + a / 2 ^ (8 - n)

/-- The S-box. -/
def aesSub (a : Nat) : Nat :=
  let b := aesInv a
  b ^^^ rotl8 b 1 ^^^ rotl8 b 2 ^^^ rotl8 b 3 ^^^ rotl8 b 4 ^^^ 0x63

/-- The S-box as a table. -/
def aesSBox : List Nat := (List.range 256).map aesSub

/-- The inverse S-box as a table. -/
def aesISBox : List Nat := (List.range 256).map fun y => (aesSBox.findIdx? (· == y)).getD 0

/-- Bytewise exclusive-or. -/
def xorBytes (a b : List Nat) : List Nat := List.zipWith (· ^^^ ·) a b

/-- Round constant n. -/
def aesRcon (n : Nat) : Nat := (List.range (n - 1)).foldl (fun x _ => aesX x) 1

/-- The next words of the key schedule of AES-256: `ws` holds them newest first. -/
def aesExpand : Nat → List (List Nat) → List (List Nat)
  | 0, ws => ws
  | n + 1, ws =>
    let i := ws.length
    let t := ws.getD 0 []
    let sub (w : List Nat) : List Nat := w.map (fun b => aesSBox.getD b 0)
    let t' :=
      if i % 8 = 0 then
        match sub (t.drop 1 ++ t.take 1) with
        | b :: r => (b ^^^ aesRcon (i / 8)) :: r
        | [] => []
      else if i % 8 = 4 then sub t
      else t
    aesExpand n (xorBytes (ws.getD 7 []) t' :: ws)

/-- The 15 round keys of a 32-byte key. -/
def aesRoundKeys (key : List Nat) : List (List Nat) :=
  let ws := (aesExpand 52 ((List.range 8).map fun i => (key.drop (4 * i)).take 4).reverse).reverse
  (List.range 15).map fun r => ((ws.drop (4 * r)).take 4).flatten

/-- ShiftRows by a sign: forward for encryption. -/
def aesShift (inverse : Bool) (st : List Nat) : List Nat :=
  (List.range 16).map fun j =>
    let r := j % 4
    let c := j / 4
    st.getD (r + 4 * ((if inverse then c + 4 - r else c + r) % 4)) 0

/-- MixColumns with the coefficients of a row. -/
def aesMix (m : List Nat) (st : List Nat) : List Nat :=
  (List.range 16).map fun j =>
    let r := j % 4
    let c := j / 4
    (List.range 4).foldl (fun x k => x ^^^ aesMul (m.getD ((k + 4 - r) % 4) 0) (st.getD (4 * c + k) 0)) 0

/-- AES-256 encryption of a 16-byte block. -/
def aesEnc (rk : List (List Nat)) (p : List Nat) : List Nat :=
  let sub (st : List Nat) : List Nat := st.map (fun b => aesSBox.getD b 0)
  let s0 := xorBytes p (rk.getD 0 [])
  let s1 := (List.range 13).foldl (fun st i =>
    xorBytes (aesMix [2, 3, 1, 1] (aesShift false (sub st))) (rk.getD (i + 1) [])) s0
  xorBytes (aesShift false (sub s1)) (rk.getD 14 [])

/-- AES-256 decryption of a 16-byte block. -/
def aesDec (rk : List (List Nat)) (c : List Nat) : List Nat :=
  let sub (st : List Nat) : List Nat := st.map (fun b => aesISBox.getD b 0)
  let s0 := sub (aesShift true (xorBytes c (rk.getD 14 [])))
  let s1 := (List.range 13).foldl (fun st i =>
    sub (aesShift true (aesMix [14, 11, 13, 9] (xorBytes st (rk.getD (13 - i) []))))) s0
  xorBytes s1 (rk.getD 0 [])

/-- The next tweak: multiplication by x, the bytes taken least significant first. -/
def xtsNext (t : List Nat) : List Nat :=
  let v := t.reverse.foldl (fun a b => a * 256 + b) 0
  let w := (2 * v) % 2 ^ 128
  let w' := if v.testBit 127 then w ^^^ 0x87 else w
  (List.range 16).map fun i => w' / 256 ^ i % 256

/-- XTS over the 16-byte blocks of a data unit. -/
def xtsBlocks (f : List Nat → List Nat) : Nat → List Nat → List Nat → List Nat
  | 0, _, _ => []
  | n + 1, t, d => xorBytes (f (xorBytes (d.take 16) t)) t ++ xtsBlocks f n (xtsNext t) (d.drop 16)

/-- Bytes as numbers. -/
def toNats (bs : List (BitVec 8)) : List Nat := bs.map BitVec.toNat

/-- Numbers as bytes. -/
def ofNats (ns : List Nat) : List (BitVec 8) := ns.map (BitVec.ofNat 8)

/-- The first tweak of a data unit under a 64-byte key. -/
def xtsTweak (key : List Nat) (unit : Nat) : List Nat :=
  aesEnc (aesRoundKeys (key.drop 32)) ((List.range 16).map fun i => unit / 256 ^ i % 256)

/-- AES-256-XTS encryption of a data unit of whole blocks (R365). -/
def xtsEnc (key : List (BitVec 8)) (unit : Nat) (d : List (BitVec 8)) : List (BitVec 8) :=
  let k := toNats key
  ofNats (xtsBlocks (aesEnc (aesRoundKeys (k.take 32))) (d.length / 16) (xtsTweak k unit) (toNats d))

/-- AES-256-XTS decryption. -/
def xtsDec (key : List (BitVec 8)) (unit : Nat) (d : List (BitVec 8)) : List (BitVec 8) :=
  let k := toNats key
  ofNats (xtsBlocks (aesDec (aesRoundKeys (k.take 32))) (d.length / 16) (xtsTweak k unit) (toNats d))

/-- One step of the unwrapping of RFC 3394: step t, counting down. -/
def unwrapStep (rk : List (List Nat)) (n : Nat) (ar : List Nat × List (List Nat)) (t : Nat) : List Nat × List (List Nat) :=
  let i := (t - 1) % n
  let tb := (List.range 8).map fun j => t / 256 ^ (7 - j) % 256
  let b := aesDec rk (xorBytes ar.1 tb ++ ar.2.getD i [])
  (b.take 8, ar.2.set i (b.drop 8))

/-- RFC 3394 unwrapping under a 32-byte key; none when the integrity check fails. -/
def keyUnwrap (kek wrapped : List Nat) : Option (List Nat) :=
  let n := wrapped.length / 8 - 1
  let rk := aesRoundKeys kek
  let rs := (List.range n).map fun i => (wrapped.drop (8 * (i + 1))).take 8
  let (a, r) := ((List.range (6 * n)).map (fun i => 6 * n - i)).foldl (unwrapStep rk n) (wrapped.take 8, rs)
  if a = List.replicate 8 0xA6 then some r.flatten else none

/-- The key check value: the first 3 bytes of the encryption of a zero block under the data key (R406). -/
def keyCheck (key : List (BitVec 8)) : List (BitVec 8) :=
  ofNats ((aesEnc (aesRoundKeys ((toNats key).take 32)) (List.replicate 16 0)).take 3)

end Sys2Proof.Machine
end

