-- ==== Sys2Proof/Machine/Tables.lean ====
section
/-! DEFINITION. Tables at effective lines (R125, R126, R153, R183, R542, R543): staging a bank, fixing its effective line,
the switch at its consumer, and the end of a stream. Kind 12 stands for the Foreman's cross-web offset of a plane (R323, R341),
which switches as a table does. -/

namespace Sys2Proof.Machine

/-- The Foreman's offset xoff_q, as a table of this model. -/
def tXoff : Nat := 12

/-- Raster record of plane q. -/
def State.plane (s : State) (q : Nat) : PlaneRaster := Tab.get (fun _ => {}) s.raster.planes q

/-- Set it. -/
def State.setPlane (s : State) (q : Nat) (p : PlaneRaster) : State :=
  s.modRaster fun r => { r with planes := Tab.set (fun _ => {}) r.planes q p }

/-- Change it. -/
def State.onPlane (s : State) (q : Nat) (f : PlaneRaster → PlaneRaster) : State := s.setPlane q (f (s.plane q))

/-- The newest placement bank, staged or in force; none loaded is empty. -/
def State.placementNewest (s : State) : List (BitVec 8) := (s.tableNewest tPlacement 0 0).getD []

/-- The placement bank in force now. -/
def State.placementNow (s : State) : List (BitVec 8) := (s.tableNow tPlacement 0 0).getD []

/-- The enabled heads of a string. -/
def plString (d : List (BitVec 8)) (str : Nat) : List Nat := upto 256 (fun a => a / 8 == str && plEn d a)

/-- The plane that the heads of a string print (R109). -/
def State.stringPlane (s : State) (str : Nat) : Option Nat :=
  (plString s.placementNow str).head?.map (plPlane s.placementNow)

/-- The first line that the consumer of a table has not processed (Table 05-7, R542, and the count of head lines in chapter 07). -/
def State.progress (s : State) (kind index : Nat) : Nat :=
  let heads (q : Nat) : Nat := let n := (s.plane q).next; if n = 0 then 0 else n + 63
  if kind = tPlacement then
    s.sched.heads.foldl (fun m e => match e.2.high with | some k => max m (k + 1) | none => m) 0
  else if kind = tSkew then match s.stringPlane index with | some q => heads q | none => 0
  else if kind = tStitch then heads index
  else if kind = tMask then match s.stringPlane index with | some q => (s.plane q).next | none => 0
  else if kind = tTarget then s.fm.targetSeen
  else if kind = tPlan || kind = tCal || kind = tColumn then 0
  else (s.plane index).next

/-- Whether two staged banks are of one table. -/
def Staged.same (g h : Staged) : Bool := g.kind == h.kind && g.index == h.index && g.sub == h.sub

/-- Whether a retired bank keeps a load of a raster table from being staged (R153). -/
def State.retiredHeld (s : State) (g : Staged) : Bool :=
  (g.kind == tTrim || g.kind == tTone || g.kind == tScreen) && 2 ≤ (s.banksOf g.kind g.index g.sub).length

/-- The effective line of a staged bank, where it can be fixed now: the line asked for, or for all ones the first parting not
processed when it was staged; not before the line its consumer processes next, nor at or below the bank before it (R125, R126). -/
def State.fixedLine (s : State) (g : Staged) : Option Nat :=
  let prev := match s.banksOf g.kind g.index g.sub with
    | b :: older => if b.start = 0 && older.isEmpty then 0 else b.start + 1
    | [] => 0
  let want :=
    if g.eff = 2 ^ 48 - 1 then
      if g.seen = 0 then some 0 else (s.sched.spans.find? (fun p => g.seen ≤ p.start)).map (·.start)
    else some g.eff
  want.map (fun w => max w (max prev (s.progress g.kind g.index)))

/-- Fix the effective line of one staged bank that no earlier bank of its table precedes; TABLE_LATE when its line had been
processed (R125). -/
def State.fixOne (s : State) (g : Staged) (earlier : List Staged) : Staged × State :=
  if g.line.isSome || earlier.any g.same || s.retiredHeld g || !s.streaming then (g, s)
  else
    match s.fixedLine g with
    | none => (g, s)
    | some l =>
      let s1 := if g.eff ≠ 2 ^ 48 - 1 && decide (g.eff < g.seen) then
          (s.raise Reg.LS_STATUS_table_late).post 0x0309 [.b g.kind, .li g.eff, .li l]
        else s
      ({ g with line := some l }, s1)

/-- Fix every effective line that can be fixed. -/
def State.fixLines (s : State) : State :=
  let (l, s') := s.sched.staged.foldl (fun (acc, s) g => let (g', s') := s.fixOne g acc; (acc ++ [g'], s')) ([], s)
  s'.modSched fun c => { c with staged := l }

/-- The 16 bits of the skew entry of a row of head column i of node n (R170). -/
def skewRaw (d : List (BitVec 8)) (n i row : Nat) : Nat := leAt d (32768 * n + 4 * i + 2 * row) 2

/-- The row that fires a column (R171). -/
def skewRow (d : List (BitVec 8)) (n i : Nat) : Nat := bits (skewRaw d n i 0) 10 10

/-- The entry of the selected row. -/
def skewSel (d : List (BitVec 8)) (n i : Nat) : Nat := skewRaw d n i (skewRow d n i)

/-- delay of an entry. -/
def skDelay (e : Nat) : Nat := bits e 5 0
/-- phase of an entry. -/
def skPhase (e : Nat) : Nat := bits e 9 6
/-- disable of an entry. -/
def skDisable (e : Nat) : Bool := bit e 11
/-- stitch_class of an entry. -/
def skClass (e : Nat) : Nat := bits e 15 12

/-- SKEW_SWITCH_LOSS for one head: columns whose delay rises are blanked, columns whose delay falls lose lines; columns that the new bank
disables are in neither count (R183). -/
def State.switchLoss (s : State) (a line : Nat) (old new : List (BitVec 8)) : State :=
  let cols := s.columnsOf (s.placementAt line) a
  let on (i : Nat) : Bool := !skDisable (skewSel new (a % 8) i)
  let up := (upto cols (fun i => on i && decide (skDelay (skewSel old (a % 8) i) < skDelay (skewSel new (a % 8) i)))).length
  let down := (upto cols (fun i => on i && decide (skDelay (skewSel new (a % 8) i) < skDelay (skewSel old (a % 8) i)))).length
  if up = 0 && down = 0 then s
  else
    ((s.bump Reg.SEAM_SWITCH_LOSS (up + down)).raise Reg.SEAM_STATUS_switch_loss).post 0x0413
      [.b a, .li line, .n up, .n down]

/-- A node is not served, for a reason of Table 09-21. -/
def State.notServed (s : State) (a reason : Nat) : State :=
  (((s.onNode a fun n => { n with step := 0, retry := false }).set (Reg.NODEa_STATE_state a) 3).set (Reg.NODEa_STATE_reason a) reason).post
    0x0511 [.b a, .b reason]

/-- Heads being served, or past the check of their memory, that a placement bank enables for another class (R109). -/
def State.classMismatch (s : State) (d : List (BitVec 8)) : List Nat :=
  upto 256 fun a =>
    let st := s.get (Reg.NODEa_STATE_state a)
    plEn d a && plClass d a ≠ 0 && plClass d a ≠ s.get (Reg.NODEa_STATE_class_code a) && (st == 2 || (st == 1 && decide (3 ≤ (s.node a).step)))

/-- A staged bank takes effect at a line; none while no origin is set (R125, R397). `first` is the first line its consumer processes with it,
which the completion reports. A placement bank whose class_code a served head does not have takes that head out of service (R109). -/
def State.takeEffect (s : State) (g : Staged) (line first : Option Nat) : State :=
  let old := s.tableNow g.kind g.index g.sub
  let shown := first.getD (2 ^ 48 - 1)
  let keep := if line.isSome then s.banksOf g.kind g.index g.sub else []
  let s1 := s.setBanks g.kind g.index g.sub (⟨line.getD 0, g.data, g.bad⟩ :: keep)
  let heads := if g.kind = tSkew then plString s.placementNow g.index else plHeads s.placementNow g.index
  let s2 :=
    if g.kind = tSkew then
      let t := (s1.modSeam fun e => { e with
          maps := if line.isSome then e.maps else e.maps.filter (fun m => m.1 / 8 != g.index) }).modFm fun f =>
        { f with refused := f.refused.filter (fun r => r.1 / 8 != g.index) }
      match line, old with
      | some l, some o => heads.foldl (fun s a => s.switchLoss a l o g.data) t
      | _, _ => t
    else if g.kind = tPlacement then (s1.classMismatch g.data).foldl (fun (s : State) a => s.notServed a 4) s1
    else s1
  let s3 := match g.fm with
    | some load => s2.fmEffect load shown
    | none =>
      if g.kind = tPlacement || g.kind = tTrim || g.kind = tSkew then s2.fmRebase g.kind g.index g.data heads shown else s2
  match g.op with
  | some (r, n) =>
    s3.endOp r n stOk [(4, leBytes 6 shown), (10, leBytes 1 g.kind), (11, leBytes 1 g.index), (12, leBytes 4 0xFFFFFFFF)]
  | none => s3

/-- Remove a staged bank from the list. -/
def State.unstage (s : State) (g : Staged) : State := s.modSched fun c => { c with staged := c.staged.filter (· != g) }

/-- Before a consumer processes a line, the banks of a table whose effective line it reaches take effect (R125). The line scheduler may skip
the effective line: its bank takes effect at the line it binds. -/
def State.switchTable (s : State) (kind index line : Nat) : State :=
  let s0 := s.fixLines
  let due := s0.sched.staged.filter (fun g => g.kind == kind && g.index == index &&
    match g.line with | some l => decide (l ≤ line) | none => false)
  if due.isEmpty then s0
  else (due.foldl (fun s g => (s.unstage g).takeEffect g g.line (if kind = tPlacement then some line else g.line)) s0).fixLines

/-- Stage a bank that has passed its checks: without an origin it takes effect at once (R125). -/
def State.stage (s : State) (g : Staged) : State :=
  if s.streaming then
    (s.modSched fun c => { c with staged := c.staged ++ [{ g with seen := s.progress g.kind g.index }] }).fixLines
  else s.takeEffect g none none

/-- At the end of a stream every staged bank takes effect, in submission order, and no bank is kept for old lines (R153, R543). Tables that
switch at frames take effect at the next frame that begins (R308). -/
def State.endTables (s : State) : State :=
  let l := s.sched.staged.filter fun g => !atFrames g.kind
  let later := (s.sched.staged.filter fun g => atFrames g.kind).map fun g => { g with eff := 2 ^ 48 - 1 }
  let s1 := l.foldl (fun s g => s.takeEffect g none none) (s.modSched fun c => { c with staged := later })
  s1.modSched fun c => { c with
    banks := c.banks.map (fun e => (e.1, match e.2 with | [] => [] | b :: _ => [{ b with start := 0 }])) }

/-- The staged loads of the host end without effect when the tally is lost; those of the Foreman are dropped (R391). -/
def State.abortTables (s : State) : State :=
  let l := s.sched.staged
  l.foldl (fun s g => match g.op with
    | some (r, n) => s.endOp r n stAborted [(10, leBytes 1 g.kind), (11, leBytes 1 g.index), (12, leBytes 4 0xFFFFFFFF)]
    | none => s) ((s.modSched fun c => { c with staged := [] }).modFm fun f => { f with changes := [] })

/-- TABLE_TAKES_EFFECT (R125): the consumer of a table comes to process its next line. The line scheduler does so in BIND_SEND (R542). -/
def execTableTakesEffect (dt : Nat) (kind : Fin 13) (index : Fin 32) (sub : Fin 4) (s : State) : Result :=
  let s := (s.advance dt).fixLines
  let k := kind.val
  if k = tCal || k = tColumn || k = tPlan || k = tPlacement then .next s
  else
    match s.sched.staged.find? (fun g => g.kind == k && g.index == index.val && g.sub == sub.val) with
    | some g =>
      match g.line with
      | some l => if l ≤ s.progress k index then .next ((s.unstage g).takeEffect g (some l) (some l)).fixLines else .next s
      | none => .next s
    | none => .next s

end Sys2Proof.Machine
end

