-- ==== Sys2Proof/Machine/Tardamet.lean ====
section
/-! DEFINITION. The Tardamet block format (R348 to R354): header fields and their ranges, the token stream, the check value. -/

namespace Sys2Proof.Machine

/-- kind. -/
def tbKind (h : List (BitVec 8)) : Nat := leAt h 0 1
/-- height. -/
def tbHeight (h : List (BitVec 8)) : Nat := leAt h 1 1
/-- width. -/
def tbWidth (h : List (BitVec 8)) : Nat := leAt h 4 4
/-- raw_len. -/
def tbRawLen (h : List (BitVec 8)) : Nat := leAt h 8 4
/-- payload_len. -/
def tbPayLen (h : List (BitVec 8)) : Nat := leAt h 12 4
/-- flags. -/
def tbFlags (h : List (BitVec 8)) : Nat := leAt h 24 1
/-- level. -/
def tbLevel (h : List (BitVec 8)) : Nat := leAt h 25 1
/-- check. -/
def tbCheck (h : List (BitVec 8)) : Nat := leAt h 28 4

/-- line_bytes of a kind and width (Table 13-1). -/
def lineBytes (kind width : Nat) : Nat := if kind = 0 then width else ceilDiv width 4

/-- Whether kind, width and height are in range and the raw data fits (R348). -/
def geometryOk (kind width height : Nat) : Bool :=
  kind ≤ 1 && 1 ≤ width && width ≤ 122880 && 1 ≤ height && height ≤ 35 && lineBytes kind width * height ≤ 1048576

/-- Whether every header field is in its range and raw_len is right (R350, R354). `given`: the header comes with
STORE_PRECOMPRESSED. -/
def headerOk (h : List (BitVec 8)) (given : Bool) : Bool :=
  geometryOk (tbKind h) (tbWidth h) (tbHeight h) && leAt h 2 2 == 0 && leAt h 16 8 == 0 && leAt h 26 2 == 0
    && tbRawLen h == lineBytes (tbKind h) (tbWidth h) * tbHeight h
    && tbFlags h < 8
    && (tbLevel h ≤ 9 || (tbLevel h == 0xFF && (given || bit (tbFlags h) 1)))

/-- Copy n bytes, each the one d back in the output, which is held newest first (R353). -/
def copyBack (d : Nat) : Nat → List (BitVec 8) → List (BitVec 8)
  | 0, r => r
  | n + 1, r => copyBack d n (r.getD (d - 1) 0#8 :: r)

/-- The length of a token with minimum m and the bytes after its length (Table 13-3). -/
def tokenLen (m n : Nat) (t : List (BitVec 8)) : Option (Nat × List (BitVec 8)) :=
  if n ≤ 61 then some (m + n, t)
  else if n = 62 then
    match t with
    | e :: t' => some (m + 62 + e.toNat, t')
    | [] => none
  else
    match t with
    | e0 :: e1 :: t' => some (m + 318 + e0.toNat + 256 * e1.toNat, t')
    | _ => none

/-- The distance of a MATCH and the bytes after it (R353). -/
def matchDist (t : List (BitVec 8)) : Option (Nat × List (BitVec 8)) :=
  match t with
  | a :: b :: t' =>
    let d0 := a.toNat + 256 * b.toNat
    if d0 < 32768 then some (d0 + 1, t')
    else
      match t' with
      | c :: t'' => some (d0 % 32768 + 32768 * c.toNat + 1, t'')
      | [] => none
  | _ => none

/-- One token after its control byte: type, minimum-adjusted length and operands give the new output and the bytes left
(Table 13-4, R354). The output so far is o bytes, newest first. -/
def token (lb ty n : Nat) (t : List (BitVec 8)) (o : Nat) (r : List (BitVec 8)) :
    Option (Nat × List (BitVec 8) × List (BitVec 8)) :=
  let m := if ty = 1 then 4 else if ty = 3 then 3 else 1
  match tokenLen m n t with
  | none => none
  | some (len, t1) =>
    if ty = 0 then
      if t1.length < len then none else some (len, (t1.take len).reverse ++ r, t1.drop len)
    else if ty = 1 then
      match matchDist t1 with
      | none => none
      | some (d, t2) => if o < d then none else some (len, copyBack d len r, t2)
    else if ty = 2 then
      if o < lb then none else some (len, copyBack lb len r, t1)
    else
      match t1 with
      | v :: t2 => some (len, List.replicate len v ++ r, t2)
      | [] => none

/-- The raw data of a token stream; none where it breaks the format (R354). -/
def tokens (lb rawLen : Nat) : Nat → List (BitVec 8) → Nat → List (BitVec 8) → Option (List (BitVec 8))
  | 0, _, _, _ => none
  | fuel + 1, p, o, r =>
    match p with
    | [] => if o = rawLen then some r.reverse else none
    | c :: t =>
      if o = rawLen then none
      else
        match token lb (c.toNat / 64) (c.toNat % 64) t o r with
        | none => none
        | some (len, r', t') => if rawLen < o + len then none else tokens lb rawLen fuel t' (o + len) r'

/-- The raw data of a stored block, header and payload; none where it breaks the format (R354). -/
def unblock (b : List (BitVec 8)) (given : Bool) : Option (List (BitVec 8)) :=
  let h := b.take 32
  let p := b.drop 32
  if !headerOk h given || p.length < tbPayLen h then none
  else
    let p := p.take (tbPayLen h)
    if bit (tbFlags h) 0 then (if tbPayLen h = tbRawLen h then some p else none)
    else tokens (lineBytes (tbKind h) (tbWidth h)) (tbRawLen h) (p.length + 1) p 0 []

/-- Whether the check value of a header fits raw data (R351). -/
def blockCheckOk (h raw : List (BitVec 8)) : Bool := crc32c (h.take 24 ++ raw) == tbCheck h

/-- A header (Table 13-2) for raw data. -/
def mkHeader (kind height width payLen flags level : Nat) (raw : List (BitVec 8)) : List (BitVec 8) :=
  let h := leBytes 1 kind ++ leBytes 1 height ++ leBytes 2 0 ++ leBytes 4 width ++ leBytes 4 raw.length ++ leBytes 4 payLen
    ++ leBytes 8 0
  h ++ leBytes 1 flags ++ leBytes 1 level ++ leBytes 2 0 ++ leBytes 4 (crc32c (h ++ raw))

end Sys2Proof.Machine
end

