-- ==== Sys2Proof/Machine/MemCore.lean ====
section
/-! DEFINITION. The image store as pages and bytes (R412, R413, R415), the reserved areas (Table 16-2), live blocks and their pages
(R360, R363), the free count (R369), and whether a codeword reads with POISON (R421, R422). -/

namespace Sys2Proof.Machine

/-- n bytes of a byte memory from an address; an unlisted byte is 0. -/
def getBytes (m : List (Nat × BitVec 8)) (a n : Nat) : List (BitVec 8) :=
  (List.range n).map fun i => Tab.get (fun _ => 0#8) m (a + i)

/-- The non-zero bytes of a list as entries from an address. -/
def entries (a : Nat) : List (BitVec 8) → List (Nat × BitVec 8)
  | [] => []
  | b :: t => if b = 0#8 then entries (a + 1) t else (a, b) :: entries (a + 1) t

/-- Write bytes into a byte memory; a zero byte leaves no entry. -/
def putBytes (m : List (Nat × BitVec 8)) (a : Nat) (bs : List (BitVec 8)) : List (Nat × BitVec 8) :=
  m.filter (fun e => e.1 < a) ++ entries a bs ++ m.filter (fun e => a + bs.length ≤ e.1)

/-- The canonical form of a byte memory: addresses strictly rising, no byte listed as 0, which an unlisted byte reads as. -/
def Memory.wf (m : List (Nat × BitVec 8)) : Bool := Tab.wf (fun _ => 0#8) m

/-- Populated channels; 0 where a code is reserved (Table 16-1). -/
def State.memChannels (s : State) : Nat :=
  let c := s.get Reg.MEM_CFG_channels
  if 2 ≤ c || s.get Reg.MEM_CFG_capacity = 3 then 0 else 4 + 2 * c

/-- Pages of the store: 4 GiB times 2^capacity per channel (Table 16-1). -/
def State.storePages (s : State) : Nat := s.memChannels * 2 ^ (20 + s.get Reg.MEM_CFG_capacity)

/-- Pages of the reserved areas before the repeat buffers: handle table, page map, job tables, raster copies, Foreman log
(Table 16-2). -/
def State.fixedAreas (s : State) : Nat := 8192 + ceilDiv (4 * s.storePages) 4096 + 65536 + 16384 + 256

/-- Pages of the reserved areas as reserved at SETUP_LOCK. -/
def State.reservedPages (s : State) : Nat := s.get Reg.MEM_RESERVED_PAGES

/-- The page that now serves a page first given to a reserved area (R415, R430). -/
def State.areaPage (s : State) (p : Nat) : Nat :=
  match s.mem.moved.find? (fun m => m.1 == p) with
  | some (_, n) => n
  | none => p

/-- Codeword (store address / 32) of the handle-table record of an index (Table 16-2). -/
def State.handleWord (s : State) (index : Nat) : Nat := s.areaPage (index / 128) * 128 + index % 128

/-- Codeword of the page-map entry of a page. -/
def State.mapWord (s : State) (p : Nat) : Nat := s.areaPage (8192 + p / 1024) * 128 + p % 1024 / 8

/-- Whether a codeword reads with POISON (Table 16-4). -/
def State.wordBad (s : State) (w : Nat) : Bool := s.mem.poison.contains w || s.mem.bad.contains w

/-- Whether any codeword of a page reads with POISON. -/
def State.pageBad (s : State) (p : Nat) : Bool := (s.mem.poison ++ s.mem.bad).any (fun w => w / 128 == p)

/-- A handle's index (R360). -/
def handleIndex (h : Nat) : Nat := h % 2 ^ 20

/-- The live block a handle names (R360, R367). -/
def State.liveBlock (s : State) (h : Nat) : Option StoredBlock :=
  match s.store.blocks.find? (fun e => e.1 == handleIndex h) with
  | some (_, b) => if b.handle = h then some b else none
  | none => none

/-- Whether the words that describe or hold a block read with POISON (R422, Table 06-2 reason 2). -/
def State.blockBad (s : State) (b : StoredBlock) : Bool :=
  s.wordBad (s.handleWord (handleIndex b.handle)) || b.pages.any (fun p => s.pageBad p || s.wordBad (s.mapWord p))

/-- The data-unit number of page i of a block (R365). -/
def unitNo (handle i : Nat) : Nat := handle * 512 + i

/-- The header and payload of a block, decrypted page by page (R138, R365). -/
def State.blockBytes (s : State) (b : StoredBlock) (key : List (BitVec 8)) : List (BitVec 8) :=
  ((b.pages.zipIdx.flatMap fun (p, i) => xtsDec key (unitNo b.handle i) (getBytes s.mem.dram (4096 * p) 4096)).take
    (32 + b.payLen))

/-- Write a whole page: fresh check bits end every poisoning in it (R422). -/
def State.writePage (s : State) (p : Nat) (bs : List (BitVec 8)) : State :=
  s.modMem fun m => { m with
    dram := putBytes m.dram (4096 * p) bs
    poison := m.poison.filter (fun w => w / 128 != p), bad := m.bad.filter (fun w => w / 128 != p) }

/-! ### Pages -/

/-- Pages outside the free count: of blocks, retired, given to areas, taken for a migration. -/
def State.takenPages (s : State) : List Nat :=
  s.store.blocks.flatMap (fun e => e.2.pages) ++ s.mem.retired ++ s.mem.moved.map (·.2) ++ s.mem.migrations.map (·.new)

/-- Whether a page is free: in the block area and not taken (R362, R429). -/
def State.pageFree (s : State) (p : Nat) : Bool :=
  s.reservedPages ≤ p && p < s.storePages && !s.takenPages.contains p

/-- Free pages of the block area (CR_FREE_PAGES). -/
def State.freePages (s : State) : Nat :=
  s.get Reg.CR_AREA_PAGES - ((s.takenPages.filter (fun p => s.reservedPages ≤ p)).eraseDups).length

/-- Search for a page that satisfies a test, upward from a start and round. -/
def searchPage (ok : Nat → Bool) (base n start : Nat) : Option Nat :=
  ((List.range n).find? fun i => ok (base + (start + i) % n)).map fun i => base + (start + i) % n

/-- A free page for which `want` holds, not among `got`; any free page when none is. Which one the spec leaves open: the search
starts at a free value. -/
def State.pickPage (s : State) (got : List Nat) (want : Nat → Bool) : Option Nat × State :=
  let (r, s1) := s.drawNat
  let n := s.storePages - s.reservedPages
  let ok (p : Nat) : Bool := s.pageFree p && !got.contains p
  let start := if n = 0 then 0 else r % n
  match searchPage (fun p => ok p && want p) s.reservedPages n start with
  | some p => (some p, s1)
  | none => (searchPage ok s.reservedPages n start, s1)

/-- n pages for a block, page i + 1 on the channel after that of page i (R363). -/
def State.allocPages (s : State) : Nat → List Nat → List Nat × State
  | 0, got => (got, s)
  | n + 1, got =>
    let c := s.memChannels
    let want (p : Nat) : Bool := match got.getLast? with
      | some q => p % c == (q + 1) % c
      | none => true
    match s.pickPage got want with
    | (some p, s1) => s1.allocPages n (got ++ [p])
    | (none, s1) => (got, s1)

/-- low_pct percent of the block area, as 100 times pages; 0 disables (Table 13-12). -/
def State.lowMark (s : State) : Nat := min 50 (s.get Reg.CR_CFG_low_pct) * s.get Reg.CR_AREA_PAGES

/-- The page counts follow the store; STORE_LOW (R369, R370). -/
def State.countStore (s : State) : State :=
  let free := s.freePages
  let s1 := (((s.set Reg.CR_FREE_PAGES free).set Reg.CR_FREEING_PAGES
      ((s.store.blocks.filter (·.2.freeing)).map (·.2.pages.length)).sum).set Reg.CR_BLOCKS s.store.blocks.length).setOn
    Reg.CR_STATUS_low (decide (100 * free < s.lowMark))
  if 100 * free < s.lowMark && !s.store.lowPosted then
    ((s1.modStore fun t => { t with lowPosted := true }).raise Reg.CR_STATUS_low_seen).post 0x0421
      [.n free, .n (s.get Reg.CR_AREA_PAGES)]
  else if 2 * s.lowMark < 100 * free then s1.modStore fun t => { t with lowPosted := false }
  else s1

end Sys2Proof.Machine
end

