-- ==== Sys2Proof/Machine/Filter.lean ====
section
/-! DEFINITION. The stable-for-N filter of the position inputs (R29 to R31): what the 20 balls show, and which levels wait to be
accepted. A ball shows its level from the beat of the command that gave it until another command gives another. -/

namespace Sys2Proof.Machine

/-- Input ball i. -/
def State.ball (s : State) (i : Nat) : Ball := Tab.get (fun _ => {}) s.inputs.balls i

/-- Set it. -/
def State.setBall (s : State) (i : Nat) (b : Ball) : State :=
  s.modInputs fun x => { x with balls := Tab.set (fun _ => {}) x.balls i b }

/-- Encoder n beside its registers. -/
def State.enc (s : State) (n : Nat) : Encoder := Tab.get (fun _ => {}) s.inputs.enc n

/-- Change it. -/
def State.onEnc (s : State) (n : Nat) (f : Encoder → Encoder) : State :=
  s.modInputs fun i => { i with enc := Tab.set (fun _ => {}) i.enc n (f (s.enc n)) }

/-- Trigger input n beside its registers. -/
def State.trig (s : State) (n : Nat) : Trigger := Tab.get (fun _ => {}) s.inputs.trig n

/-- Change it. -/
def State.onTrig (s : State) (n : Nat) (f : Trigger → Trigger) : State :=
  s.modInputs fun i => { i with trig := Tab.set (fun _ => {}) i.trig n (f (s.trig n)) }

/-- Whether ball i is a trigger input. -/
def isTrig (i : Nat) : Bool := 12 ≤ i

/-- Whether ball i is a Z. -/
def isZ (i : Nat) : Bool := i < 12 && i % 3 == 2

/-- N of a ball's filter, beats (R29). -/
def State.filterN (s : State) (i : Nat) : Nat :=
  if isTrig i then s.get (Reg.TRIGn_CFG_filter_n (i - 12))
  else if isZ i then s.get (Reg.ENCn_CFG_z_filter_n (i / 3))
  else s.get (Reg.ENCn_CFG_filter_n (i / 3))

/-- Whether the input of a ball is enabled. -/
def State.inputOn (s : State) (i : Nat) : Bool :=
  if isTrig i then s.on (Reg.TRIGn_CFG_enable (i - 12)) else s.on (Reg.ENCn_CFG_enable (i / 3))

/-- The accepted level of a ball. -/
def State.accepted (s : State) (i : Nat) : Bool :=
  if isTrig i then (s.trig (i - 12)).level
  else if isZ i then s.on (Reg.ENCn_STATUS_level_z (i / 3))
  else if i % 3 = 0 then s.on (Reg.ENCn_STATUS_level_a (i / 3))
  else s.on (Reg.ENCn_STATUS_level_b (i / 3))

/-- Whether the first accepted level of a ball since its enable has not been taken (R36, R44). -/
def State.initialOf (s : State) (i : Nat) : Bool :=
  if isTrig i then (s.trig (i - 12)).initial
  else if isZ i then (s.enc (i / 3)).initialZ
  else if i % 3 = 0 then (s.enc (i / 3)).initialA
  else (s.enc (i / 3)).initialB

/-- Whether the level a ball shows is a new one that waits to be accepted. -/
def State.waits (s : State) (i : Nat) : Bool :=
  s.inputOn i && (s.initialOf i || (s.ball i).level != s.accepted i)

/-- The beat in which the level a ball shows has been sampled in N + 1 consecutive beats (R29). -/
def State.acceptBeat (s : State) (i : Nat) : Nat := (s.ball i).since + s.filterN i

/-- Whether the level ball i shows is accepted in beat d. -/
def State.accepts (s : State) (i d : Nat) : Bool := s.waits i && s.acceptBeat i == d

/-- The earliest beat up to a limit in which a waiting level is accepted. -/
def State.nextAccept (s : State) (limit : Nat) : Option Nat :=
  (upto 20 fun i => s.waits i && decide (s.acceptBeat i ≤ limit)).foldl
    (fun m i => match m with
      | none => some (s.acceptBeat i)
      | some d => some (min d (s.acceptBeat i))) none

/-- Whether an edge of encoder k stamped at or before a time in ns is neither accepted nor discarded yet (R540). -/
def State.edgeWaits (s : State) (k ns : Nat) : Bool :=
  [3 * k, 3 * k + 1].any fun i => s.waits i && !s.initialOf i && decide (signed 64 (wrap 64 (((s.ball i).stamp : Int) - ns)) ≤ 0)

/-- Sampling of some balls starts again now: at an enable, or when the domain comes back. -/
def State.restartBalls (s : State) (l : List Nat) : State :=
  l.foldl (fun (s : State) i => s.setBall i { s.ball i with since := s.beat, stamp := s.tb3 }) s

end Sys2Proof.Machine
end

