-- ==== Sys2Proof/Machine/RegAccess.lean ====
section
/-! DEFINITION. Host accesses to registers: the access codes (R5, R9, R10, R11), switched-off domains and BOOT (R488, R513). -/

namespace Sys2Proof.Machine

/-- The bits of a register that the device has set in this beat (R10). -/
def State.freshBits (s : State) (off : Nat) : BitVec 32 :=
  s.fresh.foldl (fun m e => if e.1 = off then m ||| BitVec.ofNat 32 (2 ^ e.2) else m) 0#32

/-- What a host write of v makes of one field (R9 to R11); a W1C bit of `fresh`, set by the device in the same beat, remains set (R10).
WO fields hold nothing: their register's command acts on v. -/
def writeField (locked : Bool) (fresh v : BitVec 32) (x : BitVec 32) (f : FieldRow) : BitVec 32 :=
  match f.acc with
  | .rw => (x &&& ~~~ f.mask) ||| (v &&& f.mask)
  | .rwl => if locked then x else (x &&& ~~~ f.mask) ||| (v &&& f.mask)
  | .w1c => x &&& ~~~ (v &&& f.mask &&& ~~~ fresh)
  | .w1s => x ||| (v &&& f.mask)
  | .ro => x
  | .wo => x

/-- A host write by the access codes of a register's fields; a reserved offset has no field and ignores it (R5, R9). -/
def State.writeWord (s : State) (off : Nat) (v : BitVec 32) : State :=
  s.setReg off ((fieldsAt off).foldl (writeField s.locked (s.freshBits off) v) (s.reg off))

/-- Whether the domain of an offset's block is switched off (R513). -/
def State.domainOff (s : State) (off : Nat) : Bool :=
  match blockOf off with
  | some b => b.domain != 1 && !s.powered b.domain
  | none => false

/-- A host write at an offset does `f`: in BOOT it is ignored (R488); in a switched-off domain it is ignored and sets off_access
(R513). -/
def State.hostWrite (s : State) (off : Nat) (f : State → State) : State :=
  if s.dev = stBoot then s
  else if s.domainOff off then s.raise Reg.GLB_STATUS_off_access
  else f s

end Sys2Proof.Machine
end

