-- ==== Sys2Proof/Machine/Compare.lean ====
section
/-! DEFINITION. The compare units (chapter 03, R69 to R80, R100) and the meanings of their commands. -/

namespace Sys2Proof.Machine

/-- Unit n beside its registers. -/
def State.cmp (s : State) (n : Nat) : Compare := Tab.get (fun _ => {}) s.obs.cmp n

/-- Set it. -/
def State.setCmp (s : State) (n : Nat) (c : Compare) : State :=
  s.modObs fun o => { o with cmp := Tab.set (fun _ => {}) o.cmp n c }

/-- Change it. -/
def State.onCmp (s : State) (n : Nat) (f : Compare → Compare) : State := s.setCmp n (f (s.cmp n))

/-- ENCn_COUNT, 48 bits signed. -/
def State.encCount (s : State) (n : Nat) : Int := signed 48 (s.get2 (Reg.ENCn_COUNT_LO n) (Reg.ENCn_COUNT_HI n))

/-- Whether the unit is ARMED. -/
def State.armed (s : State) (n : Nat) : Bool := s.get (Reg.CMPn_STATUS_state n) == 1

/-- Whether hold_on_reversal stops it now (R78). -/
def State.cmpHeld (s : State) (n : Nat) : Bool :=
  s.on (Reg.CMPn_CFG_hold_on_reversal n) && s.on Reg.OBS_STATUS_reversal

/-- The target as the unit compares it (R69, R79): web counts, whole encoder counts in 48.16, or ns of TB3. -/
def Compare.form (c : Compare) : Int := if c.mode = 0 then c.target / 65536 * 65536 else c.target

/-- The position it compares, in the same form (R69). -/
def State.cmpPos (s : State) (c : Compare) : Int :=
  if c.mode = 0 then s.encCount c.src * 65536
  else if c.mode = 1 then s.webPos
  else s.tb3

/-- The target as an event carries it (Table 15-8). -/
def Compare.arg (c : Compare) : EArg := if c.mode = 2 then .ns (c.form.toNat % 2 ^ 64) else .pos c.form

/-- A position argument: counts; a time-mode unit gives the web position. -/
def State.cmpPosArg (s : State) (c : Compare) : EArg := .pos (if c.mode = 2 then s.webPos else s.cmpPos c)

/-- W in 2^-16 counts; no window in time mode (R71, R100). -/
def State.cmpWindow (s : State) (c : Compare) : Int := if c.mode = 2 then 0 else s.revWindow * 65536

/-- How far the position lies past the target in the direction of dir; time mode only goes forward (R71, R100). -/
def State.past (s : State) (c : Compare) : Int :=
  let d := posDiff (s.cmpPos c) c.form
  if c.mode = 2 || c.dir = 0 then d else -d

/-- Whether the target is missed: more than W past it, or at or behind TB3 in time mode; never with dir 2 (R71, R72, R100). -/
def State.missed (s : State) (c : Compare) : Bool :=
  if c.mode = 2 then 0 ≤ s.past c else c.dir != 2 && s.cmpWindow c < s.past c

/-- The side on which the position lies of the target. -/
def State.sideOf (s : State) (c : Compare) : Int := (posDiff (s.cmpPos c) c.form).sign

/-- Whether an event of the unit may be posted: at most once per unit per 1 ms (R80). -/
def mayPost (last : Option Nat) (beat : Nat) : Bool :=
  match last with
  | none => true
  | some t => t + 1000000 ≤ beat

/-- CMP_MISSED (R80). -/
def State.postMissed (s : State) (n : Nat) (c : Compare) : State :=
  if mayPost (s.cmp n).postedMissed s.beat then
    (s.onCmp n fun u => { u with postedMissed := some s.beat }).post 0x010C [.b n, c.arg, s.cmpPosArg c]
  else s

/-- The interval: 16.16 counts, or ns in time mode (R77, R100). -/
def State.interval (s : State) (n : Nat) : Nat := s.get (Reg.CMPn_INTERVAL n)

/-- How often a target moved after a pulse must move again until it lies ahead, when it would be missed (R77); a reactive unit's
target lies ahead once its whole counts do (R69). -/
def State.skips (s : State) (n : Nat) (c : Compare) : Nat :=
  let d := posDiff (s.cmpPos c) c.target
  let behind := if c.mode = 0 && c.dir = 0 then d + 65535 else if c.mode != 2 && c.dir = 1 then -d else d
  if s.missed c then behind.toNat / s.interval n + 1 else 0

/-- The target moved by a distance: positions and times wrap at 64 bits (R34, R84). -/
def Compare.move (c : Compare) (d : Int) : Compare :=
  { c with target := if c.mode = 2 then (wrap 64 (c.target + d) : Int) else signed 64 (wrap 64 (c.target + d)) }

/-- The sign in which the target moves (R77). -/
def Compare.step (c : Compare) (back : Bool) : Int :=
  if c.mode = 2 || c.dir = 0 then 1 else if c.dir = 1 then -1 else if back then -1 else 1

/-- After a pulse: a periodic unit moves its target and stays ARMED, skipping targets already missed; any other goes to FIRED
(R77). -/
def State.afterPulse (s : State) (n : Nat) (back : Bool) : State :=
  let c := s.cmp n
  let iv := s.interval n
  let c1 := { c with pulses := c.pulses + 1, due := none, committed := false }
  let rep := s.get (Reg.CMPn_WIDTH_repeat n)
  if !s.on (Reg.CMPn_CFG_periodic n) || iv = 0 || (rep ≠ 0 && rep ≤ c1.pulses) then
    (s.setCmp n c1).set (Reg.CMPn_STATUS_state n) 2
  else
    let st := c.step back * iv
    let c2 := c1.move st
    let k := s.skips n c2
    let c3 := c2.move (st * k)
    let s1 := (s.setCmp n { c3 with side := s.sideOf c3 }).set (Reg.CMPn_STATUS_state n) 1
    if k = 0 then s1 else (s1.bump (Reg.CMPn_STATUS_skip_count n) k).postMissed n c2

/-- A pulse at TB3 time t, ns (R75, R77, R79, R290). -/
def State.pulse (s : State) (n t : Nat) (back : Bool) : State :=
  let c := s.cmp n
  let w := max 1 (s.get (Reg.CMPn_WIDTH_width n))
  let s1 := if c.active then s.raise (Reg.CMPn_STATUS_overlap n) else s
  let s2 := s1.setCmp n { c with active := true, until_ := s.beat + w }
  let s3 := (s2.set2 (Reg.CMPn_LAST_TIME_LO n) (Reg.CMPn_LAST_TIME_HI n) t).setI2 (Reg.CMPn_LAST_POS_LO n)
    (Reg.CMPn_LAST_POS_HI n) c.form
  let cam := s.get (Reg.CMPn_CFG_cam n)
  let s4 := if 1 ≤ cam && cam ≤ 4 then
      s3.pushStamp (cam - 1) (if c.mode = 2 then s.webPosAt (t * 65536) else c.form) t n
    else s3
  s4.afterPulse n back

/-- A target found missed: MISSED and CMP_MISSED, or a late pulse within 2 beats when late_ok is 1 (R71, R72). -/
def State.settleMissed (s : State) (n : Nat) : State :=
  let c := s.cmp n
  if s.on (Reg.CMPn_CFG_late_ok n) then
    let s1 := s.raise (Reg.CMPn_STATUS_late_pulse n)
    let s2 := if mayPost c.postedLate s.beat then
        (s1.onCmp n fun u => { u with postedLate := some s.beat }).post 0x010D [.b n, c.arg, .ns s.tb3]
      else s1
    s2.pulse n s.tb3 false
  else
    ((s.onCmp n fun u => { u with due := none, committed := false }).set (Reg.CMPn_STATUS_state n) 3).postMissed n c

/-- An armed target found missed: one formed after a pulse of a unit that is still periodic by the skipping of R77, any other by R71. -/
def State.settle (s : State) (n : Nat) : State :=
  let c := s.cmp n
  if c.pulses = 0 || !s.on (Reg.CMPn_CFG_periodic n) || s.interval n = 0 then s.settleMissed n
  else
    let k := s.skips n c
    let c1 := { c.move (c.step c.dueBack * s.interval n * k) with due := none, committed := false }
    ((s.setCmp n { c1 with side := s.sideOf c1 }).bump (Reg.CMPn_STATUS_skip_count n) k).postMissed n c

/-- Whether a TB3 stamp has come, by the signed difference (R86). -/
def State.come (s : State) (d : Nat) : Bool := !before s.now d

/-- Plan the pulse of a predictive unit, when R58 predicts a crossing in its direction; a pulse due within 1 µs stands (R73). -/
def State.plan (s : State) (n : Nat) : State :=
  let c := s.cmp n
  let fixed := match c.due with
    | some d => decide (stampDiff d s.now ≤ 1000 * 65536)
    | none => false
  if c.committed || fixed then s
  else
    let fwd := 0 < s.webVel s.now
    let wanted := (c.dir != 1 && fwd && c.side < 0) || (c.dir != 0 && !fwd && 0 < c.side)
    let due := if wanted then (s.crossing c.target).map (fun tau => (s.now + tau) % 2 ^ 80) else none
    s.setCmp n { c with due := due, dueBack := !fwd }

/-- Whether going from one side to another is a crossing in the direction of dir (R70). -/
def crosses (dir : Nat) (old new : Int) : Bool :=
  (dir != 1 && old < 0 && 0 ≤ new) || (dir != 0 && 0 < old && new ≤ 0)

/-- A crossing that shows at an update without a prediction, or after a later commitment: the unit fires at once (R73). -/
def State.unpredicted (s : State) (n : Nat) (back : Bool) : State :=
  let c := s.cmp n
  let s1 := s.raise (Reg.CMPn_STATUS_unpredicted n)
  let s2 := if mayPost c.postedUnpred s.beat then
      (s1.onCmp n fun u => { u with postedUnpred := some s.beat }).post 0x010E [.b n, c.arg, .ns s.tb3]
    else s1
  s2.pulse n s.tb3 back

/-- What an update of the position it compares does to an armed unit of mode 0 or 1 (R70, R72, R73, R78). -/
def State.cmpUpdate (s : State) (n : Nat) : State :=
  let c := s.cmp n
  if !s.armed n || c.mode = 2 || (c.mode = 1 && !s.on Reg.OBS_STATUS_pos_valid) then s
  else
    let side := s.sideOf c
    if s.cmpHeld n then s.setCmp n { c with side := side, due := none, committed := false }
    else
      let pending := match c.due with
        | some d => if c.mode = 1 then s.come d else true
        | none => false
      if pending then s
      else
        let s1 := s.setCmp n { c with side := side }
        if crosses c.dir c.side side then
          let back := 0 < c.side
          if c.mode = 0 then s1.onCmp n fun u => { u with due := some (s.beat + 2), dueBack := back }
          else s1.unpredicted n back
        else if s.missed c then s1.settle n
        else if c.mode = 1 then s1.plan n
        else s1

/-- Every armed predictive unit after an observer update. -/
def State.cmpWeb (s : State) : State :=
  (List.range 48).foldl (fun s n => if s.armed n && (s.cmp n).mode == 1 then s.cmpUpdate n else s) s

/-- Every armed reactive unit of an encoder after a count. -/
def State.cmpCount (s : State) (k : Nat) : State :=
  (List.range 48).foldl
    (fun s n => if s.armed n && (s.cmp n).mode == 0 && (s.cmp n).src == k then s.cmpUpdate n else s) s

/-- At the end of reversal the targets passed while held are settled, those of time-mode units too (R78). -/
def State.cmpResume (s : State) : State :=
  (List.range 48).foldl (fun s n =>
    if s.armed n && s.on (Reg.CMPn_CFG_hold_on_reversal n) then
      let s1 := s.onCmp n fun c => { c with due := none, committed := false }
      if s1.missed (s1.cmp n) && ((s1.cmp n).mode != 1 || s1.on Reg.OBS_STATUS_pos_valid) then s1.settle n else s1
    else s) s

/-- A forward step of TB3 settles the time-mode units whose target it carries TB3 to or past (R100). -/
def State.cmpStepped (s : State) : State :=
  (List.range 48).foldl (fun s n =>
    if s.armed n && (s.cmp n).mode == 2 && s.missed (s.cmp n) && !s.cmpHeld n then s.settle n else s) s

/-- pos_valid falls: no pulse of a predictive unit stays planned (R73). -/
def State.dropPosition (s : State) : State :=
  (List.range 48).foldl (fun (s : State) n =>
    if (s.cmp n).mode == 1 && (s.cmp n).due.isSome then s.onCmp n fun c => { c with due := none, committed := false } else s)
    (s.clear Reg.OBS_STATUS_pos_valid)

/-- The level of CMP_OUT[k]: none while it is not driven (R75, R76). -/
def State.cmpOut (s : State) (k : Nat) : Option Bool :=
  if s.on (Reg.CMP_PINk_drive_en k) then
    let act := (List.range 48).any (fun n =>
      (s.cmp n).active && s.on (Reg.CMPn_CFG_pin_en n) && s.get (Reg.CMPn_CFG_pin n) == k)
    some (act != s.on (Reg.CMP_PINk_polarity k))
  else none

/-- Arm unit n (R71, R73, R74, R100). An arm that is refused leaves the unit idle, one armed before too; a plane code that names no plane
refuses a line-index target (R8); a line-index target is converted by the banks in force (notes/assumptions/74.md). -/
def State.arm (s : State) (n : Nat) : State :=
  let m := s.get (Reg.CMPn_CFG_mode n)
  let dir := s.get (Reg.CMPn_CFG_dir n)
  let kind := s.get (Reg.CMPn_CFG_target_kind n)
  let q := s.get (Reg.CMPn_CFG_plane n)
  let raw := s.getI2 (Reg.CMPn_TARGET_LO n) (Reg.CMPn_TARGET_HI n)
  let tgt : Int :=
    if m = 2 then (s.get2 (Reg.CMPn_TARGET_LO n) (Reg.CMPn_TARGET_HI n) : Nat)
    else if kind = 1 then s.planeLine (s.placementAt (raw / 65536).toNat) q raw
    else raw
  let c0 := s.cmp n
  let c : Compare := { c0 with
    mode := m, src := s.get (Reg.CMPn_CFG_src n), dir := dir, kind := kind, plane := q, target := tgt
    due := none, committed := false, pulses := 0, dueBack := false }
  let s1 := s.clear (Reg.CMPn_STATUS_skip_count n)
  if m = 3 || (m ≠ 2 && dir = 3) || (m = 1 && kind = 1 && 10 ≤ q) then s1.clear (Reg.CMPn_STATUS_state n)
  else if kind = 1 && (m ≠ 1 || !s.streaming) then
    (s1.clear (Reg.CMPn_STATUS_state n)).raise (Reg.CMPn_STATUS_bad_target n)
  else
    let s2 := (s1.setCmp n { c with side := s.sideOf c }).set (Reg.CMPn_STATUS_state n) 1
    if m = 1 && !s.on Reg.OBS_STATUS_pos_valid then
      (s2.set (Reg.CMPn_STATUS_state n) 3).postMissed n c
    else if s.missed c then
      if s.cmpHeld n && s.on (Reg.CMPn_CFG_late_ok n) then s2 else s2.settleMissed n
    else if m = 1 && !s.cmpHeld n then s2.plan n
    else s2

/-- Disarm unit n: idle; a pulse in progress completes its width (R83). -/
def State.disarm (s : State) (n : Nat) : State :=
  (s.onCmp n fun c => { c with due := none, committed := false }).clear (Reg.CMPn_STATUS_state n)

/-- CMP_ARM (R71). -/
def execCmpArm (dt : Nat) (n : Fin 48) (s : State) : Result :=
  .next ((s.advance dt).hostWrite (Reg.CMPn_CTRL_arm n).off fun s => s.arm n)

/-- CMP_DISARM (R83). -/
def execCmpDisarm (dt : Nat) (n : Fin 48) (s : State) : Result :=
  .next ((s.advance dt).hostWrite (Reg.CMPn_CTRL_disarm n).off fun s => s.disarm n)

/-- The planned pulse of an armed unit, once its time has come (R69, R70). -/
def State.fireCrossing (s : State) (n : Nat) : State :=
  let c := s.cmp n
  match c.due with
  | none => s
  | some d =>
    if s.armed n && !s.cmpHeld n then
      if c.mode = 1 then
        if s.come d && s.on Reg.OBS_STATUS_pos_valid then (s.pulse n (d / 65536) c.dueBack).cmpUpdate n
        else s
      else if d ≤ s.beat then (s.pulse n s.tb3 c.dueBack).cmpUpdate n
      else s
    else s

/-- The pulse of a time-mode unit once TB3 reaches its target (R100). -/
def State.fireTime (s : State) (n : Nat) : State :=
  let c := s.cmp n
  if s.armed n && c.mode = 2 && 0 ≤ s.past c && !s.cmpHeld n then s.pulse n s.tb3 false else s

/-- The pulses that are due by now of the units that name a camera port, in order of unit number: a stamp of the beat in which a packet
arrives is in the FIFO before it (R290, R291). -/
def State.firePort (s : State) (p : Nat) : State :=
  if s.powered 2 then
    (List.range 48).foldl (fun (s : State) n =>
      if s.get (Reg.CMPn_CFG_cam n) = p + 1 then (s.fireCrossing n).fireTime n else s) s
  else s

/-- CMP_CROSSING (R69, R70). -/
def execCmpCrossing (dt : Nat) (n : Fin 48) (s : State) : Result :=
  (s.advance dt).whenOn 2 fun s => .next (s.fireCrossing n)

/-- CMP_PULSE_COMMIT (R73): a scheduled pulse less than 1 µs away is no longer recomputed. -/
def execCmpPulseCommit (dt : Nat) (n : Fin 48) (s : State) : Result :=
  (s.advance dt).whenOn 2 fun s =>
  let c := s.cmp n
  match c.due with
  | some d =>
    if s.armed n && c.mode = 1 && stampDiff d s.now ≤ 1000 * 65536 then .next (s.setCmp n { c with committed := true })
    else .next s
  | none => .next s

/-- CMP_PULSE_END (R75): the output ends after its width. -/
def execCmpPulseEnd (dt : Nat) (n : Fin 48) (s : State) : Result :=
  (s.advance dt).whenOn 2 fun s =>
  let c := s.cmp n
  if c.active && c.until_ ≤ s.beat then .next (s.setCmp n { c with active := false }) else .next s

/-- CMP_TIME_PULSE (R100). -/
def execCmpTimePulse (dt : Nat) (n : Fin 48) (s : State) : Result :=
  (s.advance dt).whenOn 2 fun s => .next (s.fireTime n)

end Sys2Proof.Machine
end

