-- ==== Sys2Proof/Machine/Observer.lean ====
section
/-! DEFINITION. The tracking observer (chapter 03, R51 to R68, R82, R540, R541): updates, sources, loss and resync, reversal, and
the meanings of their commands. -/

namespace Sys2Proof.Machine

/-- Gains by bandwidth code: l1 in 1/10 s⁻¹, l2, l3, and the settling time 5/b in ns (Table 03-2). Codes 9 to 15 are taken as
6 (R55). -/
def gains : Nat → Nat × Nat × Nat × Nat
  | 0 => (1885, 11840, 248100, 500000000)
  | 1 => (3770, 47370, 1984000, 250000000)
  | 2 => (9425, 296100, 31010000, 100000000)
  | 3 => (18850, 1184000, 248100000, 50000000)
  | 4 => (37700, 4737000, 1984000000, 25000000)
  | 5 => (94250, 29610000, 31010000000, 10000000)
  | 7 => (376990, 473700000, 1984000000000, 2500000)
  | 8 => (942480, 2961000000, 31010000000000, 1000000)
  | _ => (188500, 118400000, 248100000000, 5000000)

/-- Gains of source k (R55). -/
def State.gainsOf (s : State) (k : Nat) : Nat × Nat × Nat × Nat :=
  gains (s.get (if k = 4 then Reg.OBS_CFG_remote_bw_code else Reg.OBS_CFG_bw_code))

/-- Propagate an instance to time t and correct it (R53). `err p` gives the measured position less p, both over `propDen` with the guard
bits of an instance; h is limited to 1 ms. Each stored result is rounded either way where it is inexact. -/
def State.updateInst (s : State) (k t : Nat) (err : Int → Int) : State :=
  let i := s.inst k
  let h := stampDiff t i.tu
  let x : Kin := ⟨i.p, i.v, i.a⟩
  let p := x.propNum h
  let v := x.velNum h
  let e := err p
  let (l1, l2, l3, _) := s.gainsOf k
  let hq : Nat := min h.toNat (1000000 * 65536)
  let g : Nat := 10 * 65536 * 10 ^ 9
  let g1 : Nat := min (l1 * hq) g
  let (p', s1) := s.drawQuot (p * g + g1 * e) (propDen * g)
  let (v', s2) := s1.drawQuot (v * (propDen : Nat) + (l2 * hq : Nat) * e * 65536) (65536 * 10 ^ 9 * propDen)
  let (a', s3) := s2.drawQuot (i.a * (10 ^ 9 * propDen : Nat) + (l3 * hq : Nat) * e) (10 ^ 9 * propDen)
  s3.setInst k { i with p := p', v := v', a := a', tu := t }

/-- The measured position of an update by an exact value y, in 2^-16 counts (R53 edge, R54). -/
def errExact (y p : Int) : Int := y * (guard * propDen : Nat) - p

/-- The half-count band about a count c (R53 tick). -/
def errBand (c p : Int) : Int :=
  let hi := (c * 65536 + 32768) * (guard * propDen : Nat)
  let lo := (c * 65536 - 32768) * (guard * propDen : Nat)
  if hi < p then hi - p else if p < lo then lo - p else 0

/-- A count of encoder k as it lies nearest to the instance's position: counts wrap at 48 bits (R34). -/
def State.nearCount (s : State) (k : Nat) (c : Int) : Int :=
  let p := (s.inst k).p / (65536 * guard : Nat)
  p + signed 48 (wrap 48 (c - p))

/-- A tick of the remote instance propagates it without correction (R54). -/
def errNone (_ : Int) : Int := 0

/-! ### Sources -/

/-- Whether source k runs. -/
def State.live (s : State) (k : Nat) : Bool := (s.inst k).running

/-- Whether source k has been removed (Table 03-12). -/
def State.removed (s : State) (k : Nat) : Bool :=
  if k = 4 then s.on Reg.OBS_STATUS_remote_removed else bit (s.get Reg.OBS_STATUS_enc_removed) k

/-- Mark source k removed or not. -/
def State.setRemoved (s : State) (k : Nat) (b : Bool) : State :=
  if k = 4 then s.setOn Reg.OBS_STATUS_remote_removed b else s.setOn ⟨Reg.OBS_STATUS_enc_removed.off,
    Reg.OBS_STATUS_enc_removed.lo + k, 1⟩ b

/-- Whether OBS_SRC names source k (R52, R59). -/
def State.named (s : State) (k : Nat) : Bool :=
  if k = 4 then s.on Reg.OBS_SRC_remote_en else k == s.primary || s.secondary == some k

/-- Whether source k can run: its encoder is enabled, or the remote messages are not stale (R52, R62). -/
def State.alive (s : State) (k : Nat) : Bool :=
  if k = 4 then s.on Reg.WCS_CFG_enable && !s.on Reg.WCS_STATUS_stale else s.on (Reg.ENCn_CFG_enable k)

/-- The sources in the order of R63. -/
def State.order (s : State) : List Nat := s.primary :: (s.secondary.toList ++ if s.on Reg.OBS_SRC_remote_en then [4] else [])

/-- Whether both encoders of BLEND run (R59, R541). -/
def State.blending (s : State) : Bool :=
  s.srcMode == 2 && s.live s.primary && (s.secondary.map s.live).getD false

/-- Whether source k is one of the blend in force. -/
def State.inBlend (s : State) (k : Nat) : Bool := s.active == 5 && (k == s.obs.pair.1 || k == s.obs.pair.2)

/-- The source that serves as active for R61: the primary of a blend (R541); none when no source is active. -/
def State.reference (s : State) : Option Nat :=
  if s.active ≤ 4 then some s.active else if s.active = 5 then some s.obs.pair.1 else none

/-- Whether source k is checked against the active one (R61): every other named source that runs, the primary too where another is active
(notes/assumptions/22.md). -/
def State.checked (s : State) (k : Nat) : Bool :=
  match s.reference with
  | none => false
  | some r => k != r && s.live k && s.named k && (k != 4 || !s.on Reg.WCS_STATUS_stale)

/-- Start a slew of a difference Δ between the new web position and the old (R63). -/
def State.startSlew (s : State) (d : Int) : State := s.modObs fun o => { o with slew := d, slewAt := s.now }

/-- SOURCE_SWITCH (R63). -/
def State.postSwitch (s : State) (old new : Nat) (d : Int) : State :=
  (s.raise Reg.OBS_STATUS_switched).post 0x010A [.b old, .b new, .pos d]

/-- D of a checked source in 2^-48 counts (R61). -/
def State.diffOf (s : State) (k : Nat) : Int :=
  match s.reference with
  | some r => (s.estimate k s.now - s.estimate r s.now) * 2 ^ 32
  | none => 0

/-- No source remains: the position is frozen, and v and a are 0 with no active source (R64). -/
def State.losePosition (s : State) (pos : Int) : State :=
  let s1 := s.modObs fun o => { o with frozen := pos, lost := true, slew := 0, last := ⟨s.tb3, pos, 0, 0, o.hw⟩ }
  let s2 := ((s1.set Reg.OBS_STATUS_active 7).dropPosition).raise Reg.OBS_STATUS_lost
  ((s2.modSched fun c => { c with losses := c.losses + 1 }).post 0x010B [.pos pos, .ns s.tb3]).refresh

/-- The active source `old` goes: to the next source of R63 that runs, alone, or position lost (R63, R64). The new source's D_ref, 0 for
the primary, is taken off; D_ref of the other running sources starts again at their D against the new one. -/
def State.moveOn (s : State) (old : Nat) (pos : Int) : State :=
  match s.order.find? (fun j => s.live j) with
  | none => s.losePosition pos
  | some j =>
    let i := s.inst j
    let ref := if j = s.primary then 0 else quot i.dref (2 ^ 32)
    let s1 := (s.setInst j { i with o := i.o - ref, dref := 0 }).set Reg.OBS_STATUS_active j
    let s2 := (List.range 5).foldl (fun s k => if k != j && s.live k then
      s.setInst k { s.inst k with dref := s.diffOf k, drefAt := s.now } else s) s1
    let d := (s2.startSlew 0).webPos - pos
    (s2.startSlew d).postSwitch old j d

/-- A source stops: failed and removed, or no longer named (R62). One that was active, or one of the blend, hands over (R63, R541). -/
def State.stopSource (s : State) (k : Nat) (failed : Bool) : State :=
  if s.live k then
    let old := s.active
    let pos := s.webPos
    let s1 := s.setInst k { s.inst k with running := false }
    let s2 := if failed then s1.setRemoved k true else s1
    if old = k || s.inBlend k then s2.moveOn old pos else s2
  else if failed && s.named k then s.setRemoved k true
  else s

/-- In BLEND, with both encoders running, they give the web position together (R59, R541). The difference to the present position is slewed
out; `tell` posts it with SOURCE_SWITCH. -/
def State.formBlend (s : State) (tell : Bool) : State :=
  let pair := (s.primary, s.get Reg.OBS_SRC_secondary)
  if s.obs.lost || !s.blending || (s.active == 5 && s.obs.pair == pair) then s
  else
    let s1 := (s.modObs fun o => { o with pair := pair }).set Reg.OBS_STATUS_active 5
    let d := (s1.startSlew 0).webPos - s.webPos
    if tell then (s1.startSlew d).postSwitch s.active 5 d else s1.startSlew d

/-- A source starts with a position in 2^-16 source counts (R52, R60, R64): alone it is active, with offset 0; beside others its estimate
is the present web position, and it becomes active only as one of a blend (notes/assumptions/22.md). -/
def State.startSource (s : State) (k : Nat) (p : Int) : State :=
  let t := s.now
  let web := s.webPos
  let others := (List.range 5).any (fun j => j != k && s.live j)
  let i : Instance := { running := true, p := p * guard, tu := t, started := t, drefAt := t }
  let s1 := s.setInst k i
  if s.obs.lost then s1
  else if !others then s1.set Reg.OBS_STATUS_active k
  else
    let s2 := s1.setInst k { i with o := web - s1.estimate k t }
    (s2.setInst k { s2.inst k with dref := s2.diffOf k }).formBlend (s.inst k).readmitted

/-- What OBS_SRC makes of the sources that run: a blend that it no longer asks for hands over to the first source of R63, and one that it
asks for now begins as R541 gives (R59; notes/assumptions/22.md). -/
def State.followMode (s : State) : State :=
  (if s.active == 5 && !s.blending then s.moveOn 5 s.webPos else s).formBlend true

/-- The encoder sources that may run now start, the primary first; those no longer named stop, and those whose encoder is disabled fail
(R52, R56, R62). -/
def State.sources (s : State) : State :=
  let s1 := (s.primary :: s.secondary.toList).foldl (fun (s : State) k =>
    if s.alive k && !s.live k && !s.removed k then s.startSource k (s.encCount k * 65536) else s) s
  let s2 := (List.range 5).foldl (fun (s : State) k =>
    if s.live k && !s.named k then s.stopSource k false
    else if s.live k && !s.alive k then s.stopSource k true
    else s) s1
  let s3 := s2.followMode
  if (List.range 4).any (fun k => s3.named k && s3.alive k) then s3 else s3.dropPosition.refresh

/-! ### After an update -/

/-- Whether an encoder has had OVERSPEED, QUAD_ERROR or a glitch counted in the preceding 1 ms (R61 item 1). -/
def State.troubled (s : State) (k : Nat) : Bool :=
  match (s.enc k).trouble with
  | some t => decide (s.beat ≤ t + 1000000)
  | none => false

/-- The source that R61 removes of a checked source and the active one, by the sign of D − D_ref. Its item 1 speaks of two encoders: of an
encoder and the remote coordinate the remote is always removed (notes/assumptions/22.md). -/
def State.victim (s : State) (chk ref : Nat) (dd : Int) : Nat :=
  let tc := chk != 4 && s.troubled chk
  let tr := ref != 4 && s.troubled ref
  if chk != 4 && ref != 4 && tc != tr then (if tc then chk else ref)
  else if chk == 4 || ref == 4 then 4
  else if dd < 0 then chk else ref

/-- The check of one source against the active one, and D_ref's low-pass (R61): how it is formed at discrete times is not said, so its step
over a time h is free from h / (τ + h) to h / τ of the difference, the exact 1 − exp(−h / τ) between them (notes/assumptions/22.md). -/
def State.checkSource (s : State) (k : Nat) : State :=
  match s.reference with
  | none => s
  | some r =>
    if s.checked k then
      let i := s.inst k
      let d := s.diffOf k
      let dd := d - i.dref
      let thr : Int := max 1 (s.get Reg.OBS_SLIP_CFG_threshold)
      if thr * 2 ^ 48 < dd.natAbs then
        let v := s.victim k r dd
        ((s.raise Reg.OBS_STATUS_slip).post 0x0109 [.b v, .pos (quot dd (2 ^ 32))]).stopSource v true
      else
        let tau : Nat := max 1 (s.get Reg.OBS_SLIP_CFG_tau_ms) * 1000000 * 65536
        let h : Nat := (stampDiff s.now i.drefAt).toNat
        let (x, s1) := s.drawInt
        let least := dd.natAbs * h / (tau + h)
        let most := min dd.natAbs (ceilDiv (dd.natAbs * h) tau)
        let step := clampI least most x
        s1.setInst k { i with dref := i.dref + (if dd < 0 then -step else step), drefAt := s.now }
    else s

/-- The slew goes on at the present speed (R63). -/
def State.settleSlew (s : State) : State :=
  if s.obs.slew = 0 then s else s.startSlew (s.slewLeft s.now)

/-- HW and reversal at an update (R65 to R68). Reversal is entered in every state, once an origin has set HW. -/
def State.reversal (s : State) : State :=
  let x := s.webPos
  let hw := s.obs.hw
  let pd := s.dev == stPrinting || s.dev == stDraining
  if s.on Reg.OBS_STATUS_reversal then
    if hw ≤ x then
      let us := quotN (stampDiff s.now s.obs.reversedAt).toNat (65536 * 1000)
      let s1 := ((s.clear Reg.OBS_STATUS_reversal).endInhibit fun l => { l with inhibitReversal := false }).post 0x0108
        [.pos hw, .n us]
      (s1.modObs fun o => { o with hw := if pd then max o.hw x else o.hw }).cmpResume
    else s
  else if s.obs.hwSet && (s.revWindow * 65536 : Nat) < hw - x then
    let s1 := ((s.raise Reg.OBS_STATUS_reversal).raise Reg.OBS_STATUS_reversal_seen).bump Reg.OBS_STATUS_reversal_count 1
    ((s1.modObs fun o => { o with reversedAt := s.now }).post 0x0107 [.pos hw, .pos x, .ns s.tb3]).startInhibit
      fun l => { l with inhibitReversal := true }
  else if pd then s.modObs fun o => { o with hw := max o.hw x }
  else s

/-- Keep an update of instance u: the web at its time t_u (R82). -/
def State.noteUpdate (s : State) (u : Nat) : State :=
  let t := (s.inst u).tu
  s.modObs fun o => { o with last := ⟨t / 65536, s.webPosAt t, s.webVel t, s.webAcc, o.hw⟩ }

/-- What every update of instance u brings with it: the checks of its pairs, reversal, predictive compare units, partings. -/
def State.updated (s : State) (u : Nat) : State :=
  let s1 := ((List.range 5).foldl (fun s k => if k = u || s.reference == some u then s.checkSource k else s) s).settleSlew.reversal
  ((s1.noteUpdate u).cmpWeb).partings

/-- An accepted edge of an encoder: the count goes by `step` from `old` at stamp t (R53, R540). An edge stamped before t_u is
applied with h 0 and without propagate. -/
def State.obsEdge (s : State) (k : Nat) (old step : Int) (t : Nat) : State :=
  if s.live k then
    if stampDiff t (s.inst k).tu < 0 then s.updated k
    else (s.updateInst k t (errExact ((2 * s.nearCount k old + step) * 32768))).updated k
  else s

/-- The settling time of the active source, 2^-16 ns (R56); in a blend that of the primary (notes/assumptions/22.md). -/
def State.settling (s : State) : Option Nat :=
  s.reference.map (fun k => (s.gainsOf k).2.2.2 * 65536)

/-! ### Commands -/

/-- Whether an edge of encoder k was last stamped in the microsecond up to a whole microsecond in ns (R53, R540). -/
def State.edgeIn (s : State) (k ns : Nat) : Bool :=
  let d := signed 64 (wrap 64 ((ns : Int) - s.get2 (Reg.ENCn_EDGE_TIME_LO k) (Reg.ENCn_EDGE_TIME_HI k)))
  k < 4 && (s.enc k).lastCount.isSome && decide (0 ≤ d) && decide (d < 1000)

/-- OBSERVER_TICK (R53, R54, R540): the tick of instance k at the last whole microsecond of TB3, when no edge was stamped in the
microsecond before it. It waits while a level of the encoder first sampled by then is neither accepted nor discarded. -/
def execObserverTick (dt : Nat) (k : Fin 5) (s : State) : Result :=
  (s.advance dt).whenOn 2 fun s =>
  let t := s.tb3 / 1000 * 1000 * 65536
  let i := s.inst k
  if i.running && 0 < stampDiff t i.tu && !s.edgeIn k (t / 65536) && !(k.val < 4 && s.edgeWaits k (t / 65536)) then
    let e := if k.val = 4 then errNone else errBand (s.nearCount k (s.encCount k))
    .next ((s.updateInst k t e).updated k)
  else .next s

/-- POS_VALID (R56). -/
def execPosValid (dt : Nat) (s : State) : Result :=
  (s.advance dt).whenOn 2 fun s =>
  match s.reference, s.settling with
  | some k, some w =>
    if (w : Int) ≤ stampDiff s.now (s.inst k).started && !s.obs.lost && (List.range 4).any (fun j => s.named j && s.alive j) then
      .next (s.raise Reg.OBS_STATUS_pos_valid).refresh
    else .next s
  | _, _ => .next s

/-- SOURCE_FAILED (R62): removed when its encoder is disabled or its messages are stale. -/
def execSourceFailed (dt : Nat) (k : Fin 5) (s : State) : Result :=
  (s.advance dt).whenOn 2 fun s =>
  if s.live k && !s.alive k then .next ((s.stopSource k true).sources) else .next s

/-- A snapshot: what the last update left (R82). -/
def State.obsSnapshot (s : State) : State :=
  let u := s.obs.last
  ((((s.set2 Reg.OBS_SNAP_TIME_LO Reg.OBS_SNAP_TIME_HI u.t).setI2 Reg.OBS_SNAP_POS_LO Reg.OBS_SNAP_POS_HI u.p).setI2
    Reg.OBS_SNAP_VEL_LO Reg.OBS_SNAP_VEL_HI u.v).setI2 Reg.OBS_SNAP_ACC_LO Reg.OBS_SNAP_ACC_HI u.a).setI2
    Reg.OBS_SNAP_HW_LO Reg.OBS_SNAP_HW_HI u.hw

/-- Readmit all removed sources; encoders restart at once, the remote source at its next message (R62), which is exempt from the
sequence check (R97). -/
def State.readmit (s : State) : State :=
  let s1 := (List.range 5).foldl (fun (s : State) k =>
    if s.removed k then s.setInst k { s.inst k with readmitted := true } else s) s
  (((s1.modTime fun t => { t with seqExempt := true }).set Reg.OBS_STATUS_enc_removed 0).clear Reg.OBS_STATUS_remote_removed).sources

/-- Restore position after POSITION_LOST: the first running source of R63's order gives the frozen position on (R64). -/
def State.resync (s : State) : State :=
  if s.obs.lost then
    match s.order.find? (fun j => s.live j) with
    | none => s
    | some k =>
      let t := s.now
      let z := s.obs.frozen
      let s1 := (List.range 5).foldl (fun s j =>
        if s.live j then s.setInst j { s.inst j with o := (s.inst j).o + z - s.estimate j t, dref := 0, drefAt := t } else s) s
      let s2 := s1.modObs fun o => { o with lost := false, slew := 0, pair := (s.primary, s.get Reg.OBS_SRC_secondary) }
      s2.set Reg.OBS_STATUS_active (if s2.blending then 5 else k)
  else s

/-- OBS_SNAPSHOT (R82). -/
def execObsSnapshot (dt : Nat) (s : State) : Result :=
  .next ((s.advance dt).hostWrite Reg.OBS_CTRL_snapshot.off fun s => s.obsSnapshot)

/-- OBS_READMIT (R62). -/
def execObsReadmit (dt : Nat) (s : State) : Result :=
  .next ((s.advance dt).hostWrite Reg.OBS_CTRL_readmit.off fun s => s.readmit)

/-- OBS_RESYNC (R64). -/
def execObsResync (dt : Nat) (s : State) : Result :=
  .next ((s.advance dt).hostWrite Reg.OBS_CTRL_resync.off fun s => s.resync)

end Sys2Proof.Machine
end

