-- ==== Sys2Proof/Machine/Sheet.lean ====
section
/-! DEFINITION. Sheet edges: what a capture of the sheet-edge input does to the job stream (R105, R122, R123). -/

namespace Sys2Proof.Machine

/-- The committed line, or the line before the first while no line has been begun (R122). -/
def State.committedI (s : State) : Int := if s.sched.anyBegun then s.committed else -1

/-- An edge that sets nothing is counted (R105, R123). -/
def State.ignoreEdge (s : State) : State := s.bump Reg.LS_STATUS_edges_ignored 1

/-- COUNTS_PER_LINE as the registers hold it, unsigned 32.32 (R104). -/
def State.cplReg (s : State) : Nat := s.get2 Reg.LS_CPL_LO Reg.LS_CPL_HI

/-- A count of lines in 2^-16 web counts, to the nearest, by a COUNTS_PER_LINE in 32.32. -/
def linesToPos (n cpl : Nat) : Int := divRound ((n * cpl : Nat) : Int) (2 ^ 16)

/-- (lead + 64) lines by the registers, the least room before an origin (R105). -/
def State.leadRoom (s : State) : Int := linesToPos (s.get Reg.LS_LEAD_lead + 64) s.cplReg

/-- The web position of a capture, with sheet_offset (R122): s_e · c + o_e + sheet_offset, signed 48.16. -/
def State.edgePos (s : State) (e : Nat) (count : Int) : Int :=
  quot (count * s.scale e) (2 ^ 14) + (s.inst e).o + s.getI Reg.LS_SHEET_OFFSET * 65536

/-- The parting that an edge at a web position gives (R122). -/
def State.edgeLine (s : State) (x : Int) : Int :=
  if s.sched.cpl = 0 then 0 else -(-(posDiff x s.x0 * 65536) / (s.sched.cpl : Int))

/-- Place the next panel at a parting that a sheet edge gives. -/
def State.placeAt (s : State) (p : Nat) : State :=
  match s.nextJob with
  | some b => ((s.placePanel b p).modSched fun c => { c with missingPosted := false }).clear Reg.LS_STATUS_sheet_wait
  | none => s

/-- The panel in progress ends before an edge's parting: PANEL_CUT (R123). -/
def State.cutPanel (s : State) (sp : Span) (p : Nat) : State :=
  (s.modSched fun c => { c with spans := c.spans.dropLast ++ [{ sp with len := p - sp.start }] }).post 0x0308
    [.li p, .n (sp.start + sp.len - p)]

/-- An edge in a running stream of sheet mode: the first row of Table 05-6 that applies. -/
def State.streamEdge (s : State) (x : Int) : State :=
  let p := s.edgeLine x
  let first : Int := match s.lastSpan with
    | some sp => sp.start
    | none => -1
  if p ≤ first then s.ignoreEdge
  else
    match s.lastSpan.filter (fun sp => p < (sp.start + sp.len : Nat)) with
    | some sp => (s.cutPanel sp p.toNat).placeAt p.toNat
    | none =>
      if p ≤ s.committedI then
        let used := s.committedI + 1
        ((s.raise Reg.LS_STATUS_sheet_late).post 0x0306 [.li p.toNat, .li used.toNat]).placeAt used.toNat
      else if s.nextJob.isNone then s.ignoreEdge
      else s.placeAt p.toNat

/-- The copy of a capture that the scheduler receives (R44, R46): input n, the encoder and its count. Before the stream the first edge
with room is the one the origin waits for; one that has lost its room counts as ignored, and the next stands (Table 05-1). -/
def State.sheetEdge (s : State) (n e : Nat) (count : Int) : State :=
  let x := s.edgePos e count
  if s.streaming then
    if s.sheetMode && s.sheetTrig == n && !s.sched.stopping then (s.streamEdge x).showParting else s
  else if s.dev == stReady && s.on Reg.LS_STREAM_CFG_sheet_mode && s.get Reg.LS_STREAM_CFG_sheet_trig == n then
    match s.sched.jobs.head? with
    | some b =>
      if b.startKind == 2 then
        if posDiff x s.webPos < s.leadRoom then s.ignoreEdge
        else
          match s.sched.edge with
          | none => s.modSched fun c => { c with edge := some x }
          | some y =>
            if posDiff y s.webPos < s.leadRoom then s.ignoreEdge.modSched fun c => { c with edge := some x } else s
      else s
    | none => s
  else s

end Sys2Proof.Machine
end

