-- ==== Sys2Proof/Machine/AssayCore.lean ====
section
/-! DEFINITION. The arithmetic of the inspection pipeline (chapter 11): parameters of a port (R307), unpacking (R289), stages 1, 2 and 4
(R298, R299, R301, R303), and the analyses of stage 6 (R313 to R316). Where the spec does not say how an inexact value rounds, or what
a value is that no sample gives, it is free. -/

namespace Sys2Proof.Machine

/-! ### Free values by number -/

/-- A quotient by draw i: exact, or either neighbour; with no divisor, free. -/
def quotAt (i : Nat) (num : Int) (den : Nat) : Int :=
  if den = 0 then Config.freeInt i else if num % (den : Int) = 0 then num / den else num / den + b2n (Config.roundUp i)

/-- A quotient to the nearest whole number. The spec does not say which way a tie goes, so that is free, as is a quotient by 0. -/
def nearAt (i : Nat) (num : Int) (den : Nat) : Int :=
  if den = 0 then Config.freeInt i
  else if (2 * num + den) % (2 * den : Nat) = 0 then num / (den : Int) + b2n (Config.roundUp i)
  else (2 * num + den) / (2 * den : Nat)

/-- The same held to 0 to 4,095. -/
def milliAt (i : Nat) (num : Int) (den : Nat) : Nat := (clampI 0 4095 (quotAt i num den)).toNat

/-- The largest number below 2^n that satisfies a test which holds up to it. -/
def searchBits (ok : Nat → Bool) (n : Nat) : Nat :=
  (List.range n).foldl (fun d k => let e := d + 2 ^ (n - 1 - k); if ok e then e else d) 0

/-- The integer square root of a number below 2^64. -/
def isqrt (n : Nat) : Nat := searchBits (fun d => decide (d * d ≤ n)) 32

/-! ### Parameters in force (R307, Table 11-9) -/

/-- CAMp_FRAME.lines. -/
def prmLines (p : List Nat) : Nat := max 16 (bits (p.getD 0 0) 15 0)
/-- CAMp_FRAME.timeout_ms. -/
def prmTimeout (p : List Nat) : Nat := max 1 (bits (p.getD 0 0) 23 16)
/-- CAMp_FRAME.silent_ms. -/
def prmSilent (p : List Nat) : Nat := max 1 (bits (p.getD 0 0) 31 24)
/-- CAMp_LINE.max_latency_us. -/
def prmLatency (p : List Nat) : Nat := max 10 (bits (p.getD 1 0) 15 0)
/-- CAMp_LINE.pitch, unsigned 8.8 datum lines. -/
def prmPitch (p : List Nat) : Nat := bits (p.getD 1 0) 31 16
/-- CAMp_NR.sn_mode. -/
def prmSn (p : List Nat) : Nat := bits (p.getD 2 0) 1 0
/-- CAMp_NR.tnr_w. -/
def prmTnrW (p : List Nat) : Nat := bits (p.getD 2 0) 7 4
/-- CAMp_NR.tnr_limit. -/
def prmTnrLimit (p : List Nat) : Nat := bits (p.getD 2 0) 19 8
/-- CAMp_DATUM, signed 48.16. -/
def prmDatum (p : List Nat) : Int := signed 64 (p.getD 3 0 + 2 ^ 32 * p.getD 4 0)
/-- CAMp_DELTAc, signed 16.16. -/
def prmDelta (p : List Nat) (c : Nat) : Int := signed 32 (p.getD (4 + c) 0)

/-! ### Ports -/

/-- Channels of a port (R288). -/
def State.camChannels (s : State) (p : Nat) : Nat := if s.on (Reg.CAMp_CFG_trilinear p) then 3 else 1

/-- Bytes of the repeat buffer of a port (R300). -/
def State.repeatBytes (s : State) (p : Nat) : Nat :=
  s.get Reg.ASSAY_CFG_tnr_lines * (s.get (Reg.CAMp_CFG_pixels p) * s.camChannels p * 2)

/-- The repeat buffers in port order: pages reserved, and the ports that have one (R300, R415). -/
def State.repeatPlan (s : State) : Nat × List Nat :=
  (List.range 4).foldl (fun (a : Nat × List Nat) p =>
    let n := ceilDiv (s.repeatBytes p) 4096
    if s.on (Reg.CAMp_CFG_enable p) && s.on (Reg.CAMp_CFG_tnr_en p) && decide (s.fixedAreas + a.1 + n ≤ s.storePages) then
      (a.1 + n, a.2 ++ [p])
    else a) (0, [])

/-- First page of the repeat buffer of a port (Table 16-2). -/
def State.repeatBase (s : State) (p : Nat) : Nat :=
  s.fixedAreas + ((s.repeatPlan.2.filter (· < p)).map fun q => ceilDiv (s.repeatBytes q) 4096).sum

/-- COUNTS_PER_LINE of the stream, or as the registers hold it while none runs. -/
def State.cplNow (s : State) : Nat := if s.streaming then s.sched.cpl else s.cplReg

/-- The frame that runs on a port. -/
def CamPort.open_ (c : CamPort) : Option CamFrame := c.frames.find? (!·.closed)

/-- A frame of a port by number. -/
def CamPort.frame (c : CamPort) (no : Nat) : Option CamFrame := c.frames.find? (·.no == no)

/-- Change a frame of a port. -/
def CamPort.onFrame (c : CamPort) (no : Nat) (f : CamFrame → CamFrame) : CamPort :=
  { c with frames := c.frames.map fun x => if x.no = no then f x else x }

/-- Bytes in the elastic buffer: unserved samples of 2 bytes, and the lines that wait there for their stamp (R291, R296). -/
def CamPort.level (c : CamPort) : Nat :=
  (c.buffer.map fun l => 2 * (l.data.length - l.served)).sum + (c.frames.map fun f => (f.early.map fun e => 2 * e.2.2.length).sum).sum

/-- CAMp_BUF follows the buffer. -/
def State.showBuf (s : State) (p : Nat) : State :=
  let k := quotN (s.cam p).level 1024
  (s.set (Reg.CAMp_BUF_level p) k).set (Reg.CAMp_BUF_peak p) (max k (s.get (Reg.CAMp_BUF_peak p)))

/-- λ in 1/64 line, with its floor exact, and the panel of a camera line with stamp x (R292, R299); none while no origin is set. -/
def State.camPlace (s : State) (params : List Nat) (x : Int) : Option CamPlace :=
  if s.streaming && s.sched.cpl != 0 then
    let n := posDiff (posDiff x (prmDatum params)) s.x0 * 2 ^ 22
    let lam := min (quot n s.sched.cpl) (64 * (n / (64 * s.sched.cpl : Nat)) + 63)
    let panel := if 0 ≤ lam then (s.spanAt (lam / 64).toNat).map fun p => (p.start, p.job, p.panelNo, p.index) else none
    some ⟨lam, panel⟩
  else none

/-! ### Unpacking (R289; packing of CSI-2) -/

/-- RAW10: four pixels in five bytes, shifted left by 2. -/
def unpack10 : List (BitVec 8) → List Nat
  | a :: b :: c :: d :: e :: t =>
    let v (x : BitVec 8) (i : Nat) : Nat := 4 * (4 * x.toNat + e.toNat / 4 ^ i % 4)
    v a 0 :: v b 1 :: v c 2 :: v d 3 :: unpack10 t
  | _ => []

/-- RAW12: two pixels in three bytes. -/
def unpack12 : List (BitVec 8) → List Nat
  | a :: b :: c :: t => (16 * a.toNat + c.toNat % 16) :: (16 * b.toNat + c.toNat / 16) :: unpack12 t
  | _ => []

/-! ### Stages 1, 2 and 4 -/

/-- The median of three. -/
def median3 (a b c : Nat) : Nat := max (min a b) (min (max a b) c)

/-- Spatial noise reduction (R298). -/
def spatial (mode : Nat) (x : List Nat) : List Nat :=
  let prev := x.headD 0 :: x
  let next := x.drop 1 ++ [x.getLastD 0]
  let f (b a c : Nat) : Nat := if mode = 1 then (a + 2 * b + c + 2) / 4 else if mode = 2 then median3 a b c else b
  List.zipWith (fun b ac => f b ac.1 ac.2) x (prev.zip next)

/-- Temporal noise reduction against the previous repeat (R299). -/
def temporal (w limit : Nat) (x prev : List Nat) : List Nat :=
  x.zipIdx.map fun (a, i) =>
    let b := prev.getD i 0
    if ((a : Int) - b).natAbs ≤ limit then (w * b + (16 - w) * a + 8) / 16 else a

/-- dark of a pixel and channel (R305); a port without a calibration table has dark 0. -/
def calDark (d : Option (List (BitVec 8))) (i c : Nat) : Nat := match d with | some d => leAt d (32 + 12 * i + 4 * c) 2 % 4096 | none => 0
/-- gain of a pixel and channel. -/
def calGain (d : Option (List (BitVec 8))) (i c : Nat) : Nat := match d with | some d => leAt d (34 + 12 * i + 4 * c) 2 | none => 4096
/-- Matrix coefficient of row r, column c, signed 4.12. -/
def calMatrix (d : Option (List (BitVec 8))) (r c : Nat) : Int :=
  match d with
  | some d => signed 16 (leAt d (6 * r + 2 * c) 2)
  | none => if r = c then 4096 else 0
/-- white of a channel. -/
def calWhite (d : Option (List (BitVec 8))) (c : Nat) : Nat := match d with | some d => leAt d (18 + 2 * c) 2 | none => 4095

/-- Dark and flat-field correction (R301). -/
def correct (cal : Option (List (BitVec 8))) (c : Nat) (x : List Nat) : List Nat :=
  x.zipIdx.map fun (a, i) => (clampI 0 4095 ((((a : Int) - calDark cal i c) * calGain cal i c + 2048) / 4096)).toNat

/-- round(1000 log10(white / max(v, 1))), 0 to 4,095 (R303): the largest d with 10^(2d - 1) ≤ (white / v)^2000. -/
def density (white v : Nat) : Nat :=
  let a := white ^ 2000
  let b := max v 1 ^ 2000
  searchBits (fun d => decide (10 ^ (2 * d - 1) * b ≤ a)) 12

/-- The densities of a triple (R303); the draws number from k. -/
def triDensity (cal : Option (List (BitVec 8))) (k : Nat) (a b c : Nat) : Nat × Nat × Nat :=
  let v (r : Nat) : Nat := milliAt (k + r) (calMatrix cal r 0 * a + calMatrix cal r 1 * b + calMatrix cal r 2 * c) 4096
  (density (calWhite cal 0) (v 0), density (calWhite cal 1) (v 1), density (calWhite cal 2) (v 2))

/-- The density of a channel. -/
def denOf (d : Nat × Nat × Nat) : Nat → Nat
  | 0 => d.1
  | 1 => d.2.1
  | _ => d.2.2

/-! ### Regions (R309 to R311) -/

/-- A field of a region's record (Table 11-4). -/
def rgOf (rec : List (BitVec 8)) (off n : Nat) : Nat := leAt rec off n
/-- first_col of a region. -/
def rgFirstCol (rec : List (BitVec 8)) : Nat := leAt rec 16 4
/-- last_col of a region. -/
def rgLastCol (rec : List (BitVec 8)) : Nat := leAt rec 20 4
/-- length of a region in datum lines. -/
def rgLen (rec : List (BitVec 8)) : Nat := leAt rec 8 2
/-- p1 of a region. -/
def rgP1 (rec : List (BitVec 8)) : Nat := leAt rec 24 2
/-- p2 of a region. -/
def rgP2 (rec : List (BitVec 8)) : Nat := leAt rec 26 2
/-- p3 of a region. -/
def rgP3 (rec : List (BitVec 8)) : Nat := leAt rec 28 2

/-- The first datum lines of the occurrences of a region that hold datum line l (R311). -/
def State.occStarts (s : State) (rec : List (BitVec 8)) (l : Int) : List Int :=
  let first := rgOf rec 4 4
  let len := rgLen rec
  if rgOf rec 3 1 = 1 then
    let period := rgOf rec 12 4
    let i := if period = 0 then 0 else (l - first) / (period : Int)
    let start := (first : Int) + i * period
    if 0 ≤ i && start ≤ l && l < start + len then [start] else []
  else (s.sched.spans.filter fun p => decide ((p.start : Int) + first ≤ l) && decide (l < (p.start : Int) + first + len)).map fun p =>
    (p.start : Int) + first

/-- The part of a density line that a region keeps: its columns, for a LADDER with the windows beyond them. -/
def denPart (rec : List (BitVec 8)) (lam : Int) (cols : List Nat) (dens : List (Nat × Nat × Nat)) : DenLine :=
  let margin := if rgOf rec 0 1 = 1 then 32 else 0
  let lo := (rgFirstCol rec - margin) * 32768
  let hi := (rgLastCol rec + margin + 1) * 32768
  let kept := ((cols.zip dens).zipIdx).filter fun x => decide (lo ≤ x.1.1) && decide (x.1.1 < hi)
  ⟨lam, (kept.head?.map (·.2)).getD 0, kept.map (·.1.1), kept.map (·.1.2)⟩

/-! ### The analyses -/

/-- The line's place in its occurrence, in 1/64 line. -/
def Occurrence.rel (o : Occurrence) (l : DenLine) : Int := l.lam - 64 * o.start

/-- The middle half of a list of camera lines. -/
def middle {α : Type} (l : List α) : List α := (l.drop (l.length / 4)).take (l.length - 2 * (l.length / 4))

/-- The camera lines of ladder band b of m, its middle half (R313). -/
def Occurrence.bandLines (o : Occurrence) (m b : Nat) : List DenLine :=
  let len := rgLen o.record / m
  middle (o.lines.filter fun l => decide ((64 * b * len : Nat) ≤ o.rel l) && decide (o.rel l < (64 * (b + 1) * len : Nat)))

/-- Sums over the lines of a band, per pixel kept: its column, its number among those kept, and the summed density of a channel. -/
def bandSums (lines : List DenLine) (c : Nat) : List (Nat × Nat × Nat) :=
  match lines with
  | [] => []
  | l :: _ => l.cols.zipIdx.map fun (m, j) => (m, j, (lines.map fun x => denOf (x.dens.getD j (0, 0, 0)) c).sum)

/-- Column of pixel position a / w (17.15, times w), by linear interpolation between the two neighbouring entries (R304). -/
def columnAt (sums : List (Nat × Nat × Nat)) (a w : Nat) : Int :=
  let m (i : Nat) : Int := ((sums.getD i (0, 0, 0)).1 : Nat)
  m (a / w) * w + (a % w : Nat) * (m (a / w + 1) - m (a / w))

/-- Whether a ladder's marks lie less than 3 pixels apart (R313). -/
def Occurrence.tooFine (o : Occurrence) : Bool := decide (rgP2 o.record * (o.pixels - 1) * 32768 < 3 * o.span)

/-- One ladder entry (R313, Table 11-7): expected column e, the sums of its band over n lines; draws from k. -/
def ladderEntry (k foundMd m e n : Nat) (sums : List (Nat × Nat × Nat)) (fine : Bool) : List (BitVec 8) :=
  let win := sums.filter fun x => decide ((2 * e - m) * 16384 ≤ x.1) && decide (x.1 ≤ (2 * e + m) * 16384)
  let peak := win.foldl (fun a x => max a x.2.2) 0
  let found := !fine && n != 0 && !win.isEmpty && decide (foundMd * n ≤ peak)
  let part := win.filter fun x => decide (peak ≤ 2 * x.2.2)
  let weight := (part.map (·.2.2)).sum
  let moment : Int := columnAt sums (part.map fun x => x.2.2 * x.2.1).sum weight - (weight * e * 32768 : Nat)
  let off := if found then clampI (-32767) 32767 (quotAt k moment (2048 * weight)) else Config.freeInt k
  let den := if found then milliAt (k + 1) peak n else Config.freeNat (k + 1) % 4096
  leBytes 2 (wrap 16 off) ++ leBytes 2 (den + 4096 * b2n found)

/-- The payload of a LADDER record of n nozzles from head column c0 (Table 11-7). -/
def ladderPayload (o : Occurrence) (k foundMd headFirst c0 n : Nat) : List (BitVec 8) :=
  let m := rgP2 o.record
  let row := b2n (bit (rgP3 o.record) 2)
  leBytes 1 (rgP1 o.record) ++ leBytes 1 row ++ leBytes 2 c0 ++ leBytes 2 n ++ leBytes 2 0
    ++ (List.range n).flatMap fun j =>
      let i := c0 + j
      let lines := o.bandLines m (i % m)
      ladderEntry (k + 2 * i) foundMd m (headFirst + i) lines.length (bandSums lines (rgP3 o.record % 4)) o.tooFine

/-- The samples of a channel in datum lines lo to hi (1/64, from the occurrence's first line) and columns clo to chi (17.15). -/
def Occurrence.samples (o : Occurrence) (c : Nat) (lo hi : Int) (clo chi : Nat) : List Nat :=
  (o.lines.filter fun l => decide (lo ≤ o.rel l) && decide (o.rel l < hi)).flatMap fun l =>
    ((l.cols.zip l.dens).filter fun x => decide (clo ≤ x.1) && decide (x.1 < chi)).map fun x => denOf x.2 c

/-- Columns of band j: its first, and its width. -/
def bandCols (rec : List (BitVec 8)) (j : Nat) : Nat × Nat :=
  let c0 := rgFirstCol rec + j * rgP2 rec
  (c0, min (rgP2 rec) (rgLastCol rec + 1 - c0))

/-- Number of bands. -/
def bandCount (rec : List (BitVec 8)) : Nat := ceilDiv (rgLastCol rec - rgFirstCol rec + 1) (rgP2 rec)

/-- The payload of a WEDGE record (R314). -/
def wedgePayload (o : Occurrence) (k : Nat) : List (BitVec 8) :=
  let n := rgP1 o.record
  let bands := bandCount o.record
  let len := rgLen o.record / n
  leBytes 1 n ++ leBytes 1 bands ++ leBytes 2 (rgP2 o.record) ++
    (List.range n).flatMap fun i => (List.range bands).flatMap fun j => (List.range 3).flatMap fun c =>
      let (c0, w) := bandCols o.record j
      let lo : Int := (64 * i * len + 16 * len : Nat)
      let x := o.samples c lo (lo + (32 * len : Nat)) (c0 * 32768 + w * 8192) (c0 * 32768 + w * 24576)
      leBytes 2 (milliAt (k + 3 * (i * bands + j) + c) x.sum x.length)

/-- The payload of a REGMARK record (R315). -/
def regmarkPayload (o : Occurrence) (k : Nat) : List (BitVec 8) :=
  let c := rgP3 o.record % 4
  let all := o.lines.flatMap fun l => (l.cols.zip l.dens).map fun x => (l.lam, x.1, denOf x.2 c)
  let peak := all.foldl (fun a x => max a x.2.2) 0
  let part := all.filter fun x => decide (peak ≤ 2 * x.2.2)
  let n := part.length
  let down := quotAt k ((part.map fun x => x.1).sum - n * (64 * o.start + (4 * rgP1 o.record : Nat))) n
  let cross := quotAt (k + 1) ((part.map fun x => (x.2.1 : Int)).sum - (n * 32768 * (rgFirstCol o.record + rgP2 o.record) : Nat)) (512 * n)
  leBytes 4 (wrap 32 down) ++ leBytes 4 (wrap 32 cross) ++ leBytes 2 peak ++ leBytes 1 (b2n (decide (16 ≤ n))) ++ leBytes 1 0

/-- The payload of a ZONE record (R316): mean and standard deviation of each channel per band. -/
def zonePayload (o : Occurrence) (k : Nat) : List (BitVec 8) :=
  let bands := bandCount o.record
  leBytes 1 bands ++ leBytes 1 0 ++ leBytes 2 (rgP2 o.record) ++
    (List.range bands).flatMap fun j => (List.range 3).flatMap fun c =>
      let (c0, w) := bandCols o.record j
      let x := o.samples c 0 (64 * rgLen o.record : Nat) (c0 * 32768) ((c0 + w) * 32768)
      let n := x.length
      let var := n * (x.map fun d => d * d).sum - x.sum * x.sum
      let i := k + 6 * j + 2 * c
      let root := if n = 0 then 0 else isqrt (var / (n * n))
      let std := if n = 0 then Config.freeNat (i + 1) else if root * root * (n * n) = var then root else root + b2n (Config.roundUp (i + 1))
      leBytes 2 (milliAt i x.sum n) ++ leBytes 2 std

/-- Zeros to a multiple of 8 bytes (R317). -/
def padEight (bs : List (BitVec 8)) : List (BitVec 8) := bs ++ List.replicate (8 * ceilDiv bs.length 8 - bs.length) 0#8

/-- A statistics record (Table 11-6): kind, port, flags, frame, first_li, lines, region, plane, job, panel, stamp, payload. -/
def statBytes (kind port flags frame firstLi lines region plane job panel stamp : Nat) (payload : List (BitVec 8)) : List (BitVec 8) :=
  leBytes 1 kind ++ leBytes 1 port ++ leBytes 2 flags ++ leBytes 4 frame ++ leBytes 6 firstLi ++ leBytes 2 lines ++ leBytes 1 region
    ++ leBytes 1 plane ++ leBytes 2 payload.length ++ leBytes 2 job ++ leBytes 2 panel ++ leBytes 8 stamp ++ padEight payload

/-- Issue a statistics record: the Foreman receives every one, the host those of ASSAY_CFG.host_kinds (R318). -/
def State.issueStat (s : State) (kind : Nat) (rec : List (BitVec 8)) : State :=
  let s1 := s.modFm fun f => { f with queue := f.queue ++ [rec] }
  if bit (s.get Reg.ASSAY_CFG_host_kinds) (kind - 1) then s1.sendStat rec else s1

end Sys2Proof.Machine
end

