-- ==== Sys2Proof/Machine/Phied.lean ====
section
/-! DEFINITION. Packets of the head link (chapter 09): header and check (R218, R219), the way to a node (R220, R244, R451), link time
(R111, R229), and the downstream packets LINE, BIND, SPIT, NODE_CMD and SYNC. -/

namespace Sys2Proof.Machine

/-- The CRC-32C of a packet: byte 2 is left out, and bytes 8 to 11 of a SYNC packet (R219). -/
def packetCrc (p : List (BitVec 8)) : Nat :=
  let sync := (leAt p 0 1) / 16 == 5
  crc32c (if sync then p.take 2 ++ (p.drop 3).take 5 ++ p.drop 12 else p.take 2 ++ p.drop 3)

/-- A packet (Table 09-2): type, end, bcast, string, node, hop, payload. -/
def packet (ty e bcast str node hop : Nat) (payload : List (BitVec 8)) : List (BitVec 8) :=
  let p := leBytes 1 (ty * 16 + e * 8 + bcast * 4) ++ leBytes 1 (str * 8 + node) ++ leBytes 1 hop ++ leBytes 1 0
    ++ beBytes 2 payload.length ++ payload
  p ++ beBytes 4 (packetCrc p)

/-- Whether a received packet is valid: 10 to 2,080 bytes, its length and its CRC (R216, R219). -/
def packetOk (p : List (BitVec 8)) : Bool :=
  10 ≤ p.length && p.length ≤ 2080 && beAt p 4 2 + 10 == p.length
    && beAt p (p.length - 4) 4 == packetCrc (p.take (p.length - 4))

/-- type of a packet. -/
def pkType (p : List (BitVec 8)) : Nat := leAt p 0 1 / 16
/-- end of a packet. -/
def pkEnd (p : List (BitVec 8)) : Nat := bits (leAt p 0 1) 3 3
/-- string of a packet. -/
def pkString (p : List (BitVec 8)) : Nat := leAt p 1 1 / 8
/-- node of a packet. -/
def pkNode (p : List (BitVec 8)) : Nat := leAt p 1 1 % 8

/-- The serving end of head a, 0 A, 1 B (R244). -/
def State.nodeEnd (s : State) (a : Nat) : Nat := s.get (Reg.NODEa_STATE_end a)

/-- hop of a downstream packet as the device sends it from an end (R220). -/
def State.startHop (s : State) (str e : Nat) : Nat := if e = 0 then 0 else s.nodeCount str - 1

/-- Send a packet to head a by an end: out of the device's own lane, or as RELAY_DOWN on the pair-link lane of the string when the
end is the partner's (R244, R436, R451). -/
def State.sendBy (s : State) (a e ty : Nat) (payload : List (BitVec 8)) : State :=
  let str := a / 8
  let p := packet ty e 0 str (a % 8) (s.startHop str e) payload
  if s.usesEnd e then
    if s.laneUp (laneOf str e) then s.sendPacket (laneOf str e) p else s
  else
    match s.tally.relays.find? (fun r => r.1 == str) with
    | some (_, lane) => s.sendPacket lane (packet 0xE 0 0 str 0 0 p)
    | none => s

/-- Send a packet to head a from its serving end. -/
def State.sendNode (s : State) (a ty : Nat) (payload : List (BitVec 8)) : State := s.sendBy a (s.nodeEnd a) ty payload

/-- This device's tally epoch. -/
def State.epoch (s : State) : Nat := s.get Reg.TALLY_EPOCH

/-- String record. -/
def State.str (s : State) (n : Nat) : LinkString := Tab.get (fun _ => {}) s.link.strings n

/-- Set it. -/
def State.setStr (s : State) (n : Nat) (v : LinkString) : State :=
  s.modLink fun l => { l with strings := Tab.set (fun _ => {}) l.strings n v }

/-- Change it. -/
def State.onStr (s : State) (n : Nat) (f : LinkString → LinkString) : State := s.setStr n (f (s.str n))

/-- Set a string's offset and show its ns (R229). -/
def State.setOffset (s : State) (str : Nat) (v : Int) : State :=
  (s.onStr str fun x => { x with offsetSet := true, offset := v }).setI2 (Reg.LINKs_OFFSET_LO str) (Reg.LINKs_OFFSET_HI str) (quot v 65536)

/-- A step of TB3, in 2^-16 ns, is added to the offset of every string in use, so that link time never steps (R229). -/
def State.stepOffsets (s : State) (d : Int) : State :=
  (List.range 32).foldl (fun (s : State) n =>
    let o := (s.str n).offset + d
    if s.nodeCount n = 0 then s
    else if (s.str n).offsetSet then s.setOffset n o
    else s.onStr n fun x => { x with offset := o }) s

/-- The link time of a string at a TB3 stamp, both in 2^-16 ns (R111, R229). -/
def State.linkTime (s : State) (str : Nat) (t : Int) : Nat := wrap 80 (t - (s.str str).offset)

/-- A link time in compact form with its fraction, 8 bytes (R87). -/
def compactBytes (t : Nat) : List (BitVec 8) := beBytes 6 (t / 65536) ++ beBytes 2 t

/-- NODE_CMD to head a (Table 09-7, R224): it takes the next tag and waits for its ACK. -/
def State.nodeCmd (s : State) (a opcode : Nat) (params : List (BitVec 8)) : State :=
  let n := s.node a
  (s.setNode a { n with tag := (n.tag + 1) % 65536, cmds := n.cmds ++ [⟨n.tag, opcode⟩] }).sendNode a 4
    (beBytes 4 s.epoch ++ beBytes 2 n.tag ++ beBytes 1 opcode ++ beBytes 1 0 ++ params)

/-- HOLD (Table 09-8, R239). -/
def State.sendHold (s : State) (a mode k : Nat) : State :=
  s.nodeCmd a 5 (beBytes 1 mode ++ beBytes 1 0 ++ beBytes 6 k)

/-- STREAM_RESET (Table 09-8). -/
def State.sendStreamReset (s : State) (a first : Nat) : State := s.nodeCmd a 6 (beBytes 6 first)

/-- CARE_PARAM (Table 09-8). -/
def State.sendCareParam (s : State) (a id v : Nat) : State := s.nodeCmd a 9 (beBytes 2 id ++ beBytes 4 v)

/-- The codes of a head line in packet bytes: 2 bits each, or 1 bit in one-bit mode (Table 09-4). -/
def packCodes (oneBit : Bool) : Nat → List Nat → List (BitVec 8)
  | 0, _ => []
  | fuel + 1, cs =>
    match cs with
    | [] => []
    | _ =>
      let per := if oneBit then 8 else 4
      let w := if oneBit then 1 else 2
      let b := (List.range per).foldl (fun a i => a * 2 ^ w + cs.getD i 0 % 2 ^ w) 0
      BitVec.ofNat 8 b :: packCodes oneBit fuel (cs.drop per)

/-- LINE (Table 09-4). -/
def State.sendLine (s : State) (a : Nat) (l : HeadLine) : State :=
  let one := s.oneBit
  s.sendNode a 1 (beBytes 4 s.epoch ++ beBytes 6 l.k ++ beBytes 1 (l.flags % 4 + 4 * b2n one) ++ beBytes 1 0
    ++ beBytes 2 l.codes.length ++ packCodes one l.codes.length l.codes)

/-- BIND by an end, with a source (Table 09-5, R111): the lines listed, the first of which gives t_first. -/
def State.sendBind (s : State) (a e source : Nat) (ls : List Bound) : State :=
  match ls with
  | [] => s
  | b0 :: _ =>
    s.sendBy a e 2 (beBytes 1 (128 * source + ls.length) ++ beBytes 1 0 ++ beBytes 4 s.epoch ++ beBytes 6 b0.k
      ++ compactBytes (s.linkTime (a / 8) b0.t)
      ++ ls.flatMap (fun b => beBytes 4 (wrap 32 (stampDiff b.t b0.t)) ++ beBytes 4 b.period))

/-- SPIT (Table 09-6): t_fire a TB3 stamp in 2^-16 ns. -/
def State.sendSpit (s : State) (a t period rows level first last stride repeats : Nat) : State :=
  s.sendNode a 3 (beBytes 4 s.epoch ++ compactBytes (s.linkTime (a / 8) t) ++ beBytes 4 period ++ beBytes 1 rows
    ++ beBytes 1 level ++ beBytes 2 first ++ beBytes 2 last ++ beBytes 2 stride ++ beBytes 1 repeats ++ beBytes 1 0)

/-- SYNC by an end (Table 09-14). -/
def State.sendSync (s : State) (a e subtype source seq epoch : Nat) (value rate : Int) (step : Nat) : State :=
  s.sendBy a e 5 (beBytes 1 subtype ++ beBytes 1 source ++ beBytes 4 0 ++ beBytes 2 seq ++ beBytes 2 0 ++ beBytes 4 epoch
    ++ beBytes 16 0 ++ beBytes 4 (wrap 32 value) ++ beBytes 4 (wrap 32 rate) ++ beBytes 1 step ++ beBytes 1 0)

/-- Fire map of head a from a skew bank and its poisoned words (R174): phase, row, enable per column; a poisoned entry is not enabled. -/
def fireMap (a : Nat) (skew : List (BitVec 8)) (bad : List Nat) (cols : Nat) : List (BitVec 8) :=
  (List.range cols).map fun i =>
    let e := skewSel skew (a % 8) i
    let off := 32768 * (a % 8) + 4 * i + 2 * skewRow skew (a % 8) i
    let on := !skDisable e && !badAt bad off
    BitVec.ofNat 8 (skPhase e + 16 * skewRow skew (a % 8) i + 32 * b2n on)

/-- Fire-map record of head a. -/
def State.map (s : State) (a : Nat) : FireMap := Tab.get (fun _ => {}) s.seam.maps a

/-- Set it. -/
def State.setMap (s : State) (a : Nat) (m : FireMap) : State :=
  s.modSeam fun e => { e with maps := Tab.set (fun _ => {}) e.maps a m }

/-- Whether a map may still be pending at node a: a MAP_COMMIT waits for its ACK, no STATUS has come since, or the last one says so (R174,
Table 09-10). -/
def State.mapPending (s : State) (a : Nat) : Bool :=
  (s.map a).committed.isSome || (s.map a).unseen || bit (leAt (s.node a).status 1 1) 3

/-- The node bank that is neither in force nor pending while none is pending: the other one than in force, by the last STATUS (R174,
Table 09-10). -/
def State.freeNodeBank (s : State) (a : Nat) : Nat := if bit (leAt (s.node a).status 1 1) 4 then 0 else 1

/-- The places at which n bytes are cut into packets of at most 1,024. -/
def mapCuts (n : Nat) : List (Nat × Nat) := (List.range (ceilDiv n 1024)).map fun i => (1024 * i, min 1024 (n - 1024 * i))

/-- MAP_DATA packets that carry a map to a node bank (Table 09-8). -/
def State.sendMapData (s : State) (a bank : Nat) (m : List (BitVec 8)) : State :=
  (mapCuts m.length).foldl (fun s (c : Nat × Nat) =>
    s.nodeCmd a 3 (beBytes 1 bank ++ beBytes 1 0 ++ beBytes 2 c.1 ++ beBytes 2 c.2 ++ (m.drop c.1).take c.2)) s

/-- MAP_COMMIT (Table 09-8). -/
def State.sendMapCommit (s : State) (a bank e : Nat) (m : List (BitVec 8)) : State :=
  s.nodeCmd a 4 (beBytes 1 bank ++ beBytes 1 0 ++ beBytes 6 e ++ beBytes 4 (crc32c m))

end Sys2Proof.Machine
end

