-- ==== Sys2Proof/Machine/Hops.lean ====
section
/-! DEFINITION. Hops, reach and serving ends of the strings (R244 to R247), relays through the partner (R451), and the Deputy's
recoveries (R452, R453). -/

namespace Sys2Proof.Machine

/-! ### Recoveries (R453). Resource s, 0 to 31, is string s; 32 + q is plane q (notes/assumptions/31.md). Reroutes are held in the
state's lists; what else runs or waits is read from the state itself. -/

/-- The resource of plane q. -/
def planeResource (q : Nat) : Nat := 32 + q

/-- Whether a node of a string is being identified; the nodes of one string are identified in parallel (R243). -/
def State.identifying (s : State) (str : Nat) : Bool :=
  (List.range (s.nodeCount str)).any fun n => s.get (Reg.NODEa_STATE_state (8 * str + n)) == 1

/-- The recovery that runs on a resource (Table 17-8): on a string a reroute or the identification of nodes, on a plane a takeover, a
re-cut or the replacement of a bank. -/
def State.runningOn (s : State) (r : Nat) : Option Recovery :=
  match s.tally.running.find? (fun c => c.resource == r) with
  | some c => some c
  | none =>
    let q := r - 32
    if r < 32 then if s.identifying r then some ⟨0x0512, r, 8 * r⟩ else none
    else if s.raster.takeover.any (·.1 == q) then some ⟨0x0408, r, q⟩
    else if s.raster.recuts.any (fun c => c.plane == q && c.slice.isSome) then some ⟨0x0513, r, q⟩
    else if s.seam.copying.any (fun c => c.1 == q && c.2.2.1.isSome) then some ⟨0x0416, r, q⟩
    else none

/-- Whether a recovery runs on a resource. -/
def State.resourceBusy (s : State) (r : Nat) : Bool := (s.runningOn r).isSome

/-- The oldest recovery that waits for a resource: a reroute, or a re-cut of a plane on which another recovery runs. -/
def State.waitingOn (s : State) (r : Nat) : Option Recovery :=
  match s.tally.waiting.find? (fun c => c.resource == r) with
  | some c => some c
  | none =>
    if 32 ≤ r && s.resourceBusy r && s.raster.recuts.any (fun c => c.plane == r - 32 && c.slice.isNone) then some ⟨0x0513, r, r - 32⟩
    else none

/-- A recovery begins, or waits while its resource is busy. -/
def State.beginRecovery (s : State) (c : Recovery) : State :=
  if s.resourceBusy c.resource then s.modTally fun t => { t with waiting := t.waiting ++ [c] }
  else s.modTally fun t => { t with running := t.running ++ [c] }

/-- The running recovery of a resource ends, and the oldest that waits for it begins. -/
def State.finishRecovery (s : State) (r : Nat) : State :=
  let left := s.tally.running.filter fun c => c.resource != r
  match s.tally.waiting.find? (fun c => c.resource == r) with
  | some c => s.modTally fun t => { t with running := left ++ [c], waiting := t.waiting.erase c }
  | none => s.modTally fun t => { t with running := left }

/-- With the Deputy halted, a fault whose recovery is the Deputy's becomes a fire inhibit until the next warm reset (R452). -/
def State.deputyFault (s : State) : State :=
  if s.tally.haltInhibit then s
  else
    let was := s.inhibiting
    let s1 := s.retireBound.modTally fun t => { t with haltInhibit := true }
    if was then s1
    else ((s1.modSched fun c => { c with inhibitFrom := some (s1.now, s1.inhibitReason) }).raise Reg.LINK_INHIBIT_sending).inhibitAll true

/-! ### Reach (R244) -/

/-- Whether hop j of a string is UP. -/
def State.hopUp (s : State) (str j : Nat) : Bool := bit (s.get (Reg.LINKs_STATUS_hop_up str)) j

/-- Whether all hops between node n and an end are UP. -/
def State.pathUp (s : State) (str n e : Nat) : Bool :=
  if e = 0 then (List.range (n + 1)).all fun j => s.hopUp str j
  else (List.range (s.nodeCount str - n)).all fun j => s.hopUp str (n + 1 + j)

/-- The end a node is best served from: A before B, and in a pair the device's own before the partner's, which needs a relay (R244,
R451). -/
def State.bestEnd (s : State) (str n : Nat) : Option Nat :=
  if s.inPair then
    let own := s.get Reg.PAIR_CFG_end
    if s.pathUp str n own then some own
    else if s.pathUp str n (1 - own) && s.tally.relays.any (fun r => r.1 == str) then some (1 - own)
    else none
  else if s.pathUp str n 0 then some 0
  else if s.pathUp str n 1 then some 1
  else none

/-- Set or clear bit i of a number. -/
def putBit (x i : Nat) (b : Bool) : Nat := if bit x i = b then x else if b then x + 2 ^ i else x - 2 ^ i

/-- Node n of a string is served from an end from now on. -/
def State.serveFrom (s : State) (str n e : Nat) : State :=
  let f := Reg.LINKs_STATUS_served_b str
  (s.set (Reg.NODEa_STATE_end (8 * str + n)) e).set f (putBit (s.get f) n (e == 1))

/-- Lines of the head that the Seam still holds go to it from the new end; the re-cut follows its first STATUS (R246). -/
def State.moveNode (s : State) (str n e : Nat) : State :=
  ((s.serveFrom str n e).onNode (8 * str + n) fun x => { x with rerouting := true }).onStr str fun x => { x with
    moved := putBit x.moved n true, movedTo := e, returning := putBit x.returning n false }

/-- Node n of a string takes no part, or no longer, in the reroute under way (R246). -/
def State.dropMoved (s : State) (str n : Nat) : State :=
  (s.onNode (8 * str + n) fun x => { x with rerouting := false }).onStr str fun x => { x with moved := putBit x.moved n false }

/-- Settle the reach of every node of a string after a change of its hops (R244): one that no path reaches is unreachable, and one that
becomes reachable waits for its identification (R243). A moved node cut off from its new end leaves the reroute. -/
def State.settleReach (s : State) (str : Nat) : State :=
  (List.range (s.nodeCount str)).foldl (fun (s : State) n =>
    let a := 8 * str + n
    let f := Reg.LINKs_STATUS_reachable str
    let st := s.get (Reg.NODEa_STATE_state a)
    let best := s.bestEnd str n
    let was := bit (s.get f) n
    let s1 := s.set f (putBit (s.get f) n best.isSome)
    let s2 := if (s1.node a).rerouting && !s1.pathUp str n (s1.nodeEnd a) then s1.dropMoved str n else s1
    match best with
    | none => if st = 4 then s2 else (s2.onNode a fun x => { x with step := 0 }).set (Reg.NODEa_STATE_state a) 4
    | some e =>
      let s3 := if was then s2 else s2.onNode a fun x => { x with reachAt := s.beat }
      if st = 4 then (s3.set (Reg.NODEa_STATE_state a) 0).serveFrom str n e else s3) s

/-- Settle the serving end of every reachable node (R244, R246, R247): one that is served and whose end still reaches it keeps that end until
the next parting, which without a stream is the origin of the next. -/
def State.settleEnds (s : State) (str : Nat) : State :=
  (List.range (s.nodeCount str)).foldl (fun (s : State) n =>
    let a := 8 * str + n
    match s.bestEnd str n with
    | none => s
    | some e =>
      if s.nodeEnd a = e then s.onStr str fun x => { x with returning := putBit x.returning n false }
      else if s.get (Reg.NODEa_STATE_state a) ≠ 2 then s.serveFrom str n e
      else if s.pathUp str n (s.nodeEnd a) then
        s.onStr str fun x => { x with returning := putBit x.returning n true, returnAt := s.nextParting }
      else s.moveNode str n e) s

/-- Both, after a change of a string's hops. -/
def State.settleHops (s : State) (str : Nat) : State := (s.settleReach str).settleEnds str

/-- At the parting, a string's moved nodes are served from their original ends again (R247). -/
def State.returnNodes (s : State) (str : Nat) : State :=
  (List.range (s.nodeCount str)).foldl (fun (s : State) n =>
    if bit (s.str str).returning n then
      match s.bestEnd str n with
      | some e => s.serveFrom str n e
      | none => s
    else s) s
    |>.onStr str fun x => { x with returning := 0, returnAt := none }

/-! ### Relays (R451) -/

/-- Bits per second that a head's lines load a pair-link lane with: 2 bits (1 in one-bit mode) per column at 125,000 lines/s, plus 8 %
framing (R436 text). -/
def State.headLoad (s : State) (a : Nat) : Nat :=
  s.columnsOf s.placementNow a * (if s.oneBit then 1 else 2) * 125000 * 108 / 100

/-- The nodes of a string that only the partner's end reaches. -/
def State.partnerNodes (s : State) (str : Nat) : List Nat :=
  let own := s.get Reg.PAIR_CFG_end
  (List.range (s.nodeCount str)).filter fun n => !s.pathUp str n own && s.pathUp str n (1 - own)

/-- What a string loads its lane with: the traffic of its moved nodes. -/
def State.stringLoad (s : State) (str : Nat) : Nat := ((s.partnerNodes str).map fun n => s.headLoad (8 * str + n)).sum

/-- The relay load of a pair-link lane. -/
def State.laneLoad (s : State) (lane : Nat) : Nat :=
  ((s.tally.relays.filter (fun r => r.2 == lane)).map fun r => s.stringLoad r.1).sum

/-- Line rate of a rate code in 10^4 bits per second (Table 08-1). -/
def lineRate (r : Nat) : Nat := if r = 0 then 1031250 else if r = 1 then 2578125 else if r = 2 then 2812500 else 0

/-- A lane's payload less 5 %, bits per second (R451): 64 of 66 bits. -/
def State.relayRoom (s : State) (lane : Nat) : Nat :=
  lineRate (s.get (Reg.LANEn_CFG_rate lane)) * 10000 * 64 * 95 / 6600

/-- RELAY_STRINGS shows the strings relayed (Table 17-11). -/
def State.showRelays (s : State) : State :=
  s.setReg 0xC00018 (BitVec.ofNat 32 ((s.tally.relays.map fun r => 2 ^ r.1).sum))

/-- Assign a string to the UP pair-link lane of least load on which it fits; RELAY_START, or RELAY_OVERLOAD (R451). -/
def State.assignRelay (s : State) (str : Nat) : State :=
  let fits := (List.range 4).filter fun i =>
    s.laneUp (64 + i) && decide (s.laneLoad (64 + i) + s.stringLoad str ≤ s.relayRoom (64 + i))
  let best := fits.foldl (fun (b : Option Nat) i => match b with
    | none => some i
    | some j => if s.laneLoad (64 + i) < s.laneLoad (64 + j) then some i else b) none
  match best with
  | some i =>
    ((s.modTally fun t => { t with relays := t.relays ++ [(str, 64 + i)] }).showRelays).post 0x0A09
      [.b str, .n (1 - s.get Reg.PAIR_CFG_end)]
  | none => (s.raise Reg.TALLY_STATUS_relay_overload).post 0x0A0A [.n (2 ^ str)]

/-- Begin or end the relay of a string as its hops ask for it (R451). -/
def State.settleRelay (s : State) (str : Nat) : State :=
  let has := s.tally.relays.any fun r => r.1 == str
  let needs := s.inPair && s.held_ && !(s.partnerNodes str).isEmpty
  if needs && !has then s.assignRelay str
  else if !needs && has then
    (s.modTally fun t => { t with relays := t.relays.filter fun r => r.1 != str }).showRelays
  else s

/-- A pair-link lane has gone DOWN: its strings are assigned again in increasing order (R451). -/
def State.reassign (s : State) (lane : Nat) : State :=
  let mine := (List.range 32).filter fun str => s.tally.relays.any fun r => r.1 == str && r.2 == lane
  let s1 := (s.modTally fun t => { t with relays := t.relays.filter fun r => r.2 != lane }).showRelays
  mine.foldl (fun (s : State) str => (s.settleRelay str).settleHops str) s1

/-! ### Breaks and returns -/

/-- The reroute of a string begins, when no other recovery of the string runs (R246, R453). It settles every break seen by now. -/
def State.reroute (s : State) (str : Nat) : State :=
  let s0 := s.modTally fun t => { t with waiting := t.waiting.filter fun c => c.resource != str }
  let s1 := ((s0.onStr str fun x => { x with stale := false }).settleRelay str).settleHops str
  if (s1.str str).moved = 0 then s1.finishRecovery str else s1

/-- The reroute ends when no moved node has still to be heard through its new end (R246): RING_REROUTE with the nodes moved, and what the
string's later breaks ask for. -/
def State.endReroute (s : State) (str : Nat) : State :=
  let m := s.str str
  let left := (List.range 8).any fun i => bit m.moved i && (s.node (8 * str + i)).rerouting
  if left then s
  else
    let s1 := if m.moved = 0 then s
      else ((s.post 0x0514 [.b str, .n m.moved, .n m.movedTo]).raise (Reg.LINKs_STATUS_rerouted str)).onStr str fun x => { x with moved := 0 }
    let s2 := s1.finishRecovery str
    if m.stale then s2.reroute str else s2

/-- A reroute that waits for the identification of nodes of its string begins when none is left (R453). -/
def State.wakeReroute (s : State) (str : Nat) : State :=
  if (s.str str).stale && !s.resourceBusy str then (s.finishRecovery str).reroute str else s

/-- Hop j of a string goes DOWN (R246): RING_BREAK, and the reroute; one that comes while a recovery of the string runs changes the reach at
once and waits for it with the rest (R244, R453). -/
def State.breakHop (s : State) (str j : Nat) : State :=
  if !s.hopUp str j then s
  else
    let f := Reg.LINKs_STATUS_hop_up str
    let s1 := (((s.set f (putBit (s.get f) j false)).onStr str fun x => { x with broken := putBit x.broken j true }).raise
      (Reg.LINKs_STATUS_break_seen str)).post 0x0513 [.b str, .b j]
    if s.deputyHalted then (s1.settleReach str).deputyFault
    else
      let busy := s.resourceBusy str
      let s2 := s1.beginRecovery ⟨0x0513, str, 8 * str⟩
      let s3 := (s2.onStr str fun x => { x with stale := true }).settleReach str
      if s.tally.running.any (·.resource == str) then s3.endReroute str
      else if busy then s3.wakeReroute str
      else s2.reroute str

/-- Hop j of a string is UP again (R247): RING_RESTORED where it had broken. -/
def State.restoreHop (s : State) (str j : Nat) : State :=
  if s.hopUp str j then s
  else
    let f := Reg.LINKs_STATUS_hop_up str
    let s1 := s.set f (putBit (s.get f) j true)
    let s2 := if bit (s.str str).broken j then
        (s1.onStr str fun x => { x with broken := putBit x.broken j false }).post 0x0515 [.b str, .b j]
      else s1
    (s2.settleRelay str).settleHops str

/-- RING_BREAK (R246). -/
def execRingBreak (dt : Nat) (str : Fin 32) (hop : Fin 9) (s : State) : Result :=
  (s.advance dt).whenOn 7 fun s =>
  if hop.val ≤ s.nodeCount str then .next (s.breakHop str hop) else .next s

/-- RING_RESTORED (R247). -/
def execRingRestored (dt : Nat) (str : Fin 32) (hop : Fin 9) (s : State) : Result :=
  (s.advance dt).whenOn 7 fun s =>
  if hop.val ≤ s.nodeCount str && s.nodeCount str ≠ 0 then .next (s.restoreHop str hop) else .next s

end Sys2Proof.Machine
end

