-- ==== Sys2Proof/Machine/Lanes.lean ====
section
/-! DEFINITION. The physical layer of the lanes (chapter 08): states, training, sleep, eye scan. -/

namespace Sys2Proof.Machine

/-- OFF. -/
def lnOff : Nat := 0
/-- IDLE. -/
def lnIdle : Nat := 1
/-- TRAINING. -/
def lnTraining : Nat := 2
/-- UP. -/
def lnUp : Nat := 3
/-- DOWN. -/
def lnDown : Nat := 4
/-- FAILED. -/
def lnFailed : Nat := 5

/-- Show a lane's state, and its bit of LANE_UP (R203, R212). -/
def State.setLaneState (s : State) (n st : Nat) : State :=
  (s.set (Reg.LANEn_STATUS_state n) st).set ⟨Reg.LANE_UP_0_up.off + 4 * (n / 32), n % 32, 1⟩ (b2n (st == lnUp))

/-- Whether lane n may leave OFF (R203): enabled, a defined rate, not in BOOT or DEEP. A head lane of an end that the device does not use is
held in electrical idle (R15). -/
def State.laneOn (s : State) (n : Nat) : Bool :=
  (decide (64 ≤ n) || s.usesEnd (n % 2)) && s.on (Reg.LANEn_CFG_enable n) && s.get (Reg.LANEn_CFG_rate n) ≠ 3 && s.powered 7 && s.dev ≠ stBoot && s.dev ≠ stDeep

/-- The hop that a head lane is: hop 0 at end A, hop N at end B (chapter 09). -/
def State.laneHop (s : State) (n : Nat) : Nat := if n % 2 = 0 then 0 else s.nodeCount (n / 2)

/-! ### Training blocks (R197, R198) -/

/-- The payload of the next training block of lane n. -/
def Lane.block (l : Lane) (ready : Bool) : Nat :=
  let (rp, rm, ro, rc) := l.req
  let (sp, sm, so) := l.status
  withCrc8 (0xA + 16 * l.seq + 2 ^ 8 * rp + 2 ^ 10 * rm + 2 ^ 12 * ro + 2 ^ 14 * rc + 2 ^ 16 * sp + 2 ^ 18 * sm + 2 ^ 20 * so
    + 2 ^ 22 * b2n ready)

/-- Send one training block. -/
def State.sendTraining (s : State) (n : Nat) (ready : Bool) : State :=
  let l := s.lane n
  (s.setLane n { l with seq := (l.seq + 1) % 16, sentReady := if ready then min 8 (l.sentReady + 1) else 0 }).laneSend n
    [orderedBlock (l.block ready)] (.trainingBlock n (leBytes 7 (l.block ready)))

/-- A loss of UP or a receive sleep ends an eye scan early; the bits compared so far are whatever they are (R207). -/
def State.endEye (s : State) (n : Nat) : State :=
  if s.on (Reg.LANEn_STATUS_eye_busy n) then
    let (b, s1) := s.drawNat
    let (e, s2) := s1.drawNat
    let bits := b % (2 ^ (min 30 (s.lane n).eye.2.2 + 10) + 1)
    (((s2.clear (Reg.LANEn_STATUS_eye_busy n)).raise (Reg.LANEn_STATUS_eye_done n)).set2 (Reg.LANEn_EYE_BITS_LO n)
      (Reg.LANEn_EYE_BITS_HI n) bits).set (Reg.LANEn_EYE_ERR n) (min (2 ^ 32 - 1) (e % (bits + 1)))
  else s

/-- The equalisers adapt while the lane trains or is UP and its receiver listens, unless adapt_freeze holds them (R195); what they come to is
free. -/
def State.adapt (s : State) (n : Nat) : State :=
  if (s.laneState n = lnTraining || s.laneState n = lnUp) && !s.on (Reg.LANEn_CFG_adapt_freeze n) && !s.on (Reg.LANEn_STATUS_rx_asleep n) then
    let (c, s1) := s.drawNat
    let (d, s2) := s1.drawNat
    let (e, s3) := s2.drawNat
    ((s3.set (Reg.LANEn_CTLE_ctle n) c).set (Reg.LANEn_DFE_LO n) d).set (Reg.LANEn_DFE_HI n) e
  else s

/-- The receiver loses the block lock, or looks for it anew: STATUS, the header counts and the packet in progress (R194, R211). -/
def State.dropLock (s : State) (n : Nat) : State :=
  (s.clear (Reg.LANEn_STATUS_block_lock n)).onLane n fun l => { l with headers := 0, invalid := 0, packet := none }

/-- A lane that goes DOWN or is trained leaves every sleep (R206). -/
def State.endSleeps (s : State) (n : Nat) : State :=
  (((s.clear (Reg.LANEn_STATUS_tx_asleep n)).clear (Reg.LANEn_STATUS_rx_asleep n)).clear
    (Reg.LANEn_STATUS_far_tx_asleep n)).onLane n fun l => { l with
      heldTx := false, heldRx := false, notices := 0, relockFrom := none }

/-- A training attempt begins (R199, Table 08-4): the receiver opens with the initialise command. The attempt is at step 1 at once where the
far signal is there already. -/
def State.startAttempt (s : State) (n : Nat) : State :=
  let s1 := ((s.endEye n).endSleeps n).setLaneState n lnTraining
  let s2 := (s1.dropLock n).onLane n fun l => { l with
    trainAt := s.beat, step := b2n (s.on (Reg.LANEn_STATUS_signal n)), req := (0, 0, 0, 2), status := (0, 0, 0), initAnswered := false, sentReady := 0, gotReady := 0 }
  (s2.adapt n).sendTraining n false

/-- A training begins (R199). -/
def State.startTraining (s : State) (n : Nat) : State :=
  (((s.set (Reg.LANEn_STATUS_attempts n) 0).bump (Reg.LANEn_ERRCNT_trainings n) 1).onLane n fun l => { l with trainFrom := s.beat }).startAttempt n

/-- What the link layer does when a lane leaves UP (R201, R246, R451). -/
def State.laneLost (s : State) (n : Nat) : State :=
  if n < 64 then (if s.nodeCount (n / 2) = 0 then s else s.breakHop (n / 2) (s.laneHop n)) else s.reassign n

/-- The three own taps. -/
def State.taps (s : State) (n : Nat) : Nat × Nat × Nat :=
  (s.get (Reg.LANEn_TXFIR_pre n), s.get (Reg.LANEn_TXFIR_main n), s.get (Reg.LANEn_TXFIR_post n))

/-- Set them. -/
def State.setTaps (s : State) (n pre main post : Nat) : State :=
  ((s.set (Reg.LANEn_TXFIR_pre n) pre).set (Reg.LANEn_TXFIR_main n) main).set (Reg.LANEn_TXFIR_post n) post

/-- Whether a setting of the taps is valid: Table 08-2 and R196. -/
def tapsOk (pre main post : Int) : Bool :=
  0 ≤ pre && pre ≤ 15 && 16 ≤ main && main ≤ 63 && 0 ≤ post && post ≤ 31 && pre + main + post ≤ 63 && 16 ≤ main - pre - post

/-- A step asked of one tap: 1 up, 2 down; the status it gives (R198). -/
def State.tapStep (s : State) (n tap req : Nat) : Nat × State :=
  let (p, m, o) := s.taps n
  let d : Int := if req = 1 then 1 else -1
  let p' : Int := if tap = 0 then p + d else p
  let m' : Int := if tap = 1 then m + d else m
  let o' : Int := if tap = 2 then o + d else o
  if tapsOk p' m' o' then (1, s.setTaps n p'.toNat m'.toNat o'.toNat)
  else (if req = 1 then 3 else 2, s)

/-- One tap's request of the far receiver: hold returns the status to 0; a step is answered once (R198). -/
def State.tapRequest (s : State) (n tap req st : Nat) : Nat × State :=
  if req = 1 || req = 2 then (if st = 0 then s.tapStep n tap req else (st, s)) else (0, s)

/-- The far receiver's requests of a training block act on the own transmitter (R198). -/
def State.serveRequests (s : State) (n p : Nat) : State :=
  let cmd := bits p 15 14
  if cmd = 1 then (s.setTaps n 0 63 0).onLane n fun l => { l with status := (1, 1, 1) }
  else if cmd = 2 then (s.setTaps n 4 47 12).onLane n fun l => { l with status := (1, 1, 1) }
  else
    let (a, b, c) := (s.lane n).status
    let (a', s1) := s.tapRequest n 0 (bits p 9 8) a
    let (b', s2) := s1.tapRequest n 1 (bits p 11 10) b
    let (c', s3) := s2.tapRequest n 2 (bits p 13 12) c
    s3.onLane n fun l => { l with status := (a', b', c') }

/-- The own receiver's next request of one tap (R198, R199): back to hold once it is answered; otherwise repeated; a new one is its own
choice while it has not converged. -/
def nextReq (req st choice : Nat) (may : Bool) : Nat :=
  if req ≠ 0 then (if st ≠ 0 then 0 else req) else if may && st = 0 then choice % 3 else 0

/-- The own receiver's requests after a training block (R198, R199). -/
def State.nextRequests (s : State) (n p : Nat) (converged : Bool) : State :=
  let l := s.lane n
  let (rp, rm, ro, rc) := l.req
  let sp := bits p 17 16
  let sm := bits p 19 18
  let so := bits p 21 20
  if rc ≠ 0 then
    if sp ≠ 0 && sm ≠ 0 && so ≠ 0 then s.setLane n { l with req := (0, 0, 0, 0), initAnswered := true, step := max l.step 4 }
    else s
  else
    let (a, s1) := s.drawNat
    let (b, s2) := s1.drawNat
    let (c, s3) := s2.drawNat
    let may := l.initAnswered && !converged
    s3.setLane n { l with req := (nextReq rp sp a may, nextReq rm sm b may, nextReq ro so c may, 0) }

/-! ### Sleep (R204, R205) -/

/-- Whether the directions of a lane are in use (R204). -/
def State.laneInUse (s : State) (n : Nat) : Bool :=
  if 64 ≤ n then s.inPair
  else
    let all := ((s.tableNow tPlacement 0 0).getD []) ::
      (s.sched.staged.filter (fun g => g.kind == tPlacement)).map (·.data)
    all.any fun d => !(plString d (n / 2)).isEmpty

/-- The payloads of k sleep notices from a sequence number on: kind 0xB (R197). -/
def noticePayloads (seq : Nat) : Nat → List Nat
  | 0 => []
  | k + 1 => withCrc8 (0xB + 16 * seq) :: noticePayloads ((seq + 1) % 16) k

/-- 16 sleep notices (R205). -/
def State.sendNotices (s : State) (n : Nat) : State :=
  let q := (s.lane n).seq
  (s.onLane n fun l => { l with seq := (q + 16) % 16 }).laneSend n ((noticePayloads q 16).map orderedBlock) (.sleepNotices n 16)

/-- Direction numbers in events: 0 transmit, 1 receive (notes/assumptions/32.md). The transmitter sleeps: 16 notices, then electrical
idle. -/
def State.sleepTx (s : State) (n : Nat) : State :=
  ((s.sendNotices n).raise (Reg.LANEn_STATUS_tx_asleep n)).post 0x0506 [.b n, .b 0, .n 1]

/-- The receiver sleeps, by command (1) or by notice (2): only its signal detector runs on. -/
def State.sleepRx (s : State) (n why : Nat) : State :=
  ((((s.endEye n).adapt n).dropLock n).raise (Reg.LANEn_STATUS_rx_asleep n)).post 0x0506 [.b n, .b 1, .n why]

/-- A sleep is refused (R204). -/
def State.refuseSleep (s : State) (n dir : Nat) : State :=
  (s.raise (Reg.LANEn_STATUS_sleep_refused n)).post 0x0505 [.b n, .b dir]

/-- A write of sleep_tx (R204). -/
def State.askSleepTx (s : State) (n : Nat) : State :=
  let st := s.laneState n
  if st = lnTraining then s.onLane n fun l => { l with heldTx := true }
  else if st ≠ lnUp || s.on (Reg.LANEn_STATUS_tx_asleep n) then s
  else if s.laneInUse n then s.refuseSleep n 0
  else s.sleepTx n

/-- A write of sleep_rx (R204). -/
def State.askSleepRx (s : State) (n : Nat) : State :=
  let st := s.laneState n
  if st = lnTraining then s.onLane n fun l => { l with heldRx := true }
  else if st ≠ lnUp || s.on (Reg.LANEn_STATUS_rx_asleep n) then s
  else if s.laneInUse n then s.refuseSleep n 1
  else s.sleepRx n 1

/-- A write of wake_tx (R206): the wake time is at most 1 µs, else open. -/
def State.askWakeTx (s : State) (n : Nat) : State :=
  let s1 := s.onLane n fun l => { l with heldTx := false }
  if s.on (Reg.LANEn_STATUS_tx_asleep n) then
    let (t, s2) := s1.drawNat
    (s2.clear (Reg.LANEn_STATUS_tx_asleep n)).post 0x0507 [.b n, .b 0, .n (t % 1001)]
  else s1

/-- The receiver wakes and relocks from now on (R205, R206). -/
def State.relock (s : State) (n : Nat) : State :=
  ((s.clear (Reg.LANEn_STATUS_rx_asleep n)).dropLock n).onLane n fun l => { l with relockFrom := some s.beat }

/-- A write of wake_rx (R206). A receiver whose far transmitter sleeps is awake from then on, but has nothing to lock to before it detects
signal, and far_tx_asleep stays until then (R205). -/
def State.askWakeRx (s : State) (n : Nat) : State :=
  let s1 := s.onLane n fun l => { l with heldRx := false }
  if s.on (Reg.LANEn_STATUS_rx_asleep n) then
    if s.on (Reg.LANEn_STATUS_far_tx_asleep n) then s1.clear (Reg.LANEn_STATUS_rx_asleep n) else s1.relock n
  else s1

/-! ### UP and DOWN -/

/-- A lane of a string has trained: identification is tried again at its nodes that are not served (R243). -/
def State.retryNodes (s : State) (str : Nat) : State :=
  (List.range (s.nodeCount str)).foldl (fun (s : State) n =>
    if s.get (Reg.NODEa_STATE_state (8 * str + n)) = 3 then s.onNode (8 * str + n) fun x => { x with retry := true } else s) s

/-- A lane reaches UP (R199): LANE_UP with the time since the training began, held sleeps, and its hop. -/
def State.laneGoesUp (s : State) (n : Nat) : State :=
  let us := quotN (s.beat - (s.lane n).trainFrom) 1000
  let s5 := ((((s.adapt n).setLaneState n lnUp).raise (Reg.LANEn_STATUS_block_lock n)).raise (Reg.LANEn_STATUS_signal n)).set
    (Reg.LANEn_TRAIN_TIME n) (min us (2 ^ 32 - 1))
  let s6 := (s5.set (Reg.LANEn_STATUS_attempts n) 0).post 0x0501 [.b n, .n (s.get (Reg.LANEn_CFG_rate n)), .n us]
  let s7 := if n < 64 && s6.nodeCount (n / 2) ≠ 0 then (s6.retryNodes (n / 2)).restoreHop (n / 2) (s6.laneHop n) else s6
  let l := s7.lane n
  let s8 := if l.heldTx then (s7.onLane n fun l => { l with heldTx := false }).askSleepTx n else s7
  let s9 := if l.heldRx then (s8.onLane n fun l => { l with heldRx := false }).askSleepRx n else s8
  s9.refresh

/-- A lane goes DOWN (R201) for a cause of Table 08-8. -/
def State.laneGoesDown (s : State) (n cause : Nat) : State :=
  let s1 := (((s.adapt n).endEye n).endSleeps n).raise (Reg.LANEn_STATUS_went_down n)
  let s2 := if cause = 1 then (s1.bump (Reg.LANEn_ERRCNT_lock_losses n) 1).dropLock n
    else if cause = 2 then (s1.clear (Reg.LANEn_STATUS_signal n)).dropLock n else s1
  let s3 := (s2.setLaneState n lnDown).post 0x0502 [.b n, .b cause]
  let s4 := if s.laneState n = lnUp then s3.laneLost n else s3
  (if s.on (Reg.LANEn_CFG_auto_retrain n) then s4.startTraining n else s4).refresh

/-- LANEn_CFG written: a lane not enabled is OFF, one newly enabled is IDLE (R200, R203). -/
def State.settleLane (s : State) (n : Nat) : State :=
  let st := s.laneState n
  if s.laneOn n then (if st = lnOff then s.setLaneState n lnIdle else s)
  else
    let s1 := ((s.endEye n).endSleeps n).setLaneState n lnOff
    let s2 := (s1.dropLock n).clear (Reg.LANEn_STATUS_signal n)
    if st = lnUp then (s2.laneLost n).refresh else s2

/-- LANE_ENABLE (R203, R489): the LANE domain is up and LANE_REFCLK stable; no lane trains before SETUP_LOCK. -/
def execLaneEnable (dt : Nat) (n : Fin 68) (s : State) : Result :=
  let s := (s.advance dt).settleLane n
  if s.locked && s.laneState n = lnIdle then .next (s.startTraining n) else .next s

/-- A training block with a correct CRC reaches a lane that trains (R198, R199). `converged`: the receiver's own equalisers have converged. -/
def State.trainingIn (s : State) (n p : Nat) (converged : Bool) : State :=
  let s1 := s.onLane n fun l => { l with gotReady := if bit p 22 then min 8 (l.gotReady + 1) else 0 }
  let s2 := (s1.serveRequests n p).nextRequests n p converged
  let l := s2.lane n
  let ready := converged && l.initAnswered && l.req == (0, 0, 0, 0)
  let s3 := s2.sendTraining n ready
  let l3 := s3.lane n
  if l3.gotReady = 8 && l3.sentReady = 8 then
    ((List.range 16).foldl (fun (s : State) _ => s.sendTraining n true) s3).laneGoesUp n
  else s3

/-- A sleep notice with a correct CRC (R205). -/
def State.noticeIn (s : State) (n : Nat) : State :=
  if (s.lane n).notices = 0 then s.onLane n fun l => { l with notices := 1 }
  else (((s.onLane n fun l => { l with notices := 0 }).sleepRx n 2).raise (Reg.LANEn_STATUS_far_tx_asleep n)).clear
    (Reg.LANEn_STATUS_signal n)

/-- Block lock is reached (R194, R205, Table 08-4): the bit-error monitor's first window begins; a waking receiver has woken. -/
def State.lockIn (s : State) (n : Nat) : State :=
  let s1 := ((s.raise (Reg.LANEn_STATUS_signal n)).raise (Reg.LANEn_STATUS_block_lock n)).onLane n fun l => { l with
    step := max 3 l.step, berFrom := s.beat, berCount := 0, relockFrom := none }
  match (s.lane n).relockFrom with
  | some t => if s.laneState n = lnUp then s1.post 0x0507 [.b n, .b 1, .n (s.beat - t)] else s1
  | none => s1

/-- Block lock is lost (R201). In DOWN or FAILED the lane stays what it is. -/
def State.lockOut (s : State) (n : Nat) : State :=
  if s.laneState n = lnUp || s.laneState n = lnTraining then s.laneGoesDown n 1
  else (s.bump (Reg.LANEn_ERRCNT_lock_losses n) 1).dropLock n

/-- The bit-error monitor of Clause 49 reaches a high ratio (R202). -/
def State.berHigh (s : State) (n : Nat) : State :=
  let s1 := s.raise (Reg.LANEn_STATUS_hi_ber n)
  let free := match (s.lane n).berAt with | some t => decide (t + 100000000 ≤ s.beat) | none => true
  if free then (s1.onLane n fun l => { l with berAt := some s.beat }).post 0x0504 [.b n] else s1

/-- An invalid sync header under block lock: counted, and the sixteenth of a window of 125 µs is a high bit-error ratio (R194, R202, R211). -/
def State.badHeader (s : State) (n : Nat) : State :=
  let l := s.lane n
  let same := decide (s.beat < l.berFrom + 125000)
  let c := if same then l.berCount + 1 else 1
  let s1 := (s.bump (Reg.LANEn_ERRCNT_invalid_headers n) 1).onLane n fun l => { l with
    berCount := c, berFrom := if same then l.berFrom else s.beat - (s.beat - l.berFrom) % 125000 }
  if c = 16 then s1.berHigh n else s1

/-- TRAIN_TIMEOUT (R200). -/
def execTrainTimeout (dt : Nat) (n : Fin 68) (s : State) : Result :=
  let s := s.advance dt
  let limit := 1000000 * max 1 (s.get (Reg.LANEn_CFG_train_timeout_ms n))
  if s.laneState n = lnTraining && decide ((s.lane n).trainAt + limit ≤ s.beat) then
    let k := s.get (Reg.LANEn_STATUS_attempts n) + 1
    let s1 := s.set (Reg.LANEn_STATUS_attempts n) k
    if max 1 (s.get (Reg.LANEn_CFG_max_attempts n)) ≤ k then
      .next (((s1.setLaneState n lnFailed).raise (Reg.LANEn_STATUS_train_fail n)).post 0x0503 [.b n, .n k, .n (s.lane n).step])
    else .next (s1.startAttempt n)
  else .next s

/-- A write of retrain (R200, R201, R206). -/
def State.askRetrain (s : State) (n : Nat) : State :=
  let st := s.laneState n
  if st = lnOff || st = lnIdle then s
  else
    let s1 := s.startTraining n
    if st = lnUp then (s1.laneLost n).refresh else s1

/-- A write to LANEn_CTRL. -/
def State.laneCtrl (s : State) (n : Nat) (f : State → State) : State := s.hostWrite (Reg.LANEn_CTRL_retrain n).off f

/-- LANE_RETRAIN. -/
def execLaneRetrain (dt : Nat) (n : Fin 68) (s : State) : Result := .next ((s.advance dt).laneCtrl n fun s => s.askRetrain n)

/-- The receiver loses signal for more than 100 ns (R201). After a sleep notice the lane does not go DOWN. -/
def State.signalOut (s : State) (n : Nat) : State :=
  let s1 := s.clear (Reg.LANEn_STATUS_signal n)
  if s.on (Reg.LANEn_STATUS_far_tx_asleep n) then s1
  else if s.laneState n = lnUp || s.laneState n = lnTraining then s.laneGoesDown n 2
  else s1.dropLock n

/-- SLEEP_TX (R204). -/
def execSleepTx (dt : Nat) (n : Fin 68) (s : State) : Result := .next ((s.advance dt).laneCtrl n fun s => s.askSleepTx n)

/-- SLEEP_RX (R204). -/
def execSleepRx (dt : Nat) (n : Fin 68) (s : State) : Result := .next ((s.advance dt).laneCtrl n fun s => s.askSleepRx n)

/-- WAKE_TX (R206). -/
def execWakeTx (dt : Nat) (n : Fin 68) (s : State) : Result := .next ((s.advance dt).laneCtrl n fun s => s.askWakeTx n)

/-- WAKE_RX (R206). -/
def execWakeRx (dt : Nat) (n : Fin 68) (s : State) : Result := .next ((s.advance dt).laneCtrl n fun s => s.askWakeRx n)

/-- SIGNAL_DETECT_WAKE (R205, Table 08-4): a receiver detects signal. One whose far transmitter slept wakes and relocks; one asleep by
command sleeps on. -/
def execSignalDetectWake (dt : Nat) (n : Fin 68) (s : State) : Result :=
  let s := s.advance dt
  let st := s.laneState n
  if st = lnOff || st = lnIdle then .next s
  else
    let s1 := s.raise (Reg.LANEn_STATUS_signal n)
    if st = lnUp && s.on (Reg.LANEn_STATUS_far_tx_asleep n) then .next ((s1.clear (Reg.LANEn_STATUS_far_tx_asleep n)).relock n)
    else if st = lnTraining then .next (s1.onLane n fun l => { l with step := max 1 l.step })
    else .next s1

/-- RELOCK_TIMEOUT (R205): no block lock within 10 µs of signal. -/
def execRelockTimeout (dt : Nat) (n : Fin 68) (s : State) : Result :=
  let s := s.advance dt
  match (s.lane n).relockFrom with
  | some t => if s.laneState n = lnUp && decide (t + 10000 ≤ s.beat) then .next (s.laneGoesDown n 1) else .next s
  | none => .next s

/-! ### Eye scan (R207) -/

/-- A write of eye_start. -/
def State.eyeStart (s : State) (n : Nat) : State :=
  if s.laneState n = lnUp && !s.on (Reg.LANEn_STATUS_eye_busy n) && !s.on (Reg.LANEn_STATUS_rx_asleep n) then
    (s.raise (Reg.LANEn_STATUS_eye_busy n)).onLane n fun l => { l with
      eye := (s.get (Reg.LANEn_EYE_CTRL_phase n), s.get (Reg.LANEn_EYE_CTRL_voffset n), s.get (Reg.LANEn_EYE_CTRL_prescale n)) }
  else s

/-- A scan ends with its results. -/
def State.eyeResult (s : State) (n compared errors : Nat) : State :=
  if s.on (Reg.LANEn_STATUS_eye_busy n) then
    (((s.clear (Reg.LANEn_STATUS_eye_busy n)).raise (Reg.LANEn_STATUS_eye_done n)).set2 (Reg.LANEn_EYE_BITS_LO n)
      (Reg.LANEn_EYE_BITS_HI n) compared).set (Reg.LANEn_EYE_ERR n) (min (2 ^ 32 - 1) errors)
  else s

/-- The bits a scan compares. -/
def State.eyeBits (s : State) (n : Nat) : Nat := 2 ^ (min 30 (s.lane n).eye.2.2 + 10)

/-- EYE_START. -/
def execEyeStart (dt : Nat) (n : Fin 68) (s : State) : Result := .next ((s.advance dt).laneCtrl n fun s => s.eyeStart n)

/-- EYE_STOP: the bits compared so far and the disagreements among them come from the sampler. -/
def execEyeStop (dt : Nat) (n : Fin 68) (compared errors : Nat) (s : State) : Result :=
  .next ((s.advance dt).laneCtrl n fun s => s.eyeResult n (min compared (s.eyeBits n)) (min errors (min compared (s.eyeBits n))))

/-- EYE_SCAN_DONE. -/
def execEyeScanDone (dt : Nat) (n : Fin 68) (errors : Nat) (s : State) : Result :=
  let s := s.advance dt
  if s.laneState n = lnUp then .next (s.eyeResult n (s.eyeBits n) (min errors (s.eyeBits n))) else .next s

end Sys2Proof.Machine
end

