-- ==== Sys2Proof/Machine/Net.lean ====
section
/-! DEFINITION. Frames sent on the Ethernet ports (R88, R95, R520, R521). -/

namespace Sys2Proof.Machine

/-- The station MAC address of a port. -/
def State.mac (s : State) (p : Nat) : Nat := s.get2 (Reg.ETHp_MAC_LO p) (Reg.ETHp_MAC_HI p)

/-- Send a frame on a port that is enabled (R520). -/
def State.sendNet (s : State) (p : Nat) (dest : Nat) (carrier : FrameCarrier) (body : List (BitVec 8)) : State :=
  if s.on (Reg.ETHp_CFG_enable p) then
    (s.emit (.netMessage p ⟨BitVec.ofNat 48 dest, BitVec.ofNat 48 (s.mac p), carrier, body⟩)).bump (Reg.ETHp_TX_FRAMES p) 1
  else s

/-- A UDP carrier to an IPv4 address and port, from WC_IP_SRC. -/
def State.udp (s : State) (ip port : Nat) : FrameCarrier :=
  .udp (BitVec.ofNat 32 (s.get Reg.WC_IP_SRC)) (BitVec.ofNat 32 ip) (BitVec.ofNat 16 port)

/-- The destination address of web-coordinate messages, and of every UDP message (R102, R521). -/
def State.wcDest (s : State) : Nat := s.get2 Reg.WC_DEST_MAC_LO Reg.WC_DEST_MAC_HI

/-- The carrier of web-coordinate, speed-ceiling and lease messages (R95, R99, R437). -/
def State.wcOut (s : State) : FrameCarrier :=
  if s.get Reg.WC_NET_CFG_encap = 0 then .ethernet (BitVec.ofNat 16 (s.get Reg.WC_NET_CFG_ethertype))
  else s.udp (s.get Reg.WC_IP_DST) (s.get Reg.WC_UDP_port)

/-- Send such a message: in Ethernet encapsulation padded with 0 to the 46-byte minimum payload (R95, R99, R437). -/
def State.sendWc (s : State) (p : Nat) (m : List (BitVec 8)) : State :=
  s.sendNet p s.wcDest s.wcOut
    (if s.get Reg.WC_NET_CFG_encap = 0 then m ++ List.replicate (46 - m.length) 0#8 else m)

end Sys2Proof.Machine
end

