-- ==== Sys2Proof/Machine/Health.lean ====
section
/-! DEFINITION. Nozzle findings and health codes (R265, R266, R267). -/

namespace Sys2Proof.Machine

/-- The key of a nozzle: head address, row, head column. -/
def nozKey (a row col : Nat) : Nat := a * 16384 + row * 8192 + col

/-- What head care knows of a nozzle. -/
def State.noz (s : State) (a row col : Nat) : Nozzle := Tab.get (fun _ => {}) s.care.nozzles (nozKey a row col)

/-- Change it. -/
def State.onNoz (s : State) (a row col : Nat) (f : Nozzle → Nozzle) : State :=
  s.modCare fun c => { c with nozzles := Tab.set (fun _ => {}) c.nozzles (nozKey a row col) (f (s.noz a row col)) }

/-- The host mask bit of a nozzle in a mask table (R267). -/
def maskBit (d : List (BitVec 8)) (n row col : Nat) : Bool := bit (leAt d (2048 * n + 1024 * row + col / 8) 1) (col % 8)

/-- The code of findings and a host mask bit: the first line of Table 10-5 that holds. -/
def codeOf (z : Nozzle) (masked : Bool) : Nat :=
  if masked then 8
  else if z.res = 1 then 5
  else if z.res = 2 then 6
  else if z.print = 1 then 3
  else if z.gate = 1 then 4
  else if z.print = 2 then 2
  else if z.res = 3 then 7
  else if z.gate = 2 || z.print = 3 then 1
  else 0

/-- The host mask of a string in force at an image line. -/
def State.maskAt (s : State) (str line : Nat) : List (BitVec 8) := (s.tableAt tMask str 0 line).getD []

/-- The health code of a nozzle, with the host mask in force at a line (R265, R267). -/
def State.health (s : State) (a row col line : Nat) : Nat := codeOf (s.noz a row col) (maskBit (s.maskAt (a / 8) line) (a % 8) row col)

/-- The health code with the newest mask in force. -/
def State.healthNow (s : State) (a row col : Nat) : Nat :=
  codeOf (s.noz a row col) (maskBit ((s.tableNow tMask (a / 8) 0).getD []) (a % 8) row col)

/-- HEALTH_CHANGE after a change of findings (R266): source, head, row, the columns whose code may have changed with their codes
before. -/
def State.healthChanged (s : State) (source a row : Nat) (before : List (Nat × Nat)) : State :=
  let ch := before.filter (fun e => s.healthNow a row e.1 != e.2)
  match ch with
  | [] => s
  | (c, _) :: t =>
    (s.raise Reg.HC_STATUS_health_change).post 0x0606 [.b a, .b row, .n (t.foldl (fun m e => min m e.1) c), .n ch.length, .b source]

/-- HC_HEADa_STATE.baseline_valid: every heater of the head has a baseline (Table 10-13). -/
def State.showBaselines (s : State) (a : Nat) : State :=
  let n := classColumns (s.get (Reg.NODEa_STATE_class_code a))
  s.setOn (Reg.HC_HEADa_STATE_baseline_valid a)
    ((List.range n).all fun c => (s.noz a 0 c).base ≠ 0 && (s.noz a 1 c).base ≠ 0)

/-- What the scan of a head and row under way has set and changed: BASELINE_SET and HEALTH_CHANGE, source 1 (R257, R266). -/
def State.scanNotes (s : State) (c : ScanOp) (a row : Nat) : State :=
  let s1 := if c.curBased = 0 then s else (s.post 0x0602 [.b a, .n c.curBased]).showBaselines a
  if c.curChanged = 0 then s1
  else (s1.raise Reg.HC_STATUS_health_change).post 0x0606 [.b a, .b row, .n c.curFirst, .n c.curChanged, .b 1]

/-- HEALTH_CHANGE for the row under check (R266), source 2. -/
def State.gateRowDone (s : State) (g : GateOp) (a row : Nat) : State :=
  if g.changed = 0 then s
  else (s.raise Reg.HC_STATUS_health_change).post 0x0606 [.b a, .b row, .n g.first, .n g.changed, .b 2]

end Sys2Proof.Machine
end

