-- ==== Sys2Proof/Machine/Sched.lean ====
section
/-! DEFINITION. The line scheduler (chapter 05): the origin (R104, R105, R133), bindings (R110 to R116), the release of line data
(R119, R120, R175), the end of a stream (R124, R543), LS_LEAD (R117). -/

namespace Sys2Proof.Machine

/-! ### The origin -/

/-- LS_START_MARGIN.lines, at least lead + 64 (Table 05-1). -/
def State.startMargin (s : State) : Nat := max (s.get Reg.LS_START_MARGIN_lines) (s.get Reg.LS_LEAD_lead + 64)

/-- X0 and the moved flag by the start kind of the first job (Table 05-1); none while a sheet edge is awaited. -/
def State.originFor (s : State) (b : Job) : Option (Int × Bool) :=
  let now := s.webPos
  let at_ := now + linesToPos s.startMargin s.cplReg
  if b.startKind = 1 then
    if posDiff b.startPos now < s.leadRoom then some (at_, true) else some (b.startPos, false)
  else if b.startKind = 2 then s.sched.edge.map (fun x => (x, false))
  else some (at_, false)

/-- Set the origin (R104, R105, R133): the settings are sampled, what belongs to an earlier stream is cleared, the first panel is
placed, and the device enters PRINTING. -/
def State.setOrigin (s : State) (b : Job) (x0 : Int) (moved : Bool) : State :=
  let s1 := s.modSched fun c => { c with
    cpl := s.cplReg
    streamCfg := s.get ⟨Reg.LS_STREAM_CFG_lpi.off, 0, 6⟩
    planeCfg := (List.range 10).map fun q => s.get ⟨(Reg.RS_PLANEq_CFG_prescreened q).off, 0, 32⟩
    spans := [], last := none, stopping := false, edge := none, minStart := 0, missingPosted := false, anyBegun := false
    heads := [], losses := 0, skipRuns := [], skipSeen := [] }
  let s2 := (s1.modRaster fun r => { r with planes := [], keyPosted := [], recuts := [], takeover := r.takeover.map fun t => (t.1, t.2.1, 0), auditLeft := 0, auditRecheck := 0 }).modFm
    fun f => { f with queue := [], since := [], ffDone := [], ffAt := none, ffSum := [], regmarks := [], usable := [], held := [], targetSeen := 0 }
  let s3 := ((s2.setI2 Reg.LS_ORIGIN_LO Reg.LS_ORIGIN_HI x0).set2 Reg.LS_COMMIT_LINE_LO Reg.LS_COMMIT_LINE_HI 0).set2
    Reg.LS_REF_LINE_LO Reg.LS_REF_LINE_HI 0
  let s4 := (((s3.clear Reg.LS_SKIP_COUNT).clear Reg.LS_LATE_COUNT).clear Reg.LS_STATUS_edges_ignored).set Reg.LS_LEAD_lead_in_force (s.get Reg.LS_LEAD_lead)
  let s5 := ((s4.raise Reg.LS_STATUS_origin_set).clear Reg.LS_STATUS_draining).modObs fun o => { o with hw := s.webPos, hwSet := true }
  let s6 := (s5.placePanel b (if s5.sheetMode then 0 else b.gap)).showParting
  (s6.enter stPrinting).post 0x0301 [.pos x0, .b (b2n moved), .ns s.tb3]

/-- ORIGIN_SET (R105). -/
def execOriginSet (dt : Nat) (s : State) : Result :=
  (s.advance dt).whenOn 2 fun s =>
  match s.sched.jobs.head? with
  | none => .next s
  | some b =>
    if s.dev = stReady && s.on Reg.OBS_STATUS_pos_valid && s.cplReg ≠ 0 && (s.tableNow tPlacement 0 0).isSome then
      match s.originFor b with
      | none => .next s
      | some (x0, moved) =>
        if b.startKind = 2 && decide (posDiff x0 s.webPos < s.leadRoom) then
          .next (s.ignoreEdge.modSched fun c => { c with edge := none })
        else .next (s.setOrigin b x0 moved).partings
    else .next s

/-! ### Bindings -/

/-- The placement bank for head line k, a staged bank whose line is fixed at or below k included (R542). -/
def State.placementFor (s : State) (k : Nat) : List (BitVec 8) :=
  match (s.sched.staged.filter (fun g => g.kind == tPlacement &&
      match g.line with | some l => decide (l ≤ k) | none => false)).getLast? with
  | some g => g.data
  | none => s.placementAt k

/-- LS_BIND_CFG.horizon_us in 2^-16 ns (Table 05-15). -/
def State.horizon (s : State) : Nat := clampN 16 64 (s.get Reg.LS_BIND_CFG_horizon_us) * 1000 * 65536

/-- LS_BIND_CFG.late_guard_us in 2^-16 ns. -/
def State.lateGuard (s : State) : Nat := max 1 (s.get Reg.LS_BIND_CFG_late_guard_us) * 1000 * 65536

/-- The last head line that carries an image line of the stream (R124), once the stream drains. -/
def State.lastHeadLine (s : State) : Option Nat :=
  if s.dev = stDraining then s.lastLine.map fun l => (l + 63).toNat else none

/-- Whether a head line lies beyond the end of a draining stream. -/
def State.beyondEnd (s : State) (k : Nat) : Bool :=
  match s.lastHeadLine with
  | some l => decide (l < k)
  | none => false

/-- What R110 says of head line k of head h: bind it, skip it because the web has passed it, or wait. -/
inductive BindCase where
  | bind (b : Bound)
  | passed
  | wait
deriving DecidableEq, Repr

/-- The case of head line k of head h (R110, R116). -/
def State.bindCase (s : State) (h k : Nat) : BindCase :=
  let x := s.xh (s.placementFor k) h k
  if !s.on Reg.OBS_STATUS_pos_valid || s.on Reg.OBS_STATUS_reversal || s.beyondEnd k then .wait
  else if posDiff x s.webPos < 0 then .passed
  else
    match s.crossing x with
    | none => .wait
    | some tau =>
      let p := s.periodAt tau
      if tau ≤ s.horizon && 0 < p && p < 2 ^ 32 then .bind ⟨k, (s.now + tau) % 2 ^ 80, p⟩ else .wait

/-- Whether a line can be listed after those of a head (R114): 16 at most, entry i is head line first_li + i, and delta is an unsigned
16.16 ns that does not fall. -/
def fits (l : List Bound) (b : Bound) : Bool :=
  match l.head?, l.getLast? with
  | some f, some e => l.length < 16 && b.k == e.k + 1 && 0 ≤ stampDiff b.t e.t && stampDiff b.t f.t < 2 ^ 32
  | _, _ => true

/-- Bind or skip the next lines of head h, until one has to wait: for R110, or because the packet cannot list it yet (R112, R114). -/
def State.bindMore (s : State) (h : Nat) : Nat → State
  | 0 => s
  | fuel + 1 =>
    let c := s.head h
    if 16 ≤ c.bound.length then s
    else
      match s.bindCase h c.next with
      | .wait => s
      | .passed =>
        let reason := if c.lostSeen < s.sched.losses then 4 else 3
        let l := s.refLineOf (s.xh (s.placementFor c.next) h c.next)
        ((s.onHead h fun c => { c with next := c.next + 1 }).noteSkip reason l).bindMore h fuel
      | .bind b =>
        if fits c.bound b then
        let s1 := s.switchTable tPlacement 0 b.k
        let s2 := s1.onHead h fun c => { c with
          high := some b.k, next := b.k + 1, bound := c.bound ++ [b], lostSeen := s.sched.losses }
        s2.bindMore h fuel
        else s

/-- The reference line of the first head line of head h that may still be skipped: its oldest bound line, else its next (R116). -/
def State.undecided (s : State) (h : Nat) : Int :=
  let c := s.head h
  let k := match c.bound with | b :: _ => b.k | [] => c.next
  s.refLineOf (s.xh (s.placementFor k) h k)

/-- Post the runs that have ended: no enabled head can skip another line beside them (R116). -/
def State.settleRuns (s : State) : State :=
  match s.sched.skipRuns with
  | [] => s
  | r :: rs =>
    let low := (upto 256 (plEn s.placementNow ·)).map s.undecided
    (r :: rs).foldl (fun (s : State) r => if low.all (fun l => r.2.1 + r.2.2 < l) then s.closeRun r else s) s

/-- Most lines one BIND_SEND looks at: 16 to list, and those it skips. -/
def bindFuel (s : State) (h : Nat) : Nat := 17 + (s.refLine + 64 - (s.head h).next)

/-- The source with which this device binds: 0 as the holder in PRINTING or DRAINING, 1 in COLD (R115). -/
def State.bindSource (s : State) : Option Nat :=
  if !s.streaming then none
  else if (s.dev = stPrinting || s.dev = stDraining) && s.held_ then some 0
  else if s.dev = stCold then some 1
  else none

/-- The hold of a head ends (R281): in a stream from the next parting not yet committed, for which it waits; otherwise at once. -/
def State.releaseHead (s : State) (a : Nat) : State :=
  if !s.holding a then s
  else if s.streaming then
    match s.nextParting with
    | none => s.onNode a fun n => { n with releaseDue := true }
    | some p =>
      let s1 := ((s.sendStreamReset a p).sendHold a 0 0).onNode a fun n => { n with
        releaseAt := some p, fromLine := p, releaseDue := false, recoveryHold := none }
      ((s1.onHead a fun h => { h with asm := p, ready := [] }).clear (Reg.HC_HEADa_STATE_held a)).post 0x060B [.b a, .li p]
  else
    let s1 := (s.sendHold a 0 0).onNode a fun n => { n with held := false, releaseAt := none, releaseDue := false, recoveryHold := none }
    (s1.clear (Reg.HC_HEADa_STATE_held a)).post 0x060B [.b a, .li (2 ^ 48 - 1)]

/-- The releases that waited for a parting are given once it is known, or once the stream has ended (R281). -/
def State.releaseDue (s : State) : State :=
  if s.streaming && s.nextParting.isNone then s
  else (upto 256 (fun a => (s.node a).releaseDue)).foldl (fun (s : State) a => s.releaseHead a) s

/-- BIND_SEND (R112): the packet for one enabled head. -/
def execBindSend (dt : Nat) (h : Fin 256) (s : State) : Result :=
  let s := s.advance dt
  match s.bindSource with
  | none => .next s
  | some src =>
    if plEn s.placementNow h then
      let s1 := (((s.retireHead h).bindMore h (bindFuel s h)).settleRuns).releaseDue
      let e := if src = 0 then s1.nodeEnd h else s1.get Reg.PAIR_CFG_end
      .next (s1.sendBind h e src ((s1.head h).bound.take 16))
    else .next s

/-! ### Line data -/

/-- End the run of late lines of a head (R120). -/
def State.closeLate (s : State) (h : Nat) : State :=
  match (s.head h).lateRun with
  | none => s
  | some (first, count, _) =>
    ((s.onHead h fun c => { c with lateRun := none }).raise Reg.LS_STATUS_late).post 0x0303 [.b h, .li first, .n count]

/-- Discard an assembled line as late; FIRE_MAP_LATE once a run where it waited for a map (R120, R175). -/
def State.discardLate (s : State) (h k : Nat) (waiting : Option Nat) : State :=
  let s0 := match (s.head h).lateRun with
    | some (first, count, _) => if first + count = k then s else s.closeLate h
    | none => s
  let (first, count, posted) := ((s0.head h).lateRun).getD (k, 0, false)
  let s1 := match waiting with
    | some e => if posted then s0 else (s0.raise Reg.SEAM_STATUS_map_late).post 0x0412 [.b h, .li e]
    | none => s0
  (s1.onHead h fun c => { c with ready := c.ready.drop 1, lateRun := some (first, count + 1, posted || waiting.isSome) }).bump
    Reg.LS_LATE_COUNT 1

/-- Whether head line k of head h is late: less than the guard before its bind time, or before its predicted crossing while it is
not bound (R120). -/
def State.isLate (s : State) (h k : Nat) : Bool :=
  let c := s.head h
  match c.bound.find? (fun b => b.k == k) with
  | some b => decide (stampDiff b.t s.now < s.lateGuard)
  | none =>
    if decide (k < c.next) then true
    else
      let x := s.xh (s.placementFor k) h k
      if posDiff x s.webPos < 0 then true
      else
        match s.crossing x with
        | some tau => decide (tau < s.lateGuard)
        | none => false

/-- The first line of the skew bank that governs head line k, a staged bank whose line is fixed included. -/
def State.skewStart (s : State) (str k : Nat) : Nat :=
  match (s.sched.staged.filter (fun g => g.kind == tSkew && g.index == str &&
      match g.line with | some l => decide (l ≤ k) | none => false)).getLast? with
  | some g => g.line.getD 0
  | none => ((bankAt (s.banksOf tSkew str 0) k).map (·.start)).getD 0

/-- The effective head line whose map the node has not acknowledged, when it keeps line k from leaving (R175). -/
def State.mapWait (s : State) (h k : Nat) : Option Nat :=
  let e := s.skewStart (h / 8) k
  if (s.map h).acked.any (fun a => e ≤ a) then none else some e

/-- LINE_SEND (R119, R120, R173, R175): the oldest assembled line of one head. A line beyond the last one that R124 binds waits: it leaves only
when a job queued in DRAINING makes it a line of the stream. -/
def State.lineSend (s : State) (h : Nat) : State :=
  match (s.head h).ready with
  | [] => s
  | l :: _ =>
    let wait := s.mapWait h l.k
    if s.beyondEnd l.k then s
    else if bit l.flags 3 then s.discardLate h l.k none
    else if s.isLate h l.k then s.discardLate h l.k wait
    else if wait.isSome then s
    else
      let d := s.placementNow
      let x := s.planeLine d (plPlane d h) (((l.k : Int) - s.lead) * 65536 + plDown d h)
      if 0 ≤ posDiff s.webPos x then
        let (e, n) := s.lineEnergy h l.codes
        (((s.closeLate h).onHead h fun c => { c with
          ready := c.ready.drop 1, sent := some l.k, loads := c.loads ++ [(l.k, e, n)] })).sendLine h l
      else s

/-! ### Sheets and the end of a stream -/

/-- LS_STATUS.sheet_wait: a panel is queued and waits for its sheet edge (Table 05-16). -/
def State.sheetWait (s : State) : Bool :=
  if s.streaming then
    s.sheetMode && !s.sched.stopping && s.nextJob.isSome &&
      (match s.lastSpan with | some p => decide (p.start + p.len ≤ s.refLine) | none => true)
  else s.dev == stReady && (match s.sched.jobs.head? with | some b => b.startKind == 2 && s.sched.edge.isNone | none => false)

/-- SHEET_MISSING (R123). -/
def execSheetMissing (dt : Nat) (s : State) : Result :=
  let s := s.advance dt
  let gap := s.get Reg.LS_SHEET_GAP_max_gap_lines
  match s.lastSpan with
  | none => .next s
  | some p =>
    let last := p.start + p.len - 1
    if s.streaming && s.sheetWait && gap ≠ 0 && !s.sched.missingPosted && decide (last + gap < s.refLine) then
      .next (((s.modSched fun c => { c with missingPosted := true }).raise Reg.LS_STATUS_sheet_missing).post 0x0307
        [.li s.refLine, .n (s.refLine - last)])
    else .next s

/-- STREAM_END (R124). -/
def execStreamEnd (dt : Nat) (s : State) : Result :=
  let s := s.advance dt
  match s.lastLine with
  | none => .next s
  | some l =>
    if s.dev = stPrinting && s.streaming && decide (l < s.committedI) then
      .next (((s.raise Reg.LS_STATUS_draining).enter stDraining).post 0x030C [.li (wrap 48 l)])
    else .next s

/-- Whether every served head has reached a head line and all its bound lines have passed (R124). -/
def State.drained (s : State) (l : Nat) : Bool :=
  (upto 256 (fun a => plEn s.placementNow a && s.served a)).all fun a =>
    match (s.head a).high with
    | some k => decide (l ≤ k) && (s.head a).bound.all (fun b => before b.t s.now)
    | none => false

/-- Replacements of seam banks under way switch at once while no stream runs (R188), by the Deputy (Table 17-8). -/
def State.endCopies (s : State) : State :=
  let l := s.seam.copying
  if s.deputyHalted then s
  else l.foldl (fun s c =>
    let q := c.1
    let b := c.2.1
    let op := c.2.2.2
    let line : Nat := 2 ^ 48 - 1
    (((((s.set (Reg.SEAM_PLANEq_spared_bank q) b).raise (Reg.SEAM_PLANEq_spare_in_use q)).clear (Reg.SEAM_PLANEq_copying q)).raise
      Reg.SEAM_STATUS_bank_spared).post 0x0416 [.b q, .b b, .li line]).endOp op.1 op.2 stOk [(4, leBytes 6 line)])
    (s.modSeam fun e => { e with copying := [] })

/-- The slice that serves plane q (RS_MAP). -/
def State.sliceOf (s : State) (q : Nat) : Nat :=
  (s.get Reg.RS_MAP_LO_map + 2 ^ 32 * s.get Reg.RS_MAP_HI_map) / 16 ^ q % 16

/-- Whether plane q has a working slice (R127, R159). -/
def State.planeServed (s : State) (q : Nat) : Bool := !s.raster.unserved.contains q

/-- The plane that slice n serves; a plane without a slice is served by none (R159). -/
def State.planeOf (s : State) (n : Nat) : Option Nat := (List.range 10).find? fun q => s.sliceOf q == n && s.planeServed q

/-- Whether slice n could be the spare: it serves no plane, has not failed and is not under self-test (R134, R161). -/
def State.mayBeSpare (s : State) (n : Nat) : Bool :=
  (s.planeOf n).isNone && !s.raster.failed.contains n && (match s.raster.bist with | some (m, _) => m != n | none => true)

/-- The spare: the one of those that has been it longest. -/
def State.spareSlice (s : State) : Option Nat :=
  match s.raster.spare.filter s.mayBeSpare with
  | some n => some n
  | none => (List.range 11).find? s.mayBeSpare

/-- The spare leaves what it does for a state and plane. -/
def State.setSpare (s : State) (st plane : Nat) : State :=
  (s.set Reg.RS_SPARE_STATUS_state st).set Reg.RS_SPARE_STATUS_plane plane

/-- Slices stop: one that produces or re-cuts is idle, or the spare again, whose status is idle too (Tables 06-11, R166). -/
def State.idleSlices (s : State) : State :=
  let s1 := (List.range 11).foldl (fun (s : State) n =>
    if s.get (Reg.RSn_STATUS_state n) = 1 || s.get (Reg.RSn_STATUS_state n) = 2 then
      s.set (Reg.RSn_STATUS_state n) (if (s.planeOf n).isSome then 0 else 4) else s) s
  if s1.get Reg.RS_SPARE_STATUS_state = 2 then s1.setSpare 0 15 else s1

/-- End the run of lines sent as LATE: SLICE_BEHIND. -/
def State.closeBehind (s : State) (q : Nat) : State :=
  match (s.plane q).lateRun with
  | none => s
  | some (first, count) =>
    ((s.onPlane q fun p => { p with lateRun := none }).raise (Reg.RSn_STATUS_late_seen (s.sliceOf q))).post 0x0406
      [.b q, .li first, .n count]

/-- The stream ends (R124, R133, R153, R188, R543). The device goes to `st`. -/
def State.endStream (s : State) (st : Nat) : State :=
  let r := s.refLine
  let s1 := s.sched.heads.foldl (fun (s : State) e => s.closeLate e.1) s.retireBound
  let s2 := (List.range 10).foldl (fun (s : State) q => s.closeBehind q)
    (s1.sched.skipRuns.foldl (fun (s : State) r => s.closeRun r) s1)
  let s3 := s2.set2 Reg.LS_REF_LINE_LO Reg.LS_REF_LINE_HI r
  let s4 := ((s3.clear Reg.LS_STATUS_origin_set).clear Reg.LS_STATUS_draining).set Reg.LS_LEAD_lead_in_force
    (s.get Reg.LS_LEAD_lead)
  let s5 := ((s4.endTables.endCopies).modSeam fun e => { e with
      maps := (e.maps.filter (fun m => !m.2.acked.isEmpty)).map fun m => (m.1, { acked := [0] }) }).modSched fun c => { c with
    jobs := c.jobs.filter jobMore, spans := [], last := none, stopping := false, edge := none }
  let s6 := ((s5.modAssay fun a => { a with ports := a.ports.map fun e => (e.1, { e.2 with
      occ := e.2.occ.map fun o => { o with closed := true }, skipped := [] }) }).modRaster fun p => { p with
      recuts := [], planes := p.planes.map fun e => (e.1, { e.2 with busy := none, blocks := [] }) }).idleSlices
  ((s6.set2 Reg.LS_NEXT_PARTING_LO Reg.LS_NEXT_PARTING_HI (2 ^ 48 - 1)).setReturns fun _ => none).enter st

/-- DRAIN_COMPLETE (R124). -/
def execDrainComplete (dt : Nat) (s : State) : Result :=
  let s := s.advance dt
  match s.lastLine with
  | none => .next s
  | some l => if s.dev = stDraining && s.drained (l + 63).toNat then .next (s.endStream stReady).releaseDue else .next s

/-- Fix the last line of the stream (R124, R401): the next parting not yet committed ends it; in sheet mode the later of the
last line of the panel in progress and the committed line. The remaining jobs are removed. A stream stopped before line 0 has last line
−1. -/
def State.stopStream (s : State) : State :=
  match s.sched.last with
  | some _ => s
  | none =>
    if s.dev = stDraining then s
    else
      let keep := s.sched.spans.filter (fun p => (p.start : Int) ≤ s.committedI)
      let endOf : Int := match keep.getLast? with
        | some p => (p.start : Int) + p.len - 1
        | none => -1
      let next := s.sched.spans.find? (fun p => s.committedI < (p.start : Int))
      let l : Int :=
        if s.sheetMode then max endOf s.committedI
        else match next with
          | some p => (p.start : Int) - 1
          | none => endOf
      let names := keep.map (·.job)
      (s.modSched fun c => { c with
        last := some l, stopping := true, spans := keep
        jobs := c.jobs.filterMap fun b =>
          if names.contains b.job then some { b with repeats := 1, begun := b.panels.length } else none }).showParting

/-- LS_LEAD is written (R117). -/
def State.leadWrite (s : State) (v : Nat) : State :=
  let n := v % 2048
  let bufs := (upto 256 (fun a => (s.node a).known && !(s.node a).status.isEmpty)).map (fun a => beAt (s.node a).status 4 2)
  let reason := if n < 256 || 1024 < n then 1 else if bufs.any (fun b => b < n) then 2 else 0
  if reason = 0 then
    let s1 := s.set Reg.LS_LEAD_lead n
    if s.streaming then s1 else s1.set Reg.LS_LEAD_lead_in_force n
  else (s.raise Reg.LS_STATUS_lead_refused).post 0x0302 [.b reason, .n n]

/-- LEAD_WRITE (R117). -/
def execLeadWrite (dt : Nat) (v : BitVec 32) (s : State) : Result :=
  .next ((s.advance dt).hostWrite Reg.LS_LEAD_lead.off fun s => s.leadWrite v.toNat)

end Sys2Proof.Machine
end

