-- ==== Sys2Proof/Machine/Raster.lean ====
section
/-! DEFINITION. What a raster slice computes (chapter 06): the chain and its blocks, the usable set, the stages, the codes of an image
line. The commands stand in Slice.lean. -/

namespace Sys2Proof.Machine

/-! ### Planes, slices, settings -/

/-- Name the slice of plane q in RS_MAP. -/
def State.setSlice (s : State) (q n : Nat) : State :=
  if q < 8 then s.set ⟨Reg.RS_MAP_LO_map.off, 4 * q, 4⟩ n else s.set ⟨Reg.RS_MAP_HI_map.off, 4 * (q - 8), 4⟩ n

/-- RS_PLANEq_CFG as sampled at the origin (Table 06-10). -/
def State.pcfg (s : State) (q : Nat) : Nat := s.sched.planeCfg.getD q 0
/-- prescreened. -/
def pcPre (c : Nat) : Bool := bit c 0
/-- kernel_x linear. -/
def pcKx (c : Nat) : Bool := bit c 1
/-- kernel_y linear. -/
def pcKy (c : Nat) : Bool := bit c 2
/-- subst_mode repeat. -/
def pcRepeat (c : Nat) : Bool := bit c 3
/-- max_repeat. -/
def pcMax (c : Nat) : Nat := bits c 11 4
/-- x_start. -/
def pcX (c : Nat) : Nat := bits c 28 12

/-- Whether the stream runs at 600 lpi (Table 05-13). -/
def State.lpi600 (s : State) : Bool := bit s.sched.streamCfg 0

/-- The chain of plane q in a panel. -/
def chainOf (p : Span) (q : Nat) : Chain := p.chains.getD q {}

/-- f, print lines per contone line (R349, R359): 2 when the chain is at half the lpi of the stream. -/
def State.factor (s : State) (c : Chain) : Nat := if c.down600 && !s.lpi600 then 2 else 1

/-- Print lines a stored block covers (R349). -/
def blockLines (f : Nat) (b : StoredBlock) : Nat := if b.kind = 0 then b.height * f else b.height

/-- The blocks of a chain in order: position, block, first contone (or drop-code) line, from a position and line on. -/
def State.layout (s : State) : Nat → Nat → List Nat → List (Nat × StoredBlock × Nat)
  | _, _, [] => []
  | i, j, h :: t =>
    match s.liveBlock h with
    | some b => (i, b, j) :: s.layout (i + 1) (j + b.height) t
    | none => s.layout (i + 1) j t

/-- Width in contone columns of a chain: that of its blocks, which all have one width (R361). -/
def State.chainWidth (s : State) (c : Chain) : Nat :=
  match s.layout 0 0 c.handles with
  | (_, b, _) :: _ => b.width
  | [] => 0

/-- The first plane column of contone column 0: x_start + xoff_q (R137, R323). -/
def State.artStart (s : State) (q line : Nat) : Int :=
  pcX (s.pcfg q) + (match s.tableAt tXoff q 0 line with | some d => signed 16 (leAt d 0 2) | none => 0)

/-- The contone column of a plane column, where the artwork covers it (R137, R323). -/
def artCol (start : Int) (cross600 : Bool) (width c : Nat) : Option Nat :=
  if (c : Int) < start || 122879 < c then none
  else
    let i := ((c : Int) - start).toNat
    if i < (if cross600 then 2 * width else width) then some i else none

/-- The span of plane columns from the first to the last column of a plane's enabled heads (R135): first column and count. -/
def State.planeCols (s : State) (d : List (BitVec 8)) (q : Nat) : Nat × Nat :=
  let hs := plHeads d q
  match hs with
  | [] => (0, 0)
  | h :: t =>
    let lo := t.foldl (fun m a => min m (plFirst d a)) (plFirst d h)
    let hi := hs.foldl (fun m a => max m (plFirst d a + s.columnsOf d a)) 0
    (lo, hi - lo)

/-! ### Which head, row and bank prints a column (R171, R179, R180, R184) -/

/-- The bank of a skew table under which head column i prints image line L: of the banks oldest first, the first in which head line
L + d falls while that bank is in force; where none does, the newest (R183, R184). `l` is oldest first. -/
def printIn (n i line : Nat) : List Bank → Option Bank
  | [] => none
  | [b] => some b
  | b :: c :: t =>
    let k := line + skDelay (skewSel b.data n i)
    if b.start ≤ k && k < c.start then some b else printIn n i line (c :: t)

/-- The same; none while the first bank of the string is not yet in force for the line (R173). -/
def printBank (n i line : Nat) (l : List Bank) : Option Bank :=
  match l with
  | [] => none
  | b :: _ => if line + skDelay (skewSel b.data n i) < b.start then none else printIn n i line l

/-- The skew banks of a string, oldest first, a staged bank whose line is fixed included. -/
def State.skewBanks (s : State) (str : Nat) : List Bank :=
  (s.banksOf tSkew str 0).reverse ++ (s.sched.staged.filter (fun g => g.kind == tSkew && g.index == str)).filterMap
    (fun g => g.line.map fun l => ⟨l, g.data, g.bad⟩)

/-- Whether the skew entry of the selected row reads as poisoned in a bank (R187). -/
def skewBad (a i : Nat) (b : Bank) : Bool :=
  badAt b.bad (32768 * (a % 8) + 4 * i + 2 * skewRow b.data (a % 8) i)

/-- A head over a plane column on a line: address, head column, selected row, whether the nozzle is usable (R154). -/
structure HeadCol where
  a : Nat
  i : Nat
  row : Nat
  usable : Bool
  /-- stitch_class at head line L, for the left head of a stitch -/
  cls : Nat

/-- Whether a head fires a line: it is served and not held for it (R154). -/
def State.firing (s : State) (a line : Nat) : Bool := s.served a && !s.heldAt a line

/-- Head a at its column i for image line L. -/
def State.headCol (s : State) (line a i : Nat) : HeadCol :=
  let banks := s.skewBanks (a / 8)
  match printBank (a % 8) i line banks with
  | none => ⟨a, i, 0, false, 0⟩
  | some b =>
    let row := skewRow b.data (a % 8) i
    let e := skewSel b.data (a % 8) i
    let code := s.health a row i line
    let bad := skDisable e || skewBad a i b || bit (s.get Reg.RS_UNUSABLE_MASK_mask) code || !s.firing a line
    let now := ((banks.reverse.find? (fun b => b.start ≤ line)).getD b).data
    ⟨a, i, row, !bad, skClass (skewSel now (a % 8) i)⟩

/-- Bit L mod 64 of pattern m of a plane's stitch table at head line L (R177, R179, R187). -/
def State.stitchBit (s : State) (q line m : Nat) : Bool :=
  if m = 0 then true
  else
    let banks := (s.banksOf tStitch q 0).reverse ++
      (s.sched.staged.filter (fun g => g.kind == tStitch && g.index == q)).filterMap (fun g => g.line.map fun l => ⟨l, g.data, g.bad⟩)
    match banks.reverse.find? (fun b => b.start ≤ line) with
    | some b => badAt b.bad (8 * m) || bit (leAt b.data (8 * m) 8) (line % 64)
    | none => false

/-- The head column that prints plane column c on image line L, and whether the column is usable (R154, R179, R180); none where no
enabled head covers it. `hs` lists the plane's heads with first column and column count, by first column; `use` tells of the heads of a
stitch whether their nozzles were usable when the slice formed its set. -/
def State.printer (s : State) (q line c : Nat) (hs : List (Nat × Nat × Nat)) (use : HeadCol → Bool) : Option HeadCol :=
  match hs.filter (fun h => h.2.1 ≤ c && c < h.2.1 + h.2.2) with
  | [] => none
  | [h] => some (s.headCol line h.1 (c - h.2.1))
  | l :: r :: _ =>
    let hl := s.headCol line l.1 (c - l.2.1)
    let hr := s.headCol line r.1 (c - r.2.1)
    if use hl && !use hr then some hl
    else if use hr && !use hl then some hr
    else if s.stitchBit q line hl.cls then some hl else some hr

/-- Insert by first column. -/
def insHead (h : Nat × Nat × Nat) : List (Nat × Nat × Nat) → List (Nat × Nat × Nat)
  | [] => [h]
  | g :: t => if h.2.1 < g.2.1 then h :: g :: t else g :: insHead h t

/-- The enabled heads of a plane with first column and column count, by first column (R178). -/
def State.headRuns (s : State) (d : List (BitVec 8)) (q : Nat) : List (Nat × Nat × Nat) :=
  (plHeads d q).foldl (fun l a => insHead (a, plFirst d a, s.columnsOf d a) l) []

/-- For the plane columns of the artwork on a line, in order: the printer of each (R154). -/
def State.columns (s : State) (q line : Nat) (c0 n : Nat) (use : HeadCol → Bool) : List (Nat × Option HeadCol) :=
  let hs := s.headRuns (s.placementFor line) q
  (List.range n).map fun j => (c0 + j, s.printer q line (c0 + j) hs use)

/-- The head columns of the plane's stitches whose nozzles are unusable now, on the artwork of a line (R154, R180). -/
def State.stitchLost (s : State) (q line c0 n : Nat) : List (Nat × Nat) :=
  let hs := s.headRuns (s.placementFor line) q
  (List.range n).flatMap fun j =>
    let c := c0 + j
    match hs.filter (fun h => h.2.1 ≤ c && c < h.2.1 + h.2.2) with
    | l :: r :: _ => [l, r].filterMap fun h => if (s.headCol line h.1 (c - h.2.1)).usable then none else some (h.1, c - h.2.1)
    | _ => []

/-- Keep them as the set with which image line L is begun. -/
def State.noteLost (s : State) (q line : Nat) (lost : List (Nat × Nat)) : State :=
  s.onPlane q fun p =>
    let old := p.lost.filter (fun e => e.1 < line)
    { p with lost := if (old.head?.map (·.2)).getD [] = lost then old else (line, lost) :: old }

/-- Whether a head column of a stitch was usable when the slice formed the set for image line L (R154, R155, R180). -/
def State.setUse (s : State) (q line : Nat) (h : HeadCol) : Bool :=
  !(((s.plane q).lost.find? (fun e => e.1 ≤ line)).any fun e => e.2.contains (h.a, h.i))

/-- The artwork of plane q on image line L as first plane column and count, held to 0 to 122,879; none where the panel has no chain or
no panel holds the line. -/
def State.artwork (s : State) (q line : Nat) : Option (Span × Nat × Nat) :=
  match s.spanAt line with
  | none => none
  | some p =>
    let c := chainOf p q
    if !c.present then none
    else
      let w := s.chainWidth c * (if c.cross600 then 2 else 1)
      let st := s.artStart q line
      let lo := max 0 st
      let hi := min 122880 (st + w)
      if hi ≤ lo then none else some (p, lo.toNat, (hi - lo).toNat)

/-! ### Trim, tone, screen -/

/-- Whether the 32-byte word of a raster table at a byte offset reads as poisoned, in the bank in force for a line (R156, R157). -/
def State.rasterBad (s : State) (kind q sub line off : Nat) : Bool :=
  (bankAt (s.banksOf kind q sub) line).any fun b => badAt b.bad off

/-- Whether a screen cell at a byte offset reads as poisoned: the words of its three thresholds, in one-bit mode of t1 alone (R146, R156). -/
def State.cellBad (s : State) (q sub line : Nat) (one : Bool) (off : Nat) : Bool :=
  s.rasterBad tScreen q sub line off || (!one && s.rasterBad tScreen q sub line (off + 5))

/-- The trim entry of a column's row on a line; a poisoned entry is 0 (R148, R152, R156). -/
def State.trimEntry (s : State) (q line c row : Nat) : Nat :=
  if s.rasterBad tTrim q 0 line (4 * c + 2 * row) then 0 else leAt ((s.tableAt tTrim q 0 line).getD []) (4 * c + 2 * row) 2

/-- Offset of a curve value (R149). -/
def curveOff (cls v : Nat) : Nat := 520 * cls + 2 * v

/-- The tone value of a class and contone value; a poisoned entry gives 0 (R149, R156). -/
def State.toneValue (s : State) (q line cls v : Nat) : Nat :=
  if s.rasterBad tTone q 0 line (curveOff cls v) then 0
  else leAt ((s.tableAt tTone q 0 line).getD []) (curveOff cls v) 2 % 4096

/-- The code of a value at a column by the screen slot of its class (R146). `one` is one-bit mode. -/
def screenCode (d : List (BitVec 8)) (one : Bool) (line c w : Nat) : Nat :=
  let wd := leAt d 0 2
  let ht := leAt d 2 2
  let x := (c + leAt d 4 2) % wd
  let y := (line + leAt d 6 2) % ht
  let off := 16 + 6 * (y * wd + x)
  let t1 := leAt d off 2
  if one then b2n (decide (t1 < w))
  else b2n (decide (t1 < w)) + b2n (decide (leAt d (off + 2) 2 < w)) + b2n (decide (leAt d (off + 4) 2 < w))

/-- Byte offset of the cell a column reads. -/
def cellOff (d : List (BitVec 8)) (line c : Nat) : Nat :=
  16 + 6 * ((line + leAt d 6 2) % leAt d 2 2 * leAt d 0 2 + (c + leAt d 4 2) % leAt d 0 2)

/-- What one column of the artwork brings to stage 5 and 6: usable, trim entry, tone value, whether a poisoned entry was read. -/
structure ToneCol where
  usable : Bool
  entry : Nat
  tone : Nat
  bad : Bool
deriving DecidableEq, Repr

/-- trim of an entry, signed. -/
def trimOf (e : Nat) : Int := signed 10 e
/-- tone_class of an entry. -/
def toneClass (e : Nat) : Nat := bits e 13 10
/-- recv_block of an entry. -/
def recvBlock (e : Nat) : Bool := bit e 14

/-- Redistribution weight at a distance, by RS_REDIST_CFG (R144, R166). -/
def redistWeight (cfg dist : Nat) : Nat := if dist = 1 then bits cfg 3 0 else if dist = 2 then bits cfg 7 4 else 0

/-- The receivers of unusable column u with their weights, left to right (R144). Columns are indexed from the artwork's first. -/
def receivers (cfg : Nat) (cs : Nat → Option ToneCol) (u : Nat) : List (Nat × Nat) :=
  ((List.range 5).filterMap fun e =>
    if u + e < 2 || e = 2 then none
    else
      let j := u + e - 2
      match cs j with
      | some t =>
        let w := if t.usable && !recvBlock t.entry then redistWeight cfg (if e = 0 || e = 4 then 2 else 1) else 0
        if w = 0 then none else some (j, w)
      | none => none)

/-- The receiver of largest weight, the leftmost on a tie. -/
def heaviest (l : List (Nat × Nat)) : Option Nat :=
  (l.foldl (fun (b : Option (Nat × Nat)) e => match b with
    | none => some e
    | some f => if f.2 < e.2 then some e else some f) none).map (·.1)

/-- What column j receives from unusable column u (R144). -/
def shareOf (cfg : Nat) (cs : Nat → Option ToneCol) (u j : Nat) : Nat :=
  match cs u with
  | none => 0
  | some t =>
    if t.usable then 0
    else
      let rs := receivers cfg cs u
      let sum := (rs.map (·.2)).sum
      match rs.find? (fun r => r.1 == j) with
      | none => 0
      | some (_, w) =>
        let g := (t.tone * bits cfg 17 8 + 128) / 256
        let share := g * w / sum
        let given := (rs.map fun r => g * r.2 / sum).sum
        if heaviest rs = some j then share + (g - given) else share

/-- w_j (R144): what column j screens. -/
def redistributed (cfg : Nat) (cs : Nat → Option ToneCol) (j : Nat) : Nat :=
  match cs j with
  | none => 0
  | some t =>
    if !t.usable then 0
    else
      let acc := t.tone + ((List.range 5).map fun e => if j + e < 2 || e = 2 then 0 else shareOf cfg cs (j + e - 2) j).sum
      (clampI 0 4095 (((acc : Int) * (1024 + trimOf t.entry) + 512) / 1024)).toNat

/-! ### Scaling (R143) -/

/-- Element i of a list of numbers, the ends repeated. -/
def edgeAt (p : List Nat) (i : Int) : Nat :=
  if i < 0 then p.getD 0 0 else p.getD (min i.toNat (p.length - 1)) 0

/-- A contone line scaled cross-web where the chain is at 600 dpi (R143). -/
def scaleX (cross600 linear : Bool) (p : List Nat) : List Nat :=
  if !cross600 then p
  else if !linear then p.flatMap fun v => [v, v]
  else (List.range p.length).flatMap fun (i : Nat) =>
    [(edgeAt p ((i : Int) - 1) + 3 * edgeAt p i + 2) / 4, (3 * edgeAt p i + edgeAt p ((i : Int) + 1) + 2) / 4]

/-- A line and a down-web neighbour combined (R143). -/
def scaleY (p near : List Nat) : List Nat := List.zipWith (fun a b => (b + 3 * a + 2) / 4) p near

/-! ### Blocks in a slice's hands -/

/-- Columns of a raw line of a block as numbers: contone values, or drop codes (Table 13-1). -/
def rawLine (kind width : Nat) (raw : List (BitVec 8)) (j : Nat) : List Nat :=
  let lb := lineBytes kind width
  let l := slice raw (lb * j) lb
  if kind = 0 then l.map BitVec.toNat
  else (List.range width).map fun i => (l.getD (i / 4) 0#8).toNat / 4 ^ (i % 4) % 4

/-- Fetch a block (R138, R139): reason 3 where its key slot is unusable, 2 where a word of it reads with POISON; 5 for a block
the mirror lacks, blank with SUBST (R448); otherwise its bytes decrypted. -/
def State.fetchBlock (s : State) (p : Span) (q pos : Nat) (b : StoredBlock) (j0 : Nat) : BlockBuf :=
  let f := s.factor (chainOf p q)
  let buf (reason : Nat) (bytes : List (BitVec 8)) : BlockBuf :=
    ⟨p.start, pos, b.handle, f * j0, blockLines f b, false, reason, bytes, [], 0⟩
  if b.pages.isEmpty then buf 5 []
  else if !s.keyUsable p.keySlot then buf 3 []
  else if s.blockBad b then buf 2 []
  else buf 0 (s.blockBytes b (Tab.get (fun _ => ⟨[], 0⟩) s.power.keys p.keySlot).key)

/-- Decompress and check a fetched block (R140, R141, R359): the first reason of Table 06-2 that applies. -/
def State.verifyBlock (s : State) (q width : Nat) (c : Chain) (b : BlockBuf) : BlockBuf :=
  if b.verified || b.reason ≠ 0 then { b with verified := true }
  else
    match unblock b.bytes false with
    | none => { b with verified := true, reason := 4 }
    | some raw =>
      let kind := tbKind b.bytes
      let f := s.factor c
      if !blockCheckOk b.bytes raw then { b with verified := true, reason := 1 }
      else if kind ≠ b2n (pcPre (s.pcfg q)) || tbWidth b.bytes ≠ width
          || decide (35 < (if kind = 0 then tbHeight b.bytes * f else tbHeight b.bytes)) || (!c.down600 && s.lpi600) then
        { b with verified := true, reason := 4 }
      else { b with verified := true, raw := raw }

/-- Print line r of a panel on plane q, by its blocks: the buffer that holds contone line r / f, and its line in it. -/
def bufferOf (bufs : List BlockBuf) (start r : Nat) : Option BlockBuf :=
  bufs.find? fun b => b.span == start && b.line0 ≤ r && r < b.line0 + b.lines

/-- The columns of contone (or drop-code) line j, from good buffers only. -/
def goodLine (bufs : List BlockBuf) (start f j : Nat) : Option (List Nat) :=
  match bufferOf bufs start (f * j) with
  | some b =>
    if b.verified && b.reason = 0 then
      some (rawLine (tbKind b.bytes) (tbWidth b.bytes) b.raw (j - b.line0 / f))
    else none
  | none => none

/-- What stage 2 gives for a print line. -/
inductive Source where
  /-- blank, every column code 0 (R142); SUBST and its reason when it is substituted -/
  | blank (reason : Nat)
  /-- values by contone column, scaled; the reason where it is a repeated line, 0 where it is the line itself -/
  | values (v : List Nat) (reason : Nat)
  /-- a block it needs is not yet verified -/
  | missing
deriving DecidableEq, Repr

/-- The values of contone line j for print line r, scaled on both axes (R143). -/
def scaledLine (bufs : List BlockBuf) (cfg : Nat) (cross600 : Bool) (start len f r : Nat) (p : List Nat) : List Nat :=
  let x := scaleX cross600 (pcKx cfg) p
  if f = 1 || !pcKy cfg then x
  else
    let j := r / 2
    let n := ceilDiv len 2
    let near : Option (List Nat) :=
      if r % 2 = 0 then (if j = 0 then none else goodLine bufs start f (j - 1))
      else (if j + 1 < n then goodLine bufs start f (j + 1) else none)
    scaleY x (scaleX cross600 (pcKx cfg) (near.getD p))

/-- Whether the blocks that print line r needs are verified: its own, and those of its down-web neighbours. -/
def linesReady (bufs : List BlockBuf) (cfg start len f r covered : Nat) : Bool :=
  let has (x : Nat) : Bool := decide (covered ≤ x) || (match bufferOf bufs start x with | some b => b.verified | none => false)
  has r && (f = 1 || !pcKy cfg ||
    (if r % 2 = 0 then r = 0 || has (r - 1) else decide (ceilDiv len 2 ≤ r / 2 + 1) || has (r + 1)))

/-- Stage 2 and 3 for print line r of a panel (R140 to R143): `good` is the last line released without substitution in the panel, and
`repeated` how many print lines it has been repeated for. -/
def sourceLine (bufs : List BlockBuf) (cfg : Nat) (cross600 : Bool) (start len f r covered : Nat) (good : Option (List Nat))
    (repeated : Nat) : Source :=
  if covered ≤ r then .blank 0
  else if !linesReady bufs cfg start len f r covered then .missing
  else
    match bufferOf bufs start r with
    | none => .missing
    | some b =>
      if b.reason = 0 then
        match goodLine bufs start f (r / f) with
        | some p => .values (if pcPre cfg then p else scaledLine bufs cfg cross600 start len f r p) 0
        | none => .missing
      else if b.reason ≠ 3 && b.reason ≠ 5 && pcRepeat cfg && decide (repeated < pcMax cfg) then
        match good with
        | some p => .values (if pcPre cfg then p else scaleX cross600 (pcKx cfg) p) b.reason
        | none => .blank b.reason
      else .blank b.reason

/-! ### The codes of a line -/

/-- A line as a slice gives it to the Seam: codes from the first column of the plane's heads, the beats that carry POISON, SUBST, the
classes whose screen slot is empty, and the raster table words read as poisoned (kind, sub, byte offset). -/
structure SliceLine where
  first : Nat
  codes : List Nat
  poisonBeats : List Nat
  subst : Bool
  allPoison : Bool
  late : Bool
  emptyClasses : List (Nat × Nat)
  tablePoison : List (Nat × Nat × Nat)
deriving DecidableEq, Repr

/-- A line of code 0 in every column. -/
def State.blankLine (s : State) (q line : Nat) (subst poison late : Bool) : SliceLine :=
  let (lo, n) := s.planeCols (s.placementFor line) q
  ⟨lo, List.replicate n 0, [], subst, poison, late, [], []⟩

/-- The slot of a class (R149). -/
def State.screenSlot (s : State) (q line cls : Nat) : Nat := leAt ((s.tableAt tTone q 0 line).getD []) (520 * cls + 512) 1 % 4

/-- The codes of a line from values by contone column (stages 4 to 6, or the usable-column rule of a pre-screened plane): R144 to
R147, R156. -/
def State.codesOf (s : State) (q line cfg redist : Nat) (unusable : List Nat) (use : HeadCol → Bool) (v : List Nat) (reason : Nat)
    (c0 n : Nat) : SliceLine :=
  let (lo, w) := s.planeCols (s.placementFor line) q
  let skip := ((c0 : Int) - s.artStart q line).toNat
  let one := s.oneBit
  let in_ (c : Nat) : Bool := c0 ≤ c && c < c0 + n
  if pcPre cfg then
    let code (c : Nat) : Nat :=
      if in_ c && !unusable.contains c then (let x := v.getD (c - c0 + skip) 0; if one then min 1 x else x) else 0
    ⟨lo, (List.range w).map fun i => code (lo + i), [], reason ≠ 0, reason = 2, false, [], []⟩
  else
    let rows := s.columns q line c0 n use
    let tones : List ToneCol := rows.zipIdx.map fun (r, j) =>
      let row := (r.2.map (·.row)).getD 0
      let e := s.trimEntry q line r.1 row
      let x := v.getD (j + skip) 0
      ⟨!unusable.contains r.1, e, s.toneValue q line (toneClass e) x,
        s.rasterBad tTrim q 0 line (4 * r.1 + 2 * row) || s.rasterBad tTone q 0 line (curveOff (toneClass e) x)⟩
    let at_ (j : Nat) : Option ToneCol := tones[j]?
    let cell (c : Nat) (t : ToneCol) : Nat × Bool × Option (Nat × Nat) × Option (Nat × Nat × Nat) :=
      let cls := toneClass t.entry
      let slot := s.screenSlot q line cls
      match s.tableAt tScreen q slot line with
      | none => (0, false, some (cls, slot), none)
      | some d =>
        if s.cellBad q slot line one (cellOff d line c) then (0, true, none, some (tScreen, slot, cellOff d line c))
        else (screenCode d one line c (redistributed redist at_ (c - c0)), false, none, none)
    let outs := tones.zipIdx.map fun (t, j) => if t.usable then cell (c0 + j) t else (0, false, none, none)
    let codes := (List.range w).map fun i => if in_ (lo + i) then (outs.getD (lo + i - c0) (0, false, none, none)).1 else 0
    let beats := ((List.range n).filter fun j =>
      (at_ j).any (·.bad) || (outs.getD j (0, false, none, none)).2.1).map fun j => (c0 + j) / 16
    let tp := (rows.zipIdx.flatMap fun (r, j) =>
      let row := (r.2.map (·.row)).getD 0
      let a := if s.rasterBad tTrim q 0 line (4 * r.1 + 2 * row) then [(tTrim, 0, 4 * r.1 + 2 * row)] else []
      let x := v.getD (j + skip) 0
      let e := s.trimEntry q line r.1 row
      let b := if s.rasterBad tTone q 0 line (curveOff (toneClass e) x) then [(tTone, 0, curveOff (toneClass e) x)] else []
      a ++ b) ++ outs.filterMap (·.2.2.2)
    ⟨lo, codes, beats.eraseDups, reason ≠ 0, reason = 2, false, (outs.filterMap (·.2.2.1)).eraseDups, tp⟩

/-- The unusable columns of the artwork on a line (R154). -/
def State.unusableOf (s : State) (q line c0 n : Nat) : List Nat :=
  (s.columns q line c0 n (·.usable)).filterMap fun (c, h) => match h with
    | some x => if x.usable then none else some c
    | none => some c

/-- The uncovered columns: unusable, and without a receiver; all unusable ones on a pre-screened plane (R145, R147). -/
def State.uncoveredOf (s : State) (q line cfg redist c0 n : Nat) (unusable : List Nat) : List Nat :=
  if pcPre cfg then unusable
  else
    let rows := s.columns q line c0 n (·.usable)
    let tones : List ToneCol := rows.map fun r =>
      ⟨!unusable.contains r.1, s.trimEntry q line r.1 ((r.2.map (·.row)).getD 0), 0, false⟩
    unusable.filter fun u => (receivers redist (fun j => tones[j]?) (u - c0)).isEmpty

/-! ### Reproducing lines (R160, R162) -/

/-- Every block of a panel's chain, fetched and verified anew. -/
def State.allBlocks (s : State) (p : Span) (q : Nat) : List BlockBuf :=
  let c := chainOf p q
  let w := s.chainWidth c
  (s.layout 0 0 c.handles).map fun (i, b, j) => s.verifyBlock q w c (s.fetchBlock p q i b j)

/-- Print lines the blocks of a chain cover in a panel. -/
def coveredBy (bufs : List BlockBuf) : Nat := bufs.foldl (fun m b => max m (b.line0 + b.lines)) 0

/-- The good line before print line r and how many print lines in a row before r were substituted since it (R142). -/
def repeatState (bufs : List BlockBuf) (start f r : Nat) : Option (List Nat) × Nat :=
  match ((bufs.filter (fun b => b.span == start && b.reason = 0 && decide (b.line0 < r))).getLast?) with
  | some b =>
    let last := min r (b.line0 + b.lines) - 1
    (goodLine bufs start f (last / f), r - 1 - last)
  | none => (none, 0)

/-- An image line of a plane computed anew, with the banks kept and the unusable set of now (R162, R153). -/
def State.recutLine (s : State) (q line : Nat) : SliceLine :=
  let cfg := s.pcfg q
  match s.artwork q line with
  | none => s.blankLine q line false false false
  | some (p, c0, n) =>
    let bufs := s.allBlocks p q
    let c := chainOf p q
    let f := s.factor c
    let r := line - p.start
    let (good, rep) := repeatState bufs p.start f r
    match sourceLine bufs cfg c.cross600 p.start p.len f r (coveredBy bufs) good rep with
    | .values v reason =>
      let un := s.unusableOf q line c0 n
      s.codesOf q line cfg (s.get ⟨Reg.RS_REDIST_CFG_w1.off, 0, 18⟩) un (·.usable) v reason c0 n
    | .blank reason => s.blankLine q line (reason ≠ 0) (reason = 2) false
    | .missing => s.blankLine q line false false false

end Sys2Proof.Machine
end

