-- ==== Sys2Proof/Machine/Seam.lean ====
section
/-! DEFINITION. The Seam (chapter 07): the ring (R167), the assembly of head lines (R169, R181 to R183, R186), fire maps (R174), bank
sparing (R188). -/

namespace Sys2Proof.Machine

/-! ### The ring (R167) -/

/-- Address of the byte that holds the code of plane column c for image line L in bank k of plane q. -/
def seamAddr (q k line c : Nat) : Nat := (17 * q + k) * 131072 + (line % 64 * 7680 + c / 16) / 4

/-- Bit position of the code in that byte. -/
def ringShift (c : Nat) : Nat := 2 * (c / 16 % 4)

/-- Address of the byte that holds the flag nibble of group g for image line L in bank k of plane q. -/
def flagAddr (q k line g : Nat) : Nat := (17 * q + k) * 131072 + 122880 + (120 * (line % 64) + g) / 2

/-- The group of a plane column: 1,024 columns each. -/
def flagGroup (c : Nat) : Nat := c / 1024

/-- The bank that reads of bank b come from: the spare where it has replaced b (R188). -/
def State.readBank (s : State) (q b : Nat) : Nat :=
  if s.on (Reg.SEAM_PLANEq_spare_in_use q) && s.get (Reg.SEAM_PLANEq_spared_bank q) = b then 16 else b

/-- The banks a write to bank b goes to (Table 07-4). -/
def State.writeBanks (s : State) (q b : Nat) : List Nat :=
  if s.readBank q b = 16 || s.seam.copying.any (fun c => c.1 == q && c.2.1 == b && c.2.2.1.isSome) then [b, 16] else [b]

/-- Or bits into a byte of the ring. -/
def orByte (m : List (Nat × BitVec 8)) (a v : Nat) : List (Nat × BitVec 8) :=
  Tab.set (fun _ => 0#8) m a (Tab.get (fun _ => 0#8) m a ||| BitVec.ofNat 8 v)

/-- Whether a ring address lies in the slot of an image line of plane q, in its data or its flags. -/
def inSlot (q line a : Nat) : Bool :=
  let o := a % 131072
  let sl := line % 64
  a / 131072 / 17 == q &&
    (if o < 122880 then o / 1920 == sl else (o - 122880) / 60 == sl)

/-- Write an image line of a plane into its slot: the codes and the flags of its beats (R167). -/
def State.writeRing (s : State) (q line : Nat) (l : SliceLine) : State :=
  let cleared := s.seam.ring.filter (fun e => !inSlot q line e.1)
  let data := (l.codes.zipIdx.filter (fun e => e.1 ≠ 0)).foldl (fun m (code, i) =>
    let c := l.first + i
    (s.writeBanks q (c % 16)).foldl (fun m k => orByte m (seamAddr q k line c) (code % 4 * 2 ^ ringShift c)) m) cleared
  let beats := (List.range (ceilDiv (l.first % 16 + l.codes.length) 16)).map (· + l.first / 16)
  let flagOf (beat : Nat) : Nat :=
    b2n l.subst + 2 * b2n (l.allPoison || l.poisonBeats.contains beat) + 8 * b2n l.late
  let groups := (beats.map fun b => (b / 64, flagOf b)).filter (fun e => e.2 ≠ 0)
  let flags := groups.eraseDups.foldl (fun m (g, v) =>
    (List.range 16).foldl (fun m b => (s.writeBanks q b).foldl (fun m k =>
      orByte m (flagAddr q k line g) (v * (if g % 2 = 0 then 1 else 16))) m) m) data
  s.modSeam fun e => { e with
    ring := flags
    poison := e.poison.filter (fun w => !(inSlot q line (32 * w) && 32 * w % 131072 < 122880)) }

/-- The code of a plane column in an image line as the ring holds it. -/
def State.ringCode (s : State) (q line c : Nat) : Nat :=
  (Tab.get (fun _ => 0#8) s.seam.ring (seamAddr q (s.readBank q (c % 16)) line c)).toNat / 2 ^ ringShift c % 4

/-- The ring word (address / 32) a column is read from. -/
def State.ringWord (s : State) (q line c : Nat) : Nat := seamAddr q (s.readBank q (c % 16)) line c / 32

/-- The flag nibble of a column's group; a poisoned flag word carries POISON. -/
def State.ringFlags (s : State) (q line c : Nat) : Nat :=
  let a := flagAddr q (s.readBank q (c % 16)) line (flagGroup c)
  let v := (Tab.get (fun _ => 0#8) s.seam.ring a).toNat / (if flagGroup c % 2 = 0 then 1 else 16) % 16
  if s.seam.poison.contains (a / 32) then v ||| 2 else v

/-! ### Assembling a head line -/

/-- floor of a down_offset in lines. -/
def downFloor (d : List (BitVec 8)) (a : Nat) : Int := plDown d a / 65536

/-- e_h: the seam age of head a (R167). -/
def seamAge (d : List (BitVec 8)) (a : Nat) : Nat :=
  let q := plPlane d a
  let low := (plHeads d q).foldl (fun (m : Int) b => min m (plDown d b)) (plDown d a)
  (downFloor d a - low / 65536).toNat

/-- One column of a head line: its code, the flags it carries, and the poisoned word it read. -/
structure ColCode where
  code : Nat
  flags : Nat
  bad : Option (Nat × Nat)
deriving DecidableEq, Repr

/-- Where a column takes image line L from: the ring, or a re-cut. -/
abbrev LineSource := Nat → Nat → ColCode

/-- A column of the ring (orders 4 and 5 of Table 07-3). -/
def State.fromRing (s : State) (q : Nat) : LineSource := fun line c =>
  let w := s.ringWord q line c
  if s.seam.poison.contains w then ⟨0, s.ringFlags q line c ||| 2, some (w, line)⟩
  else ⟨s.ringCode q line c, s.ringFlags q line c, none⟩

/-- Whether plane column c lies in the artwork of an image line (R137). -/
def State.inArt (s : State) (q line c : Nat) : Bool :=
  match s.artwork q line with
  | some (_, c0, n) => c0 ≤ c && c < c0 + n
  | none => false

/-- Head column i of head line k of head a (Table 07-3, R183). `banks` are the string's, oldest first; `use` tells by image line which
nozzles of a stitch were usable when the slice formed its set. -/
def State.assembleCol (s : State) (d : List (BitVec 8)) (q a k i : Nat) (banks : List Bank) (hs : List (Nat × Nat × Nat))
    (use : Nat → HeadCol → Bool) (src : LineSource) : ColCode :=
  let none_ : ColCode := ⟨0, 0, none⟩
  match banks.reverse.find? (fun b => b.start ≤ k) with
  | none => none_
  | some b =>
    let e := skewSel b.data (a % 8) i
    if skDisable e || skewBad a i b || k < skDelay e then none_
    else
      let line := k - skDelay e
      let c := plFirst d a + i
      if (printBank (a % 8) i line banks).map (·.start) ≠ some b.start then none_
      else if !s.inArt q line c then none_
      else if 1 < (hs.filter (fun h => h.2.1 ≤ c && c < h.2.1 + h.2.2)).length
          && ((s.printer q line c hs (use line)).map (·.a)) ≠ some a then none_
      else src line c

/-- Head line k of head a, and the poisoned words it read with their image lines (R181, R182, R186). -/
def State.assemble (s : State) (a k : Nat) (use : Nat → HeadCol → Bool) (src : LineSource) : HeadLine × List (Nat × Nat) :=
  let d := s.placementFor k
  let q := plPlane d a
  let banks := s.skewBanks (a / 8)
  let hs := s.headRuns d q
  let cols := (List.range (s.columnsOf d a)).map fun i => s.assembleCol d q a k i banks hs use src
  (⟨k, cols.map (·.code), cols.foldl (fun f c => f ||| c.flags) 0⟩, (cols.filterMap (·.bad)).eraseDups)

/-- Poisoned reads are counted; SEAM_POISON at most once per bank per 1 ms (R186). -/
def State.seamPoison (s : State) (q : Nat) (bad : List (Nat × Nat)) : State :=
  bad.foldl (fun s (w, line) =>
    let k := 32 * w / 131072 % 17
    let bank := if k = 16 then s.get (Reg.SEAM_PLANEq_spared_bank q) else k
    let key := q * 16 + bank
    let s1 := s.bump Reg.SEAM_POISON_COUNT 1
    let free := match s.seam.poisonPosted.find? (fun e => e.1 == key) with
      | some (_, t) => decide (t + 1000000 ≤ s.beat)
      | none => true
    if free then
      ((s1.modSeam fun e => { e with poisonPosted := (key, s.beat) :: e.poisonPosted.filter (fun p => p.1 != key) }).raise
        Reg.SEAM_STATUS_ring_poison).post 0x0414 [.b q, .b bank, .b (line % 64), .li line]
    else s1) s

/-- The farthest image line the slice of plane q may have begun: a lead and the seam history ahead of the web at the plane's own bar
(R119, R122; notes/assumptions/40.md). -/
def State.reach (s : State) (q : Nat) : Int :=
  let d := s.placementNow
  let low := match plHeads d q with
    | [] => 0
    | a :: l => l.foldl (fun m b => min m (downFloor d b)) (downFloor d a)
  s.refLineOf (s.webPos - (s.planeLine d q (low * 65536) - s.x0)) + s.lead + 63

/-- The first head line from the next one on that a skew bank of head a's string governs; the lines before it are never assembled (R173). -/
def State.asmFrom (s : State) (a : Nat) : Option Nat :=
  (s.skewBanks (a / 8)).head?.map fun b => max b.start (s.head a).asm

/-- Whether head line k of head a can be assembled: the pass that completes image line k + e_h has come (R169); a plane without a slice
gives blank lines up to where a slice would be (R159). -/
def State.mayAssemble (s : State) (a k : Nat) : Bool :=
  let d := s.placementFor k
  let q := plPlane d a
  s.streaming && plEn d a && s.served a && !s.heldAt a k &&
    (if s.planeServed q then decide (k + seamAge d a < (s.plane q).delivered)
     else decide ((k : Int) + seamAge d a ≤ s.reach q))

/-- SEAM_ASSEMBLE (R169, R181): the next head line of one head. -/
def execSeamAssemble (dt : Nat) (h : Fin 256) (s : State) : Result :=
  (s.advance dt).whenOn 6 fun s =>
  match s.asmFrom h with
  | none => .next s
  | some k =>
  if s.mayAssemble h k then
    let d := s.placementFor k
    let q := plPlane d h
    if s.planeServed q then
      let (l, bad) := s.assemble h k (s.setUse q) (s.fromRing q)
      .next ((s.seamPoison q bad).onHead h fun c => { c with asm := k + 1, ready := c.ready ++ [l] })
    else
      .next (s.onHead h fun c => { c with
        asm := k + 1, ready := c.ready ++ [⟨k, List.replicate (s.columnsOf d h) 0, 1⟩] })
  else .next s

/-- LINE_SEND is Tally's (R449): see Failover.lean. The largest d_c + e_h over a plane's banks in force (SEAM_PLANEq.depth_max). -/
def State.depthMax (s : State) (q : Nat) : Nat :=
  let d := s.placementNow
  (plHeads d q).foldl (fun m a =>
    match s.tableNow tSkew (a / 8) 0 with
    | none => m
    | some k => (List.range (s.columnsOf d a)).foldl (fun m i =>
        [0, 1].foldl (fun m r =>
          let e := skewRaw k (a % 8) i r
          if skDisable e then m else max m (skDelay e + seamAge d a)) m) m) 0

/-! ### Fire maps (R174, R175) -/

/-- The skew bank of head a whose map the node needs next, oldest first: the bank in force while its map is not acknowledged, then the
banks staged; with its poisoned words, and its effective head line once that is fixed. -/
def State.mapBank (s : State) (a : Nat) : Option (List (BitVec 8) × List Nat × Option Nat) :=
  let m := s.map a
  let acked (l : Nat) : Bool := m.acked.any (fun x => l ≤ x) || (match m.committed with | some (e, _) => l == e | none => false)
  let staged := s.sched.staged.filter (fun g => g.kind == tSkew && g.index == a / 8)
  match (s.banksOf tSkew (a / 8) 0).head? with
  | some b =>
    if !acked b.start then some (b.data, b.bad, some b.start)
    else (staged.find? fun g => match g.line with | some l => !acked l | none => true).map fun g => (g.data, g.bad, g.line)
  | none => staged.head?.map fun g => (g.data, g.bad, g.line)

/-- The map of a staged bank goes to the bank of a node that is neither in force nor pending (R174). -/
def State.stageMap (s : State) (a bank : Nat) : State :=
  let d := s.placementNewest
  match s.mapBank a with
  | some (skew, bad, _) =>
    if plEn d a then
      let m := fireMap a skew bad (s.columnsOf d a)
      (s.sendMapData a bank m).setMap a { s.map a with pending := some m }
    else s
  | none => s

/-- MAP_DATA_SEND (R174): into the node's bank that is neither in force nor pending. -/
def execMapDataSend (dt : Nat) (h : Fin 256) (s : State) : Result :=
  (s.advance dt).whenOn 7 fun s =>
  let d := s.placementNewest
  if plEn d h && (s.node h).known && !s.mapPending h then
    match s.mapBank h with
    | none => .next s
    | some (skew, bad, _) =>
      if (s.map h).pending = some (fireMap h skew bad (s.columnsOf d h)) then .next s
      else .next (s.stageMap h (s.freeNodeBank h))
  else .next s

/-- Commit the map sent to a head, at its bank's effective head line. -/
def State.commitMap (s : State) (a e : Nat) (m : List (BitVec 8)) : State :=
  let tag := (s.node a).tag
  (s.sendMapCommit a (s.freeNodeBank a) e m).setMap a { s.map a with pending := none, committed := some (e, tag), unseen := true, bank := s.freeNodeBank a }

/-- MAP_COMMIT_SEND (R174): once E is fixed and the node's other bank is no longer pending. -/
def execMapCommitSend (dt : Nat) (h : Fin 256) (s : State) : Result :=
  (s.advance dt).whenOn 7 fun s =>
  let s := s.fixLines
  match (s.map h).pending, s.mapPending h, s.mapBank h with
  | some m, false, some (_, _, some e) => .next (s.commitMap h e m)
  | _, _, _ => .next s

/-! ### Bank sparing (R188) -/

/-- The first image line begun after a SPARE_BANK request is L_s (Table 07-4), once no re-cut of the plane runs (R453) and unless the Deputy,
which replaces banks, is halted (Table 17-8). -/
def State.noteCopyStart (s : State) (q line : Nat) : State :=
  if s.deputyHalted || s.raster.recuts.any (fun c => c.plane == q && c.slice.isSome) then s
  else s.modSeam fun e => { e with
    copying := e.copying.map fun c => if c.1 == q && c.2.2.1.isNone then (c.1, c.2.1, some line, c.2.2.2) else c }

/-- BANK_SPARE_SWITCH (Table 07-4): L_s + 63 has been written. -/
def execBankSpareSwitch (dt : Nat) (q : Fin 10) (s : State) : Result :=
  (s.advance dt).whenOn 6 fun s =>
  if s.deputyHalted then .next s else
  match s.seam.copying.find? (fun c => c.1 == q.val) with
  | some (_, b, some ls, ring, n) =>
    if ls + 64 ≤ (s.plane q).delivered then
      let s1 := s.modSeam fun e => { e with copying := e.copying.filter (fun c => c.1 != q.val) }
      let s2 := ((s1.set (Reg.SEAM_PLANEq_spared_bank q) b).raise (Reg.SEAM_PLANEq_spare_in_use q)).clear (Reg.SEAM_PLANEq_copying q)
      .next (((s2.raise Reg.SEAM_STATUS_bank_spared).post 0x0416 [.b q, .b b, .li (ls + 63)]).endOp ring n stOk
        [(4, leBytes 6 (ls + 63))])
    else .next s
  | _ => .next s

end Sys2Proof.Machine
end

