-- ==== Sys2Proof/Machine/Share.lean ====
section
/-! DEFINITION. Sharing the image store's rate (R417, Table 16-3) and the bursts of an access unit (R413, R419): which requester class the
controllers serve next, and how a failing DQ pin shows in the codewords. -/

namespace Sys2Proof

/-! ### Requests by class (R417) -/

/-- The class after one in the round-robin of Table 16-3. -/
def StoreClass.next : StoreClass → StoreClass
  | .raster => .assay
  | .assay => .crusher
  | .crusher => .mirror
  | .mirror => .raster
  | .background => .raster

/-- Access units that wait in a class. -/
def StoreWait.units (w : StoreWait) : StoreClass → Nat
  | .raster => (w.raster.map (·.2)).sum
  | .assay => w.assay
  | .crusher => w.crusher
  | .mirror => w.mirror
  | .background => w.background

/-- One access unit of a plane's raster requests served, those of its first entry. -/
def serveRaster (q : Nat) : List (Fin 10 × Nat) → List (Fin 10 × Nat)
  | [] => []
  | (p, n) :: t => if p.val = q && 0 < n then (p, n - 1) :: t else (p, n) :: serveRaster q t

/-- One access unit of a class served; of the raster class, plane q's. -/
def StoreWait.serve (w : StoreWait) (c : StoreClass) (q : Nat) : StoreWait :=
  match c with
  | .raster => { w with raster := serveRaster q w.raster }
  | .assay => { w with assay := w.assay - 1 }
  | .crusher => { w with crusher := w.crusher - 1 }
  | .mirror => { w with mirror := w.mirror - 1 }
  | .background => { w with background := w.background - 1 }

/-! ### The burst of an access unit (R413, R419) -/

/-- The byte of 8 beats of a DQ pin's 16 from beat `h` on; the earliest beat is its bit 0 (notes/assumptions/64.md). -/
def pinByte (beats : BitVec 16) (h : Nat) : BitVec 8 := beats.extractLsb' h 8

/-- The symbol errors of codeword k of an access unit (R419): codewords 0 and 2 on DQ 0 to 35, 1 and 3 on DQ 36 to 71; 0 and 1 on beats 0
to 7, 2 and 3 on beats 8 to 15; and its virtual symbols. -/
def BurstErrors.symbols (e : BurstErrors) (k : Nat) : SymbolErrors :=
  (e.pins.filterMap fun x => if x.1.val / 36 = k % 2 then some (x.1.val % 36, pinByte x.2 (8 * (k / 2))) else none) ++
    (e.virt.filterMap fun x => if x.1.val = k then some (36 + x.2.1.val, x.2.2) else none)

end Sys2Proof

namespace Sys2Proof.Machine

/-! ### Requester classes (R417) -/

/-- Weight of a class of the round-robin (MEM_SHARE, 0 taken as 1); background has none. -/
def State.shareWeight (s : State) (c : StoreClass) : Nat :=
  let w := match c with
    | .raster => s.get Reg.MEM_SHARE_w_raster
    | .assay => s.get Reg.MEM_SHARE_w_assay
    | .crusher => s.get Reg.MEM_SHARE_w_crusher
    | .mirror => s.get Reg.MEM_SHARE_w_mirror
    | .background => 1
  max 1 w

/-- The round-robin's choice from class c on, which has `left` access units of its turn: a class without requests, or at the end of its
turn, gives it up to the next. -/
def roundRobin (weight : StoreClass → Nat) (w : StoreWait) : Nat → StoreClass → Nat → Option (StoreClass × Nat)
  | 0, _, _ => none
  | fuel + 1, c, left =>
    if 0 < left && 0 < w.units c then some (c, left - 1) else roundRobin weight w fuel c.next (weight c.next)

/-- The request served next, with its plane where it is a raster one, and the arbiter's state after it (R417): background once 63 other
access units have been served while it waits; then a raster request of a plane whose slice is short of blocks; then the round-robin; then
background (notes/assumptions/81.md). -/
def grantNext (weight : StoreClass → Nat) (urgent : Nat → Bool) (a : StoreArb) (w : StoreWait) : Option (StoreClass × Nat × StoreArb) :=
  let since := if w.background = 0 then 0 else a.since + 1
  let first (p : Fin 10 × Nat → Bool) : Option Nat := (w.raster.find? p).map (·.1.val)
  if 0 < w.background && 63 ≤ a.since then some (.background, 0, { a with since := 0 })
  else match first (fun e => decide (0 < e.2) && urgent e.1.val) with
    | some q => some (.raster, q, { a with since := since })
    | none =>
      match roundRobin weight w 5 a.turn a.left with
      | some (c, left) => some (c, (first (fun e => 0 < e.2)).getD 0, ⟨c, left, since⟩)
      | none => if 0 < w.background then some (.background, 0, { a with since := 0 }) else none

/-- Add a served access unit to the record of runs. -/
def addRun (runs : List (StoreClass × Nat)) (c : StoreClass) : List (StoreClass × Nat) :=
  match runs with
  | (d, n) :: t => if d = c then (d, n + 1) :: t else (c, 1) :: runs
  | [] => [(c, 1)]

/-- Serve requests until `stop` says of what still waits that the command's own are served: the arbiter, and the runs served, newest
first. -/
def serveUntil (weight : StoreClass → Nat) (urgent : Nat → Bool) (stop : StoreWait → Bool) :
    Nat → StoreArb → StoreWait → List (StoreClass × Nat) → StoreArb × List (StoreClass × Nat)
  | 0, a, _, runs => (a, runs)
  | fuel + 1, a, w, runs =>
    if stop w then (a, runs)
    else match grantNext weight urgent a w with
      | none => (a, runs)
      | some (c, q, a') => serveUntil weight urgent stop fuel a' (w.serve c q) (addRun runs c)

/-- The controllers serve what waits until `stop`: the order goes out (R417). -/
def State.serveStore (s : State) (urgent : Nat → Bool) (stop : StoreWait → Bool) (w : StoreWait) : State :=
  let total := w.units .raster + w.assay + w.crusher + w.mirror + w.background
  let (a, runs) := serveUntil s.shareWeight urgent stop total s.mem.arb w []
  (s.modMem fun m => { m with arb := a }).emit (.storeAccess runs.reverse)

/-- The codewords of access units with their errors, in order of the units given. -/
def unitWords (errors : List (Nat × BurstErrors)) : List (Nat × SymbolErrors) :=
  errors.flatMap fun x => (List.range 4).map fun k => (4 * x.1 + k, x.2.symbols k)

end Sys2Proof.Machine
end

