-- ==== Sys2Proof/Machine/Slice.lean ====
section
/-! DEFINITION. The commands of the raster slices (chapter 06): lines begun and completed, blocks fetched and verified, audit, failure,
takeover, self-test, re-cut, the release of retired banks. -/

namespace Sys2Proof.Machine

/-! ### Failure of a slice (R159, Table 06-7) -/

/-- spare idle. -/
def spIdle : Nat := 0
/-- spare auditing. -/
def spAudit : Nat := 1
/-- spare at a re-cut. -/
def spRecut : Nat := 2
/-- spare serving a plane. -/
def spServing : Nat := 3
/-- no spare available. -/
def spNone : Nat := 4

/-- Whether the spare is idle or auditing. -/
def State.spareFree (s : State) : Bool :=
  s.spareSlice.isSome && (s.get Reg.RS_SPARE_STATUS_state = spIdle || s.get Reg.RS_SPARE_STATUS_state = spAudit)

/-- A plane has no slice (R159). -/
def State.unserve (s : State) (q : Nat) : State :=
  (s.modRaster fun r => { r with unserved := q :: r.unserved }).post 0x040C [.b q]

/-- Slice n fails for a reason of Table 06-7 (R159): it stops, and what it held is lost; the spare takes its plane when it may, else the plane is unserved. The takeover is
the Deputy's: with the Deputy halted the fault becomes a fire inhibit instead (R452). -/
def State.failSlice (s : State) (n reason : Nat) : State :=
  let s0 := match s.planeOf n with
    | some q => (s.closeBehind q).onPlane q fun p => { p with busy := none, blocks := [] }
    | none => s
  let s1 := ((s0.modRaster fun r => { r with
    failed := n :: r.failed.filter (· != n)
    recuts := r.recuts.map fun c => if c.slice == some n then { c with slice := none } else c }).set
      (Reg.RSn_STATUS_state n) 3).post 0x0408 [.b n, .b reason]
  match s0.planeOf n with
  | none => if s1.spareSlice.isNone then s1.setSpare spNone 15 else s1
  | some q =>
    let s2 := s1.set (Reg.RSn_STATUS_plane n) 15
    match s.spareSlice with
    | some sp =>
      if s.on Reg.RS_SPARE_CFG_auto_takeover && s.spareFree then
        if s.deputyHalted then (s2.unserve q).deputyFault
        else (((s2.setSlice q sp).set (Reg.RSn_STATUS_plane sp) q).setSpare spServing q).modRaster fun r => { r with
          takeover := some (q, n, (s.plane q).delivered), auditRecheck := 0 }
      else s2.unserve q
    | none => s2.unserve q

/-! ### Late lines (Table 06-4) -/

/-- The smallest delay among the columns of head a whose selected row is enabled, in the bank that governs line L; none where no column
fires. -/
def State.minDelay (s : State) (a line : Nat) : Option Nat :=
  let banks := s.skewBanks (a / 8)
  (List.range (s.columnsOf (s.placementFor line) a)).foldl (fun m i =>
    match printBank (a % 8) i line banks with
    | none => m
    | some b =>
      let e := skewSel b.data (a % 8) i
      if skDisable e then m
      else match m with
        | none => some (skDelay e)
        | some x => some (min x (skDelay e))) none

/-- Whether a slice that begins image line L would be too late for the earliest of some heads (Table 06-4). -/
def State.tooLate (s : State) (heads : List Nat) (line : Nat) : Bool :=
  heads.any fun a => s.served a && (match s.minDelay a line with | some d => s.isLate a (line + d) | none => false)

/-! ### A line completed -/

/-- TABLE_POISON, at most once per table per 1 ms (R157): kind, plane, entry index. Each screen slot of a plane is a table. -/
def State.tablePoison (s : State) (kind q sub entry : Nat) : State :=
  let key := bankKey kind q sub
  let free := match s.raster.poisonPosted.find? (fun e => e.1 == key) with
    | some (_, t) => decide (t + 1000000 ≤ s.beat)
    | none => true
  if free then
    (s.modRaster fun r => { r with poisonPosted := (key, s.beat) :: r.poisonPosted.filter (fun p => p.1 != key) }).post 0x0403
      [.b q, .b kind, .n entry]
  else s

/-- The index of the entry at a byte offset of a raster table. -/
def entryOf (kind off : Nat) : Nat :=
  if kind = tTrim then off / 2
  else if kind = tTone then off / 520 * 256 + off % 520 / 2
  else (off - 16) / 6

/-- CRC-32C over a line's drop codes, four to a byte (R158). -/
def lineCrc (codes : List Nat) : Nat := crc32c (packCodes false codes.length codes)

/-- The audit of the spare follows the lines of a plane (R158): the lines due are kept, and its dwell runs. -/
def State.auditFollow (s : State) (q line : Nat) (l : SliceLine) : State :=
  if !s.on Reg.RS_SPARE_CFG_audit_en || !s.spareFree then s
  else
    let dwell := max 64 (s.get Reg.RS_SPARE_CFG_audit_dwell)
    let s0 := if s.get Reg.RS_SPARE_STATUS_state = spIdle then
        (s.setSpare spAudit s.raster.auditPlane).modRaster fun r => { r with auditLeft := dwell, auditRecheck := 0 }
      else s
    if s0.raster.auditPlane ≠ q then s0
    else
      let flagged := l.subst || l.allPoison || l.late || !l.poisonBeats.isEmpty
      let s1 := if line % 64 = Config.auditPhase % 64 then
          s0.onPlane q fun p => { p with crcs := p.crcs ++ [(line, lineCrc l.codes, b2n flagged)] }
        else s0
      if 1 < s1.raster.auditLeft || s1.raster.auditRecheck ≠ 0 then
        s1.modRaster fun r => { r with auditLeft := r.auditLeft - 1 }
      else
        let q' := (q + 1) % 10
        ((s1.modRaster fun r => { r with auditPlane := q', auditLeft := dwell }).onPlane q' fun p => { p with crcs := [] }).setSpare
          spAudit q'

/-- What a line of slice n for plane q tells of: POISON, poisoned table words (R157), empty screen slots (R146). -/
def State.noteFlags (s : State) (q n : Nat) (l : SliceLine) : State :=
  let s3 := if l.allPoison || !l.poisonBeats.isEmpty then s.raise (Reg.RSn_STATUS_poison_seen n) else s
  let s4 := l.tablePoison.foldl (fun s (kind, sub, off) => s.tablePoison kind q sub (entryOf kind off)) s3
  let fresh := l.emptyClasses.filter (fun e => !(s.plane q).slotEmpty.contains e.1)
  fresh.foldl (fun s (c, slot) => (s.onPlane q fun p => { p with slotEmpty := c :: p.slotEmpty }).post 0x0404 [.b q, .n c, .b slot]) s4

/-- A line leaves the slice: it enters the ring, and the slice's registers and flags follow. -/
def State.deliver (s : State) (q line : Nat) (l : SliceLine) : State :=
  let n := s.sliceOf q
  let s1 := (s.writeRing q line l).onPlane q fun p => { p with busy := none, delivered := line + 1 }
  let s2 := s1.set2 (Reg.RSn_LINE_LO n) (Reg.RSn_LINE_HI n) line
  (s2.noteFlags q n l).auditFollow q line l

/-- BLOCK_SUBST for every block of plane q that ends at or before an image line, printed, late or cut, and had lines substituted
(R141). -/
def State.blockEnds (s : State) (q line : Nat) : State :=
  let ends (b : BlockBuf) : Bool := b.substituted != 0 && b.reason != 5 &&
    (s.sched.spans.any fun p => p.start == b.span && decide (p.start + min p.len (b.line0 + b.lines) ≤ line + 1))
  ((s.plane q).blocks.filter ends).foldl (fun (s : State) b =>
    (s.raise (Reg.RSn_STATUS_subst_seen (s.sliceOf q))).post 0x0401
      [.b q, .n b.handle, .li (b.span + b.line0), .n b.substituted, .b b.reason])
    (s.onPlane q fun x => { x with blocks := x.blocks.map fun b => if ends b then { b with substituted := 0 } else b })

/-- The repeat state and the block counts after a print line r of a panel, from buffer b, with its reason (R141, R142, R159). -/
def State.afterLine (s : State) (q line : Nat) (p : Span) (b : BlockBuf) (reason : Nat) (good : Option (List Nat)) : State :=
  let r := line - p.start
  let n := s.sliceOf q
  let s1 := s.onPlane q fun x => { x with
    repeated := if reason = 0 then 0 else (if r = 0 then 0 else x.repeated) + 1
    good := match good with | some g => some (p.start, g) | none => x.good
    checkpoint := if r = b.line0 then some (b.pos, b.handle, r, x.repeated) else x.checkpoint
    blocks := x.blocks.map fun y => if y.span == b.span && y.pos == b.pos && reason ≠ 0 then
      { y with substituted := y.substituted + 1 } else y }
  let s2 := (if reason = 0 then s1 else s1.bump (Reg.RSn_SUBST_COUNT n) 1).blockEnds q line
  s2.onPlane q fun x => { x with
    blocks := x.blocks.filter fun y => p.start < y.span || (y.span == p.start && decide (r + 1 < y.line0 + y.lines + 2)) }

/-- Complete the line a slice has begun, when its blocks are verified (R140 to R147). -/
def State.completeLine (s : State) (q : Nat) : State :=
  let pl := s.plane q
  match pl.busy with
  | none => s
  | some (line, _) =>
    let cfg := s.pcfg q
    match s.artwork q line with
    | none => (s.deliver q line (s.blankLine q line false false false)).blockEnds q line
    | some (p, c0, n) =>
      let c := chainOf p q
      let f := s.factor c
      let r := line - p.start
      let covered := ((s.layout 0 0 c.handles).map fun (_, b, j) => f * j + blockLines f b).foldl max 0
      let good := match pl.good with | some (g, v) => if g = p.start then some v else none | none => none
      let rep := if r = 0 then 0 else pl.repeated
      match sourceLine pl.blocks cfg c.cross600 p.start p.len f r covered good rep with
      | .missing => s
      | .blank 0 => (s.deliver q line (s.blankLine q line false false false)).blockEnds q line
      | .blank reason =>
        let s1 := s.deliver q line (s.blankLine q line true (reason = 2) false)
        match bufferOf pl.blocks p.start r with
        | some b => s1.afterLine q line p b reason none
        | none => s1
      | .values v reason =>
        let s1 := s.deliver q line (s.codesOf q line cfg pl.redist pl.unusable (s.setUse q line) v reason c0 n)
        match bufferOf pl.blocks p.start r with
        | some b => s1.afterLine q line p b reason (if reason = 0 then goodLine pl.blocks p.start f (r / f) else none)
        | none => s1

/-! ### Beginning a line -/

/-- The tables of a plane switch for image line L, and the skew and stitch tables for head line L + 63 (Table 05-7, R125). -/
def State.switchPlane (s : State) (q line : Nat) : State :=
  let strs := (List.range 32).filter fun str => s.stringPlane str == some q
  let s1 := [(tTrim), tTone, tScreen, tXoff].foldl (fun (s : State) k => s.switchTable k q line) s
  let s2 := strs.foldl (fun (s : State) str => (s.switchTable tMask str line).switchTable tSkew str (line + 63)) s1
  s2.switchTable tStitch q (line + 63)

/-- The unusable set of a line (R154, R155): a change posts USABLE_CHANGE. -/
def State.formUsable (s : State) (q line : Nat) : State :=
  let cfg := s.pcfg q
  let redist := s.get ⟨Reg.RS_REDIST_CFG_w1.off, 0, 18⟩
  let (un, unc, lost) := match s.artwork q line with
    | none => ([], [], [])
    | some (_, c0, n) =>
      let un := s.unusableOf q line c0 n
      (un, s.uncoveredOf q line cfg redist c0 n un, s.stitchLost q line c0 n)
  let n := s.sliceOf q
  let changed := un != (s.plane q).unusable
  let s1 := (((s.noteLost q line lost).onPlane q fun p => { p with unusable := un, uncovered := unc, redist := redist }).set (Reg.RSn_UNUSABLE n)
    un.length).set (Reg.RSn_UNCOVERED n) unc.length
  if changed then
    s1.post 0x0405 [.b q, .li line, .n un.length, .n unc.length, .n (unc.head?.getD 0xFFFFFFFF)]
  else s1

/-- Whether a takeover of plane q is under way. -/
def State.takenOver (s : State) (q : Nat) : Bool := match s.raster.takeover with | some (p, _, _) => p == q | none => false

/-- Whether the slice of plane q may begin image line L (R135, R163, R169, and the reach of R122). -/
def State.mayBegin_ (s : State) (q line : Nat) : Bool :=
  let d := s.placementFor line
  s.streaming && s.slicing && plPlaneEn d q && s.planeServed q
    && (s.plane q).busy.isNone
    && !s.takenOver q
    && !(s.raster.recuts.any fun c => c.slice == some (s.sliceOf q))
    && decide ((line : Int) ≤ s.reach q)
    && (match s.lastLine with | some l => decide ((line : Int) ≤ l + 126) | none => true)
    && (plHeads d q).all fun a => !s.served a || s.heldAt a (s.head a).asm || (s.asmFrom a).all (fun k => decide (line ≤ k + seamAge d a))

/-- The committed line is the highest line a slice has begun (R122). -/
def State.commit (s : State) (line : Nat) : State :=
  let m := if s.sched.anyBegun then max s.committed line else line
  ((s.set2 Reg.LS_COMMIT_LINE_LO Reg.LS_COMMIT_LINE_HI m).modSched fun c => { c with anyBegun := true }).extend

/-- SLICE_BEGIN_LINE (R135, R154 to R156). -/
def execSliceBeginLine (dt : Nat) (q : Fin 10) (s : State) : Result :=
  (s.advance dt).whenOn 6 fun s =>
  let line := (s.plane q).next
  if s.mayBegin_ q line then
    let s1 := (s.switchPlane q line).commit line
    let s2 := (s1.onPlane q fun p => { p with next := line + 1 }).noteCopyStart q line
    let s3 := s2.set (Reg.RSn_STATUS_state (s2.sliceOf q)) 1
    let d := s3.placementFor line
    if s3.tooLate (plHeads d q) line then
      let s4 := (s3.deliver q line (s3.blankLine q line false false true)).bump (Reg.RSn_LATE_COUNT (s3.sliceOf q)) 1
      .next ((s4.blockEnds q line).onPlane q fun p => { p with
        lateRun := match p.lateRun with | some (f, n) => some (f, n + 1) | none => some (line, 1) })
    else
      let s4 := (s3.closeBehind q).formUsable q line
      .next ((s4.onPlane q fun p => { p with busy := some (line, s4.beat) }).completeLine q)
  else .next s

/-! ### Blocks -/

/-- The blocks of plane q's chains that print line `now` or a later one needs, in print order: panel, position, block, first contone
line. -/
def State.chainFrom (s : State) (q now : Nat) : List (Span × Nat × StoredBlock × Nat) :=
  s.sched.spans.flatMap fun p =>
    let c := chainOf p q
    if !c.present then []
    else
      let f := s.factor c
      (s.layout 0 0 c.handles).filterMap fun (i, b, j) =>
        if f * j < p.len && now < p.start + min p.len (f * j + blockLines f b) then some (p, i, b, j) else none

/-- The blocks a slice needs now: the present one and the next two; and the one before it, whose last line is the down-web neighbour of
the line it begins (R138, R143). -/
def State.chainAhead (s : State) (q : Nat) : List (Span × Nat × StoredBlock × Nat) :=
  let now := match (s.plane q).busy with | some (l, _) => l | none => (s.plane q).next
  let near := match s.spanAt now with
    | some p => if p.start < now && s.factor (chainOf p q) = 2 && pcKy (s.pcfg q) then
        (s.chainFrom q (now - 1)).filter fun e => e.1.start + s.factor (chainOf e.1 q) * e.2.2.2 + blockLines (s.factor (chainOf e.1 q)) e.2.2.1 == now
      else []
    | none => []
  near ++ (s.chainFrom q now).take 3

/-- Whether the slice of plane q holds fewer than two whole blocks fetched beyond the block in work, so that its raster requests come before
every other (R417). -/
def State.blocksShort (s : State) (q : Nat) : Bool :=
  let now := match (s.plane q).busy with | some (l, _) => l | none => (s.plane q).next
  let beyond := ((s.chainFrom q now).drop 1).filter fun e => (s.plane q).blocks.any fun b => b.span == e.1.start && b.pos == e.2.1
  decide (beyond.length < 2)

/-- A block whose key slot is unusable (R139): KEY_UNAVAILABLE once per stream per key slot. -/
def State.noteKey (s : State) (q n slot : Nat) : State :=
  if s.raster.keyPosted.contains slot then s
  else ((s.raise (Reg.RSn_STATUS_key_unavail n)).modRaster fun r => { r with keyPosted := slot :: r.keyPosted }).post 0x0402 [.b q, .b slot]

/-- BLOCK_FETCH (R138, R139): the next block of a plane's chain, at most two beyond the present one. Its pages are raster
requests, 32 access units each, among those that wait (R417). -/
def execBlockFetch (dt : Nat) (q : Fin 10) (wait : StoreWait) (s : State) : Result :=
  (s.advance dt).whenOn 6 fun s =>
  let have_ (p : Span) (i : Nat) : Bool := (s.plane q).blocks.any fun b => b.span == p.start && b.pos == i
  let ahead := s.chainAhead q
  if s.streaming && s.slicing && s.planeServed q && !s.takenOver q then
    match ahead.find? (fun e => !have_ e.1 e.2.1) with
    | none => .next s
    | some (p, i, b, j) =>
      let buf := s.fetchBlock p q i b j
      let own := if buf.reason = 0 || buf.reason = 2 then 32 * b.pages.length else 0
      let others := wait.raster.filter (·.1 != q)
      let s0 := if own = 0 then s
        else s.serveStore s.blocksShort (fun w => !(w.raster.any fun e => e.1 == q && e.2 != 0)) { wait with raster := others ++ [(q, own)] }
      let s1 := s0.onPlane q fun x => { x with blocks := x.blocks ++ [buf] }
      let s2 := if buf.reason = 3 then s1.noteKey q (s.sliceOf q) p.keySlot
        else if buf.reason = 5 then s1.post 0x0A08 [.b q, .n b.handle]
        else s1
      .next s2.refresh
  else .next s

/-- BLOCK_VERIFY (R140, R141, R359): the oldest fetched block of a plane that is not verified. -/
def execBlockVerify (dt : Nat) (q : Fin 10) (s : State) : Result :=
  (s.advance dt).whenOn 6 fun s =>
  match (s.plane q).blocks.find? (fun b => !b.verified) with
  | none => .next s
  | some b =>
    match s.sched.spans.find? (fun p => p.start == b.span) with
    | none => .next s
    | some p =>
      let c := chainOf p q
      let b' := s.verifyBlock q (s.chainWidth c) c b
      .next ((s.onPlane q fun x => { x with
        blocks := x.blocks.map fun y => if y.span == b.span && y.pos == b.pos then b' else y }).completeLine q)

/-! ### Audit (R158) -/

/-- SPARE_AUDIT_LINE (R158): the spare has recomputed the oldest due line of the audited plane; `crc` is its CRC where it differs from
the working slice's. -/
def execSpareAuditLine (dt : Nat) (crc : Option (BitVec 32)) (s : State) : Result :=
  (s.advance dt).whenOn 6 fun s =>
  let q := s.raster.auditPlane
  if s.get Reg.RS_SPARE_STATUS_state = spAudit then
    match (s.plane q).crcs with
    | [] => .next s
    | (line, c, flagged) :: t =>
      let s1 := s.onPlane q fun p => { p with crcs := t }
      if flagged = 1 then .next s1
      else
        let s2 := s1.bump Reg.RS_AUDIT_COUNT 1
        let differs := match crc with | some v => v.toNat != c | none => false
        if differs then
          let s3 := ((s2.bump Reg.RS_AUDIT_MISMATCH 1).raise Reg.RS_SPARE_STATUS_mismatch).post 0x0407
            [.b q, .b (s2.sliceOf q), .li line]
          if s.raster.auditRecheck = 0 then .next (s3.modRaster fun r => { r with auditRecheck := 4 })
          else .next ((s3.modRaster fun r => { r with auditRecheck := 0 }).failSlice (s.sliceOf q) 1)
        else .next (s2.modRaster fun r => { r with auditRecheck := r.auditRecheck - 1 })
  else .next s

/-! ### Failure, takeover, self-test -/

/-- SLICE_LINE_TIMEOUT (R159 reason 2): a line not completed within 100 µs. -/
def execSliceLineTimeout (dt : Nat) (n : Fin 11) (s : State) : Result :=
  (s.advance dt).whenOn 6 fun s =>
  match s.planeOf n with
  | none => .next s
  | some q =>
    match (s.plane q).busy with
    | some (_, t) => if t + 100000 ≤ s.beat && s.planeServed q then .next (s.failSlice n 2) else .next s
    | none => .next s

/-- SLICE_TAKEOVER (R160): the spare re-produces the seam history from the checkpoint block and goes on at L_f. A Deputy that has halted since
finishes no takeover (R452). -/
def execSliceTakeover (dt : Nat) (s : State) : Result :=
  (s.advance dt).whenOn 6 fun s =>
  match s.raster.takeover with
  | none => .next s
  | some (q, failed, lf) =>
    if s.deputyHalted then .next s.deputyFault else
    let s1 := (s.modRaster fun r => { r with takeover := none }).onPlane q fun p => { p with
      next := lf, busy := none, blocks := [], repeated := 0, good := none }
    let s2 := (List.range (min 63 lf)).foldl (fun (s : State) i =>
      let line := lf - min 63 lf + i
      (s.writeRing q line (s.recutLine q line)).noteLost q line
        (match s.artwork q line with | some (_, c0, n) => s.stitchLost q line c0 n | none => [])) s1
    let rep := match s2.artwork q lf with
      | some (p, _, _) => (p.start, repeatState (s2.allBlocks p q) p.start (s2.factor (chainOf p q)) (lf - p.start))
      | none => (0, none, 0)
    let s3 := s2.onPlane q fun p => { p with good := rep.2.1.map fun g => (rep.1, g), repeated := rep.2.2 }
    .next ((s3.raise Reg.RS_SPARE_STATUS_takeover).post 0x0409 [.b q, .b failed, .b (s3.sliceOf q), .li lf])

/-- take of RS_SPARE_CTRL (R159 reason 4, R166): a working slice fails. -/
def State.spareTake (s : State) (n : Nat) : State :=
  if (s.planeOf n).isSome && !s.raster.failed.contains n then s.failSlice n 4 else s

/-- SPARE_TAKE (R166). -/
def execSpareTake (dt : Nat) (n : Fin 16) (s : State) : Result :=
  .next ((s.advance dt).hostWrite Reg.RS_SPARE_CTRL_take.off fun s => s.spareTake n)

/-- restore of RS_SPARE_CTRL (R161): the self-test of a failed slice begins. -/
def State.spareRestore (s : State) (n : Nat) : State :=
  if s.raster.failed.contains n && s.raster.bist.isNone then
    ((s.modRaster fun r => { r with bist := some (n, s.beat) }).clear (Reg.RSn_BIST_done n)).clear (Reg.RSn_BIST_pass n)
  else s

/-- SPARE_RESTORE (R161). -/
def execSpareRestore (dt : Nat) (n : Fin 16) (s : State) : Result :=
  .next ((s.advance dt).hostWrite Reg.RS_SPARE_CTRL_restore.off fun s => s.spareRestore n)

/-- SLICE_BIST_DONE (R161). -/
def execSliceBistDone (dt : Nat) (pass : Bool) (s : State) : Result :=
  (s.advance dt).whenOn 6 fun s =>
  match s.raster.bist with
  | none => .next s
  | some (n, _) =>
    let s1 := ((s.modRaster fun r => { r with bist := none }).raise (Reg.RSn_BIST_done n)).setOn (Reg.RSn_BIST_pass n) pass
    if pass then
      let s2 := ((s1.modRaster fun r => { r with spare := some (s.spareSlice.getD n), failed := r.failed.filter (· != n) }).set (Reg.RSn_STATUS_state n) 4).set
        (Reg.RSn_STATUS_plane n) 15
      .next (if s.spareSlice.isNone then s2.setSpare spIdle 15 else s2)
    else .next s1

/-! ### Re-cut (R162, R163) -/

/-- Whether a request that waits overlaps another: one plane, and windows and lines that meet (R163). -/
def Recut.meets (c d : Recut) : Bool :=
  c.plane == d.plane && c.slice.isNone && d.first ≤ c.last && c.first ≤ d.last && d.lm ≤ c.le && c.lm ≤ d.le

/-- Two requests as one. -/
def Recut.hull (c d : Recut) : Recut :=
  { d with first := min c.first d.first, last := max c.last d.last, lm := min c.lm d.lm, le := max c.le d.le }

/-- Put a request into the list, merged with every one it overlaps and with those that the union then overlaps, in the place of the
oldest (R163). -/
def mergeRecut : Nat → Nat → Recut → List Recut → List Recut
  | 0, _, c, l => l ++ [c]
  | fuel + 1, at_, c, l =>
    if l.any (·.meets c) then
      mergeRecut fuel (min at_ (l.findIdx (·.meets c))) ((l.filter (·.meets c)).foldl (fun c d => d.hull c) c) (l.filter (!·.meets c))
    else l.take at_ ++ [c] ++ l.drop at_

/-- Ask for a re-cut. -/
def State.askRecut (s : State) (q first last lm le : Nat) : State :=
  if le < lm then s
  else s.modRaster fun r => { r with
    recuts := mergeRecut (r.recuts.length + 1) r.recuts.length ⟨q, first, last, lm, le, none⟩ r.recuts }

/-- Name the slice of a request. -/
def startRecut (n : Nat) (c : Recut) (l : List Recut) : List Recut := l.map fun d => if d = c then { d with slice := some n } else d

/-- RECUT_START (R163): the oldest request that waits and that a slice could perform is begun by the spare, or by the plane's own
slice, while no other recovery runs on its plane (R453). A halted Deputy performs none (R452). -/
def execRecutStart (dt : Nat) (s : State) : Result :=
  (s.advance dt).whenOn 6 fun s =>
  match s.raster.recuts.find? (fun c =>
      c.slice.isNone && (s.planeServed c.plane || s.spareSlice.isSome) && !s.resourceBusy (planeResource c.plane)) with
  | none => .next s
  | some c =>
    if s.deputyHalted then .next s.deputyFault else
    let by_ (n : Nat) (s : State) : State :=
      ((s.modRaster fun r => { r with recuts := startRecut n c r.recuts, auditRecheck := 0 }).set (Reg.RSn_STATUS_state n) 2).post
        0x040A [.b c.plane, .n c.first, .n c.last, .li c.lm, .li c.le, .b n]
    match (if s.spareFree then s.spareSlice else none) with
    | some n => .next ((by_ n s).setSpare spRecut c.plane)
    | none =>
      let n := s.sliceOf c.plane
      if s.planeServed c.plane && (s.plane c.plane).busy.isNone && !(s.raster.recuts.any fun d => d.slice == some n) then
        .next (by_ n s)
      else .next s

/-- The first line a re-cut produces: that of the block that holds L_m - 63, or of the panel of L_m when that is later (R162). -/
def State.recutFirst (s : State) (q lm : Nat) : Nat :=
  let l := lm - 63
  max ((s.spanAt lm).map (·.start) |>.getD 0) <| match s.spanAt l with
  | none => l
  | some p =>
    let c := chainOf p q
    let f := s.factor c
    match (s.layout 0 0 c.handles).find? (fun e => decide (f * e.2.2 ≤ l - p.start) &&
        decide (l - p.start < f * e.2.2 + blockLines f e.2.1)) with
    | some (_, _, j) => p.start + f * j
    | none => max p.start l

/-- Where a re-cut's lines are taken from. -/
def recutSource (lines : List (Nat × SliceLine)) : LineSource := fun line c =>
  match lines.find? (fun e => e.1 == line) with
  | none => ⟨0, 0, none⟩
  | some (_, l) =>
    let poison := l.allPoison || l.poisonBeats.any (fun b => b / 64 == flagGroup c)
    ⟨if c < l.first then 0 else l.codes.getD (c - l.first) 0, b2n l.subst + 2 * b2n poison + 8 * b2n l.late, none⟩

/-- Put head lines into the list of lines that wait, in line order; one already there stays. -/
def insertLine (l : HeadLine) : List HeadLine → List HeadLine
  | [] => [l]
  | m :: t => if l.k < m.k then l :: m :: t else if l.k = m.k then m :: t else m :: insertLine l t

/-- Runs of numbers that follow one another: first and count. -/
def runsOf : List Nat → List (Nat × Nat)
  | [] => []
  | x :: t =>
    match runsOf t with
    | (f, n) :: r => if f = x + 1 then (x, n + 1) :: r else (x, 1) :: (f, n) :: r
    | [] => [(x, 1)]

/-- Tables 06-2 and 06-4 on the lines slice n has produced again for plane q: LATE lines and substituted lines are counted, their runs and
blocks reported, and so are poison, empty screen slots and an unusable key (R162). -/
def State.noteRecut (s : State) (q n : Nat) (lines : List (Nat × SliceLine)) : State :=
  let late := (lines.filter (·.2.late)).map (·.1)
  let s1 := (runsOf late).foldl (fun (s : State) r =>
    (s.raise (Reg.RSn_STATUS_late_seen n)).post 0x0406 [.b q, .li r.1, .n r.2]) (s.bump (Reg.RSn_LATE_COUNT n) late.length)
  let subst := (lines.filter (·.2.subst)).map (·.1)
  let s2 := s1.bump (Reg.RSn_SUBST_COUNT n) subst.length
  let s3 := s.sched.spans.foldl (fun (s : State) p =>
    if subst.any (fun l => p.start ≤ l && l < p.start + p.len) then
      (s.allBlocks p q).foldl (fun (s : State) b =>
        let k := (subst.filter fun l => p.start + b.line0 ≤ l && l < p.start + min p.len (b.line0 + b.lines)).length
        let s' := if k ≠ 0 && b.reason = 3 then s.noteKey q n p.keySlot else s
        if k = 0 || b.reason = 5 then s'
        else (s'.raise (Reg.RSn_STATUS_subst_seen n)).post 0x0401 [.b q, .n b.handle, .li (p.start + b.line0), .n k, .b b.reason]) s
    else s) s2
  lines.foldl (fun (s : State) l => s.noteFlags q n l.2) s3

/-- RECUT_DONE (R162, R163): the lines are produced anew and the head lines from L_m to L_e assembled anew for the heads of the
window. -/
def execRecutDone (dt : Nat) (s : State) : Result :=
  (s.advance dt).whenOn 6 fun s =>
  match s.raster.recuts.find? (fun c => c.slice.isSome) with
  | none => .next s
  | some c =>
    let q := c.plane
    let d := s.placementNow
    let heads := (plHeads d q).filter fun a =>
      s.served a && decide (plFirst d a ≤ c.last) && decide (c.first < plFirst d a + s.columnsOf d a)
    let b := s.recutFirst q c.lm
    let top := min c.le ((s.plane q).delivered - 1)
    let isLate_ (line : Nat) : Bool := decide (c.lm ≤ line) && s.tooLate heads line
    let lines := (List.range (c.le + 1 - b)).map fun i =>
      (b + i, if isLate_ (b + i) then s.blankLine q (b + i) false false true else s.recutLine q (b + i))
    let late := (lines.filter (fun e => e.2.late)).length
    let s1 := if (s.plane q).delivered = 0 then s else heads.foldl (fun (s : State) a =>
      let ks := ((List.range (top + 1 - c.lm)).map (· + c.lm)).filter (· < (s.head a).asm)
      ks.foldl (fun (s : State) k =>
        let (l, _) := s.assemble a k (fun _ h => h.usable) (recutSource lines)
        s.onHead a fun h => { h with ready := insertLine l h.ready }) s) s
    let n := c.slice.getD 0
    let s2 := s1.modRaster fun r => { r with recuts := r.recuts.filter (· != c) }
    let s3 :=
      if s2.spareSlice == some n then (s2.setSpare spIdle 15).set (Reg.RSn_STATUS_state n) 4
      else s2.set (Reg.RSn_STATUS_state n) 1
    .next ((s3.noteRecut q n lines).post 0x040B [.b q, .n (c.le + 1 - b), .n late])

/-! ### Retired banks (R153) -/

/-- Whether every served head of a plane has passed a head line (R153): it has been bound and its bind time has passed, or it was
skipped. -/
def State.headsPassed (s : State) (q line : Nat) : Bool :=
  !s.streaming || (plHeads s.placementNow q).all fun a =>
    !s.served a || (decide (line < (s.head a).next) && (s.head a).bound.all fun b => decide (line < b.k) || before b.t s.now)

/-- RASTER_BANK_RELEASE (R153): retired banks of a raster table go once every served head has passed line S + 191. -/
def execRasterBankRelease (dt : Nat) (kind : Fin 12) (q : Fin 10) (sub : Fin 4) (s : State) : Result :=
  (s.advance dt).whenOn 6 fun s =>
  let k := kind.val
  if k = tTrim || k = tTone || k = tScreen then
    match s.banksOf k q sub with
    | b :: (_ :: _) =>
      if s.headsPassed q (b.start + 191) then .next ((s.setBanks k q sub [b]).fixLines) else .next s
    | _ => .next s
  else .next s

end Sys2Proof.Machine
end

