-- ==== Sys2Proof/Machine/TallyCore.lean ====
section
/-! DEFINITION. The tally (chapter 17): lease messages (R437), what calls for release (R440), losing the tally (R438, R445), warm-up
(R446), taking the tally (R439, R449, R450). -/

namespace Sys2Proof.Machine

/-! ### Lease messages (R436, R437) -/

/-- RENEW. -/
def opRenew : Nat := 1
/-- HEALTH. -/
def opHealth : Nat := 2
/-- GRANT. -/
def opGrant : Nat := 3
/-- RELEASE. -/
def opRelease : Nat := 4

/-- The first UP pair-link lane. -/
def State.pairLane (s : State) : Option Nat := ((List.range 4).map (· + 64)).find? fun n => s.laneUp n

/-- A lease message (Table 17-3). -/
def State.leaseBytes (s : State) (op flags epoch target : Nat) : List (BitVec 8) :=
  let m := beBytes 1 3 ++ beBytes 1 op ++ beBytes 2 (s.get Reg.PAIR_CFG_pair_id) ++ beBytes 2 s.tally.seq
    ++ beBytes 1 (s.get Reg.PAIR_CFG_end + 2 * s.get Reg.TALLY_STATUS_role) ++ beBytes 1 flags ++ beBytes 4 epoch
    ++ beBytes 4 (s.get Reg.TALLY_MAX_H) ++ compactBytes s.now ++ beBytes 8 (wrap 64 s.webPos) ++ beBytes 2 target
    ++ beBytes 2 (s.get Reg.WCP_CFG_publisher_id) ++ beBytes 4 0
  m ++ beBytes 4 (crc32c m)

/-- Send a lease message's bytes: on the pair link, and on each port that net_ports names, padded in Ethernet encapsulation (R437). -/
def State.sendLeaseBytes (s : State) (m : List (BitVec 8)) : State :=
  let s1 := s.modTally fun t => { t with seq := (t.seq + 1) % 65536 }
  let s2 := match s.pairLane with
    | some n => s1.sendPacket n (packet 0xC 0 0 0 0 0 m)
    | none => s1
  (List.range 2).foldl (fun (s : State) p => if bit (s.get Reg.PAIR_CFG_net_ports) p then s.sendWc p m else s) s2

/-! ### Self-diagnosis (R440, R441) -/

/-- The newest HEALTH of the partner is no older than 200 µs and has fit set (R440). -/
def State.partnerFit (s : State) : Bool :=
  match s.tally.peer with
  | some p => decide (s.beat ≤ p.at_ + 200000) && bit p.flags 1
  | none => false

/-- A hard condition of Table 17-4 holds: Deputy halted, a reset of domain POS, MEM, RASTER, LANE or CTRL, or a clock-monitor alarm;
CHIP_SHUTDOWN releases by its own sequence (R282). -/
def State.hardCondition (s : State) : Bool :=
  s.deputyHalted || [2, 5, 6, 7, 10].any (fun d => s.power.domainReset.contains d) || bit (s.get Reg.SEC_ALARM_active) 10

/-- Uncorrectable codewords of a channel within the last second (Table 17-4). -/
def State.manyUncorrectable (s : State) : Bool :=
  s.mem.ueTimes.any fun e => decide (16 < (e.2.filter (fun t => s.beat ≤ t + 1000000000)).length)

/-- A running job is one that has begun a panel. -/
def State.runningKeysGood (s : State) : Bool := s.sched.jobs.all fun b => b.begun = 0 || s.keyUsable b.keySlot

/-- A soft condition of Table 17-4 holds: POSITION_LOST, PLANE_UNSERVED, a running job's key slot erased or locked, or more than 16
uncorrectable codewords on one channel within 1 s. -/
def State.softCondition (s : State) : Bool :=
  s.obs.lost || !s.raster.unserved.isEmpty || !s.runningKeysGood || s.manyUncorrectable

/-- A condition calls for release (R440). -/
def State.callsRelease (s : State) : Bool := s.hardCondition || (s.softCondition && s.partnerFit)

/-- The flags byte of a RENEW or HEALTH (Table 17-3): `b4` is handover or warm. -/
def State.leaseFlags (s : State) (b4 : Bool) : Nat :=
  b2n (!s.callsRelease) + 2 * b2n s.fit + 4 * b2n (s.on Reg.OBS_STATUS_pos_valid)
    + 8 * b2n (s.on Reg.TALLY_STATUS_mirror_current) + 16 * b2n b4

/-- Send RENEW, HEALTH or RELEASE. -/
def State.sendLease (s : State) (op : Nat) (b4 : Bool) : State :=
  s.sendLeaseBytes (s.leaseBytes op (s.leaseFlags b4) s.epoch 0)

/-! ### Losing the tally (R438, R391, R445) -/

/-- The operations that need the tally (Table 15-1); TABLE_LOAD by `abortTables`. -/
def needsTally (opcode : Nat) : Bool := [0x01, 0x02, 0x03, 0x10, 0x11, 0x19, 0x1A, 0x1B, 0x28, 0x39].contains opcode

/-- The result of a RESIST_SCAN so far (Table 15-6). -/
def ScanOp.result (c : ScanOp) : List (Nat × List (BitVec 8)) :=
  [(4, leBytes 1 c.scanned), (8, leBytes 4 c.measured), (12, leBytes 4 c.missed), (16, leBytes 4 c.changed)]

/-- The result of a DROP_CHECK so far (Table 15-6). -/
def GateOp.result (c : GateOp) (blocked : Bool) : List (Nat × List (BitVec 8)) :=
  [(4, leBytes 2 c.total.1), (6, leBytes 2 c.total.2.1), (8, leBytes 2 c.total.2.2.1), (10, leBytes 2 c.total.2.2.2),
   (12, leBytes 1 c.checked), (13, leBytes 1 (b2n blocked))]

/-- End several handover operations alike: ring, entry, beat of each. -/
def State.endOps (s : State) (l : List (Nat × Nat × Nat)) (status : Nat) (res : List (Nat × List (BitVec 8))) : State :=
  l.foldl (fun s x => s.endOp x.1 x.2.1 status res) s

/-- A scan's counts with what the scan of the head and row under way has counted so far. -/
def ScanOp.soFar (c : ScanOp) : ScanOp :=
  if c.now.isSome then { c with
    measured := c.measured + c.curMeasured, missed := c.missed + c.curMissed, changed := c.changed + c.curChanged }
  else c

/-- Keep-wet spitting of the heads that meet a test starts its idle time anew: they have not stayed eligible (R268). -/
def State.endWet (s : State) (p : Nat → Bool) : State :=
  s.modCare fun c => { c with heads := c.heads.map fun e =>
    match e.2.spat with
    | some t => if p e.1 then (e.1, { e.2 with fired := max e.2.fired t, spat := none }) else e
    | none => e }

/-- Care operations end with ABORTED_BY_TALLY (R256, R283, R391); what they have found stands, and is told (R256, R257, R266). -/
def State.abortCare (s : State) : State :=
  let s1 := s.care.scans.foldl (fun (s : State) c =>
    (match c.now with
      | some (a, row, _) => s.scanNotes c a row
      | none => s).endOp c.ring c.n stAborted c.soFar.result) s
  let s2 := s1.care.gates.foldl (fun (s : State) c =>
    ((match c.todo with
      | (a, row) :: _ => s.gateRowDone c a row
      | [] => s).endOp c.ring c.n stAborted (c.result false)).clear (Reg.DGq_STATUS_busy c.plane)) s1
  (s2.modCare fun c => { c with scans := [], gates := [] }).endWet fun _ => true

/-- Operations marked Yes that are in progress end with ABORTED_BY_TALLY; staged tables are not applied (R391). -/
def State.abortOps (s : State) : State :=
  let s1 := s.abortCare.abortTables
  s1.rings.flight.foldl (fun (s : State) f =>
    if f.begun && f.ended.isNone && needsTally f.opcode then s.endOp f.ring f.n stAborted [] else s) s1

/-- Slices and Seam stop, and what they have produced is discarded (R442, R445); the spare does not audit. -/
def State.stopSlices (s : State) : State :=
  let s1 := (s.modRaster fun r => { r with
    recuts := [], planes := r.planes.map fun e => (e.1, { e.2 with busy := none, blocks := [] }) }).modSched fun c =>
      { c with heads := c.heads.map fun e => (e.1, { e.2 with ready := [] }) }
  let s2 := s1.idleSlices
  if s2.get Reg.RS_SPARE_STATUS_state = 1 then s2.setSpare 0 15 else s2

/-- Assay and Foreman stop (R445): frames in work are dropped, and records not taken. -/
def State.stopWork (s : State) : State :=
  (s.modAssay fun a => { a with
    ports := a.ports.map fun e => (e.1, { e.2 with frames := [], buffer := [], waiting := [], others := [], occ := [], captures := [] }) }).modFm
      fun f => { f with queue := [] }

/-- The holder loses the tally, TALLY_LOST with a cause of Table 17-10 (R438, R391, R445): it fences itself and enters COLD. -/
def State.fence (s : State) (cause : Nat) : State :=
  if !s.held_ then s
  else
    let s1 := (((s.clear Reg.TALLY_STATUS_held).set Reg.TALLY_STATUS_role (if s.config = 0 then 0 else 2)).raise
      Reg.TALLY_STATUS_lost_seen).post 0x0A02 [.n s.epoch, .b cause]
    let s2 := (s1.abortOps.stopSlices.stopWork.modTally fun t => { t with
      unacked := [], mirrored := false, replaced := [], relays := [], running := [], waiting := [], takenFrom := none }).showRelays
    (s2.clear Reg.TALLY_STATUS_mirror_current).enter stCold

/-! ### Warm-up (R446) -/

/-- hr of the newest STATUS of a head (Table 09-10). -/
def State.hr (s : State) (a : Nat) : Nat := beAt (s.node a).status 24 6

/-- The served, enabled heads of a plane. -/
def State.servedHeads (s : State) (q : Nat) : List Nat := (plHeads s.placementNow q).filter fun a => s.served a

/-- K_q (R446); none where no head of the plane is served. -/
def State.warmLine (s : State) (q : Nat) : Option Nat :=
  (s.servedHeads q).foldl (fun (m : Option Nat) a =>
    let k := s.hr a + 1 + seamAge s.placementNow a
    match m with | some x => some (min x k) | none => some k) none

/-- The first image line of the block of plane q that holds a line; the line itself where no block does. -/
def State.blockStart (s : State) (q line : Nat) : Nat :=
  match s.spanAt line with
  | none => line
  | some p =>
    let c := chainOf p q
    let f := s.factor c
    match (s.layout 0 0 c.handles).find? (fun e =>
        decide (p.start + f * e.2.2 ≤ line) && decide (line < p.start + f * e.2.2 + blockLines f e.2.1)) with
    | some e => if c.present then p.start + f * e.2.2 else line
    | none => line

/-- Warm-up begins: every slice of an enabled plane starts at the block that holds K_q - 63, and each head will be sent from hr + 1. -/
def State.beginWarm (s : State) : State :=
  let s1 := (s.stopSlices).raise Reg.TALLY_STATUS_warming
  if !s.streaming then s1
  else (List.range 10).foldl (fun (s : State) q =>
    match s.warmLine q with
    | none => s
    | some k =>
      let b := s.blockStart q (k - 63)
      let s2 := s.onPlane q fun p => { p with
        next := b, delivered := b, busy := none, blocks := [], repeated := 0, good := none, lateRun := none }
      (s.servedHeads q).foldl (fun (s : State) a => s.onHead a fun h => { h with
        asm := s.hr a + 1, ready := [], sent := some (s.hr a) }) s2) s1

/-- The slices have produced the lines of R446: every plane's K_q is delivered. -/
def State.warm (s : State) : Bool :=
  s.on Reg.TALLY_STATUS_warming && (List.range 10).all fun q =>
    match s.warmLine q with
    | some k => decide (k < (s.plane q).delivered) || !s.streaming
    | none => true

/-- A RENEW during warm-up ends it, and what it has produced is discarded (R442). -/
def State.endWarm (s : State) : State :=
  if s.on Reg.TALLY_STATUS_warming then (s.stopSlices).clear Reg.TALLY_STATUS_warming else s

/-! ### Taking the tally (R439, R449, R450) -/

/-- The epoch with which this device would take the tally (R439): one more than the highest it knows of, and no lower than that of the GRANT,
which the arbiter has formed so. -/
def State.nextEpoch (s : State) (grant : Option Nat) : Nat :=
  let peer := match s.tally.peer with | some p => p.maxH | none => 0
  max (1 + max (max s.epoch s.tally.peerEpoch) (max peer (s.get Reg.TALLY_MAX_H))) (grant.getD 0)

/-- The Foreman starts on the tables in force as its base, every term 0, E of every loop the first parting not committed (R450). -/
def State.foremanTakeover (s : State) : State :=
  let e := (s.nextParting).getD 0
  let keys := (bankKey tPlacement 0 0) :: ((List.range 10).map (fun q => bankKey tTrim q 0) ++ (List.range 32).map (fun t => bankKey tSkew t 0))
  let s1 := s.modFm fun f => { f with
    bases := keys.foldl (fun b k => match (Tab.get (fun _ => []) s.sched.banks k).head? with
      | some d => Tab.set (fun _ => []) b k d.data
      | none => b) f.bases
    bd := [], nz := [], ff := [], moves := [], changes := [], refused := [], ffDone := [] }
  let s2 := (List.range 10).foldl (fun (s : State) q =>
    ((((s.setI (Reg.FM_PDq_pd q) 0).setI (Reg.FM_REGq_dt q) 0).setI (Reg.FM_REGq_xoff q) 0).setFmSince 2 q e).setFmSince 3 q e) s1
  (plHeads s.placementNow 0 ++ (List.range 9).flatMap (fun q => plHeads s.placementNow (q + 1))).foldl
    (fun (s : State) h => s.setFmSince 1 h e) (s2.modSched fun c => { c with
      banks := c.banks.filter fun b => b.1 / 65536 != 12, staged := c.staged.filter fun g => g.kind != 12 })

/-- A head model starts at the sense temperature of the newest STATUS (R275, R445). -/
def State.startModel (s : State) (a : Nat) : State :=
  let t := signed 16 (beAt (s.node a).status 30 2)
  (s.setI (Reg.HC_HEADa_TEMP_t_d a) t).onModel a fun m => { m with td := t * 2 ^ 26, tb := t * 2 ^ 26, starts := false, fired := s.beat, spat := none }

/-- BIND packets of source 0 for every enabled head, with the lines bound (R449). -/
def State.bindAll (s : State) : State :=
  s.sched.heads.foldl (fun (s : State) e => s.sendBind e.1 (s.nodeEnd e.1) 0 ((s.head e.1).bound.take 16)) s

/-- Each head is sent the lines from hr + 1 of its newest STATUS on: what the old holder sent since the warm-up began is not sent again
(R449). -/
def State.passSent (s : State) : State :=
  if !s.streaming then s
  else (upto 256 s.served).foldl (fun (s : State) a => s.onHead a fun h => { h with
    asm := max h.asm (s.hr a + 1), sent := some (max (s.hr a) (h.sent.getD 0))
    ready := h.ready.filter fun l => decide (s.hr a < l.k) }) s

/-- A standby that takes the tally goes on with the stream it mirrors (R449, R450). -/
def State.takeStream (s : State) : State :=
  let s0 := (if s.on Reg.TALLY_STATUS_warming then s else s.beginWarm).passSent
  let s1 := (List.range 10).foldl (fun (s : State) q =>
    (s.servedHeads q).foldl (fun (s : State) a => s.startModel a) s) (s0.clear Reg.TALLY_STATUS_warming).foremanTakeover
  let st := if !s.streaming then stReady else if s.on Reg.LS_STATUS_draining then stDraining else stPrinting
  (s1.enter st).bindAll

/-- Take the tally with a cause of Table 17-10; a GRANT gives its epoch. An epoch of all ones is never taken (R439). -/
def State.takeTally (s : State) (cause : Nat) (grant : Option Nat) : State :=
  let e := s.nextEpoch grant
  if s.held_ then s
  else if 0xFFFFFFFF ≤ e then
    if s.tally.unfitPosted then s
    else ((s.modTally fun t => { t with unfitPosted := true }).raise Reg.TALLY_STATUS_lost_seen).post 0x0A02 [.n s.epoch, .b 6]
  else
    let from_ := s.tally.renewed.getD s.beat
    let s1 := (((s.set Reg.TALLY_EPOCH e).raise Reg.TALLY_STATUS_held).set Reg.TALLY_STATUS_role (if s.config = 0 then 0 else 1)).modTally
      fun t => { t with
        started := true, renewed := some s.beat, latePosted := false, unfitPosted := false, handed := false
        takenFrom := if s.dev = stCold && s.streaming then some from_ else none }
    let s2 := s1.post 0x0A01 [.n e, .b cause]
    if s.dev = stCold then (s2.bump Reg.TALLY_COUNTS_takeovers 1).takeStream else s2.refresh

/-- The active device of a pair whose partner is fit fences itself and sends RELEASE at once when a slot that a job names leaves
LOADED (R505). -/
def State.keysLost (s : State) : State :=
  if s.inPair && s.held_ && s.partnerFit && !s.keysGood then (s.fence 1).sendLease opRelease false else s.refresh

end Sys2Proof.Machine
end

