-- ==== Sys2Proof/Machine/PowerCore.lean ====
section
/-! DEFINITION. What resets and power-downs clear (R12, R496, Table 19-4), DEEP (R493), and the chip's thermal shutdown (R282,
R497). -/

namespace Sys2Proof.Machine

/-! ### Items of Table 19-4 -/

/-- Operations in progress, of opcodes that a test names, end with ABORTED_BY_TALLY: what they work on is lost, and the spec gives them no
other end (notes/assumptions/63.md). -/
def State.endLost (s : State) (p : Nat → Bool) : State :=
  s.rings.flight.foldl (fun (s : State) f =>
    if f.begun && f.ended.isNone && p f.opcode then s.endOp f.ring f.n stAborted [] else s) s

/-- Remove the banks and staged loads of some table kinds; the operations of the loads end. -/
def State.clearTables (s : State) (kinds : List Nat) : State :=
  let s1 := (s.sched.staged.filter fun g => kinds.contains g.kind).foldl (fun (s : State) g => match g.op with
    | some (r, n) => s.endOp r n stAborted [(10, leBytes 1 g.kind), (11, leBytes 1 g.index), (12, leBytes 4 0xFFFFFFFF)]
    | none => s) s
  s1.modSched fun c => { c with
    banks := c.banks.filter fun e => !kinds.contains (e.1 / 65536)
    staged := c.staged.filter fun g => !kinds.contains g.kind }

/-- Job queue, stream state and job tables: as before any job; tables, limits and a running inhibit stay. -/
def State.clearJobs (s : State) : State :=
  ((((s.modAssay fun a => { a with ports := a.ports.map fun e => (e.1, { e.2 with
      occ := e.2.occ.map fun o => { o with closed := true }, skipped := [] }) }).modSched fun c => { ({} : Sched) with
      banks := c.banks, staged := c.staged, headLimit := c.headLimit, chipLimit := c.chipLimit, pwm := c.pwm, inhibitFrom := c.inhibitFrom }).clear
    Reg.LS_STATUS_origin_set).clear Reg.LS_STATUS_draining).set2 Reg.LS_NEXT_PARTING_LO Reg.LS_NEXT_PARTING_HI (2 ^ 48 - 1)

/-- Raster tables, skew and stitch banks, seam ring, slice checkpoints. -/
def State.clearRaster (s : State) : State :=
  (((s.clearTables [tTrim, tTone, tScreen, tSkew, tStitch]).endLost (· == 0x39)).modRaster fun _ => {}).modSeam fun e => { maps := e.maps }

/-- Node records, string offsets, fire maps held by the device, Canary models. -/
def State.clearNodes (s : State) : State :=
  (((s.modTally fun t => { t with
    running := t.running.filter (32 ≤ ·.resource), waiting := t.waiting.filter (32 ≤ ·.resource) }).modLink fun l => { l with nodes := [], strings := [], lanes := [], inhibitSeq := [], scrambler := [] }).modSeam fun e => { e with maps := [] }).modCare
    fun c => { c with heads := [], chip := ({} : Care).chip, chipAt := none }

/-- Baselines, findings, health map, host mask. -/
def State.clearHealth (s : State) : State :=
  (s.abortCare.clearTables [tMask]).modCare fun c => { c with nozzles := [], plans := [], scans := [], gates := [], beamClear := [] }

/-- Port tables, inspection plan, repeat-buffer entries; captures end. -/
def State.clearPorts (s : State) : State := ((s.clearTables [tCal, tColumn, tPlan]).endLost (· == 0x28)).modAssay fun _ => {}

/-- Foreman terms, target table, E of each loop; the Foreman log stays (it is kept with the blocks). -/
def State.clearForeman (s : State) : State :=
  let s0 := (List.range 10).foldl (fun (s : State) q =>
    ((s.clear (Reg.FM_PDq_pd q)).clear (Reg.FM_REGq_dt q)).clear (Reg.FM_REGq_xoff q)) s
  (s0.clearTables [tTarget, tXoff]).modFm fun f => { ({} : Foreman) with log := f.log, logAt := f.logAt, logOver := f.logOver }

/-- Blocks, handles, page map, retired list, Foreman log; operations on the store and migrations end. -/
def State.clearStore (s : State) : State :=
  let s1 := s.mem.migrations.foldl (fun (s : State) g => s.endOp g.ring g.n stAborted [(4, leBytes 4 g.page)]) s
  (((s1.endLost fun o => o == 0x01 || o == 0x02 || o == 0x03).modStore fun _ => {}).modFm fun f => { f with log := [], logAt := 0, logOver := false }).modMem fun m => { ({} : Mem) with
    dtt := m.dtt, stt := m.stt, posted := m.posted }

/-- The tally is lost without a message, its epoch kept. -/
def State.clearTally (s : State) : State :=
  let e := s.epoch
  let h := s.deputyHalted
  let s1 := s.endOps (s.tally.handover.toList ++ s.tally.more) stAborted
    [(4, leBytes 4 e), (8, leBytes 1 (s.get Reg.TALLY_STATUS_role)), (9, leBytes 1 2)]
  ((((s1.endLost fun o => o == 0x01 || o == 0x02).modTally fun t => { ({} : Tally) with haltInhibit := t.haltInhibit, seq := t.seq }).clear Reg.TALLY_STATUS_held).set Reg.TALLY_EPOCH e).setOn
    Reg.TALLY_STATUS_deputy_halted h

/-- Winder positions and what moves; a move ends with outcome 1. -/
def State.clearWinders (s : State) : State :=
  let s1 := s.wind.ch.foldl (fun (s : State) e =>
    [e.2.move, e.2.next].foldl (fun (s : State) m => match m with
      | some m => if m.done then s else s.endOp m.ring m.n stPartial
          [(4, leBytes 4 (wrap 32 e.2.p)), (8, leBytes 1 1), (9, leBytes 1 m.notes)]
      | none => s) s) s
  s1.modWind fun w => { sw := w.sw.map fun e => (e.1, { e.2 with run := 0, acc := false }) }

/-- Observer, compare units and PTP lock start again: pos_valid 0, units idle, domains UNLOCKED; the web position stays where it is. -/
def State.restartHeadstock (s : State) : State :=
  let p := s.webPos
  let s1 := (s.modObs fun o => { ({} : Observer) with frozen := p, hw := o.hw, hwSet := o.hwSet, last := o.last }).modTime fun t => { t with ptpA := {}, ptpB := {} }
  (s1.clear Reg.OBS_STATUS_pos_valid).set Reg.OBS_STATUS_active 7

/-- Whether an offset's block lies in a domain. -/
def inDomain (d off : Nat) : Bool := match blockOf off with | some b => b.domain == d | none => false

/-- The RWL fields of a word, from the retention copy (R492, R494). -/
def restoreRwl (off : Nat) (x kept : BitVec 32) : BitVec 32 :=
  (fieldsAt off).foldl (fun a f => if f.acc = .rwl then (a &&& ~~~ f.mask) ||| (kept &&& f.mask) else a) x

/-- A reset of class D of a domain's registers; the tally epoch is in the retention set and stays (R12, R495). -/
def State.resetDomain (s : State) (d : Nat) : State :=
  let e := s.epoch
  (s.resetRegs 8 (inDomain d)).set Reg.TALLY_EPOCH e

/-- The register fields of a domain as it returns: class D resets, RWL fields from the retention set (R492, R494). -/
def State.returnRegs (s : State) (d : Nat) : State :=
  let s1 := s.resetDomain d
  s.power.retention.foldl (fun (s : State) e => if inDomain d e.1 then s.setReg e.1 (restoreRwl e.1 (s.reg e.1) e.2) else s) s1

/-- Set or clear the powered bit of a domain. -/
def State.setPowered (s : State) (d : Nat) (b : Bool) : State :=
  s.set Reg.PWR_DOMAINS_powered (putBit (s.get Reg.PWR_DOMAINS_powered) (d - 1) b)

/-- Switch a domain off: its class-D fields are reset, which nothing can see before it returns (R492, R513). -/
def State.switchOff (s : State) (d : Nat) : State := (s.resetDomain d).setPowered d false

/-! ### DEEP (R493) -/

/-- 16 sleep notices on every UP lane, which then idles (R205, R493). -/
def State.sleepAll (s : State) : State :=
  (upto 68 (fun n => s.laneUp n)).foldl (fun (s : State) n => (s.sendNotices n).setLaneState n 0) s

/-- DEEP is entered for a cause (R493, Table 19-4): RASTER, LANE, CAM, MOTION and CTRL go off; what they hold is cleared. -/
def State.enterDeep (s : State) (cause : Nat) : State :=
  let s1 := s.sleepAll.clearJobs.clearRaster.clearHealth.clearNodes.clearPorts.clearForeman.clearWinders.clearTally
  let s2 := [6, 7, 8, 9, 10].foldl (fun (s : State) d => s.switchOff d) s1
  let s3 := (s2.set Reg.TALLY_STATUS_role 0).set Reg.PWR_STATE_deep_cause cause
  ((s3.modSched fun c => { c with pwm := (0, 0) }).enter stDeep).post 0x0C04 [.b cause]

/-! ### Chip thermal shutdown (R282, R497) -/

/-- The chip temperature reaches 125.0 °C: CHIP_SHUTDOWN, the tally released, then DEEP. `source` is 1 model, 2 sensor. -/
def State.chipShutdown (s : State) (node : Nat) (tc : Int) (source : Nat) : State :=
  if s.dev = stDeep || s.dev = stBoot then s
  else
    let s1 := (s.raise Reg.HC_STATUS_shutdown).post 0x0C02 [.b node, .t tc, .b source]
    let held := s1.held_
    let s2 := s1.fence 5
    let s3 := if held && s.inPair then s2.sendLease opRelease false else s2
    (s3.modPower fun p => { p with lowThermal := true }).enterDeep (source + 1)

end Sys2Proof.Machine
end

