-- ==== Sys2Proof/Machine/CareCore.lean ====
section
/-! DEFINITION. What head care shares with the link: thermal holds (R279 to R281), resistance readings and scans (R254 to R259), what a
new head leaves (R258). -/

namespace Sys2Proof.Machine

/-! ### Temperature and holds (R275, R279 to R281). Model temperatures in 2^-32 °C, sense in 1/64 °C. -/

/-- The sense temperature while its STATUS is no older than 200 µs (R274, R275). -/
def State.senseNow (s : State) (a : Nat) : Option Int :=
  match (s.model a).sense with
  | some (t, at_) => if s.beat ≤ at_ + 200000 then some t else none
  | none => none

/-- T_h in 2^-32 °C (R275). -/
def State.headTemp (s : State) (a : Nat) : Int :=
  match s.senseNow a with
  | some t => max (s.model a).td (t * 2 ^ 26)
  | none => (s.model a).td

/-- T_h in 1/64 °C, as events and registers carry it. -/
def State.headTemp64 (s : State) (a : Nat) : Int := quot (s.headTemp a) (2 ^ 26)

/-- The head is held at its shutdown level (R279, R280): 1 model, 2 sense, 3 node. A head held for a recovery only (R453) is held
thermally from then on as well. -/
def State.shutHead (s : State) (a source : Nat) : State :=
  if s.holding a && s.on (Reg.HC_HEADa_STATE_held a) then s
  else
    let s1 := (s.onNode a fun n => { n with held := true, releaseAt := none, releaseDue := false }).raise (Reg.HC_HEADa_STATE_held a)
    ((s1.raise Reg.HC_STATUS_shutdown).post 0x0609 [.b a, .t (s.headTemp64 a), .b source]).sendHold a 2 0

/-- At an update or at the arrival of a STATUS: T_h against T_shut of a served head (R279). -/
def State.checkHead (s : State) (a source : Nat) : State :=
  match s.headClassOf a with
  | some c => if s.served a && decide (c.tShut * 2 ^ 26 ≤ s.headTemp a) then s.shutHead a source else s
  | none => s

/-! ### Resistance scans (R254 to R259) -/

/-- Class of a reading (Table 10-4): 0 in range, 1 open, 2 short, 3 drift, with baseline 0 for none and the drift limit in
1/1000. -/
def readingOf (rNom base dpm v : Nat) : Nat :=
  if v = 0xFFFF || 3 * rNom < 2 * v then 1
  else if v = 0 || 2 * v < rNom then 2
  else if base ≠ 0 && decide (base * dpm < 1000 * ((max v base) - (min v base))) then 3
  else 0

/-- HC_CFG.confirm; 0 taken as 1 (Table 10-10). -/
def State.hcConfirm (s : State) : Nat := max 1 (s.get Reg.HC_CFG_confirm)

/-- HC_CFG.drift_pm held to its range. -/
def State.driftPm (s : State) : Nat := clampN 1 1000 (s.get Reg.HC_CFG_drift_pm)

/-- One measured value of a nozzle (R257, R259): reading, run, finding, baseline. -/
def State.readNozzle (s : State) (a row col v : Nat) (rebase : Bool) : State :=
  match s.headClassOf a with
  | none => s
  | some c =>
    s.onNoz a row col fun z =>
      let r := readingOf c.rNom z.base s.driftPm v
      let run := if z.run ≠ 0 && z.reading = r then z.run + 1 else 1
      let fits := decide (c.rNom ≤ 2 * v) && decide (2 * v ≤ 3 * c.rNom)
      { z with
        reading := r, run := min 3 run, res := if s.hcConfirm ≤ run then r else z.res
        base := if fits && (z.base = 0 || rebase) then v else z.base }

/-- Whether a value of a scan sets a baseline (R257). -/
def State.setsBase (s : State) (a row col v : Nat) (rebase : Bool) : Bool :=
  match s.headClassOf a with
  | none => false
  | some c => decide (c.rNom ≤ 2 * v) && decide (2 * v ≤ 3 * c.rNom) && ((s.noz a row col).base = 0 || rebase)

/-- The columns of head a (Table 09-16). -/
def State.headColumns (s : State) (a : Nat) : Nat := classColumns (s.get (Reg.NODEa_STATE_class_code a))

/-- Replace the first scan operation. -/
def State.setScan (s : State) (c : ScanOp) : State :=
  s.modCare fun x => { x with scans := match x.scans with | [] => [] | _ :: t => c :: t }

/-- Whether a drop check submitted before `order` holds head a's plane (R283). -/
def State.gateHolds (s : State) (a order : Nat) : Bool :=
  s.care.gates.any fun g => g.order < order && plPlane s.placementNow a == g.plane && plEn s.placementNow a

/-- Whether a RESIST_SCAN submitted before `order` has still to measure a head of plane q (R283). -/
def State.scanHolds (s : State) (q order : Nat) : Bool :=
  s.care.scans.any fun c => c.order < order &&
    ((c.todo.map (·.1) ++ (c.now.map (·.1)).toList).any fun a => plPlane s.placementNow a == q && plEn s.placementNow a)

/-- The first RESIST_SCAN goes on (R256, R283): the next head and row is sent its SCAN; the heaters of a head that is not served are not
measured; without a head left the operation ends. -/
def State.scanNext (s : State) : Nat → State
  | 0 => s
  | fuel + 1 =>
    match s.care.scans with
    | [] => s
    | c :: _ =>
      if c.now.isSome then s
      else
        match c.todo with
        | [] =>
          let st := if c.missed ≠ 0 || c.part then stPartial else stOk
          ((s.endOp c.ring c.n st c.result).modCare fun x => { x with scans := x.scans.drop 1 }).scanNext fuel
        | (a, row) :: t =>
          if !s.served a then
            (s.setScan { c with
              todo := t, part := true, missed := c.missed + (if (s.node a).known then s.headColumns a else 0) }).scanNext fuel
          else if s.gateHolds a c.order then s
          else
            let tag := (s.node a).tag
            let s1 := s.nodeCmd a 8 (beBytes 1 1 ++ beBytes 1 row ++ beBytes 2 0 ++ beBytes 2 (s.headColumns a - 1) ++ beBytes 4 c.deadline)
            s1.setScan { c with
              todo := t, now := some (a, row, tag, 0), curMeasured := 0, curMissed := 0, curChanged := 0, curFirst := 0, curBased := 0 }

/-- Steps one advance of the scans can take. -/
def State.scanFuel (s : State) : Nat := (s.care.scans.map fun c => c.todo.length + 2).sum + 1

/-- The gate operation under way on a plane: its oldest. -/
def State.gate (s : State) (q : Nat) : Option GateOp := s.care.gates.find? fun g => g.plane == q

/-- Replace it. -/
def State.setGate (s : State) (g : GateOp) : State :=
  s.modCare fun c => { c with gates := c.gates.map fun h => if h.ring == g.ring && h.n == g.n then g else h }

/-- Whether a drop check has begun, so that it waits for the beam or for its windows. -/
def GateOp.begun (g : GateOp) : Bool := g.waitFrom.isSome || !g.windows.isEmpty

/-- The oldest drop check of each plane begins once no earlier care operation holds a head of the plane (R283). -/
def State.gatesNext (s : State) : State :=
  (List.range 10).foldl (fun (s : State) q =>
    match s.gate q with
    | some g => if !g.begun && !s.scanHolds q g.order then s.setGate { g with waitFrom := some s.beat } else s
    | none => s) s

/-- The care operations go on in submission order (R283). -/
def State.careNext (s : State) : State := (s.scanNext s.scanFuel).gatesNext

/-- The scan sent has ended: RESIST_DONE, BASELINE_SET, HEALTH_CHANGE, and the next one (R257, R266). -/
def State.scanDone (s : State) (c : ScanOp) (a row : Nat) : State :=
  let s1 := (s.post 0x0601 [.b a, .b row, .n c.curMeasured, .n c.curMissed, .n c.curChanged]).scanNotes c a row
  let last := !(c.todo.any fun e => e.1 == a)
  (s1.setScan { c with
    now := none, scanned := c.scanned + b2n last, measured := c.measured + c.curMeasured
    missed := c.missed + c.curMissed, changed := c.changed + c.curChanged }).careNext

/-- A MEASURE's values for the scan sent (R254, R257, R259): columns first on. -/
def State.measured (s : State) (a row first tag : Nat) (vs : List Nat) : State :=
  match s.care.scans with
  | [] => s
  | c :: _ =>
    match c.now with
    | none => s
    | some (h, r, t, seen) =>
      if h ≠ a || r ≠ row || t ≠ tag then s
      else
        let (s1, c1, _) := vs.foldl (fun (x : State × ScanOp × Nat) v =>
          let (s, c, col) := x
          if v = 0xFFFE then (s, { c with curMissed := c.curMissed + 1 }, col + 1)
          else
            let based := s.setsBase a row col v c.rebaseline
            let before := s.healthNow a row col
            let s' := s.readNozzle a row col v c.rebaseline
            let ch := s'.healthNow a row col != before
            (s', { c with
              curMeasured := c.curMeasured + 1, curBased := c.curBased + b2n based
              curFirst := if ch && c.curChanged = 0 then col else c.curFirst, curChanged := c.curChanged + b2n ch }, col + 1)) (s, c, first)
        let c2 := { c1 with now := some (h, r, t, seen + vs.length) }
        let s2 := s1.setScan c2
        if s.headColumns a ≤ seen + vs.length then s2.scanDone c2 a row else s2

/-- The node did not accept the SCAN (R224, R255): no heater of the row is measured, and the operation goes on. -/
def State.scanRefused (s : State) (a tag : Nat) : State :=
  match s.care.scans with
  | [] => s
  | c :: _ =>
    match c.now with
    | some (h, r, t, seen) =>
      if h = a && t = tag then s.scanDone { c with curMissed := c.curMissed + (s.headColumns a - seen) } a r else s
    | none => s

/-! ### A new head at an address (R258) -/

/-- Another serial is found at an address: baselines and the findings of every source go, the host mask stays; HEAD_REPLACED. -/
def State.replaceHead (s : State) (a old new : Nat) : State :=
  (((s.modCare fun c => { c with nozzles := c.nozzles.filter fun e => e.1 / 16384 != a }).clear
    (Reg.HC_HEADa_STATE_baseline_valid a)).post 0x0603 [.b a, .n (old % 2 ^ 32), .n (new % 2 ^ 32)])

end Sys2Proof.Machine
end

