-- ==== Sys2Proof/Machine/Link.lean ====
section
/-! DEFINITION. Upstream packets of the head link (chapter 09): STATUS, MEASURE, MEMREAD, EVENT, SYNC; identification (R243, R545),
nodes lost (R245). -/

namespace Sys2Proof.Machine

/-! ### Phase occupancy (R176) -/

/-- Columns of node n's skew bank whose selected row is not disabled in a phase slot. -/
def phaseCount (skew : List (BitVec 8)) (n cols p : Nat) : Nat :=
  ((List.range cols).filter fun i => let e := skewSel skew n i; !skDisable e && skPhase e == p).length

/-- The first phase slot of node n with more than cols / 8 columns, and how many. -/
def phaseOver (skew : List (BitVec 8)) (n cols : Nat) : Option (Nat × Nat) :=
  ((List.range 16).map fun p => (p, phaseCount skew n cols p)).find? fun e => cols / 8 < e.2

/-! ### Identification (R243, Table 09-17) -/

/-- The SYNC source with which this device asks: 0 as holder, 1 in COLD (R230, R232). -/
def State.syncSource (s : State) : Nat := if s.dev = stCold then 1 else 0

/-- Send a SYNC REQUEST to head a (R230): from its serving end, in COLD from the device's own end. -/
def State.requestSync (s : State) (a : Nat) : State :=
  let n := s.node a
  let e := if s.dev = stCold then s.get Reg.PAIR_CFG_end else s.nodeEnd a
  (s.setNode a { n with syncSeq := (n.syncSeq + 1) % 65536, syncReq := some (n.syncSeq, s.linkTime (a / 8) s.now) }).sendSync a e 0
    s.syncSource n.syncSeq 0 0 0 0

/-- The line of STREAM_RESET at identification (R545). -/
def State.resetLine (s : State) (a : Nat) : Nat :=
  match (s.head a).ready with
  | l :: _ => l.k
  | [] => (s.plane (plPlane s.placementNow a)).delivered - seamAge s.placementNow a

/-- Send what the present step asks (Table 09-17). -/
def State.sendStep (s : State) (a : Nat) : State :=
  let s0 := s.onNode a fun n => { n with stepAt := s.beat }
  match (s.node a).step with
  | 1 => s0.nodeCmd a 1 []
  | 2 => [0, 64, 128, 192].foldl (fun (s : State) o => s.nodeCmd a 2 (beBytes 1 o ++ beBytes 1 64)) (s0.onNode a fun n => { n with memory := [] })
  | 3 => s0.requestSync a
  | 6 =>
    match (s.banksOf tSkew (a / 8) 0).head? with
    | none => s0
    | some b =>
      let m := fireMap a b.data b.bad (s.headColumns a)
      (s0.sendMapData a (s.freeNodeBank a) m).commitMap a ((s.node a).fromLine) m
  | _ => s0

/-- Enter a step. -/
def State.goStep (s : State) (a step : Nat) : State :=
  (s.onNode a fun n => { n with step := step, tries := 1, syncFrom := if step = 3 then s.beat else n.syncFrom }).sendStep a

/-- The node is served (Table 09-17, R252): NODE_IDENTIFIED and the care parameters. -/
def State.serve (s : State) (a : Nat) : State :=
  let s1 := ((s.onNode a fun n => { n with step := 0, retry := false, service := 0 }).set (Reg.NODEa_STATE_state a) 2).set (Reg.NODEa_STATE_reason a) 0
  let s2 := ((if (s1.model a).starts then s1.startModel a else s1.onModel a fun m => { m with fired := s.beat, spat := none }).modFm fun f => { f with ffDone := f.ffDone.filter (· != a) }).post 0x0510 [.b a, .n (s.get (Reg.NODEa_STATE_class_code a)), .n (s.get (Reg.NODEa_SERIAL_LO a))]
  match s.headClassOf a with
  | none => s2
  | some c => ((s2.sendCareParam a 2 (clampN 10 2000 (Config.warmPulse (modelOf (s.get (Reg.NODEa_STATE_class_code a)))))).sendCareParam a 3 (wrap 16 (c.tShut + 128))).sendCareParam a 1 0 |>.set
      (Reg.HC_HEADa_STATE_warm_level a) 0

/-- Identification begins (R243); the head's model starts at its first STATUS (R275). -/
def State.identify (s : State) (a : Nat) : State :=
  (((s.onModel a fun m => { m with starts := true }).onNode a fun n => { n with syncRun := 0, retry := false, cmds := [] }).set (Reg.NODEa_STATE_state a) 1).goStep a 1

/-- Head memory is complete: R242, R250, R258 and R109; then SYNC. The class code shown is that of a valid memory, of a head not served too. -/
def State.checkMemory (s : State) (a : Nat) : State :=
  let m := (s.node a).memory
  let serial := beAt m 0 8
  let code := beAt m 8 2
  let want := plClass s.placementNow a
  if crc16 (m.take 254) ≠ beAt m 254 2 || ((m.drop 14).take 240).any (· != 0#8) || serial = 0 || serial = 2 ^ 64 - 1 then s.notServed a 2
  else
    let s0 := s.set (Reg.NODEa_STATE_class_code a) code
    match headClass (modelOf code) with
    | none => s0.notServed a 3
    | some c =>
      if code % 32 < 3 || classColumns code ≠ c.columns || bit code 5 ≠ c.dpi600 then s0.notServed a 3
      else if plEn s.placementNow a && want ≠ 0 && want ≠ code then s0.notServed a 4
      else
        let old := s.get2 (Reg.NODEa_SERIAL_LO a) (Reg.NODEa_SERIAL_HI a)
        let s1 := (s0.set2 (Reg.NODEa_SERIAL_LO a) (Reg.NODEa_SERIAL_HI a) serial).onNode a
          fun n => { n with ranks := (leAt m 12 1, leAt m 13 1 % 16), known := true }
        let s2 := if (s.node a).known && old ≠ serial then s1.replaceHead a old serial else s1
        s2.goStep a 3

/-- The checks after SYNC (R118, R176, R545), STREAM_RESET, and the fire map. -/
def State.checkNode (s : State) (a : Nat) : State :=
  let buf := beAt (s.node a).status 4 2
  let cols := s.headColumns a
  let banks := (s.tableNow tSkew (a / 8) 0).toList ++
    (s.sched.staged.filter (fun g => g.kind == tSkew && g.index == a / 8)).map (·.data)
  let beyond := if plEn s.placementNow a then banks.findSome? (fun d => phaseOver d (a % 8) cols) else none
  if buf < s.lead then
    (((s.raise Reg.LS_STATUS_lead_refused).post 0x0302 [.b 3, .n s.lead, .b a])).notServed a 5
  else
    match beyond with
    | some (p, n) => ((s.raise Reg.SEAM_STATUS_phase_limit).post 0x0411 [.b a, .b p, .n n, .n (cols / 8)]).notServed a 6
    | none =>
      let k := s.resetLine a
      let s1 := if s.streaming then
          ((s.sendStreamReset a k).onNode a fun n => { n with fromLine := k }).onHead a fun h =>
            if h.ready.isEmpty then { h with asm := k } else h
        else s.onNode a fun n => { n with fromLine := 0 }
      if plEn s.placementNow a && (s.tableNow tSkew (a / 8) 0).isSome then
        (s1.setMap a {}).goStep a 6
      else s1.serve a

/-! ### SYNC (R230, R232) -/

/-- LINK_SYNC_CFG.limit_ns; 0 taken as 1. -/
def State.syncLimit (s : State) : Nat := max 1 (s.get Reg.LINK_SYNC_CFG_limit_ns)

/-- Send an ADJUST (R230): value the offset to add, rate from a loop whose gains the spec leaves open; step while the node is NOT_SYNCED
or holds no bound line. What value carries of an offset that its 16.16 ns cannot hold is open too. -/
def State.adjust (s : State) (a : Nat) (off : Int) : State :=
  let st := (s.node a).status
  let step := leAt st 0 1 = 0 || beAt st 12 6 ≤ beAt st 18 6
  let (r, s1) := s.drawInt
  let (x, s2) := s1.drawInt
  let v := if -(2 ^ 31 : Nat) ≤ -off && -off < (2 ^ 31 : Nat) then -off else x
  s2.sendSync a (s.nodeEnd a) 2 0 (s.node a).syncSeq s.epoch v r (b2n step)

/-- A RESPONSE (R230, R232). The first of a string sets its offset, which it is then measured against; in COLD every one does. An offset
measured against the string's that exceeds the limit posts SYNC_ERROR. -/
def State.syncResponse (s : State) (a : Nat) (p : List (BitVec 8)) : State :=
  let n := s.node a
  let str := a / 8
  match n.syncReq with
  | none => s
  | some (seq, t1) =>
    if beAt p 12 2 ≠ seq || leAt p 7 1 % 2 ≠ s.syncSource then s
    else
      let t2 := 65536 * beAt p 20 6 + beAt p 26 2
      let t3 := 65536 * beAt p 28 6 + beAt p 34 2
      let t4 := s.linkTime str s.now
      let d1 : Int := signed 64 (wrap 64 ((t2 : Int) - t1 - beAt p 36 4))
      let d2 : Int := signed 64 (wrap 64 ((t4 : Int) - t3 - beAt p 8 4))
      let (off, s0) := s.drawQuot (d1 - d2) 2
      let s1 := s0.onNode a fun n => { n with syncReq := none }
      let fresh := s.dev = stCold || !(s.str str).offsetSet
      let off' := if fresh then 0 else off
      let err := if (s.str str).offsetSet then off else 0
      let s2 := if fresh then s1.setOffset str ((s.str str).offset - off) else s1
      let within := decide (err.natAbs ≤ s.syncLimit * 65536)
      let shown := s2.setSat (Reg.NODEa_SYNC a) (quot off' 4096)
      let s3 := if within then shown else shown.post 0x0518 [.b a, .s (quot err 65536)]
      if s.dev = stCold then s3
      else
        let s4 := s3.adjust a off'
        if n.step = 3 && s.get (Reg.NODEa_STATE_state a) = 1 then
          let s5 := s4.onNode a fun n => { n with syncRun := if within then n.syncRun + 1 else 0 }
          if 3 ≤ (s5.node a).syncRun then s5.checkNode a
          else if s5.beat < n.syncFrom + 2000000 then (s5.onNode a fun n => { n with tries := 1 }).sendStep a
          else s5.notServed a 7
        else s4

/-! ### STATUS (R244, R245, R246, R438) -/

/-- A served node goes out of reach of its STATUS or its string: a scan under way on it ends unmeasured. -/
def State.scanLost (s : State) (a : Nat) : State :=
  match s.care.scans with
  | c :: _ =>
    match c.now with
    | some (h, _, t, _) => if h = a then s.scanRefused a t else s
    | none => s
  | [] => s

/-- The hops a STATUS of node n tells of by its port flags; the end hops of the device's own lanes follow the lanes (R244, R546). -/
def State.learnHops (s : State) (str n flags : Nat) : State :=
  let own (j : Nat) : Bool := (j == 0 && s.usesEnd 0) || (j == s.nodeCount str && s.usesEnd 1)
  [(n, bit flags 0), (n + 1, bit flags 1)].foldl (fun (s : State) e =>
    if own e.1 then s else if e.2 then s.restoreHop str e.1 else s.breakHop str e.1) s

/-- The first STATUS of a moved node through its new end (R246): the re-cut is requested; when none is left, the reroute ends. -/
def State.rerouted (s : State) (a : Nat) : State :=
  let str := a / 8
  let d := s.placementNow
  let q := plPlane d a
  let k := s.hr a + 1
  let s1 := s.onNode a fun n => { n with rerouting := false }
  let top := (s.head a).asm
  let s2 := if s.streaming && plEn d a && s.planeServed q && decide (k < top) then
      s1.askRecut q (plFirst d a) (plFirst d a + s.columnsOf d a - 1) (k - 63) (top - 1)
    else s1
  s2.endReroute str

/-- A STATUS from node n of a string, received at an end (Table 09-10). -/
def State.statusIn (s : State) (str n e : Nat) (p : List (BitVec 8)) : State :=
  let a := 8 * str + n
  let x := s.node a
  let silent (h : Option Nat) : Bool := match h with | some t => decide (t + 300000 < s.beat) | none => true
  let d := (p.drop 6).take 40
  let epoch := beAt d 8 4
  let t := signed 16 (beAt d 30 2)
  let s1 := (s.onNode a fun y => { y with
    status := d, heardA := if e = 0 then some s.beat else y.heardA, heardB := if e = 1 then some s.beat else y.heardB
    retry := y.retry || (silent x.heardA && silent x.heardB) || decide (s.get (Reg.NODEa_STATE_state a) = 5) }).set (Reg.NODEa_STATE_node_state a) (leAt d 0 1 % 8)
  let s2 := s1.set Reg.TALLY_MAX_H (max epoch (s1.get Reg.TALLY_MAX_H))
  let s2 := if (s2.map a).unseen && (s2.map a).committed.isNone then s2.setMap a { s2.map a with unseen := false } else s2
  let s2 := if (s2.model a).starts then s2.startModel a else s2
  let s3 := (s2.onModel a fun m => { m with sense := some (t, s.beat) }).setI (Reg.HC_HEADa_TEMP_sense a) t
  let s4 := s3.learnHops str n (leAt d 1 1)
  let s5 := if s4.config ≠ 0 && s4.held_ && decide (s4.epoch < epoch) then s4.fence 3 else s4
  let s6 := if (s5.node a).rerouting && s5.nodeEnd a == e then s5.rerouted a else s5
  s6.checkHead a 2

/-! ### EVENT (R224, R225, R248, R279, R280) -/

/-- An ACK with its result, opcode and tag. -/
def State.ackIn (s : State) (a tag result opcode : Nat) : State :=
  match (s.node a).cmds.find? (fun c => c.tag == tag && c.opcode == opcode) with
  | none => s
  | some c =>
    let s1 := s.onNode a fun n => { n with cmds := n.cmds.erase c }
    let idle := s1.get (Reg.NODEa_STATE_state a) = 1
    match opcode with
    | 1 => if idle && (s1.node a).step = 1 then s1.goStep a 2 else s1
    | 3 => if result = 0 then s1 else s1.setMap a { s1.map a with pending := none }
    | 4 =>
      match (s1.map a).committed with
      | some (e, t) =>
        if t ≠ tag then s1
        else if result = 0 || result = 5 then
          let s2 := s1.setMap a { s1.map a with committed := none, acked := e :: (s1.map a).acked }
          if idle && (s2.node a).step = 6 then
            -- the map of the bank in force is now acknowledged from the first line of the bank on; a staged bank's follows (Table 09-17)
            ((s2.setMap a { s2.map a with acked := (max e (s2.skewStart (a / 8) e)) :: (s2.map a).acked }).stageMap a
              (1 - (s2.map a).bank)).serve a
          else s2
        else s1.setMap a { s1.map a with committed := none, pending := none }
      | none => s1
    | 8 => if result = 0 then s1 else s1.scanRefused a tag
    | _ => s1

/-- NODE_EVENT. -/
def State.postNode (s : State) (a code line count arg : Nat) : State := s.post 0x0516 [.b a, .b code, .li line, .n count, .n arg]

/-- Service lines of a SPIT that the node skipped (R261, R269). -/
def State.spitSkipped (s : State) (a count : Nat) : State :=
  let free := match (s.model a).skippedAt with | some t => decide (t + 1000000000 ≤ s.beat) | none => true
  let s1 := (s.bump Reg.HC_SPIT_SKIPS count).onNode a fun n => { n with service := (n.service + 16 - count % 16) % 16 }
  if free then
    ((s1.onModel a fun m => { m with skippedAt := some s.beat }).raise Reg.HC_STATUS_spit_skipped).post 0x0607 [.b a, .n count]
  else s1

/-- An EVENT of node n of a string (Table 09-12). -/
def State.eventIn (s : State) (str n : Nat) (p : List (BitVec 8)) : State :=
  let a := 8 * str + n
  let code := leAt p 6 1
  let line := beAt p 8 6
  let count := beAt p 14 2
  let arg := beAt p 16 4
  match code with
  | 1 => s.ackIn a count (bits arg 7 0) (bits arg 15 8)
  | 5 =>
    if bits arg 11 8 = 1 then
      let s1 := if s.heldAt a line then s else s.shutHead a 3
      (s1.onModel a fun m => { m with cuts := line :: m.cuts }).post 0x060A [.b a, .li line, .b (bits arg 3 0)]
    else s.postNode a code line count arg
  | 8 => s.breakHop str (n + arg % 2)
  | 9 => s.restoreHop str (n + arg % 2)
  | 13 => s.spitSkipped a count
  | _ => s.postNode a code line count arg

/-- A MEMREAD of an identification (R241). -/
def State.memreadIn (s : State) (a : Nat) (p : List (BitVec 8)) : State :=
  let n := s.node a
  let off := leAt p 8 1
  let len := leAt p 9 1
  if s.get (Reg.NODEa_STATE_state a) = 1 && n.step = 2 && n.memory.length = off && off + len ≤ 256 then
    let s1 := s.onNode a fun n => { n with memory := n.memory ++ slice p 10 len }
    if off + len = 256 then s1.checkMemory a else s1
  else s

/-- A MEASURE (R254). -/
def State.measureIn (s : State) (a : Nat) (p : List (BitVec 8)) : State :=
  let n := beAt p 10 2
  if leAt p 6 1 = 1 && n ≤ 128 then
    s.measured a (leAt p 7 1) (beAt p 8 2) (beAt p 12 2) ((List.range n).map fun i => beAt p (14 + 2 * i) 2)
  else s

/-! ### Reception (R219, R223) -/

/-- A packet of string str received at an end, through a lane of the device or its partner's relay. An upstream packet of more than 280 bytes
is none (R216). -/
def State.receive (s : State) (str e lane : Nat) (p : List (BitVec 8)) : State :=
  let ty := pkType p
  let resp := ty = 5 && leAt p 6 1 = 1
  if !packetOk p || (decide (280 < p.length) && decide (8 ≤ ty)) || !([1, 2, 3, 4, 5, 8, 9, 10, 11].contains ty) then s.bump (Reg.LINKs_ERRCNT_crc_errors str) 1
  else if ty < 8 && !resp then s.bump (Reg.LINKs_ERRCNT_passthrough str) 1
  else if pkString p ≠ str then
    (s.raise (Reg.LINKs_STATUS_miswire str)).post 0x0517 [.b lane, .b (pkString p)]
  else if s.nodeCount str ≤ pkNode p then s
  else
    let n := pkNode p
    let a := 8 * str + n
    (match ty with
      | 8 => s.statusIn str n e p
      | 9 => s.measureIn a p
      | 10 => s.memreadIn a p
      | 11 => s.eventIn str n p
      | _ => s.syncResponse a p).wakeReroute str

/-- A packet as the partner sends it on: the residence of a SYNC grows by the relay time, up to 2 µs, which the spec leaves open
(R451, Table 09-14). -/
def State.relaid (s : State) (p : List (BitVec 8)) : List (BitVec 8) × State :=
  if pkType p = 5 then
    let (r, s1) := s.drawNat
    (overlay p 8 (beBytes 4 (beAt p 8 4 + r % 131072001)), s1)
  else (p, s)

/-- What the partner in COLD does beside: every upstream packet of a relayed string, but the answers to its own REQUESTs, goes to the
holder as RELAY_UP (R451). -/
def State.relayUp (s : State) (str : Nat) (p : List (BitVec 8)) : State :=
  let own := pkType p = 5 && leAt p 7 1 % 2 = 1
  match s.tally.relays.find? (fun r => r.1 == str) with
  | some (_, lane) =>
    if s.dev = stCold && (8 ≤ pkType p || (pkType p = 5 && leAt p 6 1 = 1)) && !own && packetOk p then
      let (p', s1) := s.relaid p
      s1.sendPacket lane (packet 0xF 0 0 str 0 0 p')
    else s
  | none => s

/-- A packet arrives on a head lane of the device. -/
def State.laneReceive (s : State) (lane : Nat) (p : List (BitVec 8)) : State :=
  if lane < 64 && s.laneUp lane && s.usesEnd (lane % 2) then
    (s.relayUp (lane / 2) p).receive (lane / 2) (lane % 2) lane p
  else s

/-! ### The commands -/

/-- SYNC_REQUEST_SEND (R230, R232): by the holder to a served node, or in COLD from the device's own end. -/
def execSyncRequestSend (dt : Nat) (a : Fin 256) (s : State) : Result :=
  (s.advance dt).whenOn 7 fun s =>
  if (s.held_ && s.served a) || (s.dev = stCold && decide (a.val % 8 < s.nodeCount (a / 8)) && s.inPair) then .next (s.requestSync a)
  else .next s

/-- NODE_IDENTIFY (R243): a node has become reachable. Only the holder, or a device in SETUP, sends NODE_CMD packets (R15). -/
def execNodeIdentify (dt : Nat) (a : Fin 256) (s : State) : Result :=
  (s.advance dt).whenOn 7 fun s =>
  let str := a.val / 8
  let st := s.get (Reg.NODEa_STATE_state a)
  let reach := bit (s.get (Reg.LINKs_STATUS_reachable str)) (a.val % 8)
  if decide (a.val % 8 < s.nodeCount str) && reach && (s.held_ || (s.dev = stSetup && s.locked && s.config ≠ 3)) &&
      (st = 0 || ((st = 3 || st = 5) && (s.node a).retry)) && !(s.tally.running ++ s.tally.waiting).any (·.resource == str) then
    if s.deputyHalted then .next s.deputyFault else .next (s.identify a)
  else .next s

/-- IDENTIFY_STEP_TIMEOUT (R243): the present step has gone 1 ms without its answer. -/
def execIdentifyStepTimeout (dt : Nat) (a : Fin 256) (s : State) : Result :=
  (s.advance dt).whenOn 7 fun s =>
  let n := s.node a
  if s.get (Reg.NODEa_STATE_state a) = 1 && n.step ≠ 0 && decide (n.stepAt + 1000000 ≤ s.beat) then
    if n.tries < 3 then .next ((s.onNode a fun n => { n with tries := n.tries + 1 }).sendStep a)
    else .next ((s.notServed a (if n.step = 6 then 8 else 1)).wakeReroute (a.val / 8))
  else .next s

/-- NODE_LOST (R245): no STATUS of a reachable node for 300 µs at both ends, counted from when it was last heard or became reachable. A
lost node takes no part in a reroute (R246). -/
def execNodeLost (dt : Nat) (a : Fin 256) (s : State) : Result :=
  (s.advance dt).whenOn 7 fun s =>
  let n := s.node a
  let st := s.get (Reg.NODEa_STATE_state a)
  let from_ := max n.reachAt (max (n.heardA.getD 0) (n.heardB.getD 0))
  let str := a.val / 8
  if bit (s.get (Reg.LINKs_STATUS_reachable str)) (a.val % 8) && (st = 1 || st = 2 || st = 3) && decide (from_ + 300000 ≤ s.beat) then
    let s1 := (((s.onNode a fun n => { n with step := 0, retry := false }).set (Reg.NODEa_STATE_state a) 5).post 0x0512 [.b a]).scanLost a
    .next ((if n.rerouting then (s1.dropMoved str (a.val % 8)).endReroute str else s1).wakeReroute str)
  else .next s

end Sys2Proof.Machine
end

