-- ==== Sys2Proof/Machine/OpRun.lean ====
section
/-! DEFINITION. How an operation runs (R6, R381, R391, R489): it begins in its turn, reserved fields and fixed fields are checked, then
the tally, then its own work. -/

namespace Sys2Proof.Machine

/-- Whether the bytes a descriptor leaves reserved are 0 (R6, R377): `used` lists the body's fields as offset and size, `eff` says whether
the opcode takes effective_li. -/
def Flight.reservedOk (f : Flight) (used : List (Nat × Nat)) (eff : Bool) : Bool :=
  let fields := [(0, 4)] ++ (if eff then [(8, 6)] else []) ++ used
  f.fld 1 1 < 4 && f.fld 2 2 < 1024 &&
    (List.range 64).all fun i => fields.any (fun u => decide (u.1 ≤ i) && decide (i < u.1 + u.2)) || f.fld i 1 == 0

/-- Operations accepted before SETUP_LOCK is set: TABLE_LOAD, HEAD_QUERY, KEY_LOAD, LOG_READ (R489). -/
def earlyOp (opcode : Nat) : Bool := [0x08, 0x18, 0x30, 0x40].contains opcode

/-- The domains whose blocks an operation works in. -/
def opDomains (opcode : Nat) : List Nat :=
  if opcode ≤ 0x03 then [5, 10]
  else if opcode = 0x08 || opcode = 0x38 then [5]
  else if opcode = 0x10 || opcode = 0x11 then [2, 5]
  else if opcode = 0x19 || opcode = 0x1A || opcode = 0x1B then [7]
  else if opcode = 0x28 then [8]
  else if opcode = 0x39 then [6]
  else if opcode = 0x48 then [10]
  else []

/-- Whether an operation has to wait for a domain that is inside a domain reset (R492; notes/assumptions/63.md). -/
def State.opWaits (s : State) (opcode : Nat) : Bool := (opDomains opcode).any fun d => s.power.domainReset.contains d

/-- Begin operation r when its turn has come (R381) and it is of the opcode; refuse it with BAD_DESCRIPTOR for reserved fields (R6), before
SETUP_LOCK (R489) or for its fixed fields (`bad`), with ABORTED_BY_TALLY where it needs the tally and the device does not hold it
(R391); otherwise do `body`. `always` gives the result fields that a refusal carries. -/
def State.runOp (s : State) (r : OpRef) (opcode : Nat) (used : List (Nat × Nat)) (eff : Bool) (bad : Flight → Bool)
    (always : Flight → List (Nat × List (BitVec 8))) (tally : Bool) (body : Flight → State → State) : State :=
  match s.flight r.ring r.n with
  | none => s
  | some f =>
    if f.opcode ≠ opcode || !s.mayBegin f.ring f.n || s.opWaits opcode then s
    else
      let s1 := s.beginOp f.ring f.n
      if !f.reservedOk used eff || (!s.locked && !earlyOp opcode) || bad f then s1.endOp f.ring f.n stBad (always f)
      else if tally && (!s.held_ || s.dev = stCold || s.config = 3) then s1.endOp f.ring f.n stAborted (always f)
      else body f s1

/-- A result with no field. -/
def noResult (_ : Flight) : List (Nat × List (BitVec 8)) := []

/-- End an operation from its flight record. -/
def State.finish (s : State) (f : Flight) (status : Nat) (result : List (Nat × List (BitVec 8))) : State :=
  s.endOp f.ring f.n status result

/-- The operation has read all the host data it needs (R373). -/
def State.hasRead (s : State) (f : Flight) : State :=
  match s.flight f.ring f.n with
  | some g => s.setFlight { g with dataRead := true }
  | none => s

end Sys2Proof.Machine
end

