-- ==== Sys2Proof/Machine/Assay.lean ====
section
/-! DEFINITION. The commands of the inspection pipeline (chapter 11) and CAPTURE (R405). -/

namespace Sys2Proof.Machine

/-! ### Records of frames and regions (R312, R317) -/

/-- first_li of a record: the floor of λ, all ones without an origin. -/
def liOf : Option CamPlace → Nat
  | some p => wrap 48 (p.lam / 64)
  | none => 2 ^ 48 - 1

/-- Job and panel of a record's first line: 0xFFFF without an origin; a line in no panel has none that the spec states, so they are free. -/
def State.panelOf (s : State) : Option CamPlace → (Nat × Nat) × State
  | none => ((0xFFFF, 0xFFFF), s)
  | some p => match p.panel with
    | some (_, job, no, _) => ((job, no), s)
    | none => let (k, s1) := s.drawBlock 2; ((Config.freeNat k % 65536, Config.freeNat (k + 1) % 65536), s1)

/-- Issue the record of a closed frame (Tables 11-6 and 11-7); one without a line has a free first line. -/
def State.issueFrame (s : State) (p : Nat) (f : CamFrame) : State :=
  let (k, s1) := s.drawBlock 7
  let c16 (n : Nat) : List (BitVec 8) := leBytes 2 (min 0xFFFF n)
  let mean (i sum : Nat) : List (BitVec 8) := leBytes 2 (milliAt (k + i) sum f.pixels)
  let payload := c16 (prmLines f.params) ++ c16 f.lost ++ c16 f.untriggered ++ c16 f.discarded ++ mean 0 f.sums.1 ++ mean 1 f.sums.2.1
    ++ mean 2 f.sums.2.2
  match f.refs.getLast? with
  | some (_, _, st, pl) =>
    let ((job, panel), s2) := s1.panelOf pl
    s2.issueStat 1 (statBytes 1 p f.flags f.no (liOf pl) (min 0xFFFF f.refs.length) 0xFF 0xFF job panel st.t payload)
  | none =>
    let fld (i none_ : Nat) : Nat := if s.streaming then Config.freeNat (k + i) else none_
    s1.issueStat 1 (statBytes 1 p f.flags f.no (fld 3 (2 ^ 48 - 1)) 0 0xFF 0xFF (fld 4 0xFFFF) (fld 5 0xFFFF) (Config.freeNat (k + 6)) payload)

/-- Issue the records of closed frames, oldest first, once none of their lines is in the buffer or waits for its triple. -/
def State.settleFrames (s : State) (p : Nat) : Nat → State
  | 0 => s
  | fuel + 1 =>
    let c := s.cam p
    match c.frames with
    | f :: t =>
      if f.closed && !(c.buffer ++ c.waiting).any (·.frame == f.no) then
        ((s.issueFrame p f).onCam p fun c => { c with frames := t }).settleFrames p fuel
      else s
    | [] => s

/-- A flag of a frame goes to the frame, to its occurrences and to the captures that have lines of it (R294, R317). -/
def State.flagFrame (s : State) (p no flag : Nat) : State :=
  s.onCam p fun c =>
    let c1 := c.onFrame no fun f => { f with flags := f.flags ||| flag }
    { c1 with
      occ := c.occ.map fun o => if o.frames.contains no then { o with flags := o.flags ||| flag } else o
      captures := c.captures.map fun x => if x.frames.contains no then { x with flags := x.flags ||| flag } else x }

/-- Close the frame that runs on a port (Table 11-2). -/
def State.closeFrame (s : State) (p : Nat) (noEnd : Bool) : State :=
  match (s.cam p).open_ with
  | none => s
  | some f =>
    let short := (f.counts.take (s.camChannels p)).any fun n => decide (n < prmLines f.params)
    let s1 := s.flagFrame p f.no (b2n short + 8 * b2n noEnd)
    let s2 := (s1.onCam p fun c => c.onFrame f.no fun f => { f with closed := true, early := [] }).showPort p
    let s3 := if short then s2.postCam p 0x0701 true (some (Reg.CAMp_STATUS_short_seen p)) [.b p, .n f.no, .n f.refs.length] else s2
    s3.settleFrames p (s3.cam p).frames.length

/-! ### Tables at frames (R308) -/

/-- A staged table of a port takes effect in a frame: its completion carries the frame number, for a plan the effective LI. -/
def State.frameTable (s : State) (p no : Nat) (g : Staged) : State :=
  let s1 := (s.unstage g).setBanks g.kind g.index 0 [⟨0, g.data, g.bad⟩]
  let s2 := if g.kind = tCal then s1.onCam p fun c => { c with repeats := [] } else s1
  match g.op with
  | some (r, n) =>
    s2.endOp r n stOk [(4, leBytes 6 (if g.kind = tPlan then g.eff else no)), (10, leBytes 1 g.kind), (11, leBytes 1 g.index),
      (12, leBytes 4 0xFFFFFFFF)]
  | none => s2

/-- Of each table of a port and of the plan, the first staged bank takes effect when it is due. -/
def State.frameTables (s : State) (p no : Nat) (due : Nat → Bool) : State :=
  [(tCal, p), (tColumn, p), (tPlan, 0)].foldl (fun (s : State) k =>
    match s.sched.staged.find? (fun g => g.kind == k.1 && g.index == k.2) with
    | some g => if due g.eff then s.frameTable p no g else s
    | none => s) s

/-- Captures that wait begin with a frame when they are due (R405). -/
def State.startCaptures (s : State) (p no : Nat) (due : Nat → Bool) : State :=
  s.onCam p fun c => { c with
    captures := c.captures.map fun x => if x.first.isNone && due x.eff then { x with first := some no } else x }

/-! ### CAPTURE (R405) -/

/-- Bytes of a captured line. -/
def State.captureLine (s : State) (p : Nat) : Nat := 16 + 2 * s.get (Reg.CAMp_CFG_pixels p) * s.camChannels p

/-- A capture ends: its result (Table 15-6), with the flags of the frames it has lines of. -/
def State.endCapture (s : State) (p : Nat) (x : CaptureOp) (status : Nat) : State :=
  let fl := ((s.cam p).frames.filter fun f => x.frames.contains f.no).foldl (fun a f => a ||| f.flags) x.flags
  (s.onCam p fun c => { c with captures := c.captures.filter fun y => !(y.ring == x.ring && y.n == x.n) }).endOp x.ring x.n status
    [(4, leBytes 4 (x.first.getD 0)), (8, leBytes 2 x.done), (10, leBytes 2 fl), (12, leBytes 4 (x.done * s.captureLine p))]

/-- Captures end with TIMEOUT when no line has arrived within 1 s. -/
def State.lateCaptures (s : State) (p : Nat) : State :=
  ((s.cam p).captures.filter fun x => decide (max x.lastAt (s.cam p).lastRef + 1000000000 ≤ s.beat)).foldl
    (fun (s : State) x => s.endCapture p x stTimeout) s

/-- CAPTURE (R405). One already under way is looked at again: no line within 1 s ends it. -/
def execCapture (dt : Nat) (op : OpRef) (s : State) : Result :=
  let s := (List.range 4).foldl (fun (s : State) p => s.lateCaptures p) (s.advance dt)
  .next (s.runOp op 0x28 [(16, 4), (24, 12)] true
    (fun f => 3 < f.fld 16 1 || 2 < f.fld 17 1 || f.fld 18 2 < 1 || f.fld 32 4 < f.fld 18 2 * s.captureLine (f.fld 16 1)) noResult true
    fun f s =>
      let p := f.fld 16 1
      if s.get (Reg.CAMp_STATUS_state p) = 0 then s.finish f stBad []
      else s.onCam p fun c => { c with captures := c.captures ++
        [⟨f.ring, f.n, f.fld 17 1, f.fld 18 2, f.fld 24 8, f.fld 32 4, f.effLi, none, 0, [], 0, s.beat⟩] })

/-- The samples of a channel of a captured line; a line that the port discarded has none, so they are free. -/
def sampleBytes (x : Option (List Nat)) (pixels k : Nat) : List (BitVec 8) :=
  match x with
  | some l => l.flatMap fun v => leBytes 2 v
  | none => (List.range pixels).flatMap fun i => leBytes 2 (Config.freeNat (k + i))

/-- The captures take a reference line whose triple is formed. -/
def State.captureTriple (s : State) (p : Nat) (r : CamLine) (others : List CamLine) (dens : List (Nat × Nat × Nat)) : State :=
  let pixels := r.data.length
  let (k, s0) := s.drawBlock (2 * pixels)
  let mate (c : Nat) : Option CamLine := others.find? fun l => l.chan == c && l.seq == r.seq
  (s0.cam p).captures.foldl (fun (s : State) x =>
    match x.first with
    | some no =>
      if no ≤ r.frame && x.done < x.lines then
        let body : List (BitVec 8) := (List.range (s.camChannels p)).flatMap fun c =>
          if x.point = 2 then dens.flatMap fun d => leBytes 2 (denOf d c)
          else if c = 0 then sampleBytes (some (if x.point = 0 then r.raw else r.data)) pixels k
          else sampleBytes ((mate c).map fun l => if x.point = 0 then l.raw else l.data) pixels (k + (c - 1) * pixels)
        let x1 := { x with done := x.done + 1, frames := if x.frames.contains r.frame then x.frames else r.frame :: x.frames }
        let s1 := s.emit (.dmaWrite (x.addr + x.done * s.captureLine p) (leBytes 8 r.t ++ leBytes 8 (wrap 64 r.x) ++ body))
        if x1.done = x1.lines then s1.endCapture p x1 stOk
        else s1.onCam p fun c => { c with captures := c.captures.map fun y => if y.ring == x.ring && y.n == x.n then x1 else y }
      else s
    | none => s) s0

/-! ### Frames (R293, R294, R307) -/

/-- A packet of a port's camera arrives: time for the timeout, and the count of corrected headers. -/
def State.camPacket (s : State) (p : Nat) (corrected : Bool) : State :=
  let s1 := s.onCam p fun c => { c with lastPacket := s.beat }
  if corrected then s1.bump (Reg.CAMp_ERRCNT_A_corrected p) 1 else s1

/-- Begin a frame: a commit made before this beat, and tables for the next frame that begins, take effect (R307, R308). -/
def State.beginFrame (s : State) (p vc : Nat) : State :=
  let no := (s.get (Reg.CAMp_FRAME_NO p) + 1) % 2 ^ 32
  let s1 := s.onCam p fun c => match c.commit with
    | some l => if c.commitAt < s.beat then { c with live := l, commit := none } else c
    | none => c
  let n := s.camChannels p
  let s2 := (s1.set (Reg.CAMp_FRAME_NO p) no).onCam p fun c => { c with
    frames := c.frames ++ [⟨no, c.live, false, none, none, none, List.replicate n 0, (List.range n).map (· == vc), List.replicate n false, [],
      0, false, false, 0, 0, 0, (0, 0, 0), 0, []⟩] }
  let due (eff : Nat) : Bool := eff == 2 ^ 48 - 1
  ((s2.frameTables p no due).startCaptures p no due).showPort p

/-- CSI_FRAME_START (R293, R294). -/
def execCsiFrameStart (dt : Nat) (p : Fin 4) (vc : Fin 16) (corrected : Bool) (s : State) : Result :=
  let s := s.advance dt
  if !s.camOn p then .next s
  else
    let s1 := (s.camPacket p corrected).lateCaptures p
    if 4 ≤ vc.val then .next (s1.bump (Reg.CAMp_ERRCNT_A_discarded p) 1)
    else if s1.camChannels p ≤ vc.val then .next s1
    else
      match (s1.cam p).open_ with
      | none => .next (s1.beginFrame p vc)
      | some f =>
        if f.started.getD vc false then .next ((s1.closeFrame p true).beginFrame p vc)
        else .next (s1.onCam p fun c => c.onFrame f.no fun f => { f with started := f.started.set vc true })

/-- CSI_FRAME_END (R293, R294). -/
def execCsiFrameEnd (dt : Nat) (p : Fin 4) (vc : Fin 16) (corrected : Bool) (s : State) : Result :=
  let s := s.advance dt
  if !s.camOn p then .next s
  else
    let s1 := s.camPacket p corrected
    if 4 ≤ vc.val then .next (s1.bump (Reg.CAMp_ERRCNT_A_discarded p) 1)
    else if s1.camChannels p ≤ vc.val then .next s1
    else
      match (s1.cam p).open_ with
      | none => .next s1
      | some f =>
        let e := f.ended.set vc true
        let s2 := s1.onCam p fun c => c.onFrame f.no fun f => { f with ended := e }
        if e.all id then .next (s2.closeFrame p false) else .next s2

/-- FRAME_TIMEOUT (R294). -/
def execFrameTimeout (dt : Nat) (p : Fin 4) (s : State) : Result :=
  let s := s.advance dt
  match (s.cam p).open_ with
  | some f =>
    if s.camOn p && decide ((s.cam p).lastPacket + 1000000 * prmTimeout f.params ≤ s.beat) then .next ((s.closeFrame p true).lateCaptures p)
    else .next s
  | none => .next s

/-- CAMERA_SILENT (R295): stamps have come for silent_ms and no reference line has been accepted in that time; captures end PARTIAL (R405). -/
def execCameraSilent (dt : Nat) (p : Fin 4) (s : State) : Result :=
  let s := s.advance dt
  let c := s.cam p
  let wait := 1000000 * prmSilent c.live
  if s.camOn p && !s.on (Reg.CAMp_STATUS_silent p) && decide (max c.lastRef c.stampsFrom + wait ≤ s.beat) && decide (s.beat < c.lastStamp + wait) then
    let s1 := (s.raise (Reg.CAMp_STATUS_silent p)).postCam p 0x0707 false none [.b p, .ns s.tb3]
    .next (c.captures.foldl (fun (s : State) x => s.endCapture p x stPartial) s1)
  else .next s

/-- FLUSH_STAMPS (R290). -/
def execFlushStamps (dt : Nat) (p : Fin 4) (s : State) : Result :=
  .next ((s.advance dt).hostWrite (Reg.CAMp_CTRL_flush_stamps p).off fun s => s.onCam p fun c => { c with fifo := [] })

/-- The staged copies of a port's shadowed registers, as the registers hold them (R307). -/
def State.shadowRegs (s : State) (p : Nat) : List Nat :=
  (List.range 7).map fun i => (s.reg ((Reg.CAMp_FRAME_lines p).off + 4 * i)).toNat

/-- CAMp_CTRL.commit is written (R307). -/
def State.commitCam (s : State) (p : Nat) : State :=
  s.onCam p fun c => { c with commit := some (s.shadowRegs p), commitAt := s.beat }

/-- CAMp_CFG is written (R293, Tables 11-9 and 11-11): a port that goes off drops its frames and what it holds of them; one that comes on
counts its frames and its buffer's peak from 0. -/
def State.camCfg (s : State) (p : Nat) (v : BitVec 32) : State :=
  let was := s.portValid p
  let s1 := s.writeWord (Reg.CAMp_CFG_enable p).off v
  let on := s1.portValid p
  let s2 := if was && !on then
      ((s1.cam p).captures.foldl (fun (s : State) x => s.endCapture p x stPartial) s1).onCam p fun c => { c with
        fifo := [], frames := [], buffer := [], seq := 0, waiting := [], others := [], skipped := [], repeats := []
        occ := c.occ.map fun o => { o with closed := true } }
    else s1
  (if !was && on then (s2.set (Reg.CAMp_FRAME_NO p) 0).set (Reg.CAMp_BUF_peak p) 0 else s2).showPort p

/-- CAM_COMMIT (R307). -/
def execCamCommit (dt : Nat) (p : Fin 4) (s : State) : Result :=
  .next ((s.advance dt).hostWrite (Reg.CAMp_CTRL_commit p).off fun s => s.commitCam p)

/-! ### Long packets (R289, R291, R297) -/

/-- The rest of the frame is discarded, for cause 1 overflow, 2 header (R294, R297). -/
def State.cutFrame (s : State) (p : Nat) (f : CamFrame) (cause : Nat) : State :=
  if f.cut then s
  else
    ((s.flagFrame p f.no 4).onCam p fun c => c.onFrame f.no fun f => { f with cut := true }).postCam p 0x0703 true
      (some (Reg.CAMp_STATUS_partial_seen p)) [.b p, .n f.no, .n f.refs.length, .b cause]

/-- A packet that fails a check is discarded and counted (R289). -/
def State.discardPacket (s : State) (p no : Nat) : State :=
  (s.bump (Reg.CAMp_ERRCNT_A_discarded p) 1).onCam p fun c => c.onFrame no fun f => { f with discarded := f.discarded + 1 }

/-- The stamp FIFO drops entries older than max_latency_us; LINE_LOST at the end of the run (R291). -/
def State.ageStamps (s : State) (p : Nat) (f : CamFrame) : State :=
  let old (e : CamStamp) : Bool := decide (1000 * prmLatency f.params < signed 64 (wrap 64 ((s.tb3 : Int) - e.t)))
  let run := ((s.cam p).fifo).filter old
  match run with
  | [] => s
  | e :: _ =>
    let s1 := (s.onCam p fun c => { (c.onFrame f.no fun f => { f with lost := f.lost + run.length }) with fifo := c.fifo.filter (!old ·) }).bump
      (Reg.CAMp_ERRCNT_B_stamps_lost p) run.length
    s1.postCam p 0x0705 true (some (Reg.CAMp_STATUS_lost_seen p)) [.b p, .n run.length, .pos e.x]

/-- The first reference line of a frame fixes its tables; banks and captures whose effective line it reaches start (R308, R405). -/
def State.fixFrame (s : State) (p no : Nat) (place : Option CamPlace) : State :=
  let due (eff : Nat) : Bool := eff != 2 ^ 48 - 1 && (match place with | some x => decide ((64 * eff : Nat) ≤ x.lam) | none => false)
  let s1 := (s.frameTables p no due).startCaptures p no due
  s1.onCam p fun c => c.onFrame no fun f => { f with
    fixed := true, cal := s1.tableNow tCal p 0, map := s1.tableNow tColumn p 0, plan := s1.tableNow tPlan 0 0 }

/-- Put a line into the elastic buffer. -/
def State.bufferLine (s : State) (p : Nat) (l : CamLine) : State := (s.onCam p fun c => { c with buffer := c.buffer ++ [l] }).showBuf p

/-- An accepted packet of the reference channel takes its stamp (R291, R295). -/
def State.refLineIn (s : State) (p : Nat) (f : CamFrame) (n : Nat) (data : List Nat) : State :=
  let s1 := s.ageStamps p f
  match (s1.cam p).fifo with
  | [] =>
    ((s1.bump (Reg.CAMp_ERRCNT_B_untriggered p) 1).onCam p fun c => c.onFrame f.no fun f => { f with untriggered := f.untriggered + 1 }).postCam p
      0x0706 true (some (Reg.CAMp_STATUS_untrig_seen p)) [.b p, .n f.no]
  | e :: rest =>
    let s2 := if s1.on (Reg.CAMp_STATUS_silent p) then
        (s1.clear (Reg.CAMp_STATUS_silent p)).postCam p 0x0708 false none [.b p, .n f.no]
      else s1
    let place := s2.camPlace f.params e.x
    let s3 := if f.fixed then s2 else s2.fixFrame p f.no place
    let seq := (s3.cam p).seq
    let s4 := s3.onCam p fun c => { (c.onFrame f.no fun f => { f with refs := (n, seq, e, place) :: f.refs }) with
      fifo := rest, seq := seq + 1, lastRef := s.beat }
    s4.bufferLine p ⟨0, f.no, n, seq, e.x, e.t, place, data, data, 0⟩

/-- An accepted packet of channel 1 or 2 takes the stamp of line n of channel 0 (R291). -/
def State.otherLineIn (s : State) (p : Nat) (f : CamFrame) (c n : Nat) (data : List Nat) : State :=
  match f.refs.find? (fun r => r.1 == n) with
  | some (_, seq, e, place) => s.bufferLine p ⟨c, f.no, n, seq, e.x, e.t, place, data, data, 0⟩
  | none => s

/-- Lines of channels 1 and 2 that came before channel 0's line n of their frame: they take its stamp, or are discarded where it has no
accepted line n (R291). -/
def State.lateStamp (s : State) (p no n : Nat) : State :=
  match (s.cam p).frame no with
  | none => s
  | some f =>
    let mine := f.early.filter fun e => e.2.1 == n
    let s1 := s.onCam p fun c => c.onFrame no fun f => { f with early := f.early.filter fun e => e.2.1 != n }
    mine.foldl (fun s e => s.otherLineIn p f e.1 n e.2.2) s1

/-- An accepted packet of channel 1 or 2: it waits for channel 0's line of its number while that has not come (R291). -/
def State.sideLineIn (s : State) (p : Nat) (f : CamFrame) (c n : Nat) (data : List Nat) : State :=
  if n < f.counts.getD 0 0 then s.otherLineIn p f c n data
  else (s.onCam p fun x => x.onFrame f.no fun f => { f with early := f.early ++ [(c, n, data)] }).showBuf p

/-- A long packet with a correct header on an enabled channel of the running frame (R289, R294, R297). -/
def State.packetIn (s : State) (p : Nat) (f : CamFrame) (h : CsiHeader) (payload : List (BitVec 8)) (crcOk : Bool) : State :=
  let c := h.vc.val
  let n := f.counts.getD c 0
  let pixels := s.get (Reg.CAMp_CFG_pixels p)
  let raw12 := s.on (Reg.CAMp_CFG_data_type p)
  let words := if raw12 then pixels * 12 / 8 else pixels * 10 / 8
  let s1 := s.onCam p fun x => x.onFrame f.no fun f => { f with counts := f.counts.set c (n + 1) }
  let bad := h.dataType.toNat ≠ (if raw12 then 0x2C else 0x2B) || h.wordCount.toNat ≠ words || !crcOk
  let s1 := if bad then s1.discardPacket p f.no else s1
  if prmLines f.params ≤ n then
    let s2 := s1.flagFrame p f.no 2
    if bit f.flags 1 then s2 else s2.postCam p 0x0702 true (some (Reg.CAMp_STATUS_long_seen p)) [.b p, .n f.no]
  else if f.cut then s1
  else if bad then (if c = 0 then s1.lateStamp p f.no n else s1)
  else if 2097152 < (s1.cam p).level + 2 * pixels then s1.cutFrame p f 1
  else
    let bytes := slice payload 0 words
    let data := if raw12 then unpack12 bytes else unpack10 bytes
    if c = 0 then (s1.refLineIn p f n data).lateStamp p f.no n else s1.sideLineIn p f c n data

/-- CSI_LONG_PACKET (R287 to R291). -/
def execCsiLongPacket (dt : Nat) (p : Fin 4) (h : CsiHeader) (payload : List Byte) (crcOk : Bool) (s : State) : Result :=
  let s := s.advance dt
  if !s.camOn p then .next s
  else
    let s1 := ((s.firePort p).camPacket p (h.ecc = .corrected)).lateCaptures p
    let frame := (s1.cam p).open_
    if h.ecc = .bad then
      match frame with
      | some f => .next (s1.cutFrame p f 2)
      | none => .next s1
    else if h.dataType = 0x12#6 && h.vc.val < 4 then .next s1
    else
      match frame with
      | some f =>
        if h.vc.val < s1.camChannels p then .next (s1.packetIn p f h payload crcOk) else .next (s1.discardPacket p f.no)
      | none => .next (s1.bump (Reg.CAMp_ERRCNT_A_discarded p) 1)

/-! ### The pipeline (R296 to R304, R311) -/

/-- Codeword of a byte of the repeat buffer of a port (R300, R415). -/
def State.repeatWord (s : State) (p off : Nat) : Nat := s.areaPage (s.repeatBase p + off / 4096) * 128 + off % 4096 / 32

/-- Whether a word of entry j reads with POISON, which makes the entry invalid (R299, R422). -/
def State.entryBad (s : State) (p j : Nat) : Bool :=
  let n := s.get (Reg.CAMp_CFG_pixels p) * s.camChannels p * 2
  let bad := s.mem.poison ++ s.mem.bad
  !bad.isEmpty && (List.range (((j + 1) * n + 31) / 32 - j * n / 32)).any fun i => bad.contains (s.repeatWord p (32 * (j * n / 32 + i)))

/-- Storing bytes of the repeat buffer from an offset: a whole access unit among them has fresh check bits (R422). -/
def State.freshUnits (s : State) (p off n : Nat) : State :=
  let first := ceilDiv off 128
  let units := (List.range ((off + n) / 128 - first)).map fun i => s.repeatWord p (128 * (first + i)) / 4
  s.modMem fun m => { m with
    poison := m.poison.filter (fun w => !units.contains (w / 4)), bad := m.bad.filter (fun w => !units.contains (w / 4)) }

/-- The temporal part of stage 1 (R299, R300): the samples, and the port with entry j stored. -/
def State.temporalLine (s : State) (p : Nat) (prm : List Nat) (l : CamLine) (x : List Nat) : List Nat × State :=
  let w := prmTnrW prm
  let pitch := prmPitch prm
  match l.place with
  | some ⟨lam, some (start, job, _, index)⟩ =>
    let j := ((lam - 64 * start) * 4 / (pitch : Int)).toNat
    if !s.on (Reg.CAMp_CFG_tnr_en p) || !s.on (Reg.CAMp_STATUS_tnr_ok p) || w = 0 || pitch = 0 || s.get Reg.ASSAY_CFG_tnr_lines ≤ j then (x, s)
    else
      let key := 4 * j + l.chan
      let y := match (s.cam p).repeats.find? (fun e => e.1 == key) with
        | some (_, b, i, prev) => if b = job && i = index && !s.entryBad p j then temporal w (prmTnrLimit prm) x prev else x
        | none => x
      let n := 2 * s.get (Reg.CAMp_CFG_pixels p)
      (y, (s.onCam p fun c => { c with repeats := (key, job, index, y) :: c.repeats.filter (fun e => e.1 != key) }).freshUnits p
        ((j * s.camChannels p + l.chan) * n) n)
  | _ => (x, s)

/-- The line of a channel nearest to x + δ_c within 31 lines of a reference line (R302). -/
def nearest (others : List CamLine) (c : Nat) (r : CamLine) (delta : Int) : Option CamLine :=
  let dist (l : CamLine) : Nat := (posDiff l.x (r.x + delta)).natAbs
  (others.filter fun l => l.chan == c && decide (l.seq ≤ r.seq + 31) && decide (r.seq ≤ l.seq + 31)).foldl
    (fun b l => match b with | some a => if dist l < dist a then some l else some a | none => some l) none

/-- Whether stage 3 need not wait for a channel any longer: a line at or beyond x + δ_c and the line of the same trigger are there, or 31 more
lines have come. -/
def channelReady (others : List CamLine) (c : Nat) (r : CamLine) (delta : Int) (behind : Nat) : Bool :=
  let mine := others.filter fun l => l.chan == c
  (mine.any (fun l => 0 ≤ posDiff l.x (r.x + delta)) && mine.any (fun l => r.seq ≤ l.seq))
    || decide (31 ≤ (mine.filter fun l => decide (r.seq < l.seq)).length) || decide (31 < behind)

/-- Add a density line to the occurrences of its port (R311, R312). -/
def State.analyse (s : State) (p : Nat) (f : CamFrame) (r : CamLine) (dens : List (Nat × Nat × Nat)) (align : Bool) : State :=
  match r.place, f.map, f.plan with
  | some pl, some map, some plan =>
    let fl := pl.lam / 64
    let cols := (List.range r.data.length).map fun i => leAt map (4 * i) 4
    let s1 := s.onCam p fun c => { c with
      occ := c.occ.map fun o => if o.start + rgLen o.record ≤ fl then { o with closed := true } else o
      skipped := c.skipped.filter fun k => decide (fl < k.2 + 4096) }
    (List.range 64).foldl (fun (s : State) i =>
      let rec_ := slice plan (32 * i) 32
      if rgOf rec_ 0 1 = 0 || rgOf rec_ 1 1 ≠ p then s
      else (s.occStarts rec_ fl).foldl (fun (s : State) start =>
        let part := denPart rec_ pl.lam cols dens
        let c := s.cam p
        if c.skipped.contains (i, start) then s
        else if c.occ.any fun o => o.region == i && o.start == start && !o.closed then
          s.onCam p fun c => { c with occ := c.occ.map fun o =>
            if o.region = i && o.start = start && !o.closed then { o with
              lines := o.lines ++ [part], flags := o.flags ||| f.flags ||| 32 * b2n align
              frames := if o.frames.contains f.no then o.frames else f.no :: o.frames } else o }
        else if 16 ≤ (c.occ.filter (!·.closed)).length then
          (s.onCam p fun c => { c with skipped := (i, start) :: c.skipped }).postCam p 0x0709 true (some (Reg.CAMp_STATUS_skip_seen p))
            [.b p, .n i, .li (wrap 48 start)]
        else
          let ((job, panel), s1) := s.panelOf r.place
          let span := ((cols.getLastD 0 : Int) - cols.headD 0).natAbs
          s1.onCam p fun c => { c with occ := c.occ ++ [⟨i, rec_, start, prmPitch f.params, cols.length, span, f.no, liOf r.place, job, panel, r.t,
            f.flags ||| 32 * b2n align, [f.no], [part], false⟩] }) s) s1
  | _, _, _ => s

/-- Stages 3 to 6 for a reference line (R302 to R304, R311). -/
def State.formTriple (s : State) (p : Nat) (r : CamLine) : State :=
  let c := s.cam p
  match c.frame r.frame with
  | none => s
  | some f =>
    let mono := s.camChannels p == 1
    let n := r.data.length
    let (k, s1) := s.drawBlock (5 * n)
    let half (l : CamLine) (ch : Nat) : Bool :=
      decide (2 ^ 25 * (posDiff l.x (r.x + prmDelta f.params ch)).natAbs ≤ prmPitch f.params * s.cplNow)
    let pick (ch : Nat) : List Nat × Bool :=
      if mono then (r.data, false)
      else match nearest c.others ch r (prmDelta f.params ch) with
        | some l => (l.data, !half l ch)
        | none => ((List.range n).map fun i => Config.freeNat (k + (2 + ch) * n + i) % 4096, true)
    let a := pick 1
    let b := pick 2
    let dens := (r.data.zip (a.1.zip b.1)).zipIdx.map fun (x, i) => triDensity f.cal (k + 3 * i) x.1 x.2.1 x.2.2
    let s2 := s1.onCam p fun c => c.onFrame r.frame fun f => { f with
      sums := (f.sums.1 + (dens.map (·.1)).sum, f.sums.2.1 + (dens.map (·.2.1)).sum, f.sums.2.2 + (dens.map (·.2.2)).sum)
      pixels := f.pixels + n }
    (s2.analyse p f r dens (a.2 || b.2)).captureTriple p r c.others dens

/-- The reference lines that need wait no longer, in order. -/
def State.formTriples (s : State) (p : Nat) : Nat → State
  | 0 => s
  | fuel + 1 =>
    let c := s.cam p
    match c.waiting with
    | [] => s
    | r :: t =>
      let prm := match c.frame r.frame with | some f => f.params | none => c.live
      let ready := s.camChannels p == 1
        || [1, 2].all fun ch => channelReady c.others ch r (prmDelta prm ch) t.length
      if ready then
        ((s.formTriple p r).onCam p fun c => { c with
          waiting := t, others := c.others.filter fun l => decide (r.seq ≤ l.seq + 32) }).formTriples p fuel
      else s

/-- A line whose last tile is served passes stages 1 and 2, and joins its triple. -/
def State.processLine (s : State) (p : Nat) (l : CamLine) : State :=
  let c := s.cam p
  let f := c.frame l.frame
  let prm := match f with | some f => f.params | none => c.live
  let cal := match f with | some f => f.cal | none => none
  let (y, s1) := s.temporalLine p prm l (spatial (prmSn prm) l.data)
  let l1 := { l with data := correct cal l.chan y }
  let s2 := s1.onCam p fun c => if l.chan = 0 then { c with waiting := c.waiting ++ [l1] } else { c with others := l1 :: c.others }
  let s3 := s2.formTriples p (s2.cam p).waiting.length
  s3.settleFrames p (s3.cam p).frames.length

/-- PIPELINE_TILE (R296): one tile of the next port that holds one. -/
def execPipelineTile (dt : Nat) (s : State) : Result :=
  let s := s.advance dt
  let order := (List.range 4).map fun i => (s.assay.next + i) % 4
  match order.find? (fun p => s.camOn p && !(s.cam p).buffer.isEmpty) with
  | none => .next s
  | some p =>
    let s1 := s.modAssay fun a => { a with next := (p + 1) % 4 }
    match (s1.cam p).buffer with
    | [] => .next s1
    | l :: t =>
      if l.data.length ≤ l.served + 256 then
        .next (((s1.onCam p fun c => { c with buffer := t }).showBuf p).processLine p l)
      else .next ((s1.onCam p fun c => { c with buffer := { l with served := l.served + 256 } :: t }).showBuf p)

/-! ### REGION_CLOSE (R312, R317) -/

/-- The header of an occurrence's record: LOST when it has fewer lines than the trigger pitch lets expect. -/
def regionRecord (p : Nat) (o : Occurrence) (payload : List (BitVec 8)) : List (BitVec 8) :=
  let lost := o.pitch != 0 && decide (o.lines.length < rgLen o.record * 256 / o.pitch)
  statBytes (rgOf o.record 0 1 + 1) p (o.flags ||| 16 * b2n lost) o.frame o.firstLi o.lines.length o.region (rgOf o.record 2 1) o.job o.panelNo
    o.stamp payload

/-- Issue the record of an occurrence; a ladder of more than 256 nozzles gives one per 256 (R317). -/
def State.issueRegion (s : State) (p : Nat) (o : Occurrence) : State :=
  match rgOf o.record 0 1 with
  | 1 =>
    let pl := s.placementNow
    let h := rgP1 o.record
    let n := s.columnsOf pl h
    let (k, s1) := s.drawBlock (2 * n)
    (List.range (ceilDiv n 256)).foldl (fun (s : State) i =>
      s.issueStat 2 (regionRecord p o (ladderPayload o k (s.get Reg.ASSAY_LADDER_found_md) (plFirst pl h) (256 * i) (min 256 (n - 256 * i))))) s1
  | 2 => let (k, s1) := s.drawBlock (48 * bandCount o.record); s1.issueStat 3 (regionRecord p o (wedgePayload o k))
  | 3 => let (k, s1) := s.drawBlock 2; s1.issueStat 4 (regionRecord p o (regmarkPayload o k))
  | _ => let (k, s1) := s.drawBlock (6 * bandCount o.record); s1.issueStat 5 (regionRecord p o (zonePayload o k))

/-- REGION_CLOSE (R312): the oldest occurrence of a port that a later reference line, the end of the stream or the port's disabling has closed
gives its record. -/
def execRegionClose (dt : Nat) (p : Fin 4) (s : State) : Result :=
  (s.advance dt).whenOn 8 fun s =>
  match (s.cam p).occ.findIdx? (·.closed) with
  | none => .next s
  | some i =>
    match (s.cam p).occ[i]? with
    | none => .next s
    | some o => .next ((s.onCam p fun c => { c with occ := c.occ.eraseIdx i }).issueRegion p o)

end Sys2Proof.Machine
end

