-- ==== Sys2Proof/Machine/Encoder.lean ====
section
/-! DEFINITION. The encoder and trigger inputs (chapter 02): the balls sampled, the levels the filters accept (R29 to R31), counts,
the index latch, captures. ENCODER_EDGE, INDEX_LATCH and TRIG_CAPTURE each give what all 20 balls show from their beat on. -/

namespace Sys2Proof.Machine

/-- The TB3 time of the first beat of a level accepted now after a filter of N, whole nanoseconds (R31). -/
def State.stampBack (s : State) (n : Nat) : Nat :=
  (wrap 112 ((s.tb 3 : Int) - n * ((2 ^ 48 : Nat) + s.time.rate.getD 3 0))) / 2 ^ 48

/-- An event of an encoder may be posted at most once per 1 ms (R48). -/
def encMayPost (last : Option Nat) (beat : Nat) : Bool :=
  match last with
  | none => true
  | some t => decide (t + 1000000 ≤ beat)

/-- The place of levels A, B in the cycle that counts up (Table 02-1). -/
def quadPhase (a b : Bool) : Nat :=
  match a, b with
  | false, false => 0
  | true, false => 1
  | true, true => 2
  | false, true => 3

/-- The accepted levels of A, B and Z of an encoder. -/
def State.setLevels (s : State) (n : Nat) (a b : Bool) : State :=
  (s.setOn (Reg.ENCn_STATUS_level_a n) a).setOn (Reg.ENCn_STATUS_level_b n) b

/-- ENCn_CFG is written (R36): at a rising enable sampling starts, the first accepted levels are still to be taken, and index_valid is
cleared; the count before is no longer one of two consecutive counts (notes/assumptions/21.md). The sources follow (R52, R62). -/
def State.encCfg (s : State) (n : Nat) (v : BitVec 32) : State :=
  let was := s.on (Reg.ENCn_CFG_enable n)
  let s1 := s.writeWord (Reg.ENCn_CFG_enable n).off v
  let s2 := if !was && s1.on (Reg.ENCn_CFG_enable n) then
      ((s1.onEnc n fun e => { e with initialA := true, initialB := true, initialZ := true, lastCount := none }).restartBalls
        [3 * n, 3 * n + 1, 3 * n + 2]).clear (Reg.ENCn_STATUS_index_valid n)
    else s1
  s2.sources

/-- ENC_ENABLE (R36). -/
def execEncEnable (dt : Nat) (n : Fin 4) (cfg : BitVec 32) (s : State) : Result :=
  .next ((s.advance dt).hostWrite (Reg.ENCn_CFG_enable n).off fun s => s.encCfg n cfg)

/-- A glitch on A or B: counted, and the encoder is suspect for 1 ms (R30, R61). -/
def State.encGlitch (s : State) (n : Nat) : State :=
  (s.bump (Reg.ENCn_ERRCNT_glitch_count n) 1).onEnc n fun e => { e with trouble := some s.beat }

/-- A and B accepted at new levels in one beat (R33, R48). -/
def State.quadError (s : State) (n stamp : Nat) : State :=
  let s1 := (s.raise (Reg.ENCn_STATUS_quad_error n)).bump (Reg.ENCn_ERRCNT_quad_error_count n) 1
  let s2 := s1.onEnc n fun e => { e with trouble := some s.beat }
  if encMayPost (s.enc n).postedQuad s.beat then
    (s2.onEnc n fun e => { e with postedQuad := some s.beat }).post 0x0102 [.b n, .pos (s.encCount n * 65536), .ns stamp]
  else s2

/-- Two counts too close together, the second accepted in beat `at_` (R38, R48). -/
def State.overspeed (s : State) (n stamp at_ : Nat) : State :=
  match (s.enc n).lastCount with
  | none => s
  | some t =>
    if at_ - t < max 20 (s.get (Reg.ENCn_CFG_filter_n n) + 1) then
      let s1 := (s.raise (Reg.ENCn_STATUS_overspeed n)).onEnc n fun e => { e with trouble := some s.beat }
      if encMayPost (s.enc n).postedOver s.beat then
        (s1.onEnc n fun e => { e with postedOver := some s.beat }).post 0x0101 [.b n, .n (at_ - t), .ns stamp]
      else s1
    else s

/-- The lockout of trigger input n ends when the count of its source has gone far enough; one of 0 counts at once (R45). -/
def State.lockout (s : State) (n : Nat) : State :=
  match (s.trig n).lockout with
  | some c =>
    if s.get (Reg.TRIGn_CFG_lockout_counts n) ≤ (signed 48 (wrap 48 (s.encCount (s.get (Reg.TRIGn_CFG_enc_src n)) - c))).natAbs then
      s.onTrig n fun t => { t with lockout := none }
    else s
  | none => s

/-- The same for the trigger inputs of encoder k. -/
def State.lockouts (s : State) (k : Nat) : State :=
  (List.range 8).foldl (fun (s : State) n => if s.get (Reg.TRIGn_CFG_enc_src n) == k then s.lockout n else s) s

/-- ENCn_COUNT, held with its sign in [47:32] of the pair extended to bit 63 (R34, Table 02-6). -/
def State.setCount (s : State) (n : Nat) (c : Int) : State :=
  s.setI2 (Reg.ENCn_COUNT_LO n) (Reg.ENCn_COUNT_HI n) (signed 48 (wrap 48 c))

/-- One count, stamped at `stamp` and accepted in beat `at_` (R32, R34, R37): the count, its direction and stamp; then the overspeed
check, the observer, the compare units and the lockouts. -/
def State.encStep (s : State) (n stamp at_ : Nat) (step : Int) : State :=
  let old := s.encCount n
  let s1 := (s.setCount n (old + step)).setOn (Reg.ENCn_STATUS_dir n) (step < 0)
  let s2 := (s1.set2 (Reg.ENCn_EDGE_TIME_LO n) (Reg.ENCn_EDGE_TIME_HI n) stamp).overspeed n stamp at_
  let s3 := s2.onEnc n fun e => { e with lastCount := some at_ }
  ((s3.obsEdge n old step (stamp * 65536)).cmpCount n).lockouts n

/-- Levels of A (`ha`), of B (`hb`) or of both are accepted in beat `at_` (R32, R33, R36). A first accepted level since the enable is the
initial state: it is no edge, and no count is made before both are known. -/
def State.acceptAB (s : State) (n : Nat) (ha hb : Bool) (at_ : Nat) : State :=
  if !ha && !hb then s
  else
    let e := s.enc n
    let pa := s.on (Reg.ENCn_STATUS_level_a n)
    let pb := s.on (Reg.ENCn_STATUS_level_b n)
    let a := if ha then (s.ball (3 * n)).level else pa
    let b := if hb then (s.ball (3 * n + 1)).level else pb
    let stamp := if ha then (s.ball (3 * n)).stamp else (s.ball (3 * n + 1)).stamp
    let s1 := (s.setLevels n a b).onEnc n fun e => { e with initialA := e.initialA && !ha, initialB := e.initialB && !hb }
    let up : Int := if s.on (Reg.ENCn_CFG_invert_dir n) then -1 else 1
    if (e.initialA && !ha) || (e.initialB && !hb) then s1
    else
      match (quadPhase a b + 4 - quadPhase (if e.initialA then a else pa) (if e.initialB then b else pb)) % 4 with
      | 0 => s1
      | 1 => s1.encStep n stamp at_ up
      | 2 => s1.quadError n stamp
      | _ => s1.encStep n stamp at_ (-up)

/-- The drift accumulator takes d (R40, R42, R43). -/
def State.addDrift (s : State) (n : Nat) (d : Int) : State :=
  let old := s.getI (Reg.ENCn_INDEX_DRIFT_drift n)
  let warn := s.get (Reg.ENCn_INDEX_TOL_drift_warn n)
  let sat := clampI (-(2 ^ 31 : Nat)) ((2 ^ 31 : Nat) - 1) (old + d)
  let s1 := s.setI (Reg.ENCn_INDEX_DRIFT_drift n) sat
  let s2 := (if sat != old + d then s1.raise (Reg.ENCn_STATUS_drift_sat n) else s1).onEnc n fun e => { e with driftAt := some (s.beat, d) }
  if warn ≠ 0 && decide (old.natAbs < warn) && decide (warn ≤ sat.natAbs) then
    (s2.raise (Reg.ENCn_STATUS_drift_warn n)).post 0x0104 [.b n, .s sat]
  else s2

/-- The index gate (Table 02-3). -/
def State.gateOpen (s : State) (n : Nat) : Bool :=
  let a := s.on (Reg.ENCn_STATUS_level_a n)
  match s.get (Reg.ENCn_CFG_z_gate n) with
  | 0 => true
  | 1 => a && s.on (Reg.ENCn_STATUS_level_b n)
  | 2 => a
  | _ => false

/-- An index latch (R39 to R41). -/
def State.indexLatch (s : State) (n stamp : Nat) : State :=
  let c := s.encCount n
  let s1 := (s.setI2 (Reg.ENCn_INDEX_COUNT_LO n) (Reg.ENCn_INDEX_COUNT_HI n) c).set2 (Reg.ENCn_INDEX_TIME_LO n)
    (Reg.ENCn_INDEX_TIME_HI n) stamp
  let dir := s.on (Reg.ENCn_STATUS_dir n)
  let e := s.enc n
  let cpr := s.get (Reg.ENCn_CPR_cpr n)
  let s2 := (s1.onEnc n fun e => { e with ref := c, refDir := dir }).raise (Reg.ENCn_STATUS_index_valid n)
  if cpr = 0 || !s.on (Reg.ENCn_STATUS_index_valid n) then s2
  else
    let expected := if dir != e.refDir then e.ref else if dir then e.ref - cpr else e.ref + cpr
    let d := signed 48 (wrap 48 (c - expected))
    if d.natAbs ≤ s.get (Reg.ENCn_INDEX_TOL_tolerance n) then s2.addDrift n d
    else
      ((s2.bump (Reg.ENCn_STATUS_slip_count n) 1).raise (Reg.ENCn_STATUS_index_slip n)).post 0x0103
        [.b n, .pos (c * 65536), .pos (d * 65536), .ns stamp]

/-- A level of Z is accepted (R36, R39): at its active level with the gate open it latches. -/
def State.acceptZ (s : State) (n : Nat) : State :=
  let z := s.ball (3 * n + 2)
  let s1 := s.setOn (Reg.ENCn_STATUS_level_z n) z.level
  if (s.enc n).initialZ then s1.onEnc n fun e => { e with initialZ := false }
  else if z.level != s.on (Reg.ENCn_CFG_z_polarity n) && s.gateOpen n then s1.indexLatch n z.stamp
  else s1

/-- A write of the drift accumulator; an index update of the same beat adds its d to what is written (R42). The write itself posts no
warning (notes/assumptions/21.md). -/
def State.driftWrite (s : State) (n : Nat) (v : BitVec 32) : State :=
  let s1 := s.writeWord (Reg.ENCn_INDEX_DRIFT_drift n).off v
  match (s.enc n).driftAt with
  | some (t, d) => if t = s.beat then s1.addDrift n d else s1
  | none => s1

/-- INDEX_DRIFT_WRITE (R42). -/
def execIndexDriftWrite (dt : Nat) (n : Fin 4) (v : BitVec 32) (s : State) : Result :=
  .next ((s.advance dt).hostWrite (Reg.ENCn_INDEX_DRIFT_drift n).off fun s => s.driftWrite n v)

/-! ### Trigger inputs -/

/-- The capture registers show the oldest entry of the FIFO (R47, R50). -/
def State.showFifo (s : State) (n : Nat) : State :=
  let f := (s.trig n).fifo
  let s1 := s.set (Reg.TRIGn_FIFO_STATUS_level n) f.length
  match f.head? with
  | some c =>
    (((s1.setI2 (Reg.TRIGn_CAP_COUNT_LO n) (Reg.TRIGn_CAP_COUNT_HI n) c.count).set2 (Reg.TRIGn_CAP_TIME_LO n)
      (Reg.TRIGn_CAP_TIME_HI n) c.stamp).raise (Reg.TRIGn_CAP_INFO_valid n)).setOn (Reg.TRIGn_CAP_INFO_edge_level n) c.rising
  | none =>
    (((s1.set2 (Reg.TRIGn_CAP_COUNT_LO n) (Reg.TRIGn_CAP_COUNT_HI n) 0).set2 (Reg.TRIGn_CAP_TIME_LO n)
      (Reg.TRIGn_CAP_TIME_HI n) 0).clear (Reg.TRIGn_CAP_INFO_valid n)).clear (Reg.TRIGn_CAP_INFO_edge_level n)

/-- TRIGn_CFG is written (R44): at a rising enable sampling starts and the first accepted level is still to be taken; a lockout that the
new setting finds reached ends (R45). -/
def State.trigCfg (s : State) (n : Nat) (v : BitVec 32) : State :=
  let was := s.on (Reg.TRIGn_CFG_enable n)
  let s1 := (s.writeWord (Reg.TRIGn_CFG_enable n).off v).lockout n
  if !was && s1.on (Reg.TRIGn_CFG_enable n) then (s1.onTrig n fun t => { t with initial := true }).restartBalls [12 + n] else s1

/-- TRIG_ENABLE (R44). -/
def execTrigEnable (dt : Nat) (n : Fin 8) (cfg : BitVec 32) (s : State) : Result :=
  .next ((s.advance dt).hostWrite (Reg.TRIGn_CFG_enable n).off fun s => s.trigCfg n cfg)

/-- A capture of an edge stamped at `stamp` (R44 to R47). -/
def State.capture (s : State) (n stamp : Nat) (rising : Bool) : State :=
  let e := s.get (Reg.TRIGn_CFG_enc_src n)
  let c := s.encCount e
  let s1 := if s.get (Reg.TRIGn_CFG_lockout_counts n) = 0 then s else s.onTrig n fun t => { t with lockout := some c }
  let s2 := if (s1.trig n).fifo.length < 16 then
      (s1.onTrig n fun t => { t with fifo := t.fifo ++ [⟨c, stamp, rising⟩] }).showFifo n
    else
      let s' := (s1.bump (Reg.TRIGn_FIFO_STATUS_overflow_count n) 1).raise (Reg.TRIGn_FIFO_STATUS_overflow n)
      s'.post 0x0105 [.b n, .n (s'.get (Reg.TRIGn_FIFO_STATUS_overflow_count n))]
  let s3 := if s.on (Reg.TRIGn_CFG_post_event n) then s2.post 0x0106 [.b n, .pos (c * 65536), .ns stamp] else s2
  s3.sheetEdge n e c

/-- A level of TRIG_IN[n] is accepted (R44, R45). -/
def State.acceptTrig (s : State) (n : Nat) : State :=
  let z := s.ball (12 + n)
  let t := s.trig n
  let s1 := s.onTrig n fun t => { t with level := z.level, initial := false }
  let edge := s.get (Reg.TRIGn_CFG_edge n)
  let hit := (edge == 0 && z.level) || (edge == 1 && !z.level) || edge == 2
  if !t.initial && hit && t.lockout.isNone && s.on (Reg.ENCn_CFG_enable (s.get (Reg.TRIGn_CFG_enc_src n))) then
    s1.capture n z.stamp z.level
  else s1

/-- Remove the oldest capture; the registers of an empty FIFO read 0, so the shadows its HI registers show are 0 too (R47). -/
def State.popCapture (s : State) (n : Nat) : State :=
  if (s.trig n).fifo.isEmpty then s
  else
    let s1 := (s.onTrig n fun t => { t with fifo := t.fifo.drop 1 }).showFifo n
    if (s1.trig n).fifo.isEmpty then
      s1.modShadow fun m => [Reg.TRIGn_CAP_COUNT_HI n, Reg.TRIGn_CAP_TIME_HI n].foldl (fun m f => Tab.set (fun _ => 0#32) m f.off 0#32) m
    else s1

/-- TRIG_POP (R47). -/
def execTrigPop (dt : Nat) (n : Fin 8) (s : State) : Result :=
  .next ((s.advance dt).hostWrite (Reg.TRIGn_POP_pop n).off fun s => s.popCapture n)

/-! ### The balls (R29 to R31) -/

/-- From beat `first` on ball i shows a level. A level that returns before it is accepted was a glitch, counted for A and B (R30). -/
def State.showBall (s : State) (first i : Nat) (level : Bool) : State :=
  if (s.ball i).level == level then s
  else
    let s1 := if s.powered 2 && !isTrig i && !isZ i && s.waits i && !s.initialOf i then s.encGlitch (i / 3) else s
    s1.setBall i ⟨level, first,
      if first = s.beat then s.tb3 else tbAdvance (s.tb 3) (s.time.rate.getD 3 0) (first - s.beat) / 2 ^ 48⟩

/-- All levels accepted in beat d: counts first, so that the index and the captures of the beat include them (R39, R44). -/
def State.acceptAt (s : State) (d : Nat) : State :=
  let hits := upto 20 fun i => s.accepts i d
  let s0 := s.advance (d - s.beat)
  let s1 := (List.range 4).foldl (fun (s : State) n => s.acceptAB n (hits.contains (3 * n)) (hits.contains (3 * n + 1)) d) s0
  let s2 := (List.range 4).foldl (fun (s : State) n => if hits.contains (3 * n + 2) then s.acceptZ n else s) s1
  (List.range 8).foldl (fun (s : State) n => if hits.contains (12 + n) then s.acceptTrig n else s) s2

/-- Accept, beat by beat, what the filters accept up to a beat; each of the 20 balls has at most one level waiting. -/
def State.acceptTo : Nat → Nat → State → State
  | 0, _, s => s
  | k + 1, limit, s =>
    match s.nextAccept limit with
    | none => s
    | some d => State.acceptTo k limit (s.acceptAt d)

/-- This beat's samples of the 20 balls. The device samples a beat once: levels given again in one beat show from the next beat on. -/
def State.showBalls (s : State) (levels : BitVec 20) : State :=
  let first := if s.inputs.sampled == some s.beat then s.beat + 1 else s.beat
  ((List.range 20).foldl (fun (s : State) i => s.showBall first i (levels.getLsbD i)) s).modInputs fun x => { x with sampled := some s.beat }

/-- The balls at the beat dt from now: what the filters accept before it is accepted, each in its own beat where no other command has come
since; then this beat is sampled with the levels given, and what it lets the filters accept is accepted (R29). A switched-off domain accepts
nothing. -/
def State.sampleBalls (s : State) (dt : Nat) (levels : BitVec 20) : State :=
  let t := s.beat + dt
  let on := s.powered 2
  let s0 := if on && 0 < t then State.acceptTo 20 (t - 1) s else s
  let s1 := (s0.advance (t - s0.beat)).showBalls levels
  if on then s1.acceptAt t else s1

/-- ENCODER_EDGE (R32): the balls, where levels of A and B change. -/
def execEncoderEdge (dt : Nat) (levels : BitVec 20) (s : State) : Result := .next (s.sampleBalls dt levels)

/-- INDEX_LATCH (R39): the balls, where a level of Z changes. -/
def execIndexLatch (dt : Nat) (levels : BitVec 20) (s : State) : Result := .next (s.sampleBalls dt levels)

/-- TRIG_CAPTURE (R44): the balls, where a level of TRIG_IN changes. -/
def execTrigCapture (dt : Nat) (levels : BitVec 20) (s : State) : Result := .next (s.sampleBalls dt levels)

end Sys2Proof.Machine
end

