-- ==== Sys2Proof/Machine/Care.lean ====
section
/-! DEFINITION. Head care and the Canary (chapter 10): scans, drop checks, spits, warming, the head and chip models, throttling, holds. -/

namespace Sys2Proof.Machine

/-- The head addresses of a 32-byte bitmap at an offset of a descriptor (Table 15-5). -/
def Flight.heads (f : Flight) (off : Nat) : List Nat := upto 256 fun a => bit (f.fld (off + a / 8) 1) (a % 8)

/-- The rows of a rows field. -/
def rowList (rows : Nat) : List Nat := [0, 1].filter fun r => bit rows r

/-- Whether a rows field names a row and nothing else. -/
def rowsOk (rows : Nat) : Bool := 1 ≤ rows && rows ≤ 3

/-- The time at which a SPIT starts, free but at least so many ns ahead (R268; notes/assumptions/34.md). -/
def State.spitTime (s : State) (ahead : Nat) : Nat × State := let (n, s1) := s.drawNat; ((s.now + ahead * 65536 + n % ((1000000000 - ahead) * 65536)) % 2 ^ 80, s1)

/-! ### Resistance scans (R256) -/

/-- RESIST_SCAN (R256, R283). -/
def execResistScan (dt : Nat) (op : OpRef) (s : State) : Result :=
  .next ((s.advance dt).runOp op 0x19 [(16, 32), (48, 1), (49, 1), (52, 4)] false
    (fun f => !rowsOk (f.fld 48 1) || 1 < f.fld 49 1 || f.fld 52 4 = 0 || 10000000 < f.fld 52 4) noResult true fun f s =>
      let hs := (f.heads 16).filter fun a => s.served a
      if hs.isEmpty then s.finish f stUnreachable []
      else
        let todo := (f.heads 16).flatMap fun a => (rowList (f.fld 48 1)).map fun r => (a, r)
        let s1 := s.modCare fun c => { c with
          scans := c.scans ++ [⟨f.ring, f.n, todo, none, bit (f.fld 49 1) 0, f.fld 52 4, 0, 0, 0, 0, 0, 0, 0, 0, 0, c.count, false⟩]
          count := c.count + 1 }
        s1.careNext)

/-! ### Service lines (R240, R268, R273) -/

/-- The beat at which a TB3 stamp in 2^-16 ns falls. -/
def State.beatOf (s : State) (t : Nat) : Nat := ((s.beat : Int) + stampDiff t s.now / 65536).toNat

/-- Send a SPIT to a head over columns first to last, and note its service lines: they heat the head, advance s, and the last of them is when
the head last fired (R261, R268, R273). -/
def State.spit (s : State) (a t period rows level first last reps : Nat) : State :=
  let end_ := s.beatOf ((t + (reps - 1) * period * 256) % 2 ^ 80)
  let e := s.spitEnergy a ((last + 1 - first) * (rowList rows).length) level
  let ps := (List.range reps).map fun j => (t + j * period * 256, e)
  (((s.sendSpit a t period rows level first last 1 reps).onNode a fun n => { n with service := (n.service + reps) % 16 }).onModel a
    fun m => { m with pulses := m.pulses ++ ps, fired := max m.fired end_ })

/-! ### Drop checks (R260 to R264) -/

/-- I of a plane's gate in units of 10 ns (Table 10-9). -/
def State.gatePace (s : State) (q : Nat) : Nat := max 100 (s.get (Reg.DGq_PACE_interval q))

/-- Ten nanoseconds in 2^-16 ns. -/
def tenNs : Nat := 655360

/-- The beam of a plane has been clear for 100 µs (R264). -/
def State.beamReady (s : State) (q : Nat) : Bool :=
  let interrupted := s.on (Reg.DGq_STATUS_level q) != s.on (Reg.DGq_CFG_polarity q)
  !interrupted && decide (Tab.get (fun _ => 0) s.care.beamClear q + 100000 ≤ s.beat)

/-- What the gate ball of a plane shows (R260). -/
def State.gateBall (s : State) (q : Nat) : Ball := Tab.get (fun _ => {}) s.care.gateBalls q

/-- A level of a plane's gate is accepted, `stamp` its time in ns and `at_` the beat of acceptance: the start of an interruption is an edge,
of the windows it falls in or of none (R260, R262); the end clears the beam (R264). -/
def State.gateAccept (s : State) (q : Nat) (level : Bool) (stamp at_ : Nat) : State :=
  let s1 := s.setOn (Reg.DGq_STATUS_level q) level
  if level == s.on (Reg.DGq_CFG_polarity q) then
    s1.modCare fun c => { c with beamClear := Tab.set (fun _ => 0) c.beamClear q at_ }
  else
    let t : Int := ((stamp * 65536 : Nat) : Int)
    let i : Int := ((s.gatePace q * tenNs : Nat) : Int)
    let tof : Int := ((s.get (Reg.DGq_WINDOW_tof_min q) * tenNs : Nat) : Int)
    let into (w : DropWindow) : Int := signed 80 (wrap 80 (t - w.start))
    let hit (w : DropWindow) : Bool := decide (0 ≤ into w) && decide (into w < i)
    match s1.gate q with
    | some g =>
      let seen (w : DropWindow) : DropWindow :=
        if hit w then { w with edges := w.edges + 1, flight := if w.edges = 0 then into w + tof else w.flight } else w
      if g.windows.any hit then s1.setGate { g with windows := g.windows.map seen }
      else s1.bump (Reg.DGq_STATUS_unassigned q) 1
    | none => s1.bump (Reg.DGq_STATUS_unassigned q) 1

/-- The level a gate ball shows is accepted once it has been sampled in N + 1 consecutive beats of an enabled gate (R29, R260). -/
def State.gateSettle (s : State) (q : Nat) : State :=
  let b := s.gateBall q
  let at_ := b.since + s.get (Reg.DGq_CFG_filter_n q)
  if s.on (Reg.DGq_CFG_enable q) && b.level != s.on (Reg.DGq_STATUS_level q) && decide (at_ ≤ s.beat) then
    s.gateAccept q b.level b.stamp at_
  else s

/-- DGq_CFG is written: sampling starts at a rising enable (R260). -/
def State.gateCfg (s : State) (q : Nat) (v : BitVec 32) : State :=
  let was := s.on (Reg.DGq_CFG_enable q)
  let s1 := (s.gateSettle q).writeWord (Reg.DGq_CFG_enable q).off v
  if !was && s1.on (Reg.DGq_CFG_enable q) then
    (s1.modCare fun c => { c with gateBalls := Tab.set (fun _ => {}) c.gateBalls q ⟨(s.gateBall q).level, s.beat, s.tb3⟩ }).gateSettle q
  else s1

/-- The groups of a row still to send in this pass: all in the first, those with a column to check again later. -/
def GateOp.groupDue (g : GateOp) (c0 : Nat) : Bool := g.pass = 0 || g.retry.any fun c => c / 16 == c0 / 16

/-- Send the SPIT of the group at c0 (R261) with its windows (R262). -/
def State.sendGroup (s : State) (g : GateOp) (a row c0 : Nat) : State :=
  let i := s.gatePace g.plane
  let n := s.headColumns a
  let last := min (c0 + 15) (n - 1)
  let (t, s) := s.spitTime 0
  let sv := (s.node a).service
  let tof := s.get (Reg.DGq_WINDOW_tof_min g.plane) * tenNs
  let cols := (List.range (last + 1 - c0)).map (· + c0)
  let ws := (List.range g.drops).flatMap fun j =>
    (List.range 16).flatMap fun p =>
      (cols.filter fun c => (c + 32 - (sv + j) % 16) % 16 == p).map fun c =>
        (⟨c, ((t + (16 * j + p) * i * tenNs + tof : Nat) : Int), 0, 0⟩ : DropWindow)
  (s.spit a t (16 * i * 10 * 256) (2 ^ row) 3 c0 last g.drops).setGate { g with group := c0, windows := ws, waitFrom := none }

/-- GATE_DONE for the head whose check is over (R264); one that was not served to the end does not count as checked. -/
def State.gateHeadDone (s : State) (g : GateOp) (a : Nat) : GateOp × State :=
  let c := g.counts
  let t := g.total
  ({ g with
      counts := (0, 0, 0, 0), checked := g.checked + b2n (s.served a), part := g.part || !s.served a
      total := (t.1 + c.1, t.2.1 + c.2.1, t.2.2.1 + c.2.2.1, t.2.2.2 + c.2.2.2) },
    s.post 0x0604 [.b g.plane, .b a, .n c.1, .n c.2.1, .n c.2.2.1, .n c.2.2.2])

/-- The check of a plane ends (R256, R264). -/
def State.endGate (s : State) (g : GateOp) (blocked : Bool) : State :=
  let st := if blocked || g.part then stPartial else stOk
  let s1 := (s.endOp g.ring g.n st (g.result blocked)).modCare fun c => { c with
    gates := c.gates.filter fun h => !(h.ring == g.ring && h.n == g.n) }
  (if (s1.gate g.plane).isNone then s1.clear (Reg.DGq_STATUS_busy g.plane) else s1).careNext

/-- The check goes on to the next group, pass, row or head (R261, R263): `from_` is the first column not yet sent in this pass. -/
def State.gateNext (s : State) (g : GateOp) (from_ : Nat) : Nat → State
  | 0 => s
  | fuel + 1 =>
    match g.todo with
    | [] => s.endGate g false
    | (a, row) :: t =>
      let starts := (List.range (s.headColumns a / 16)).map (· * 16)
      match (if s.served a then starts.find? (fun c0 => decide (from_ ≤ c0) && g.groupDue c0) else none) with
      | some c0 => s.sendGroup g a row c0
      | none =>
        if s.served a && g.pass < s.get Reg.HC_CFG_gate_retries && !g.retry.isEmpty then
          s.gateNext { g with pass := g.pass + 1 } 0 fuel
        else
          let s1 := s.gateRowDone g a row
          let g1 := { g with pass := 0, retry := [], missing := [], double := [], changed := 0, first := 0, todo := t }
          match t with
          | (b, _) :: _ =>
            if b = a then s1.gateNext g1 0 fuel
            else
              let (g2, s2) := s1.gateHeadDone g1 a
              s2.setGate { g2 with waitFrom := some s2.beat, windows := [] }
          | [] =>
            let (g2, s2) := s1.gateHeadDone g1 a
            s2.endGate g2 false

/-- Steps one advance of a check can take. -/
def GateOp.fuel (g : GateOp) : Nat := 5 * g.todo.length + 5

/-- DROP_CHECK (R261, R263, R264, R283, R403). -/
def execDropCheck (dt : Nat) (op : OpRef) (s : State) : Result :=
  .next ((s.advance dt).runOp op 0x1A [(16, 32), (48, 1), (49, 1), (50, 1)] false
    (fun f => 9 < f.fld 48 1 || !rowsOk (f.fld 49 1) || f.fld 50 1 = 0 || 4 < f.fld 50 1) noResult true fun f s =>
      let q := f.fld 48 1
      let d := s.placementNow
      let hs := f.heads 16
      if hs.any (fun a => plEn d a && plPlane d a != q) || s.get (Reg.DGq_WINDOW_tof_min q) + s.gatePace q < s.get (Reg.DGq_WINDOW_tof_slow q)
          || (s.dev = stPrinting && plPlaneEn d q) then s.finish f stBad []
      else if !hs.any (fun a => s.served a) then s.finish f stUnreachable []
      else
        let todo := (hs.filter (fun a => s.served a)).flatMap fun a => (rowList (f.fld 49 1)).map fun r => (a, r)
        let g : GateOp := ⟨f.ring, f.n, q, f.fld 50 1, todo, 0, 0, [], [], [], [], none, (0, 0, 0, 0), (0, 0, 0, 0), 0, 0, 0,
          s.care.count, hs.any fun a => !s.served a⟩
        let s0 := s.gateSettle q
        let s1 := ((s0.modCare fun c => { c with gates := c.gates ++ [g], count := c.count + 1 }).raise (Reg.DGq_STATUS_busy q)).gatesNext
        let s2 := s1.endWet fun a => plEn d a && plPlane d a == q
        match s2.gate q with
        | some h => if h.order = g.order && h.begun && s2.beamReady q then s2.gateNext { h with waitFrom := none } 0 g.fuel else s2
        | none => s2)

/-- DROP_GATE_EDGE (R260): the gate ball shows a level from this beat on. -/
def execDropGateEdge (dt : Nat) (q : Fin 10) (level : Bool) (s : State) : Result :=
  (s.advance dt).whenOn 7 fun s =>
  let s1 := s.gateSettle q
  if (s1.gateBall q).level == level then .next s1
  else .next ((s1.modCare fun c => { c with gateBalls := Tab.set (fun _ => {}) c.gateBalls q ⟨level, s.beat, s.tb3⟩ }).gateSettle q)

/-- Verdict of a nozzle with its windows (R263): 0 OK, 1 SLOW, 2 MISSING, 3 DOUBLE. -/
def verdictOf (slow : Int) (ws : List DropWindow) : Nat :=
  let oks := (ws.filter fun w => w.edges = 1 && decide (w.flight ≤ slow)).length
  if (ws.length + 1) / 2 ≤ oks then 0
  else if ws.all (fun w => w.edges = 0) then 2
  else if ws.any (fun w => 2 ≤ w.edges) then 3
  else 1

/-- Set the gate finding of a nozzle and note a changed code. -/
def State.gateFinding (s : State) (g : GateOp) (a row c find : Nat) : GateOp × State :=
  let before := s.healthNow a row c
  let s1 := s.onNoz a row c fun z => { z with gate := find }
  if s1.healthNow a row c != before then
    ({ g with changed := g.changed + 1, first := if g.changed = 0 then c else min g.first c }, s1)
  else (g, s1)

/-- Settle one column of the group (R263, R265). -/
def State.settleColumn (s : State) (g : GateOp) (a row c : Nat) : GateOp × State :=
  let slow : Int := ((s.get (Reg.DGq_WINDOW_tof_slow g.plane) * tenNs : Nat) : Int)
  let v := verdictOf slow (g.windows.filter fun w => w.col == c)
  let lastPass := s.get Reg.HC_CFG_gate_retries ≤ g.pass
  let allMissing := v = 2 && (g.pass = 0 || g.missing.contains c)
  let g1 := { g with missing := if allMissing then c :: g.missing.filter (· != c) else g.missing.filter (· != c) }
  let k := g.counts
  if v = 0 then s.gateFinding { g1 with retry := g1.retry.filter (· != c), counts := (k.1 + 1, k.2) } a row c 0
  else if v = 1 then
    s.gateFinding { g1 with retry := g1.retry.filter (· != c), counts := (k.1, k.2.1 + 1, k.2.2) } a row c 2
  else if !lastPass then ({ g1 with retry := c :: g1.retry.filter (· != c) }, s)
  else if allMissing then
    s.gateFinding { g1 with retry := g1.retry.filter (· != c), counts := (k.1, k.2.1, k.2.2.1 + 1, k.2.2.2) } a row c 1
  else ({ g1 with retry := g1.retry.filter (· != c), counts := (k.1, k.2.1, k.2.2.1, k.2.2.2 + 1) }, s)

/-- DROP_WINDOW_END (R261 to R264): the last window of the group sent has closed, and its columns are settled; or the beam that the check
waits for has been clear for 100 µs. -/
def execDropWindowEnd (dt : Nat) (q : Fin 10) (s : State) : Result :=
  (s.advance dt).whenOn 7 fun s =>
  let s := s.gateSettle q
  match s.gate q with
  | none => .next s
  | some g =>
    match g.waitFrom with
    | some _ => if s.beamReady q then .next (s.gateNext { g with waitFrom := none } 0 g.fuel) else .next s
    | none =>
      let i : Int := ((s.gatePace q * tenNs : Nat) : Int)
      if g.windows.isEmpty || !g.windows.all (fun w => !before s.now (wrap 80 (w.start + i))) then .next s
      else
        match g.todo with
        | [] => .next (s.endGate g false)
        | (a, row) :: _ =>
          let cols := if s.served a then (List.range 16).map (· + g.group) else []
          let due := cols.filter fun c => g.windows.any (fun w => w.col == c) && (g.pass = 0 || g.retry.contains c)
          let (g1, s1) := due.foldl (fun (x : GateOp × State) c => x.2.settleColumn x.1 a row c) (g, s)
          .next ((s1.setGate { g1 with windows := [] }).gateNext { g1 with windows := [] } (g.group + 16) g1.fuel)

/-- GATE_BLOCKED (R264): 10 ms without a beam clear for 100 µs. -/
def execGateBlocked (dt : Nat) (q : Fin 10) (s : State) : Result :=
  (s.advance dt).whenOn 7 fun s =>
  let s := s.gateSettle q
  match s.gate q with
  | none => .next s
  | some g =>
    match g.waitFrom with
    | some t =>
      if decide (t + 10000000 ≤ s.beat) && !s.beamReady q then
        .next ((((s.raise (Reg.DGq_STATUS_blocked q)).raise Reg.HC_STATUS_gate_blocked).post 0x0605 [.b q]).endGate g true)
      else .next s
    | none => .next s

/-! ### Spits (R268, R269) -/

/-- The keep-wet plan of a plane. -/
def State.wetPlan (s : State) (q : Nat) : WetPlan := Tab.get (fun _ => {}) s.care.plans q

/-- Least service line period: 500 ns, unsigned 24.8 (Table 15-5). -/
def minSpit : Nat := 0x1F400

/-- SPIT_PLAN (R268, R269, R403). -/
def execSpitPlan (dt : Nat) (op : OpRef) (s : State) : Result :=
  .next ((s.advance dt).runOp op 0x1B [(16, 1), (17, 1), (18, 1), (19, 1), (20, 2), (22, 2), (24, 1), (25, 1), (28, 4)] false
    (fun f =>
      let kind := f.fld 16 1
      let wet := f.fld 19 1 = 0 || 3 < f.fld 19 1 || f.fld 24 1 = 0 || !rowsOk (f.fld 25 1) || f.fld 28 4 < minSpit
      (kind ≠ 1 && kind ≠ 2) || 9 < f.fld 17 1 || (kind = 1 && 1 < f.fld 18 1)
        || (kind = 1 && f.fld 18 1 = 1 && (wet || f.fld 20 2 = 0 || f.fld 22 2 = 0)) || (kind = 2 && wet)) noResult true fun f s =>
      let q := f.fld 17 1
      let d := s.placementNow
      if f.fld 16 1 = 1 then
        let p : WetPlan := ⟨f.fld 18 1 = 1, f.fld 20 2, f.fld 22 2, f.fld 24 1, f.fld 19 1, f.fld 25 1, f.fld 28 4⟩
        (s.modCare fun c => { c with plans := Tab.set (fun _ => {}) c.plans q (if p.enable then p else {}) }).finish f stOk []
      else if s.dev = stPrinting && plPlaneEn d q then s.finish f stBad []
      else
        ((plHeads d q).foldl (fun (s : State) a =>
          if s.served a then
            let (t, s) := s.spitTime 20000
            s.spit a t (f.fld 28 4) (f.fld 25 1) (f.fld 19 1) 0 (s.headColumns a - 1) (f.fld 24 1)
          else s) s).finish f stOk [])

/-- Whether a head is eligible for keep-wet spits (R268). -/
def State.eligible (s : State) (a : Nat) : Bool :=
  s.served a && s.held_ && !((s.gate (plPlane s.placementNow a)).any GateOp.begun) && (s.head a).bound.all fun b => !(s.head a).loads.any fun l => l.1 == b.k

/-- KEEP_WET_SPIT (R268). -/
def execKeepWetSpit (dt : Nat) (a : Fin 256) (s : State) : Result :=
  (s.advance dt).whenOn 7 fun s =>
  let s := s.retireHead a
  let p := s.wetPlan (plPlane s.placementNow a)
  let m := s.model a
  let due := match m.spat with
    | some t => if t < m.fired then m.fired + p.idleMs * 1000000 else t + p.intervalMs * 1000000
    | none => m.fired + p.idleMs * 1000000
  if plEn s.placementNow a && p.enable && s.eligible a && decide (due ≤ s.beat) then
    let (t, s) := s.spitTime 20000
    .next ((s.spit a t p.period p.rows p.level 0 (s.headColumns a - 1) p.drops).onModel a fun x => { x with
      spat := some s.beat, fired := m.fired })
  else .next s

/-! ### Warming (R270) -/

/-- warm_level of a head (R270): the nearest integer; how a half rounds is not said. -/
def State.warmLevel (s : State) (a : Nat) : Nat :=
  let t := s.get Reg.HC_WARM_warm_target
  if t = 0 then 0
  else (clampI 0 15 (divRound (2 * ((t : Int) * 2 ^ 32 - (s.model a).td)) (2 ^ 32))).toNat

/-- WARM_LEVEL_UPDATE (R270). -/
def execWarmLevelUpdate (dt : Nat) (a : Fin 256) (s : State) : Result :=
  (s.advance dt).whenOn 7 fun s =>
  let w := s.warmLevel a
  if s.served a && s.held_ && s.get (Reg.HC_HEADa_STATE_warm_level a) ≠ w then
    .next ((s.sendCareParam a 1 w).set (Reg.HC_HEADa_STATE_warm_level a) w)
  else .next s

/-! ### Heat in a head (R272 to R275) -/

/-- Idle warming pulses since the last update (R271, R273): counts of 8 µs of link time with (count mod 16) < warm_level, while no line is
bound; with the count reached. -/
def State.idleWarm (s : State) (a : Nat) : Nat × Nat :=
  let c := s.linkTime (a / 8) s.now / (8000 * 65536)
  let old := (s.model a).idleCount
  let w := s.get (Reg.HC_HEADa_STATE_warm_level a)
  let idle := (s.head a).bound.isEmpty && s.warms a
  let n := if idle && old < c then ((List.range (min 16 (c - old))).filter fun i => (c - i) % 16 < w).length else 0
  (n * s.enabledColumns a, c)

/-- HEAD_MODEL_UPDATE (R272, R273, R279): one interval of 10 µs. -/
def execHeadModelUpdate (dt : Nat) (a : Fin 256) (s : State) : Result :=
  (s.advance dt).whenOn 7 fun s =>
  let s := s.retireHead a
  match s.headClassOf a with
  | none => .next s
  | some c =>
    if !s.served a || s.dev = stCold then .next s
    else
      let m := s.model a
      let due := m.pulses.filter fun p => !before s.now p.1
      let (warm, count) := s.idleWarm a
      let e := m.energy + (due.map (·.2)).sum + s.warmEnergy a warm
      let ink : Int := s.getI (Reg.HC_INK_TEMPq_t_ink (plPlane s.placementNow a)) * 2 ^ 26
      let (dd, s1) := s.drawQuot ((e * 2 ^ 32 * c.rdb : Nat) - (m.td - m.tb) * 10 ^ 9) (10 ^ 8 * c.rdb * c.cd)
      let (db, s2) := s1.drawQuot (10 * ((m.td - m.tb) * c.rbi - (m.tb - ink) * c.rdb)) (c.rdb * c.rbi * c.cb)
      let s3 := s2.onModel a fun m => { m with
        td := m.td + dd, tb := m.tb + db, energy := 0, pulses := m.pulses.filter (fun p => before s.now p.1), idleCount := count }
      let s4 := s3.setI (Reg.HC_HEADa_TEMP_t_d a) (quot (m.td + dd) (2 ^ 26))
      .next (s4.checkHead a (if c.tShut * 2 ^ 26 ≤ m.td + dd then 1 else 2))

/-- HEAD_SENSE_CORRECTION (R274, R445): in COLD t_d follows the sense temperature. The Canary passes t_d to the Foreman (R275). -/
def execHeadSenseCorrection (dt : Nat) (a : Fin 256) (s : State) : Result :=
  (s.advance dt).whenOn 7 fun s =>
  if !s.served a then .next s
  else if s.dev = stCold then
    match (s.model a).sense with
    | some (t, _) =>
      .next ((s.onModel a fun m => { m with td := t * 2 ^ 26 }).setI (Reg.HC_HEADa_TEMP_t_d a) t)
    | none => .next s
  else
    let m := s.model a
    let s1 := match s.senseNow a with
      | none =>
        let run := min 10 (m.staleRun + 1)
        let s1 := s.onModel a fun m => { m with staleRun := run, divergeRun := 0 }
        if run = 10 && m.staleRun < 10 then
          ((s1.raise (Reg.HC_HEADa_STATE_sense_stale a)).raise Reg.HC_STATUS_sense_stale).post 0x060C [.b a]
        else s1
      | some t =>
        let e : Int := t * 2 ^ 26 - m.td
        let c := clampI (-(2 ^ 33)) (2 ^ 33) e
        let (hd, s1) := s.drawQuot c 2
        let (hb, s2) := s1.drawQuot c 10
        let run := if 10 * 2 ^ 32 < e.natAbs then min 10 (m.divergeRun + 1) else 0
        let s3 := (s2.onModel a fun m => { m with td := m.td + hd, tb := m.tb + hb, staleRun := 0, divergeRun := run }).clear
          (Reg.HC_HEADa_STATE_sense_stale a)
        let s4 := s3.setI (Reg.HC_HEADa_TEMP_t_d a) (quot (m.td + hd) (2 ^ 26))
        if run = 10 && m.divergeRun < 10 then s4.post 0x060D [.b a, .t (quot e (2 ^ 26))] else s4
    let old := Tab.get (fun _ => ((0 : Int), 0)) s1.fm.ffSum a.val
    .next (s1.modFm fun f => { f with ffSum := Tab.set (fun _ => ((0 : Int), 0)) f.ffSum a.val (old.1 + (s1.model a).td, old.2 + 1) })

/-! ### Heat in the chip (R276, R277, R282) -/

/-- A chip node: c_i in 1/10 J/K, g_i in 1/100 W/K, its domains (Table 10-6). -/
def chipNode : Nat → Nat × Nat × List Nat
  | 0 => (12, 90, [6])
  | 1 => (6, 45, [7])
  | 2 => (6, 45, [5])
  | 3 => (3, 20, [3, 4])
  | 4 => (3, 20, [8, 9])
  | _ => (5, 30, [10, 2, 1])

/-- g_ij in 1/100 W/K, nodes from 0 (Table 10-6). -/
def chipCouple (i j : Nat) : Nat :=
  let p := (min i j, max i j)
  if [(0, 1), (0, 2), (0, 5)].contains p then 150
  else if [(1, 3), (2, 4), (3, 5), (4, 5)].contains p then 80
  else 0

/-- Sensor reading of chip node i in 2^-32 °C. -/
def State.chipSensor (s : State) (i : Nat) : Int := s.care.sensors.getD i 0 * 2 ^ 26

/-- T_c in 2^-32 °C with its node 1 to 6 and whether a sensor gives it (R277). The nodes stand still and do not count while LANE is off. -/
def State.chipTemp (s : State) : Int × Nat × Bool :=
  let on := s.powered 7
  (List.range 6).foldl (fun (b : Int × Nat × Bool) i =>
    let m := s.care.chip.getD i 0
    let x := s.chipSensor i
    let b1 := if on && b.1 < m then (m, i + 1, false) else b
    if b1.1 < x then (x, i + 1, true) else b1)
    (if on then (s.care.chip.getD 0 0, 1, false) else (s.chipSensor 0, 1, true))

/-- HC_CHIP_MAX and HC_CHIP_TEMPi follow the nodes; at 125.0 °C the chip shuts down (R277, R282). -/
def State.chipCheck (s : State) : State :=
  let s1 := (List.range 6).foldl (fun (s : State) i => s.setI (Reg.HC_CHIP_TEMPi_model i) (quot (s.care.chip.getD i 0) (2 ^ 26))) s
  let (t, n, sensor) := s1.chipTemp
  let s2 := (s1.setI Reg.HC_CHIP_MAX_t_c (quot t (2 ^ 26))).set Reg.HC_CHIP_MAX_node n
  if 125 * 2 ^ 32 ≤ t then s2.chipShutdown n (quot t (2 ^ 26)) (if sensor then 2 else 1) else s2

/-- The nodes start at the sensor readings (R277). -/
def State.startChip (s : State) (sensors : List Int) : State :=
  ((List.range 6).foldl (fun (s : State) i => s.setI (Reg.HC_CHIP_TEMPi_sensor i) (sensors.getD i 0)) s).modCare fun c =>
    { c with sensors := sensors, chip := (List.range 6).map fun i => sensors.getD i 0 * 2 ^ 26 }

/-- CHIP_MODEL_UPDATE (R276): `powerMw` is the power of domains 1 to 10 over the last 100 µs. The Canary is in LANE (Table 01-1). -/
def execChipModelUpdate (dt : Nat) (powerMw : List Nat) (s : State) : Result :=
  let s := s.advance dt
  let s0 := (List.range 10).foldl (fun (s : State) i => s.set (Reg.PWR_DOMi_MW_mw i) (min (2 ^ 32 - 1) (powerMw.getD i 0))) s
  if s.dev = stBoot || !s.powered 7 then .next s0
  else
    let t (i : Nat) : Int := s.care.chip.getD i 0
    let amb : Int := s.getI Reg.HC_CHIP_AMB_amb * 2 ^ 26
    let (new, s1) := (List.range 6).foldl (fun (x : List Int × State) i =>
      let (c, g, ds) := chipNode i
      let p := (ds.map fun d => powerMw.getD (d - 1) 0).sum
      let flow := (g : Int) * (amb - t i) + ((List.range 6).map fun j => (chipCouple i j : Int) * (t j - t i)).sum
      let (dx, s') := x.2.drawQuot ((p * 2 ^ 32 : Nat) + 10 * flow) (1000000 * c)
      (x.1 ++ [t i + dx], s')) ([], s0)
    .next (s1.modCare fun c => { c with chip := new }).chipCheck

/-- CHIP_SENSOR_CORRECTION (R277): the six on-die sensors, 1/64 °C; they read also while the Canary's domain is off. -/
def execChipSensorCorrection (dt : Nat) (sensors : List (BitVec 16)) (s : State) : Result :=
  let s := s.advance dt
  let xs := (List.range 6).map fun i => signed 16 (sensors.getD i 0#16).toNat
  let x (i : Nat) : Int := xs.getD i 0
  let s := s.modCare fun c => { c with sensors := xs }
  let s0 := (List.range 6).foldl (fun (s : State) i => s.setI (Reg.HC_CHIP_TEMPi_sensor i) (x i)) s
  if !s.powered 7 then .next s
  else if s.dev = stBoot then .next s0
  else
    let (new, s1) := (List.range 6).foldl (fun (y : List Int × State) i =>
      let t := s.care.chip.getD i 0
      let (dx, s') := y.2.drawQuot (clampI (-(2 ^ 33)) (2 ^ 33) (x i * 2 ^ 26 - t)) 4
      (y.1 ++ [t + dx], s')) ([], s0)
    .next (s1.modCare fun c => { c with chip := new }).chipCheck

/-! ### Throttling (R278) -/

/-- 125,000 · clamp(room / margin, 0, 1), with its rounding not said; room in 2^-32 °C, margin in °C. -/
def throttleOf (room : Int) (margin : Nat) : Nat := (clampI 0 125000 (quot (125000 * room) (margin * 2 ^ 32))).toNat

/-- Whether a throttle event may be posted: at most once per 100 ms. -/
def mayThrottle (last : Option Nat) (beat : Nat) : Bool :=
  match last with | some t => decide (t + 100000000 ≤ beat) | none => true

/-- One head's limit (R278). -/
def State.throttleHead (s : State) (a : Nat) : State :=
  match s.headClassOf a with
  | none => s
  | some c =>
    let l := throttleOf (c.tShut * 2 ^ 26 - s.headTemp a) (clampN 2 40 (s.get Reg.HC_THERMAL_CFG_head_margin))
    let m := s.model a
    let s1 := s.set (Reg.HC_HEADa_STATE_limit a) l
    let s2 := if l < s1.sched.headLimit.1 then s1.modSched fun x => { x with headLimit := (l, a) } else s1
    if l < 125000 && mayThrottle m.throttleAt s.beat then
      ((s2.onModel a fun m => { m with throttleAt := some s.beat }).raise Reg.HC_STATUS_head_throttle).post 0x0608
        [.b a, .t (s.headTemp64 a), .n l]
    else s2

/-- THROTTLE_UPDATE (R278): the limits of heads and chip for the speed ceiling. -/
def execThrottleUpdate (dt : Nat) (s : State) : Result :=
  (s.advance dt).whenOn 7 fun s =>
  let s0 := s.modSched fun x => { x with headLimit := (125000, 0) }
  let s1 := (upto 256 (fun a => s.served a && !s.holding a)).foldl (fun (s : State) a => s.throttleHead a) s0
  let (t, n, _) := s1.chipTemp
  let l := throttleOf (125 * 2 ^ 32 - t) (clampN 5 40 (s.get Reg.HC_THERMAL_CFG_chip_margin))
  let s2 := s1.modSched fun x => { x with chipLimit := l }
  if l < 125000 && mayThrottle s.care.chipAt s.beat then
    .next (((s2.modCare fun c => { c with chipAt := some s.beat }).raise Reg.HC_STATUS_chip_throttle).post 0x0C01
      [.b n, .t (quot t (2 ^ 26)), .n l])
  else .next s2

/-! ### Release (R281) -/

/-- Whether a held head has cooled enough to be released (R281). -/
def State.cooled (s : State) (a : Nat) : Bool :=
  match s.headClassOf a with
  | none => false
  | some c =>
    let margin : Int := (clampN 2 40 (s.get Reg.HC_THERMAL_CFG_head_margin) : Nat)
    s.on Reg.HC_CFG_auto_release && decide (s.headTemp a ≤ c.tShut * 2 ^ 26 - margin * 2 ^ 32)

/-- HEAD_AUTO_RELEASE (R281): a head held for its temperature has cooled; a head held for a recovery that waited is released once no
recovery runs or waits on that resource (R453). One held for both is released when neither holds it. -/
def execHeadAutoRelease (dt : Nat) (a : Fin 256) (s : State) : Result :=
  (s.advance dt).whenOn 7 fun s =>
  if !s.held_ then .next s
  else
    let hot := s.on (Reg.HC_HEADa_STATE_held a) && !s.cooled a
    match (s.node a).recoveryHold with
    | some r =>
      if s.resourceBusy r || (s.waitingOn r).isSome then .next s
      else if hot then .next (s.onNode a fun n => { n with recoveryHold := none })
      else .next (s.releaseHead a)
    | none => if s.cooled a then .next (s.releaseHead a) else .next s

/-- HEAD_RELEASE (R281): a write to HC_HEAD_RELEASE. -/
def execHeadRelease (dt : Nat) (v : BitVec 32) (s : State) : Result :=
  .next ((s.advance dt).hostWrite Reg.HC_HEAD_RELEASE_head.off fun s =>
    if v.getLsbD 8 && s.held_ then s.releaseHead (v.toNat % 256) else s)

end Sys2Proof.Machine
end

