-- ==== Sys2Proof/Machine/Failover.lean ====
section
/-! DEFINITION. The commands of tally, pair and Deputy (chapter 17): renewals, lease messages, lapses, the arbiter, handover, mirroring,
relay, the Deputy's halt, double faults; and LINE_SEND, whose first packet ends a takeover. -/

namespace Sys2Proof.Machine

/-! ### Renewal (R438, R440, R442) -/

/-- Beats since the last renewal; none before the first. -/
def State.leaseAge (s : State) : Option Nat := s.tally.renewed.map fun t => s.beat - t

/-- Whether the last renewal lies n ns or more behind. -/
def State.leaseOld (s : State) (n : Nat) : Bool := match s.leaseAge with | some a => decide (n ≤ a) | none => false

/-- RENEW_SEND (R440, R443, R444, R452): by the holder of a pair, unless its self-diagnosis calls for release; in a pair this is its
renewal. -/
def execRenewSend (dt : Nat) (s : State) : Result :=
  (s.advance dt).whenOn 10 fun s =>
  if s.inPair && s.held_ && !s.deputyHalted && !(s.config = 1 && s.callsRelease) then
    let s1 := s.sendLease opRenew s.tally.handover.isSome
    .next (if s.config = 1 then s1.modTally fun t => { t with renewed := some s.beat } else s1)
  else .next s

/-- HEALTH_SEND (R440, R442, R443, R444): by a device without the tally in READY or COLD, and in an arbitrated pair by both. -/
def execHealthSend (dt : Nat) (s : State) : Result :=
  (s.advance dt).whenOn 10 fun s =>
  let up := s.dev = stReady || s.dev = stCold
  let holder := s.config = 2 && s.held_ && (up || s.dev = stPrinting || s.dev = stDraining)
  if s.inPair && ((up && !s.held_) || holder) then .next (s.sendLease opHealth s.warm) else .next s

/-- TALLY_FENCE (R438): the last renewal lies 250 µs behind. -/
def execTallyFence (dt : Nat) (s : State) : Result :=
  let s := s.advance dt
  if s.inPair && s.held_ && s.leaseOld 250000 then .next (s.fence (if s.config = 1 && s.callsRelease then 1 else 2)) else .next s

/-- LEASE_LATE (R442, R446): the standby has accepted no RENEW for 150 µs. -/
def execLeaseLate (dt : Nat) (s : State) : Result :=
  let s := s.advance dt
  if s.inPair && s.dev = stCold && !s.held_ && s.leaseOld 150000 && !s.tally.latePosted then
    let us := quotN (s.leaseAge.getD 0) 1000
    let s1 := ((s.modTally fun t => { t with latePosted := true }).raise Reg.TALLY_STATUS_late_seen).bump Reg.TALLY_COUNTS_lease_late 1
    let s2 := s1.post 0x0A03 [.n us]
    .next (if s2.on Reg.TALLY_STATUS_warming then s2 else s2.beginWarm)
  else .next s

/-- TALLY_LAPSE_TAKE (R442): no RENEW for 300 µs. A fit standby takes the tally; one that is not posts TALLY_LOST with cause 7 and goes on
checking. -/
def execTallyLapseTake (dt : Nat) (s : State) : Result :=
  (s.advance dt).whenOn 10 fun s =>
  let s := s.refresh
  if s.config = 1 && s.dev = stCold && !s.held_ && s.leaseOld 300000 then
    if s.fit then .next (s.takeTally 2 none)
    else if s.tally.unfitPosted then .next s
    else .next (((s.modTally fun t => { t with unfitPosted := true }).raise Reg.TALLY_STATUS_lost_seen).post 0x0A02 [.n s.epoch, .b 7])
  else .next s

/-- PAIR_START_TIMEOUT (R442): the end-B device has heard neither RENEW nor HEALTH for 1 s in READY. -/
def execPairStartTimeout (dt : Nat) (s : State) : Result :=
  (s.advance dt).whenOn 10 fun s =>
  if s.config = 1 && s.get Reg.PAIR_CFG_end = 1 && s.dev = stReady && !s.held_ && !s.tally.started
      && decide (s.tally.readyAt + 1000000000 ≤ s.beat) then .next (s.takeTally 1 none)
  else .next s

/-! ### Lease messages received (R437, R442 to R446) -/

/-- Who holds the tally, as TALLY_CTRL names it: 0 this device, 1 the partner, 2 none (Table 15-6). -/
def State.holderCode (s : State) : Nat :=
  if s.held_ then 0 else if s.inPair && !s.leaseOld 300000 && s.tally.renewed.isSome then 1 else 2

/-- The result of a TALLY_CTRL (Table 15-6). -/
def State.tallyResult (s : State) : List (Nat × List (BitVec 8)) :=
  [(4, leBytes 4 s.epoch), (8, leBytes 1 (s.get Reg.TALLY_STATUS_role)), (9, leBytes 1 s.holderCode)]

/-- End the handover operation with the tally state (R408): with OK every one asked for, else the oldest, and the next one waits on. -/
def State.endHandover (s : State) (status : Nat) : State :=
  match s.tally.handover with
  | some (ring, n, _) =>
    let res := s.tallyResult
    if status = stOk then
      ((s.endOp ring n stOk res).endOps s.tally.more stOk res).modTally
        fun t => { t with handover := none, handed := false, more := [] }
    else (s.endOp ring n status res).modTally fun t => { t with
      handover := t.more.head?, handed := t.handed && !t.more.isEmpty, more := t.more.drop 1 }
  | none => s

/-- Enter COLD as standby from READY (R442). -/
def State.becomeStandby (s : State) : State :=
  ((s.set Reg.TALLY_STATUS_role 2).modTally fun t => { t with replaced := [] }).enter stCold

/-- A position sample of the partner passes the low-pass of R446; its discrete form is left open, so the value is a free one between the
old value and the sample. -/
def State.filterDelta (s : State) (x : Int) : State :=
  match s.tally.delta with
  | none =>
    (s.modTally fun t => { t with delta := some (x, s.beat) }).setI2 Reg.PAIR_POS_DELTA_LO Reg.PAIR_POS_DELTA_HI x
  | some (old, _) =>
    let (r, s1) := s.drawInt
    let y := clampI (min old x) (max old x) r
    (s1.modTally fun t => { t with delta := some (y, s.beat) }).setI2 Reg.PAIR_POS_DELTA_LO Reg.PAIR_POS_DELTA_HI y

/-- The partner's position sample in a message (R446). -/
def State.takeSample (s : State) (m : List (BitVec 8)) : State :=
  if bit (leAt m 7 1) 2 && s.on Reg.OBS_STATUS_pos_valid then
    let low := 65536 * beAt m 16 6 + beAt m 22 2
    let d := signed 64 (wrap 64 ((low : Int) - (s.now : Int)))
    let t := wrap 80 ((s.now : Int) + d)
    s.filterDelta (posDiff (s.webPosAt t) (signed 64 (beAt m 24 8)))
  else s

/-- The partner's newest message (R439). -/
def State.notePeer (s : State) (m : List (BitVec 8)) : State :=
  s.modTally fun t => { t with
    peerEpoch := beAt m 8 4, peer := some ⟨s.beat, (t.peer.map (·.flags)).getD 0, beAt m 8 4, beAt m 12 4⟩ }

/-- A RENEW of the partner (R442, R444). -/
def State.renewIn (s : State) (m : List (BitVec 8)) : State :=
  let fl := leAt m 7 1
  let s0 := if s.tally.handover.isSome && decide (s.epoch < beAt m 8 4) then s.endHandover stOk else s
  if s0.held_ then s0
  else
    let s1 := s0.modTally fun t => { t with
      renewed := some s.beat, readyAt := s.beat, latePosted := false, unfitPosted := false, started := true }
    let s2 := s1.setOn Reg.TALLY_STATUS_mirror_current (bit fl 3)
    let s3 := if s2.dev = stReady then s2.becomeStandby else s2
    let s4 := if bit fl 4 then (if s3.on Reg.TALLY_STATUS_warming then s3 else s3.beginWarm) else s3.endWarm
    s4.refresh

/-- A HEALTH of the partner (R440, R442, R444). -/
def State.healthIn (s : State) (m : List (BitVec 8)) : State :=
  let fl := leAt m 7 1
  let wasFit := s.on Reg.TALLY_STATUS_peer_fit
  let s1 := (s.modTally fun t => { t with
    readyAt := s.beat, peer := some ⟨s.beat, fl, beAt m 8 4, beAt m 12 4⟩ }).setOn Reg.TALLY_STATUS_peer_fit (bit fl 1)
  let s2 := if wasFit && !bit fl 1 then s1.post 0x0A05 [.b fl] else s1
  let s3 := if s2.tally.handover.isSome && decide (s2.epoch < beAt m 8 4) then s2.endHandover stOk else s2
  if s3.held_ && s3.tally.handover.isSome && !s3.tally.handed && bit fl 4 then
    ((s3.fence 4).sendLease opRelease false).modTally fun t => { t with handed := true }
  else if s3.config = 1 && s3.get Reg.PAIR_CFG_end = 0 && s3.dev = stReady && !s3.held_ && !s3.tally.started && bit fl 1 && s3.fit then
    s3.takeTally 1 none
  else s3

/-- Arbiter role: a HEALTH or RELEASE of a device of a pair served (R443). -/
def State.arbIn (s : State) (k : Nat) (m : List (BitVec 8)) : State :=
  let p := Tab.get (fun _ => ({} : ArbPair)) s.tally.arb k
  let e := leAt m 6 1 % 2
  let i : LeaseInfo := ⟨s.beat, leAt m 7 1, beAt m 8 4, beAt m 12 4⟩
  let q := match leAt m 1 1 with
    | 2 => if e = 0 then { p with a := some i } else { p with b := some i }
    | 4 => if e = p.holder then { p with released := true } else p
    | _ => p
  s.modTally fun t => { t with arb := Tab.set (fun _ => ({} : ArbPair)) t.arb k q }

/-- ARB_PAIRk (Table 17-11). -/
def State.arbReg (s : State) (k : Nat) : Nat := (s.reg (0xC00040 + 4 * k)).toNat

/-- A message accepted by its sender's sequence (R437). -/
def State.noteSeq (s : State) (m : List (BitVec 8)) : State :=
  s.modTally fun t => { t with heard := (beAt m 34 2, beAt m 4 2) :: t.heard.filter fun h => h.1 != beAt m 34 2 }

/-- LEASE_MESSAGE_RX (R437, R442 to R446). -/
def execLeaseMessageRx (dt : Nat) (viaNet : Bool) (data : List Byte) (s : State) : Result :=
  (s.advance dt).whenOn 10 fun s =>
  let m := data.take 44
  let pair := beAt m 2 2
  let fresh := !(s.tally.heard.any fun h => h.1 == beAt m 34 2 && h.2 == beAt m 4 2)
  let awake := s.dev ≠ stBoot && s.dev ≠ stDeep
  if m.length ≠ 44 || leAt m 0 1 ≠ 3 || beAt m 40 4 ≠ crc32c (m.take 40) || !fresh || !awake || (!viaNet && s.pairLane.isNone) then .next s
  else if s.config = 3 then
    match (List.range 8).find? fun k => bit (s.arbReg k) 16 && s.arbReg k % 65536 == pair with
    | some k => .next ((s.noteSeq m).arbIn k m)
    | none => .next s
  else if !s.inPair || pair ≠ s.get Reg.PAIR_CFG_pair_id then .next s
  else
    let op := leAt m 1 1
    let role := bits (leAt m 6 1) 2 1
    let own := s.get Reg.PAIR_CFG_end
    if op = opGrant then
      if s.config = 2 && role = 3 && beAt m 34 2 = s.get Reg.PAIR_ARB_ID_arbiter_id then
        let s1 := s.noteSeq m
        if beAt m 32 2 = own then
          if s1.held_ then .next (s1.modTally fun t => { t with renewed := some s.beat })
          else if s1.dev = stReady || s1.dev = stCold then .next (s1.takeTally 3 (some (beAt m 8 4)))
          else .next s1
        else .next s1
      else .next s
    else if leAt m 6 1 % 2 = own || role = 3 then .next s
    else
      let s1 := ((s.noteSeq m).notePeer m).takeSample m
      match op with
      | 1 => .next (s1.renewIn m)
      | 2 => .next (s1.healthIn m)
      | 4 => if s1.config = 1 && s1.dev = stCold && !s1.held_ then .next (s1.takeTally 4 none) else .next s1
      | _ => .next s1

/-! ### The arbiter (R443) -/

/-- A GRANT to the device at an end of pair k. -/
def State.sendGrant (s : State) (k holder epoch : Nat) : State :=
  let m := beBytes 1 3 ++ beBytes 1 opGrant ++ beBytes 2 (s.arbReg k) ++ beBytes 2 s.tally.seq ++ beBytes 1 6 ++ beBytes 1 0
    ++ beBytes 4 epoch ++ beBytes 4 (s.get Reg.TALLY_MAX_H) ++ compactBytes s.now ++ beBytes 8 (wrap 64 s.webPos) ++ beBytes 2 holder
    ++ beBytes 2 (s.get Reg.WCP_CFG_publisher_id) ++ beBytes 4 0
  s.sendLeaseBytes (m ++ beBytes 4 (crc32c m))

/-- ARBITER_TICK (R443): the procedure for one pair, run in READY (notes/assumptions/66.md). A holder that has released is not granted again while the other can take over. -/
def execArbiterTick (dt : Nat) (k : Fin 8) (s : State) : Result :=
  (s.advance dt).whenOn 10 fun s =>
  if s.config ≠ 3 || !bit (s.arbReg k) 16 || !(s.dev = stReady) then .next s
  else
    let p := Tab.get (fun _ => ({} : ArbPair)) s.tally.arb k.val
    let holder := if p.holder = 0 then p.a else p.b
    let other := if p.holder = 0 then p.b else p.a
    let young (i : Option LeaseInfo) : Bool := match i with | some x => decide (s.beat ≤ x.at_ + 200000) | none => false
    let flag (i : Option LeaseInfo) (b : Nat) : Bool := match i with | some x => bit x.flags b | none => false
    let maxH (i : Option LeaseInfo) : Nat := match i with | some x => x.maxH | none => 0
    let waited := p.released || match p.lastGrant with | some t => decide (t + 350000 ≤ s.beat) | none => true
    let put (q : ArbPair) (s : State) : State := s.modTally fun t => { t with arb := Tab.set (fun _ => ({} : ArbPair)) t.arb k.val q }
    if young holder && flag holder 0 && !(p.released && young other && flag other 1) then
      .next ((s.sendGrant k p.holder p.epoch).modTally fun t => { t with
        arb := Tab.set (fun _ => ({} : ArbPair)) t.arb k.val { p with lastGrant := some s.beat, released := false } })
    else if waited && young other && flag other 1 then
      let e := max p.epoch (max (maxH holder) (maxH other)) + 1
      .next (put { p with holder := 1 - p.holder, epoch := e, lastGrant := some s.beat, released := false } (s.sendGrant k (1 - p.holder) e))
    else .next s

/-! ### Handover (R408, R444) -/

/-- TALLY_CTRL (R408). -/
def execTallyCtrl (dt : Nat) (op : OpRef) (s : State) : Result :=
  let s := s.advance dt
  .next (s.runOp op 0x48 [(16, 1)] false (fun f => (f.fld 16 1 ≠ 1 && f.fld 16 1 ≠ 2) || (f.fld 16 1 = 1 && !s.inPair))
    (fun _ => s.tallyResult) false fun f s =>
      if f.fld 16 1 = 2 then s.finish f stOk s.tallyResult
      else if s.tally.handover.isSome then s.modTally fun t => { t with more := t.more ++ [(f.ring, f.n, s.beat)] }
      else s.modTally fun t => { t with handover := some (f.ring, f.n, s.beat), handed := false })

/-- HANDOVER_TIMEOUT (R444): 1 ms after the request without warm, the active fences itself and sends RELEASE. -/
def execHandoverTimeout (dt : Nat) (s : State) : Result :=
  let s := s.advance dt
  match s.tally.handover with
  | some (_, _, t) =>
    if s.held_ && !s.tally.handed && decide (t + 1000000 ≤ s.beat) then
      .next (((s.fence 4).sendLease opRelease false).modTally fun t => { t with handed := true })
    else .next s
  | none => .next s

/-- TALLY_CTRL_TIMEOUT (R408): the partner has not taken the tally within 10 ms. -/
def execTallyCtrlTimeout (dt : Nat) (s : State) : Result :=
  let s := s.advance dt
  match s.tally.handover with
  | some (_, _, t) => if decide (t + 10000000 ≤ s.beat) then .next (s.endHandover stTimeout) else .next s
  | none => .next s

/-! ### Mirroring (R447, R448) -/

/-- Send a MIRROR packet, whose layout the spec does not give, and note its item. -/
def State.sendMirror (s : State) : Nat × State :=
  let n := s.tally.mirrorSeq
  let (bs, s1) := s.drawBytes
  let s2 := match s.pairLane with
    | some lane => s1.sendPacket lane (packet 0xD 0 0 0 0 0 bs)
    | none => s1
  (n, s2.modTally fun t => { t with mirrorSeq := n + 1, unacked := t.unacked ++ [(n, s.beat)] })

/-- Whether this device mirrors: the holder of a pair with a pair-link lane UP. -/
def State.mirrors (s : State) : Bool := s.inPair && s.held_ && s.pairLane.isSome

/-- MIRROR_LAG: blocks not yet mirrored. -/
def State.showLag (s : State) : State :=
  s.set Reg.MIRROR_LAG (if s.on Reg.PAIR_CFG_mirror_store && s.inPair && s.held_ then
    (s.store.blocks.filter fun b => !b.2.mirrored).length else 0)

/-- The mirror is current while the whole state has gone over and no item waits (R442, R447). -/
def State.settleMirror (s : State) : State :=
  let ok := s.held_ && s.tally.mirrored && s.tally.mirrorLost.isNone && s.tally.unacked.all (fun u => decide (s.beat ≤ u.2 + 1000000))
  (s.setOn Reg.TALLY_STATUS_mirror_current ok).refresh

/-- MIRROR_SEND (R447): changed state goes to the standby; `full` when with it the whole of Table 17-5 has been sent. -/
def execMirrorSend (dt : Nat) (full : Bool) (s : State) : Result :=
  (s.advance dt).whenOn 10 fun s =>
  if s.mirrors then
    let (n, s1) := s.sendMirror
    .next (if full then s1.modTally fun t => { t with fullItem := some n } else s1)
  else .next s

/-- The standby's acknowledgement of an item (R447, R448). -/
def State.mirrorAck (s : State) (n : Nat) : State :=
  let s1 := s.modTally fun t => { t with
    unacked := t.unacked.filter fun u => u.1 != n
    mirrored := t.mirrored || t.fullItem == some n, fullItem := if t.fullItem == some n then none else t.fullItem }
  let s2 := match s1.store.await.find? (fun w => w.1 == n) with
    | some (_, ring, m, res) =>
      let h := leAt res 0 4
      let mark (b : Nat × StoredBlock) : Nat × StoredBlock := if b.2.handle = h then (b.1, { b.2 with mirrored := true }) else b
      ((s1.modStore fun t => { t with await := t.await.filter fun w => w.1 != n, blocks := t.blocks.map mark }).endOp ring m stOk [(4, res)])
    | none => s1
  s2.settleMirror.showLag

/-- Apply the mirrored stream state, positions translated by PAIR_POS_DELTA (R446, R447). -/
def State.applyStream (s : State) (t : MirrorStream) : State :=
  let d := (s.tally.delta.map (·.1)).getD 0
  let s1 := s.modSched fun c => { c with
    cpl := t.cpl, streamCfg := t.streamCfg, planeCfg := t.planeCfg, spans := t.spans, last := t.last, stopping := t.stopping
    anyBegun := t.anyBegun, jobs := t.jobs.map fun b => { b with startPos := b.startPos + d }
    heads := t.highs.foldl (fun hs (h : Nat × Nat) =>
      let x := Tab.get (fun _ => ({} : HeadSched)) hs h.1
      Tab.set (fun _ => ({} : HeadSched)) hs h.1 { x with high := some (max h.2 (x.high.getD 0)), next := max x.next (h.2 + 1) }) c.heads }
  let s2 := (s1.set2 Reg.LS_COMMIT_LINE_LO Reg.LS_COMMIT_LINE_HI t.committed).set Reg.LS_LEAD_lead_in_force t.lead
  let s3 := match t.origin with
    | some x => (s2.raise Reg.LS_STATUS_origin_set).setI2 Reg.LS_ORIGIN_LO Reg.LS_ORIGIN_HI (x + d)
    | none => s2.clear Reg.LS_STATUS_origin_set
  ((s3.setOn Reg.LS_STATUS_draining t.draining).modObs fun o => { o with hw := t.hw + d, hwSet := true }).showParting

/-- A mirrored table in force: kept in order of its first line, newest first. -/
def insertBank (b : Bank) : List Bank → List Bank
  | [] => [b]
  | x :: t => if x.start = b.start then b :: t else if x.start < b.start then b :: x :: t else x :: insertBank b t

/-- A mirrored block: into the standby's own pages, under the same handle; without room only its entry is kept (R448). The second
component says whether it was stored. -/
def State.applyBlock (s : State) (handle slot kind height width rawLen payLen : Nat) (cipher : List (BitVec 8)) : Bool × State :=
  let n := ceilDiv (32 + payLen) 4096
  let (ps, s1) := s.allocPages n []
  let full := ps.length ≠ n
  let pages := if full then [] else ps
  let i := handleIndex handle
  let s2 := pages.zipIdx.foldl (fun (s : State) p => s.writePage p.1 (slice cipher (4096 * p.2) 4096)) (if full then s else s1)
  let serial := (Tab.get (fun _ => (⟨[], 0⟩ : KeySlot)) s.power.keys slot).serial
  let b : StoredBlock := ⟨handle, slot, serial, kind, height, width, rawLen, payLen, pages, false, [], true⟩
  (!full, (s2.modStore fun t => { t with blocks := t.blocks.filter (fun e => e.1 != i) ++ [(i, b)] }).countStore)

/-- A mirrored table (R447): the first of its kind that is received in COLD replaces the device's own (R391). -/
def State.applyBank (s : State) (kind index sub start : Nat) (data : List (BitVec 8)) : State :=
  let key := bankKey kind index sub
  let kept := if s.tally.replaced.contains key then s.banksOf kind index sub else []
  (s.setBanks kind index sub (insertBank ⟨start, data, []⟩ kept)).modTally fun t => { t with
    replaced := if t.replaced.contains key then t.replaced else key :: t.replaced }

/-- Apply an item on the standby (R447); whether it is acknowledged. -/
def State.applyItem (s : State) (item : MirrorItem) : Bool × State :=
  match item with
  | .bank kind index sub start data => (true, s.applyBank kind index sub start data)
  | .staged kind index sub eff line data =>
    (true, s.modSched fun c => { c with staged := c.staged ++ [⟨kind, index, sub, data, eff, 0, line, none, none, []⟩] })
  | .stream t => (true, s.applyStream t)
  | .checkpoint q pos h line rep => (true, s.onPlane q fun p => { p with checkpoint := some (pos, h, line, rep) })
  | .nozzle a row col res gate print base =>
    (true, s.onNoz a row col fun z => { z with res := res, gate := gate, print := print, base := base })
  | .block h slot kind height width rawLen payLen cipher => s.applyBlock h slot kind height width rawLen payLen cipher
  | .freed h => (true, (s.modStore fun t => { t with blocks := t.blocks.filter fun e => e.2.handle != h }).countStore)
  | .ack => (false, s)

/-- MIRROR_RX (R447, R448): the standby applies and acknowledges an item; the active takes an acknowledgement. -/
def execMirrorRx (dt : Nat) (lane : Fin 68) (number : Nat) (item : MirrorItem) (s : State) : Result :=
  (s.advance dt).whenOn 10 fun s =>
  if lane.val < 64 || !s.laneUp lane || !s.inPair then .next s
  else if item = .ack then .next (if s.held_ then s.mirrorAck number else s)
  else if s.dev = stCold && !s.held_ then
    let (ok, s1) := s.applyItem item
    if ok then
      let (bs, s2) := s1.drawBytes
      .next (s2.sendPacket lane (packet 0xD 0 0 0 0 0 bs)).refresh
    else .next s1.refresh
  else .next s

/-- The ingests that wait for the standby complete locally (R448). -/
def State.releaseIngests (s : State) : State :=
  s.store.await.foldl (fun (s : State) w => s.endOp w.2.1 w.2.2.1 stOk [(4, w.2.2.2)]) (s.modStore fun t => { t with await := [] })

/-- MIRROR_LOST (R448): cause 1 the pair link is DOWN, 2 the standby's block area is full. -/
def execMirrorLost (dt : Nat) (cause : Fin 3) (s : State) : Result :=
  let s := s.advance dt
  let holds := cause.val = 2 || (cause.val = 1 && s.pairLane.isNone)
  if s.inPair && s.held_ && holds && s.tally.mirrorLost.isNone then
    .next ((((s.releaseIngests.modTally fun t => { t with mirrorLost := some (cause, 0), unacked := [] }).clear
      Reg.TALLY_STATUS_mirror_current).post 0x0A06 [.b cause]).refresh.showLag)
  else .next s

/-- MIRROR_SYNCED (R448): the missing blocks have been copied. -/
def execMirrorSynced (dt : Nat) (s : State) : Result :=
  (s.advance dt).whenOn 10 fun s =>
  if s.mirrors && s.tally.mirrorLost.isSome then
    let n := (s.store.blocks.filter fun b => !b.2.mirrored).length
    let s1 := (s.modStore fun t => { t with blocks := t.blocks.map fun b => (b.1, { b.2 with mirrored := true }) }).modTally fun t => { t with
      mirrorLost := none }
    .next ((s1.post 0x0A07 [.n n]).settleMirror.showLag)
  else .next s

/-- MIRROR_ACK_TIMEOUT (R447): an item has waited 1 ms for its acknowledgement. -/
def execMirrorAckTimeout (dt : Nat) (s : State) : Result :=
  (s.advance dt).whenOn 10 fun s =>
  if s.held_ && s.tally.unacked.any (fun u => decide (u.2 + 1000000 ≤ s.beat)) then
    .next (s.clear Reg.TALLY_STATUS_mirror_current).refresh
  else .next s

/-! ### Relay (R451) -/

/-- A packet arrives on a pair-link lane: a RELAY_DOWN, which the partner in COLD sends out of its end of the string, or a RELAY_UP, which
the holder takes as received at the partner's end (R451). -/
def State.pairReceive (s : State) (lane : Nat) (data : List (BitVec 8)) : State :=
  let str := pkString data
  let out := laneOf str (s.get Reg.PAIR_CFG_end)
  let inner := (data.drop 6).take (data.length - 10)
  if !s.laneUp lane || !s.inPair || !packetOk data then s
  else if pkType data = 0xE && s.dev = stCold && s.laneUp out then
    let (p, s1) := s.relaid inner
    ((s1.sendPacket out p).modTally fun t => { t with
      relays := (str, lane) :: t.relays.filter fun r => r.1 != str }).showRelays
  else if pkType data = 0xF && s.held_ then s.receive str (1 - s.get Reg.PAIR_CFG_end) lane inner
  else s

/-! ### The Deputy (R452, R453) -/

/-- DEPUTY_HALT (R452). In solo PRINT_OK falls at the next parting line. -/
def execDeputyHalt (dt : Nat) (s : State) : Result :=
  let s := s.advance dt
  if s.deputyHalted || s.dev = stBoot || s.dev = stDeep then .next s
  else
    let s1 := (s.raise Reg.TALLY_STATUS_deputy_halted).post 0x0A0B [.ns s.tb3]
    .next (if s.config = 0 then s1.modTally fun t => { t with haltLine := some (if s.streaming then s.refLine + 1 else 0) } else s1)

/-- DOUBLE_FAULT (R453): a recovery that waits cannot deliver the next missing line of head a in time. -/
def execDoubleFault (dt : Nat) (a : Fin 256) (s : State) : Result :=
  (s.advance dt).whenOn 10 fun s =>
  let q := plPlane s.placementNow a
  match [a.val / 8, planeResource q].findSome? s.waitingOn with
  | none => .next s
  | some w =>
    match s.runningOn w.resource with
    | none => .next s
    | some r =>
      if s.holding a || !s.served a then .next s
      else
        let k := match (s.head a).sent with | some k => k + 1 | none => (s.head a).asm
        let s1 := ((s.onNode a fun n => { n with held := true, releaseAt := none, recoveryHold := some w.resource }).sendHold a 1 k)
        .next ((((s1.raise Reg.TALLY_STATUS_double_seen).post 0x0A0C [.n r.code, .n w.code, .n w.resource]).post 0x0A0D [.b a, .li k]))

/-! ### LINE_SEND (R119) -/

/-- LINE_SEND (R119, R120, R173, R175, R247, R449): the oldest assembled line of one head; the first after a takeover ends it. -/
def execLineSend (dt : Nat) (h : Fin 256) (s : State) : Result :=
  (s.advance dt).whenOn 7 fun s =>
  if !s.held_ || !(s.dev = stPrinting || s.dev = stDraining) then .next s
  else
    let str := h.val / 8
    let due := match (s.head h).ready with
      | l :: _ => (s.str str).returning ≠ 0 && (match (s.str str).returnAt with | some p => decide (p ≤ l.k) | none => false)
      | [] => false
    let s0 := if due then s.returnNodes str else s
    let s1 := s0.lineSend h
    match s1.tally.takenFrom with
    | some t =>
      if (s1.head h).sent ≠ (s0.head h).sent then
        .next ((s1.modTally fun x => { x with takenFrom := none }).post 0x0A04 [.n s1.epoch, .n (quotN (s1.beat - t) 1000)])
      else .next s1
    | none => .next s1

end Sys2Proof.Machine
end

