-- ==== Sys2Proof/Machine/Memory.lean ====
section
/-! DEFINITION. Error correction, scrubbing, partial writes and page retirement (chapter 16). A word's errors come with the command that
reads it; what the codes make of them is decided here. -/

namespace Sys2Proof.Machine

/-- How a read ends (Table 16-4). A corrected read names its symbol or bit. -/
inductive ReadOutcome where
  | clean
  | corrected (pos : Nat)
  | addressError
  | uncorrectable
  | poison
deriving DecidableEq, Repr

/-- Whether the reader gets POISON (Table 16-4). -/
def ReadOutcome.flagged : ReadOutcome → Bool
  | .addressError => true
  | .uncorrectable => true
  | .poison => true
  | _ => false

/-! ### Tailings (R426, R427) -/

/-- Severity of a tailings type, in the order 1, 4, 2, 3 (R427). -/
def severity : Nat → Nat
  | 1 => 0
  | 4 => 1
  | 2 => 2
  | _ => 3

/-- An entry whose word errs again (R427). -/
def Tailing.again (t : Tailing) (type source now : Nat) : Tailing :=
  let t1 := { t with count := min 0xFFFF (t.count + 1), last := now }
  if severity t.type < severity type then { t1 with type := type, source := source, position := 0xFF } else t1

/-- The corrected entry of lowest count, the oldest on a tie. -/
def weakest (l : List Tailing) : Option Tailing :=
  (l.filter (·.type == 1)).foldl (fun b t => match b with | none => some t | some x => if t.count < x.count then some t else some x) none

/-- Enter an error in a table of 32 (R427): the table, and whether it overflowed. -/
def enterTailing (l : List Tailing) (t : Tailing) : List Tailing × Bool :=
  if l.any (·.location == t.location) then
    (l.map fun x => if x.location == t.location then x.again t.type t.source t.last else x, false)
  else if l.length < 32 then (l ++ [t], false)
  else match weakest l with
    | some w => (l.filter (·.location != w.location) ++ [t], true)
    | none => (l, true)

/-- Whether an event of a key may be posted again, a second after the last (R427, R431). -/
def State.memMayPost (s : State) (key : Nat) : Bool :=
  match s.mem.posted.find? (fun e => e.1 == key) with
  | some (_, t) => decide (t + 1000000000 ≤ s.beat)
  | none => true

/-- Note that it was posted. -/
def State.memPosted (s : State) (key : Nat) : State :=
  s.modMem fun m => { m with posted := (key, s.beat) :: m.posted.filter (·.1 != key) }

/-- Log an error in the DRAM or SRAM table and show the table's status (R426, R427). -/
def State.logError (s : State) (dram : Bool) (type source position location : Nat) : State :=
  let t : Tailing := ⟨type, source, 1, if type = 1 then position else 0xFF, location, s.tb3, s.tb3⟩
  let (l, beyond) := enterTailing (if dram then s.mem.dtt else s.mem.stt) t
  let s1 := if dram then (s.modMem fun m => { m with dtt := l }).set Reg.MEM_DTT_STATUS_entries l.length
    else (s.modMem fun m => { m with stt := l }).set Reg.MEM_STT_STATUS_entries l.length
  if beyond then
    let s2 := s1.raise (if dram then Reg.MEM_DTT_STATUS_overflow else Reg.MEM_STT_STATUS_overflow)
    let key := if dram then 129 else 130
    if s2.memMayPost key then (s2.memPosted key).post 0x0907 [.b (if dram then 1 else 2)] else s2
  else s1

/-! ### The codes (R418, R420, R422) -/

/-- What the code makes of n distinct errors, `real` saying whether a lone one is at a stored position: one is corrected, or an address
error at a virtual position; up to `sure` are detected; beyond that the code promises nothing and the outcome is free. -/
def State.decodeErrors (s : State) (errs : List Nat) (real : Nat → Bool) (sure : Nat) : ReadOutcome × State :=
  match errs with
  | [] => (.clean, s)
  | [p] => (if real p then .corrected p else .addressError, s)
  | p :: _ =>
    if errs.length ≤ sure then (.uncorrectable, s)
    else
      let (n, s1) := s.drawNat
      (match n % 4 with
        | 0 => .uncorrectable
        | 1 => .addressError
        | 2 => .corrected p
        | _ => .clean, s1)

/-- What the code makes of n errors in a poisoned word, whose poisoning only a full write ends (R422): without one the poison syndrome
itself; with errors the word still reads flagged, and by which outcome is free. -/
def State.decodePoisoned (s : State) (n : Nat) : ReadOutcome × State :=
  if n = 0 then (.poison, s)
  else
    let (r, s1) := s.drawNat
    (match r % 3 with
      | 0 => .uncorrectable
      | 1 => .addressError
      | _ => if n = 1 then .uncorrectable else .poison, s1)

/-- The symbols of a codeword in error. -/
def errorSymbols (e : SymbolErrors) : List Nat := ((e.filter fun x => x.2 != 0#8 && x.1 < 40).map (·.1)).eraseDups

/-- The outcome of reading a codeword (R418, R421). -/
def State.dramOutcome (s : State) (w : Nat) (e : SymbolErrors) : ReadOutcome × State :=
  let errs := errorSymbols e
  if s.mem.poison.contains w then s.decodePoisoned errs.length else s.decodeErrors errs (· < 36) 3

/-- Channel of a codeword (R413). -/
def State.channelOf (s : State) (w : Nat) : Nat := if s.memChannels = 0 then 0 else w / 128 % s.memChannels

/-- Exclusive-or the data symbols of a codeword with its errors. -/
def State.flipData (s : State) (w : Nat) (e : SymbolErrors) : State :=
  let bs := getBytes s.mem.dram (32 * w) 32
  let bs' := (bs.zipIdx).map fun x => (e.filter (·.1 == x.2)).foldl (fun b y => b ^^^ y.2) x.1
  s.modMem fun m => { m with dram := putBytes m.dram (32 * w) bs' }

/-- Count, log and report the outcome of a read of a codeword (R421, R426, R431), and mark the word while it reads bad. Data that the
code takes as good against its promise stays as read. -/
def State.noteDram (s : State) (w source : Nat) (e : SymbolErrors) (o : ReadOutcome) : State :=
  let c := s.channelOf w
  let a := 32 * w
  let mark (s : State) : State := s.modMem fun m => { m with bad := w :: m.bad.filter (· != w) }
  let unmark (s : State) : State := s.modMem fun m => { m with bad := m.bad.filter (· != w) }
  let wrong (s : State) : State := if 1 < (errorSymbols e).length then s.flipData w e else s
  match o with
  | .clean => wrong (unmark s)
  | .corrected p =>
    let s1 := ((wrong (unmark s)).bump (Reg.MEM_CHc_CE c) 1).logError true 1 source p a
    if s1.memMayPost c then (s1.memPosted c).post 0x0901 [.n c, .addr a, .n p] else s1
  | .addressError => (((mark s).bump (Reg.MEM_CHc_UE c) 1).logError true 4 source 0xFF a).post 0x0904 [.addr a]
  | .uncorrectable =>
    let s1 := ((mark s).bump (Reg.MEM_CHc_UE c) 1).logError true 2 source 0xFF a
    let near (l : List Nat) : List Nat := s.beat :: l.filter fun t => s.beat ≤ t + 1000000000
    let s2 := s1.modMem fun m => { m with ueTimes := Tab.set (fun _ => []) m.ueTimes c (near (Tab.get (fun _ => []) m.ueTimes c)) }
    s2.post 0x0902 [.n c, .addr a, .b source]
  | .poison => s

/-- A codeword rewritten, with its data as read, with the poison check bits after a bad read (R424, R425): logged as poison written. -/
def State.poisonDram (s : State) (w source : Nat) (e : SymbolErrors) : State :=
  let s1 := (s.flipData w e).modMem fun m => { m with poison := w :: m.poison.filter (· != w), bad := m.bad.filter (· != w) }
  ((((s1.bump (Reg.MEM_CHc_UE (s.channelOf w)) 1).raise Reg.MEM_STATUS_poison_written).logError true 3 source 0xFF (32 * w))).post 0x0903
    [.addr (32 * w), .b source]

/-! ### SRAM (R420, R432) -/

/-- The Seam ring word at an SRAM address: the 32-byte word's number in the ring memory (instances 0 to 9). -/
def sramRing (addr : Nat) : Option Nat :=
  if addr / 2 ^ 18 < 10 && addr % 2 ^ 18 < 17 * 4096 then some (addr / 2 ^ 18 * 17 * 4096 + addr % 2 ^ 18) else none

/-- The table word of what an SRAM word holds: kind, index, sub, byte offset, and whether of the standby bank. -/
def holdPlace : SramHold → Option (Nat × Nat × Nat × Nat × Bool)
  | .other => none
  | .table k off st => some (k / 65536, k / 256 % 256, k % 256, off / 32 * 32, st)
  | .skew str off st => some (tSkew, str, 0, off / 32 * 32, st)
  | .stitch q w st => some (tStitch, q, 0, 32 * w, st)

/-- Whether what the word holds stands marked as poisoned. -/
def State.holdMarked (s : State) (addr : Nat) (h : SramHold) : Bool :=
  match sramRing addr, holdPlace h with
  | some w, _ => s.seam.poison.contains w
  | none, some (k, i, u, off, st) => (s.badOf k i u st).contains off
  | none, none => true

/-- Mark or unmark what the word holds. -/
def State.markHold (s : State) (addr : Nat) (h : SramHold) (on : Bool) : State :=
  let upd (l : List Nat) (x : Nat) : List Nat := if on then (if l.contains x then l else x :: l) else l.filter (· != x)
  match sramRing addr, holdPlace h with
  | some w, _ => s.modSeam fun e => { e with poison := upd e.poison w }
  | none, some (k, i, u, off, st) => s.onBad k i u st (upd · off)
  | none, none => s

/-- SKEW_POISON, at most once per table per 1 ms (R187): table kind, string or plane, entry index. -/
def State.skewPoisoned (s : State) (h : SramHold) : State :=
  let go (table who entry : Nat) : State :=
    let key := table * 256 + who
    let free := match s.seam.skewPosted.find? (fun e => e.1 == key) with
      | some (_, t) => decide (t + 1000000 ≤ s.beat)
      | none => true
    if free then
      ((s.modSeam fun e => { e with skewPosted := (key, s.beat) :: e.skewPosted.filter (·.1 != key) }).raise
        Reg.SEAM_STATUS_skew_poison).post 0x0415 [.b table, .b who, .n entry]
    else s
  match h with
  | .skew str off _ => go tSkew str (off / 32 * 16)
  | .stitch q w _ => go tStitch q (4 * w)
  | _ => s

/-- A word of raster slice n that reads as poisoned (R157, R159): TABLE_POISON for a table, failure with reason 3 for control state. -/
def State.slicePoisoned (s : State) (addr : Nat) (h : SramHold) : State :=
  let n := addr / 2 ^ 18
  if n < 10 || 20 < n then s
  else
    match h with
    | .table k off _ => s.tablePoison (k / 65536) (k / 256 % 256) (k % 256) (entryOf (k / 65536) (off / 32 * 32))
    | .other => if s.raster.failed.contains (n - 10) then s else s.failSlice (n - 10) 3
    | _ => s

/-- A word that reads as poisoned is reported by who holds it (R157, R187). -/
def State.holdPoisoned (s : State) (addr : Nat) (h : SramHold) : State := (s.skewPoisoned h).slicePoisoned addr h

/-- Whether the word holds the poison check bits (R422): a full write of what it holds has ended it where that is no longer marked. -/
def State.sramPoisoned (s : State) (addr : Nat) (h : SramHold) : Bool :=
  s.mem.sramPoison.contains addr && s.holdMarked addr h

/-- The outcome of reading an SRAM word (R420, R421). -/
def State.sramOutcome (s : State) (addr : Nat) (e : List Nat) (h : SramHold) : ReadOutcome × State :=
  let errs := (e.filter (· < 290)).eraseDups
  if s.sramPoisoned addr h then s.decodePoisoned errs.length else s.decodeErrors errs (· < 266) 2

/-- The data bit a corrected SRAM word names: 0 to 255, else 0xFF (R426). -/
def sramBit (p : Nat) : Nat := if p < 256 then p else 0xFF

/-- Count, log and report the outcome of a read of an SRAM word. -/
def State.noteSram (s : State) (addr source : Nat) (h : SramHold) (o : ReadOutcome) : State :=
  let mark (s : State) : State :=
    ((s.modMem fun m => { m with sramBad := addr :: m.sramBad.filter (· != addr) }).markHold addr h true).holdPoisoned addr h
  let unmark (s : State) : State :=
    if s.mem.sramBad.contains addr then (s.modMem fun m => { m with sramBad := m.sramBad.filter (· != addr) }).markHold addr h false else s
  match o with
  | .clean => unmark s
  | .corrected p =>
    let s1 := ((unmark s).bump Reg.MEM_SRAM_CE 1).logError false 1 source (sramBit p) addr
    let key := 64 + addr / 2 ^ 18
    if s1.memMayPost key then (s1.memPosted key).post 0x0905 [.addr addr, .n (sramBit p)] else s1
  | .addressError => (((mark s).bump Reg.MEM_SRAM_ADDR_ERR 1).logError false 4 source 0xFF addr).post 0x0904 [.addr addr]
  | .uncorrectable => (((mark s).bump Reg.MEM_SRAM_UE 1).logError false 2 source 0xFF addr).post 0x0906 [.addr addr, .b source]
  | .poison => s.holdPoisoned addr h

/-- An SRAM word rewritten with the poison check bits (R424, R425). -/
def State.poisonSram (s : State) (addr source : Nat) (h : SramHold) (o : ReadOutcome) : State :=
  let s1 := (s.modMem fun m => { m with
    sramPoison := addr :: m.sramPoison.filter (· != addr), sramBad := m.sramBad.filter (· != addr) }).markHold addr h true
  let s2 := s1.bump (if o = .addressError then Reg.MEM_SRAM_ADDR_ERR else Reg.MEM_SRAM_UE) 1
  ((s2.raise Reg.MEM_STATUS_poison_written).logError false 3 source 0xFF addr).post 0x0903 [.addr addr, .b source]

/-! ### Reads, scrubbing and partial writes -/

/-- Whether the memory controllers work: not in DEEP, with the DRAM in self-refresh and the controllers in retention (R484, R493). -/
def State.memRuns (s : State) : Bool := s.powered 5 && s.dev != stDeep

/-- Whether a codeword can be reached in the store, trained and filled (R414). -/
def State.inStore (s : State) (w : Nat) : Bool := s.memRuns && s.on Reg.MEM_STATUS_ready && decide (w < 128 * s.storePages)

/-- CODEWORD_READ (R421). -/
def execCodewordRead (dt : Nat) (r : WordRead) (s : State) : Result :=
  let s := s.advance dt
  match r with
  | .dram w e =>
    if s.inStore w then let x := e.symbols (w % 4); let (o, s1) := s.dramOutcome w x; .next (s1.noteDram w 1 x o) else .next s
  | .sram a e h => if s.memRuns then let (o, s1) := s.sramOutcome a.toNat e h; .next (s1.noteSram a.toNat 1 h o) else .next s

/-- One codeword of a scrub pass (R425): a corrected one is counted, a bad one is rewritten with the poison check bits. -/
def State.scrubDram (s : State) (x : Nat × SymbolErrors) : State × Bool :=
  if s.inStore x.1 then
    let (o, s1) := s.dramOutcome x.1 x.2
    match o with
    | .corrected p => (s1.noteDram x.1 2 x.2 (.corrected p), true)
    | .addressError => (s1.poisonDram x.1 2 x.2, false)
    | .uncorrectable => (s1.poisonDram x.1 2 x.2, false)
    | .clean => (s1.noteDram x.1 2 x.2 .clean, false)
    | .poison => (s1, false)
  else (s, false)

/-- DRAM_SCRUB (R425): a pass ends, with the access units it found in error; every other reads clean or poisoned. Its last access unit is a
background request among those that wait (R417). -/
def execDramScrub (dt : Nat) (errors : List (Nat × BurstErrors)) (wait : StoreWait) (s : State) : Result :=
  let s := s.advance dt
  if s.memRuns && s.on Reg.MEM_SCRUB_dram_en && s.on Reg.MEM_STATUS_ready then
    let s0 := s.serveStore s.blocksShort (fun w => w.background = 0) { wait with background := wait.background + 1 }
    let (s1, n) := (unitWords errors).foldl (fun (a : State × Nat) x => let (t, c) := a.1.scrubDram x; (t, a.2 + b2n c)) (s0, 0)
    .next ((s1.modMem fun m => { m with bad := [] }).post 0x090A [.n 1, .n n])
  else .next s

/-- One word of an SRAM scrub pass; the seam ring is excluded (R425). -/
def State.scrubSram (s : State) (addr : Nat) (e : List Nat) (h : SramHold) : State × Bool :=
  if (sramRing addr).isSome then (s, false)
  else
    let (o, s1) := s.sramOutcome addr e h
    match o with
    | .corrected p => (s1.noteSram addr 2 h (.corrected p), true)
    | .addressError => ((s1.poisonSram addr 2 h .addressError).holdPoisoned addr h, false)
    | .uncorrectable => ((s1.poisonSram addr 2 h .uncorrectable).holdPoisoned addr h, false)
    | .clean => (s1.noteSram addr 2 h .clean, false)
    | .poison => (s1, false)

/-- SRAM_SCRUB (R425). -/
def execSramScrub (dt : Nat) (errors : List (BitVec 24 × List Nat × SramHold)) (s : State) : Result :=
  let s := s.advance dt
  if s.memRuns && s.on Reg.MEM_SCRUB_sram_en then
    let (s1, n) := errors.foldl (fun (a : State × Nat) x => let (t, c) := a.1.scrubSram x.1.toNat x.2.1 x.2.2; (t, a.2 + b2n c)) (s, 0)
    .next (s1.post 0x090A [.n 2, .n n])
  else .next s

/-- A read-modify-write of a codeword (Table 16-5): the state, and whether it was written poisoned. -/
def State.mergeDram (s : State) (w : Nat) (e : SymbolErrors) : State × Bool :=
  let (o, s1) := s.dramOutcome w e
  match o with
  | .clean => (s1.noteDram w 3 e .clean, false)
  | .corrected p => (s1.noteDram w 3 e (.corrected p), false)
  | .addressError => (s1.poisonDram w 3 e, true)
  | .uncorrectable => (s1.poisonDram w 3 e, true)
  | .poison => (s1, true)

/-- The read-modify-writes of the codewords of an access unit: the state, and whether any was written poisoned. -/
def State.mergeUnit (s : State) (unit : Nat) (errors : BurstErrors) : State × Bool :=
  (List.range 4).foldl (fun (a : State × Bool) k =>
    let (t, b) := a.1.mergeDram (4 * unit + k) (errors.symbols k)
    (t, a.2 || b)) (s, false)

/-- A partial write in the image store (R424); one of a whole access unit gives fresh check bits and ends poisoning (R422). -/
def State.partialDram (s : State) (addr : Nat) (data : List (BitVec 8)) (errors : BurstErrors) : State × Bool :=
  let unit := addr / 128
  let bs := data.take (128 - addr % 128)
  let write (s : State) : State := s.modMem fun m => { m with dram := putBytes m.dram addr bs }
  if !s.inStore (4 * unit) then (s, false)
  else if bs.length = 128 then
    ((write s).modMem fun m => { m with poison := m.poison.filter (· / 4 != unit), bad := m.bad.filter (· / 4 != unit) }, false)
  else
    let (s1, p) := s.mergeUnit unit errors
    (write s1, p)

/-- A partial write of an SRAM word (R424). -/
def State.partialSram (s : State) (addr : Nat) (e : List Nat) (h : SramHold) : State × Bool :=
  let (o, s1) := s.sramOutcome addr e h
  match o with
  | .clean => (s1.noteSram addr 3 h .clean, false)
  | .corrected p => (s1.noteSram addr 3 h (.corrected p), false)
  | .poison => (s1, true)
  | o => ((s1.poisonSram addr 3 h o).holdPoisoned addr h, true)

/-- The fields that a result always carries (Table 15-6), of an operation whose effect ends here; the place where a JOB_QUEUE fails is
free. -/
def Flight.alwaysResult (f : Flight) (free : Nat) : List (Nat × List (BitVec 8)) :=
  let any (i n : Nat) : List (BitVec 8) := leBytes n (Config.freeNat (free + i))
  if f.opcode = 0x03 then [(5, leBytes 1 0xFF)]
  else if f.opcode = 0x08 then [(10, leBytes 1 (f.fld 16 1)), (11, leBytes 1 (f.fld 17 1)), (12, leBytes 4 0xFFFFFFFF)]
  else if f.opcode = 0x10 then [(4, leBytes 2 (f.fld 16 2)), (16, any 0 2), (18, any 1 1), (20, any 2 4)]
  else if f.opcode = 0x38 then [(4, leBytes 4 (f.fld 16 4))]
  else []

/-- A partial write that serves an operation was written poisoned: it ends with UNCORRECTABLE (R424). -/
def State.endPoisoned (s : State) (r : OpRef) : State :=
  match s.flight r.ring r.n with
  | some f => let (k, s1) := s.drawBlock 3; s1.endOp r.ring r.n stUncorrectable (f.alwaysResult k)
  | none => s

/-- PARTIAL_WRITE (R424): a poisoned write that serves a descriptor ends its operation with UNCORRECTABLE. -/
def execPartialWrite (dt : Nat) (t : PartialTarget) (op : Option OpRef) (s : State) : Result :=
  let s := s.advance dt
  let (s1, bad) := match t with
    | .dram a data e => s.partialDram a data e
    | .sram a e h => if s.memRuns then s.partialSram a.toNat e h else (s, false)
  match op with
  | some r => if bad then .next (s1.endPoisoned r) else .next s1
  | none => .next s1

/-! ### Retiring a page (R429, R430) -/

/-- The result of RETIRE (Table 15-6). -/
def retireResult (page blocks corrected poisoned : Nat) : List (Nat × List (BitVec 8)) :=
  [(4, leBytes 4 page), (8, leBytes 2 blocks), (10, leBytes 2 corrected), (12, leBytes 2 poisoned)]

/-- A page marked retired (R429). -/
def State.retirePage (s : State) (p : Nat) : State :=
  let s1 := s.modMem fun m => { m with retired := p :: m.retired }
  ((s1.set Reg.MEM_RETIRED s1.mem.retired.length).raise Reg.MEM_STATUS_retired).countStore

/-- RETIRE (Table 16-8). -/
def execRetire (dt : Nat) (op : OpRef) (s : State) : Result :=
  let s := s.advance dt
  .next (s.runOp op 0x38 [(16, 4)] false (fun f => s.storePages ≤ f.fld 16 4) (fun f => retireResult (f.fld 16 4) 0 0 0) false fun f s =>
    let p := f.fld 16 4
    let done (s : State) (status : Nat) : State := s.finish f status (retireResult p 0 0 0)
    if s.mem.retired.contains p then done s stOk
    else if 4096 ≤ s.mem.retired.length then done s stNoSpace
    else if s.pageFree p then done (s.retirePage p) stOk
    else
      let c := s.memChannels
      match s.pickPage [] (fun x => x % c == p % c) with
      | (some new, s1) => (s1.modMem fun m => { m with migrations := m.migrations ++ [⟨f.ring, f.n, p, new, 0, 0⟩] }).countStore
      | (none, s1) => done s1 stNoSpace)

/-- Read a codeword for a copy; a bad one is copied with its data as read (R430). -/
def State.copyRead (s : State) (w : Nat) (e : SymbolErrors) : ReadOutcome × State :=
  let (o, s1) := s.dramOutcome w e
  let s2 := s1.noteDram w 4 e o
  (o, if o.flagged then s2.flipData w e else s2)

/-- The codewords of a page as its copy reads them (R430): by access unit, how many were corrected and how many are written poisoned,
and those. -/
def State.copyReads (s : State) (page : Nat) (errors : List (Nat × BurstErrors)) : State × Nat × List Nat :=
  (List.range 128).foldl (fun (a : State × Nat × List Nat) k =>
    let (o, s1) := a.1.copyRead (128 * page + k) ((errors.filter (·.1 == k / 4)).flatMap (·.2.symbols (k % 4)))
    match o with
    | .clean => (s1, a.2)
    | .corrected _ => (s1, a.2.1 + 1, a.2.2)
    | _ => (s1, a.2.1, k :: a.2.2)) (s, 0, [])

/-- End the other RETIREs of a page: they find it retired (Table 16-8 order 2). -/
def State.endRetires (s : State) (page : Nat) (l : List Migration) : State :=
  l.foldl (fun s x => s.endOp x.ring x.n stOk (retireResult page 0 0 0)) s

/-- The page list that holds page p names the new page (R366, R415); whether it was a block's. -/
def State.replacePage (s : State) (p new : Nat) : State × Bool :=
  let swap (l : List Nat) : List Nat := l.map fun x => if x = p then new else x
  let mine := s.store.blocks.any fun e => e.2.pages.contains p
  let s1 := s.modStore fun t => { t with blocks := t.blocks.map fun e => (e.1, { e.2 with pages := swap e.2.pages }) }
  let s2 := s1.modMem fun m =>
    if m.moved.any (·.2 == p) then { m with moved := m.moved.map fun x => if x.2 = p then (x.1, new) else x }
    else if p < s.reservedPages then { m with moved := (p, new) :: m.moved }
    else m
  (s2, mine)

/-- The migration that runs on the channel of a page: the oldest, for the Deputy migrates one page of a channel at a time (R453,
Table 17-8). -/
def State.migrating (s : State) (page : Nat) : Option Migration :=
  if s.deputyHalted || !s.memRuns then none
  else match s.mem.migrations.find? (fun g => s.channelOf (128 * g.page) == s.channelOf (128 * page)) with
    | some g => if g.page = page then some g else none
    | none => none

/-- PAGE_RETIRED (R430): the copy of a migrating page has ended; `errors` are those of its access units 0 to 31 as read. Another RETIRE of
the page then finds it retired (Table 16-8). -/
def execPageRetired (dt : Nat) (page : Nat) (errors : List (Nat × BurstErrors)) (s : State) : Result :=
  let s := s.advance dt
  match s.migrating page with
  | none => .next s
  | some g =>
    let (s1, ce, bad) := s.copyReads page errors
    let s2 := s1.writePage g.new (getBytes s1.mem.dram (4096 * page) 4096)
    let s3 := s2.modMem fun m => { m with
      poison := bad.map (128 * g.new + ·) ++ m.poison, migrations := m.migrations.filter (·.page != page) }
    let (s4, mine) := s3.replacePage page g.new
    let status := if !bad.isEmpty then stUncorrectable else if 0 < ce then stOkCorrected else stOk
    let s5 := ((s4.retirePage page).post 0x0908 [.n page, .n g.new, .n ce, .n bad.length]).endOp g.ring g.n status
      (retireResult page (b2n mine) ce bad.length)
    .next (s5.endRetires page (s.mem.migrations.filter fun x => x.page == page && (x.ring != g.ring || x.n != g.n))).countStore

end Sys2Proof.Machine
end

