-- ==== Sys2Proof/Machine/Store.lean ====
section
/-! DEFINITION. The Crusher (chapter 13): ingest with verify and raw fallback (R355 to R357), precompressed blocks (R358), handles
(R360), pages and encryption (R363 to R365), freeing (R367, R395). -/

namespace Sys2Proof.Machine

/-! ### Handles and pages -/

/-- Number of handle indexes, 1 to 1,048,575 (R360). -/
def handleCount : Nat := 2 ^ 20 - 1

/-- A free handle index; which one the spec leaves open: the search starts at a free value (R360). -/
def State.freeIndex (s : State) : Option Nat × State :=
  let (r, s1) := s.drawNat
  ((((List.range (s.store.blocks.length + 1)).map fun i => (r + i) % handleCount + 1).find?
    fun i => !(s.store.blocks.any (·.1 == i))), s1)

/-- The handle an index is given out with next: the generation increases by 1 modulo 4,096 each time (R360). -/
def State.nextHandle (s : State) (i : Nat) : Nat :=
  match s.store.gens.find? (·.1 == i) with
  | some (_, g) => i + 2 ^ 20 * ((g + 1) % 4096)
  | none => i

/-- Pages of a block with a payload of n bytes (R363). -/
def blockPages (n : Nat) : Nat := ceilDiv (32 + n) 4096

/-- The key of a slot. -/
def State.keyOf (s : State) (slot : Nat) : KeySlot := Tab.get (fun _ => (⟨[], 0⟩ : KeySlot)) s.power.keys slot

/-- Store a block: its pages in turn over the channels (R363), each encrypted as one data unit (R365), under a fresh handle. -/
def State.placeBlock (s : State) (index slot : Nat) (block : List (BitVec 8)) : State :=
  let handle := s.nextHandle index
  let (pages, s1) := s.allocPages (blockPages (tbPayLen block)) []
  let key := s.keyOf slot
  let s2 := pages.zipIdx.foldl (fun (s : State) p =>
    s.writePage p.1 (xtsEnc key.key (unitNo handle p.2) (slice block (4096 * p.2) 4096))) s1
  let b : StoredBlock :=
    ⟨handle, slot, key.serial, tbKind block, tbHeight block, tbWidth block, tbRawLen block, tbPayLen block, pages, false, [], false⟩
  let s3 := s2.modStore fun t => { t with
    blocks := t.blocks ++ [(index, b)]
    gens := (index, handle / 2 ^ 20) :: t.gens.filter (·.1 != index) }
  let n := s3.get2 Reg.CR_RAW_BYTES_LO Reg.CR_RAW_BYTES_HI + b.rawLen
  let m := s3.get2 Reg.CR_STORED_BYTES_LO Reg.CR_STORED_BYTES_HI + 4096 * pages.length
  ((s3.set2 Reg.CR_RAW_BYTES_LO Reg.CR_RAW_BYTES_HI n).set2 Reg.CR_STORED_BYTES_LO Reg.CR_STORED_BYTES_HI m).countStore

/-- The result of a stored block (Table 15-6). -/
def storeResult (handle : Nat) (block : List (BitVec 8)) (reason : Nat) : List (Nat × List (BitVec 8)) :=
  [(4, leBytes 4 handle), (8, leBytes 4 (tbRawLen block)), (12, leBytes 4 (tbPayLen block)),
   (16, leBytes 4 (blockPages (tbPayLen block))), (20, leBytes 1 reason)]

/-- Complete a stored block: at once, or with a store that is mirrored when the standby has acknowledged the block (R448). -/
def State.endStored (s : State) (f : Flight) (res : List (Nat × List (BitVec 8))) : State :=
  if s.mirrors && s.on Reg.PAIR_CFG_mirror_store && s.tally.mirrorLost.isNone then
    let (n, s1) := s.sendMirror
    (s1.modStore fun t => { t with await := t.await ++ [(n, f.ring, f.n, resBytes res)] }).showLag
  else (s.finish f stOk res).showLag

/-- NO_SPACE; STORE_FULL at most once per 1 ms (R369). -/
def State.storeFull (s : State) (f : Flight) (pages : Nat) : State :=
  let may := match s.store.fullAt with | some t => decide (t + 1000000 ≤ s.beat) | none => true
  let s1 := if may then
      ((s.modStore fun t => { t with fullAt := some s.beat }).raise Reg.CR_STATUS_full_seen).post 0x0422 [.n pages, .n s.freePages]
    else s
  s1.finish f stNoSpace []

/-- Orders 3 and 4 of Table 13-8: the key slot, then the reservation of R364 and a free index; then the work goes on with the index. -/
def State.reserve (s : State) (f : Flight) (pages : Nat) (go : Nat → State → State) : State :=
  if !s.keyUsable (f.fld 18 1) then s.finish f stKeyUnavailable []
  else if s.freePages < pages then s.storeFull f pages
  else match s.freeIndex with
    | (some i, s1) => go i s1
    | (none, s1) => s1.storeFull f pages

/-! ### INGEST (R355 to R357) -/

/-- The match window of a level in bytes (Table 13-6). -/
def matchWindow : Nat → Nat
  | 0 => 0
  | 1 => 32768
  | 2 => 65536
  | 3 => 131072
  | 4 => 262144
  | 5 => 262144
  | 6 => 524288
  | _ => 1048576

/-- Whether every MATCH of a token stream lies within a window (Table 13-6). -/
def matchesWithin (w : Nat) : Nat → List (BitVec 8) → Bool
  | 0, _ => true
  | _ + 1, [] => true
  | fuel + 1, c :: t =>
    let ty := c.toNat / 64
    match tokenLen (if ty = 1 then 4 else if ty = 3 then 3 else 1) (c.toNat % 64) t with
    | none => true
    | some (len, t1) =>
      if ty = 0 then matchesWithin w fuel (t1.drop len)
      else if ty = 1 then
        match matchDist t1 with
        | none => true
        | some (d, t2) => decide (d ≤ w) && matchesWithin w fuel t2
      else if ty = 2 then matchesWithin w fuel t1
      else matchesWithin w fuel (t1.drop 1)

/-- The block that INGEST stores of raw data, with the reason of Table 13-7. The Crusher's search is not spelt out, so its token stream is
free; one that the level does not allow stands for a stream no shorter than the data. -/
def State.crush (s : State) (kind height width level : Nat) (raw : List (BitVec 8)) : List (BitVec 8) × Nat × State :=
  let (p, s1) := s.drawBytes
  let rawBlock (flags : Nat) : List (BitVec 8) := mkHeader kind height width raw.length flags level raw ++ raw
  if !matchesWithin (matchWindow level) p.length p then (rawBlock 1, 1, s1)
  else if tokens (lineBytes kind width) raw.length (p.length + 1) p 0 [] ≠ some raw then (rawBlock 5, 2, s1)
  else if raw.length ≤ p.length then (rawBlock 1, 1, s1)
  else (mkHeader kind height width p.length 0 level raw ++ p, 0, s1)

/-- Raw data length of an INGEST. -/
def Flight.rawLen (f : Flight) : Nat := lineBytes (f.fld 16 1) (f.fld 20 4) * f.fld 24 1

/-- Whether an INGEST's fields fail (Table 13-8 order 1). -/
def ingestBad (f : Flight) : Bool :=
  !geometryOk (f.fld 16 1) (f.fld 20 4) (f.fld 24 1) || 9 < f.fld 17 1 || 15 < f.fld 18 1 || 1 < f.fld 19 1
    || (f.fld 40 4 != 0 && decide (f.fld 40 4 < lineBytes (f.fld 16 1) (f.fld 20 4)))

/-- INGEST as an operation. -/
def State.ingestOp (s : State) (op : OpRef) (body : Flight → State → State) : State :=
  s.runOp op 0x01 [(16, 9), (28, 16)] false ingestBad noResult true body

/-- INGEST of raw data from a flight record. -/
def State.ingest (s : State) (f : Flight) (data : List (BitVec 8)) : State :=
  let raw := slice data 0 f.rawLen
  (s.hasRead f).reserve f (blockPages f.rawLen) fun i s =>
    if bit (f.fld 19 1) 0 && crc32c raw != f.fld 28 4 then s.finish f stCheckFail []
    else
      let (block, reason, s1) := s.crush (f.fld 16 1) (f.fld 24 1) (f.fld 20 4) (f.fld 17 1) raw
      let h := s1.nextHandle i
      let s2 := s1.placeBlock i (f.fld 18 1) block
      let s3 := match reason with
        | 0 => s2
        | 1 => s2.bump Reg.CR_FALLBACKS_reason1 1
        | _ => ((s2.bump Reg.CR_FALLBACKS_reason2 1).raise Reg.CR_STATUS_verify_seen).post 0x0420 [.n h, .n (f.fld 17 1), .n f.rawLen]
      s3.endStored f (storeResult h block reason)

/-- INGEST (R357): `data` is the raw data, its lines in order, as read from host memory. -/
def execIngest (dt : Nat) (op : OpRef) (data : List Byte) (s : State) : Result :=
  .next ((s.advance dt).ingestOp op fun f s => s.ingest f data)

/-! ### STORE_PRECOMPRESSED (R358) -/

/-- STORE_PRECOMPRESSED as an operation: its fixed fields. -/
def State.storeOp (s : State) (op : OpRef) (bad : Flight → Bool) (body : Flight → State → State) : State :=
  s.runOp op 0x02 [(18, 1), (20, 4), (32, 8)] false
    (fun f => 15 < f.fld 18 1 || f.fld 20 4 < 33 || 1048608 < f.fld 20 4 || bad f) noResult true body

/-- Whether the header of a host block fails (Table 13-9 order 1, Table 15-2). -/
def hostHeaderBad (data : List (BitVec 8)) (f : Flight) : Bool :=
  !headerOk data true || 1 < tbFlags data || f.fld 20 4 != 32 + tbPayLen data

/-- Check and store a host block. -/
def State.storeBlock (s : State) (f : Flight) (data : List (BitVec 8)) : State :=
  let b := slice data 0 (f.fld 20 4)
  (s.hasRead f).reserve f (blockPages (tbPayLen b)) fun i s =>
    match unblock b true with
    | none => s.finish f stVerifyFail []
    | some raw =>
      if !blockCheckOk b raw then s.finish f stCheckFail []
      else
        let block := overlay b 24 (leBytes 1 (tbFlags b + 2))
        let h := s.nextHandle i
        (s.placeBlock i (f.fld 18 1) block).endStored f (storeResult h block 0)

/-- STORE_PRECOMPRESSED (R358): `data` is the block as read from host memory. -/
def execStorePrecompressed (dt : Nat) (op : OpRef) (data : List Byte) (s : State) : Result :=
  .next ((s.advance dt).storeOp op (hostHeaderBad data) fun f s => s.storeBlock f data)

/-! ### Freeing (R367, R395) -/

/-- Handle i of a BLOCK_FREE. -/
def Flight.freeHandle (f : Flight) (i : Nat) : Nat := f.fld (20 + 4 * i) 4

/-- The result of a BLOCK_FREE. -/
def freeResult (f : Flight) (pos : Nat) : List (Nat × List (BitVec 8)) := [(4, leBytes 1 (f.fld 16 1)), (5, leBytes 1 pos)]

/-- Whether a BLOCK_FREE's fixed fields fail: count 1 to 10, and nothing beyond its handles. -/
def freeBad (f : Flight) : Bool :=
  f.fld 16 1 < 1 || 10 < f.fld 16 1 || (List.range 64).any fun i => decide (20 + 4 * f.fld 16 1 ≤ i) && f.fld i 1 != 0

/-- BLOCK_FREE (R367, R395). -/
def execBlockFree (dt : Nat) (op : OpRef) (s : State) : Result :=
  .next ((s.advance dt).runOp op 0x03 [(16, 1), (20, 44)] false freeBad (fun f => freeResult f 0xFF) true fun f s =>
    let n := f.fld 16 1
    let fails (i : Nat) : Bool := match s.liveBlock (f.freeHandle i) with
      | some b => b.freeing
      | none => true
    match (List.range n).find? fails with
    | some i => s.finish f stBad (freeResult f i)
    | none =>
      let hs := (List.range n).map f.freeHandle
      let s1 := (s.modStore fun t => { t with
        blocks := t.blocks.map fun e => if hs.contains e.2.handle then (e.1, { e.2 with freeing := true }) else e }).countStore
      s1.finish f stOk (freeResult f 0xFF))

/-- Whether a block being freed may go (R367): no job names it, and every served head of each plane that printed it has passed its last
image line + 191. -/
def State.mayRelease (s : State) (b : StoredBlock) : Bool :=
  b.freeing
    && !(s.sched.jobs.any fun j => j.panels.any fun p => p.chains.any fun c => c.present && c.handles.contains b.handle)
    && b.printed.all fun p => s.headsPassed p.1 (p.2 + 191)

/-- BLOCK_RELEASE (R367): the pages return and the handle is no longer live; a mirrored store learns of it (Table 17-5). -/
def execBlockRelease (dt : Nat) (h : BitVec 32) (s : State) : Result :=
  let s := s.advance dt
  match s.liveBlock h.toNat with
  | none => .next s
  | some b =>
    if s.mayRelease b then
      let s1 := (s.modStore fun t => { t with blocks := t.blocks.filter fun e => e.2.handle != b.handle }).countStore
      .next (if s1.mirrors && s1.on Reg.PAIR_CFG_mirror_store then s1.sendMirror.2.showLag else s1.showLag)
    else .next s

end Sys2Proof.Machine
end

