-- ==== Sys2Proof/Machine/Catalogue.lean ====
section
/-! DEFINITION. The remaining operations of the catalogue (chapter 15) but for motion and capture: jobs, head queries, keys, bank sparing, logs,
power state. -/

namespace Sys2Proof.Machine

/-! ### JOB_QUEUE (R398 to R400, R136, R361, R416) -/

/-- Where a JOB_QUEUE fails: panel index, plane, position in the chain. -/
abbrev JobFault := Nat × Nat × Nat

/-- Record i of a panel list. -/
def panelRec (list : List (BitVec 8)) (i : Nat) : List (BitVec 8) := slice list (176 * i) 176

/-- Offset of the chain entry of plane q in a panel record. -/
def chainAt (q : Nat) : Nat := 16 + 16 * q

/-- The chain of plane q of a panel record with its handle list (R399). -/
def readChain (rec : List (BitVec 8)) (q : Nat) (handles : List (BitVec 8)) : Chain :=
  let fl := leAt rec (chainAt q + 12) 1
  let n := leAt rec (chainAt q + 8) 4
  ⟨bit fl 0, bit fl 1, bit fl 2, if bit fl 0 then (List.range (min n 65535)).map fun i => leAt handles (4 * i) 4 else []⟩

/-- The chains of a panel record; the handle lists of its present chains come in plane order. -/
def readChains (rec : List (BitVec 8)) : List Nat → List (List (BitVec 8)) → List Chain × List (List (BitVec 8))
  | [], hs => ([], hs)
  | q :: t, hs =>
    if bit (leAt rec (chainAt q + 12) 1) 0 then
      let (l, rest) := readChains rec t (hs.drop 1)
      (readChain rec q (hs.headD []) :: l, rest)
    else
      let (l, rest) := readChains rec t hs
      (readChain rec q [] :: l, rest)

/-- The panels of a panel list of n records (R399). -/
def readPanels (list : List (BitVec 8)) : List Nat → List (List (BitVec 8)) → List PanelDef
  | [], _ => []
  | i :: t, hs =>
    let rec_ := panelRec list i
    let (cs, rest) := readChains rec_ (List.range 10) hs
    ⟨leAt rec_ 0 4, cs⟩ :: readPanels list t rest

/-- Whether the fields of a panel record fail, its chain entries apart (R399). -/
def panelBad (rec : List (BitVec 8)) : Bool := leAt rec 0 4 < 1 || 16777215 < leAt rec 0 4 || leAt rec 4 12 != 0

/-- Whether a chain entry's own fields fail (R399). -/
def chainEntryBad (rec : List (BitVec 8)) (q : Nat) : Bool :=
  65535 < leAt rec (chainAt q + 8) 4 || 8 ≤ leAt rec (chainAt q + 12) 1 || leAt rec (chainAt q + 13) 3 != 0

/-- f of a chain by LS_STREAM_CFG.lpi now (R361). -/
def State.factorNow (s : State) (c : Chain) : Nat := if c.down600 && !s.on Reg.LS_STREAM_CFG_lpi then 2 else 1

/-- Whether a handle of a chain fails (R361): `first` is the chain's first block. -/
def State.chainHandleBad (s : State) (slot : Nat) (c : Chain) (first : Option StoredBlock) (h : Nat) : Bool :=
  match s.liveBlock h, first with
  | some b, some a =>
    b.freeing || b.kind != a.kind || b.width != a.width || b.slot != slot || b.serial != (s.keyOf slot).serial
      || decide (35 < blockLines (s.factorNow c) b)
  | _, _ => true

/-- Whether a chain breaks R136: finer down-web than the stream, or pre-screened blocks not at 1200 dpi across and the stream's lpi down. -/
def State.resolutionBad (s : State) (c : Chain) (first : Option StoredBlock) : Bool :=
  let lpi600 := s.on Reg.LS_STREAM_CFG_lpi
  (!c.down600 && lpi600) || (match first with
    | some b => b.kind == 1 && (c.cross600 || c.down600 != lpi600)
    | none => false)

/-- Print lines that a chain covers. -/
def State.chainCover (s : State) (c : Chain) : Nat :=
  (c.handles.map fun h => match s.liveBlock h with | some b => blockLines (s.factorNow c) b | none => 0).sum

/-- The failing position of a chain, if it fails: that of its first handle that fails; the number of handles when they cover too few lines.
R136 concerns no position: `free`. -/
def State.chainFault (s : State) (slot length : Nat) (c : Chain) (free : Nat) : Option Nat :=
  if !c.present then none
  else
    let first := (c.handles.head?).bind s.liveBlock
    match c.handles.findIdx? (s.chainHandleBad slot c first) with
    | some i => some i
    | none =>
      if s.resolutionBad c first then some free
      else if s.chainCover c < length then some c.handles.length else none

/-- The first failing chain of the panels, from panel i on; `free` gives what the check does not name. -/
def State.jobFault (s : State) (slot : Nat) (list : List (BitVec 8)) (free : Nat × Nat) : Nat → List PanelDef → Option JobFault
  | _, [] => none
  | i, p :: t =>
    let rec_ := panelRec list i
    if panelBad rec_ then some (i, free)
    else
      match ((List.range 10).zip p.chains).findSome? (fun x =>
          if chainEntryBad rec_ x.1 then some (x.1, free.2)
          else (s.chainFault slot p.length x.2 free.2).map fun k => (x.1, k)) with
      | some (q, k) => some (i, q, k)
      | none => s.jobFault slot list free (i + 1) t

/-- Bytes a job takes in the job tables: its panel records and handle lists (R398, R416). -/
def panelsSize (ps : List PanelDef) : Nat := (ps.map fun p => 176 + 4 * (p.chains.map (·.handles.length)).sum).sum

/-- Bytes of the job tables in use. -/
def State.jobTables (s : State) : Nat := (s.sched.jobs.map fun b => panelsSize b.panels).sum

/-- Whether a JOB_QUEUE's fields fail (Table 15-4), or it starts at a sheet edge without sheet mode (R399). -/
def State.jobFieldsBad (s : State) (f : Flight) : Bool :=
  f.fld 16 2 == 65535 || 2 < f.fld 18 1 || 15 < f.fld 19 1 || f.fld 24 2 < 1 || 4096 < f.fld 24 2 || 16777215 < f.fld 28 4
    || (f.fld 18 1 == 2 && !s.on Reg.LS_STREAM_CFG_sheet_mode)

/-- The result of a JOB_QUEUE (Table 15-6). -/
def jobResult (f : Flight) (first handles : Nat) (x : JobFault) : List (Nat × List (BitVec 8)) :=
  [(4, leBytes 2 (f.fld 16 2)), (6, leBytes 6 first), (12, leBytes 4 handles), (16, leBytes 2 x.1), (18, leBytes 1 x.2.1),
   (20, leBytes 4 x.2.2)]

/-- JOB_QUEUE as an operation. Where no chain fails, the failing panel, plane and position that its result always carries are free. -/
def State.jobOp (s : State) (op : OpRef) (free : JobFault) (body : Flight → State → State) : State :=
  s.runOp op 0x10 [(16, 10), (28, 20)] false s.jobFieldsBad (fun f => jobResult f (2 ^ 48 - 1) 0 free) true body

/-- Whether the stream has no line left to begin, so that a job starts it again (R124). -/
def State.streamOver (s : State) : Bool :=
  s.streaming && (s.dev = stDraining || (match s.lastLine with | some l => decide (l < s.committedI) | none => false))

/-- A job joins the queue (R124, R398): in DRAINING the device returns to PRINTING, and the job starts no earlier than lead + 64 lines beyond
the reference line. -/
def State.addJob (s : State) (b : Job) : State :=
  let put (s : State) : State := s.modSched fun c => { c with jobs := c.jobs ++ [b] }
  if s.streamOver then
    let m := s.refLine + s.lead + 64
    let s1 := (put s).modSched fun c => { c with minStart := max c.minStart m, last := none, stopping := false }
    let s2 := if s1.dev = stDraining then (s1.clear Reg.LS_STATUS_draining).enter stPrinting else s1
    s2.extend.refresh
  else (put s).extend.refresh

/-- Lines of the first n panels a job begins, over its passes through the list (R121). -/
def panelLines (ps : List PanelDef) (n : Nat) : Nat :=
  n / max 1 ps.length * (ps.map (·.length)).sum + ((ps.take (n % max 1 ps.length)).map (·.length)).sum

/-- Where the last of these jobs begins when the panels placed so far end before line `at_`; none while a job before it runs until JOB_STOP
(R121, R124). -/
def startAfter (minStart : Nat) : Nat → List Job → Option Nat
  | _, [] => none
  | at_, b :: t =>
    let start := if b.begun = 0 then max (at_ + b.gap) minStart else at_
    if t.isEmpty then some start
    else if b.repeats = 0 then none
    else if jobMore b then
      startAfter minStart (start + panelLines b.panels (b.repeats * b.panels.length) - panelLines b.panels b.begun) t
    else startAfter minStart at_ t

/-- The first line of the job queued last, once it is known: all ones with no origin, in sheet mode, after a stop, and behind a job that runs
until JOB_STOP (R409, Table 15-6). -/
def State.firstLine (s : State) : Nat :=
  let all := 2 ^ 48 - 1
  if (s.sched.jobs.getLast?.map (·.begun)).getD 0 ≠ 0 then (s.lastSpan.map (·.start)).getD all
  else if !s.streaming || s.sheetMode || s.sched.stopping then all
  else (startAfter s.sched.minStart ((s.lastSpan.map fun p => p.start + p.len).getD 0) s.sched.jobs).getD all

/-- Three free numbers. -/
def State.drawFault (s : State) : JobFault × State :=
  let (a, s1) := s.drawNat
  let (b, s2) := s1.drawNat
  let (c, s3) := s2.drawNat
  ((a, b, c), s3)

/-- Check and queue a job from its panel list and the handle lists of its present chains. -/
def State.queueJob (s : State) (f : Flight) (list : List (BitVec 8)) (handles : List (List (BitVec 8))) (free : JobFault) : State :=
  let ps := readPanels list (List.range (f.fld 24 2)) handles
  let n := (ps.map fun p => (p.chains.map (·.handles.length)).sum).sum
  let all := 2 ^ 48 - 1
  let s1 := s.hasRead f
  match s1.jobFault (f.fld 19 1) list free.2 0 ps with
  | some x => s1.finish f stBad (jobResult f all 0 x)
  | none =>
    if 64 ≤ s1.sched.jobs.length || 268435456 < s1.jobTables + panelsSize ps then s1.finish f stNoSpace (jobResult f all 0 free)
    else
      let b : Job := ⟨f.fld 16 2, f.fld 18 1, f.fld 19 1, f.fld 20 4, f.fld 28 4, signed 64 (f.fld 32 8), ps, 0⟩
      let s2 := s1.addJob b
      s2.finish f stOk (jobResult f s2.firstLine n free)

/-- JOB_QUEUE (R398, R399): `list` is the panel list and `handles` the handle lists of its present chains, in panel and plane order, as read
from host memory. -/
def execJobQueue (dt : Nat) (op : OpRef) (list : List Byte) (handles : List (List Byte)) (s : State) : Result :=
  let (free, s1) := (s.advance dt).drawFault
  .next (s1.jobOp op free fun f s => s.queueJob f list handles free)

/-- JOB_STOP (R124, R401). -/
def execJobStop (dt : Nat) (op : OpRef) (s : State) : Result :=
  .next ((s.advance dt).runOp op 0x11 [] false (fun _ => false) noResult true fun f s =>
    if s.streaming then
      let s1 := s.stopStream.refresh
      s1.finish f stOk [(4, leBytes 6 (wrap 48 ((s1.lastLine).getD (-1))))]
    else ((s.modSched fun c => { c with jobs := [], edge := none }).refresh).finish f stOk [(4, leBytes 6 (2 ^ 48 - 1))])

/-! ### HEAD_QUERY (R402) -/

/-- The bytes of one kind of data of a head with n columns. -/
def State.headData (s : State) (a n : Nat) : Nat → List (BitVec 8)
  | 1 => (List.range n).flatMap fun i => leBytes 1 (s.healthNow a 0 i + 16 * s.healthNow a 1 i)
  | 2 => [0, 1].flatMap fun r => (List.range n).flatMap fun i =>
      let z := s.noz a r i
      leBytes 1 (z.res + 4 * z.gate + 16 * z.print + 64 * b2n (maskBit ((s.tableNow tMask (a / 8) 0).getD []) (a % 8) r i))
  | 3 => [0, 1].flatMap fun r => (List.range n).flatMap fun i => leBytes 2 (s.noz a r i).base
  | _ => []

/-- The state fields of a HEAD_QUERY's result; `written` bytes. -/
def State.headResult (s : State) (a written : Nat) : List (Nat × List (BitVec 8)) :=
  [(4, leBytes 2 (s.get (Reg.NODEa_STATE_class_code a))),
   (6, leBytes 8 (s.get2 (Reg.NODEa_SERIAL_LO a) (Reg.NODEa_SERIAL_HI a))),
   (14, leBytes 1 (s.get (Reg.NODEa_STATE_state a))), (15, leBytes 1 (s.get (Reg.NODEa_STATE_reason a))),
   (16, leBytes 2 (beAt (s.node a).status 4 2)), (18, leBytes 2 (beAt (s.node a).status 30 2)), (20, leBytes 4 written)]

/-- HEAD_QUERY (R402). -/
def execHeadQuery (dt : Nat) (op : OpRef) (s : State) : Result :=
  let s := s.advance dt
  .next (s.runOp op 0x18 [(16, 2), (24, 8), (32, 4)] false (fun f => 3 < f.fld 17 1) (fun f => s.headResult (f.fld 16 1) 0) false
    fun f s =>
      let a := f.fld 16 1
      if !s.served a then s.finish f stUnreachable (s.headResult a 0)
      else
        let d := s.headData a (classColumns (s.get (Reg.NODEa_STATE_class_code a))) (f.fld 17 1)
        if f.fld 32 4 < d.length then s.finish f stBad (s.headResult a 0)
        else
          let s1 := if d.isEmpty then s else s.emit (.dmaWrite (f.fld 24 8) d)
          s1.finish f stOk (s.headResult a d.length))

/-! ### KEY_LOAD (R406, R487, R500) -/

/-- The per-chip key. -/
def chipKek : List Nat := (List.range 32).map fun i => (Config.chipKey i).toNat

/-- Put a key into a slot; an empty key zeroes it. -/
def State.putKey (s : State) (slot : Nat) (k : KeySlot) (st : Nat) : State :=
  (s.modPower fun p => { p with keys := Tab.set (fun _ => (⟨[], 0⟩ : KeySlot)) p.keys slot k }).setKeyState slot st

/-- KEY_LOAD as an operation: its fixed fields. -/
def State.keyOp (s : State) (op : OpRef) (body : Flight → State → State) : State :=
  s.runOp op 0x30 [(16, 2), (24, 8)] false (fun f => 15 < f.fld 16 1 || f.fld 17 1 < 1 || 2 < f.fld 17 1) noResult false body

/-- The outcomes of R406, in order; while slots are locked, or after a fuse failure for a load, the keys are unavailable. -/
def State.loadKey (s : State) (f : Flight) (wrapped : List (BitVec 8)) : State :=
  let slot := f.fld 16 1
  let load := f.fld 17 1 == 1
  let key := if load then keyUnwrap chipKek (toNats (slice wrapped 0 72)) else none
  let equal := match key with | some k => k.take 32 == k.drop 32 | none => false
  let s1 := if load then s.hasRead f else s
  if s1.keyNamed slot || equal then s1.finish f stBad []
  else if (List.range 16).any (fun j => s1.keyState j == 2) || (load && !s1.power.fuseOk) then s1.finish f stKeyUnavailable []
  else if load then
    match key with
    | none => s1.finish f stCheckFail []
    | some k =>
      let n := s1.power.keySerial + 1
      let kcv := (keyCheck (ofNats k)).take 3
      let s2 := (s1.modPower fun p => { p with keySerial := n }).putKey slot ⟨ofNats k, n⟩ 1
      (s2.post 0x0D04 [.b slot, .n (ofLe kcv)]).finish f stOk [(4, kcv)]
  else
    let (r, s2) := (s1.putKey slot ⟨[], 0⟩ 0).drawNat
    s2.finish f stOk [(4, leBytes 3 r)]

/-- KEY_LOAD (R406): `data` is the wrapped key as read from host memory, for a load. -/
def execKeyLoad (dt : Nat) (op : OpRef) (data : List Byte) (s : State) : Result :=
  .next ((s.advance dt).keyOp op fun f s => s.loadKey f data)

/-! ### SPARE_BANK (R188, R407) -/

/-- SPARE_BANK (Table 07-4): a copy begins with the next image line; without a stream the switch takes place at once. -/
def execSpareBank (dt : Nat) (op : OpRef) (s : State) : Result :=
  .next ((s.advance dt).runOp op 0x39 [(16, 2)] false (fun f => 9 < f.fld 16 1 || 15 < f.fld 17 1) noResult true fun f s =>
    let q := f.fld 16 1
    if s.on (Reg.SEAM_PLANEq_spare_in_use q) || s.seam.copying.any (·.1 == q) then s.finish f stNoSpace []
    else
      let s1 := (s.modSeam fun e => { e with copying := e.copying ++ [(q, f.fld 17 1, none, f.ring, f.n)] }).raise
        (Reg.SEAM_PLANEq_copying q)
      if s.streaming then s1 else s1.endCopies)

/-! ### LOG_READ (R407, R426, R428) -/

/-- A tailings entry (Table 16-7). -/
def Tailing.bytes (t : Tailing) : List (BitVec 8) :=
  leBytes 1 t.type ++ leBytes 1 t.source ++ leBytes 2 t.count ++ leBytes 1 t.position ++ leBytes 3 0 ++ leBytes 8 t.location
    ++ leBytes 8 t.first ++ leBytes 8 t.last

/-- The entries of a log, oldest first. The phase bit of an event record in log 4 has no ring to follow: it is taken from `free`. -/
def State.logEntries (s : State) (free : Nat) : Nat → List (List (BitVec 8))
  | 1 => s.mem.dtt.map Tailing.bytes
  | 2 => s.mem.stt.map Tailing.bytes
  | 3 => s.fm.log.map (·.2)
  | 4 => s.rings.log.zipIdx.map fun (e, i) => overlay (eventBytes e) 31 (leBytes 1 (e.args.length % 128 + 128 * b2n (bit free i)))
  | _ => []

/-- Whether a log has overflowed. -/
def State.logOver (s : State) : Nat → Bool
  | 1 => s.on Reg.MEM_DTT_STATUS_overflow
  | 2 => s.on Reg.MEM_STT_STATUS_overflow
  | 3 => s.fm.logOver
  | _ => s.rings.logOver

/-- The codeword that holds a byte of the Foreman log area (Table 16-2). -/
def State.fmLogWord (s : State) (o : Nat) : Nat := s.areaPage (s.fixedAreas - 256 + o / 4096) * 128 + o % 4096 / 32

/-- Whether a Foreman record, held at an offset of the log area, is poisoned: LOG_READ skips it (R422). -/
def State.recordLost (s : State) (at_ n : Nat) : Bool :=
  (List.range (n / 8)).any fun i => s.wordBad (s.fmLogWord ((at_ + 8 * i) % 2 ^ 20))

/-- The entries of a log from one on that LOG_READ delivers. A lost record still counts among the entries in the log (R422). -/
def State.logPart (s : State) (free log first : Nat) : List (List (BitVec 8)) :=
  if log = 3 then ((s.fm.log.drop first).filter fun e => !s.recordLost e.1 e.2.length).map (·.2)
  else (s.logEntries free log).drop first

/-- The whole entries that fit a buffer. -/
def fitting : Nat → List (List (BitVec 8)) → List (List (BitVec 8))
  | _, [] => []
  | room, e :: t => if e.length ≤ room then e :: fitting (room - e.length) t else []

/-- Clear a tailings table with its overflow flag (R428). -/
def State.clearLog (s : State) : Nat → State
  | 1 => ((s.modMem fun m => { m with dtt := [] }).clear Reg.MEM_DTT_STATUS_entries).clear Reg.MEM_DTT_STATUS_overflow
  | 2 => ((s.modMem fun m => { m with stt := [] }).clear Reg.MEM_STT_STATUS_entries).clear Reg.MEM_STT_STATUS_overflow
  | _ => s

/-- LOG_READ (R407). -/
def execLogRead (dt : Nat) (op : OpRef) (s : State) : Result :=
  .next ((s.advance dt).runOp op 0x40 [(16, 2), (20, 4), (24, 8), (32, 4)] false
    (fun f => f.fld 16 1 < 1 || 4 < f.fld 16 1 || 1 < f.fld 17 1) noResult false fun f s =>
      let log := f.fld 16 1
      let (r, s0) := s.drawNat
      let es := s0.logEntries r log
      let put := fitting (f.fld 32 4) (s0.logPart r log (f.fld 20 4))
      let beyond := s0.logOver log
      let s1 := if put.isEmpty then s0 else s0.emit (.dmaWrite (f.fld 24 8) put.flatten)
      let s2 := if bit (f.fld 17 1) 0 then s1.clearLog log else s1
      s2.finish f stOk [(4, leBytes 2 put.length), (6, leBytes 2 es.length), (8, leBytes 1 (b2n beyond))])

/-! ### POWER_STATE (R408, R493) -/

/-- POWER_STATE: completed before the device enters DEEP. -/
def execPowerState (dt : Nat) (op : OpRef) (s : State) : Result :=
  let s := s.advance dt
  .next (s.runOp op 0x50 [(16, 1)] false (fun f => f.fld 16 1 != 1 || !(s.dev = stReady || s.dev = stCold)) noResult false fun f s =>
    (s.finish f stOk []).enterDeep 1)

end Sys2Proof.Machine
end

