-- ==== Sys2Proof/Machine/Time.lean ====
section
/-! DEFINITION. Time bases, PTP and network time (chapter 04, R84 to R103; the Ethernet ports of R520 and R521). -/

namespace Sys2Proof.Machine

/-! ### PTP domains (R88 to R90) -/

/-- A field of PTP0_CFG, moved to domain d. -/
def ptpCfg (d : Nat) (f : Fld) : Fld := { f with off := f.off + 0x100 * d }

/-- Record of domain d. -/
def State.ptp (s : State) (d : Nat) : Ptp := if d = 0 then s.time.ptpA else s.time.ptpB

/-- Change it. -/
def State.onPtp (s : State) (d : Nat) (f : Ptp → Ptp) : State :=
  s.modTime fun t => if d = 0 then { t with ptpA := f t.ptpA } else { t with ptpB := f t.ptpB }

/-- PTPd_CFG.profile. -/
def State.profile (s : State) (d : Nat) : Nat := s.get (ptpCfg d Reg.PTP0_CFG_profile)

/-- Whether the domain is configured to run: profile 3 leaves it DISABLED (Table 04-12). -/
def State.domainRuns (s : State) (d : Nat) : Bool := s.on (ptpCfg d Reg.PTP0_CFG_enable) && s.profile d != 3

/-- PTPd_STATUS.state: 0 DISABLED, 1 UNLOCKED, 2 LOCKED, 3 HOLDOVER. -/
def State.domain (s : State) (d : Nat) : Nat := s.get (Reg.PTPd_STATUS_state d)

/-- Whether the domain is LOCKED or HOLDOVER (R96, R97). -/
def State.domainGood (s : State) (d : Nat) : Bool := 2 ≤ s.domain d

/-- Ethernet port of the domain. -/
def State.ptpPort (s : State) (d : Nat) : Nat := s.get (ptpCfg d Reg.PTP0_CFG_port)

/-- The stamp of an event message that crosses the PMA boundary now, in the domain's time base, 2^-16 ns: within 1 ns of the crossing at
25GBASE-R and within 2 ns at 10GBASE-R (R90). -/
def State.pmaStamp (s : State) (d : Nat) : Int :=
  let b : Int := if s.on (Reg.ETHp_CFG_speed (s.ptpPort d)) then 65536 else 2 * 65536
  (s.stamp80 d : Int) + clampI (-b) b (Config.ptpErr (s.ptpPort d) s.beat)

/-- Receive stamp, less rx_delay in 1/16 ns (R90). -/
def State.rxStamp (s : State) (d : Nat) : Int :=
  s.pmaStamp d - 4096 * s.get (Reg.PTP_PORTp_DELAY_rx_delay (s.ptpPort d))

/-- Transmit stamp, tx_delay added (R90). -/
def State.txStamp (s : State) (d : Nat) : Int :=
  s.pmaStamp d + 4096 * s.get (Reg.PTP_PORTp_DELAY_tx_delay (s.ptpPort d))

/-- A time of 2^-16 ns as the signed difference of stamps (R86). -/
def timeDiff (x : Int) : Int := signed 80 (wrap 80 x)

/-- The interval 2^i s of a logMessageInterval, in ns. -/
def intervalNs (i : Int) : Nat := if 0 ≤ i then 1000000000 * 2 ^ i.toNat else 1000000000 / 2 ^ (-i).toNat

/-- A value in ns from one in 2^-16 ns, as events carry it. -/
def nsOf (x : Int) : Int := quot x 65536

/-- A signed number saturated to 32 bits. -/
def sat32 (x : Int) : Int := clampI (-(2 ^ 31 : Nat)) ((2 ^ 31 : Nat) - 1) x

/-- Whether the domain's transport is UDP over IPv4: never in profile 2 (Tables 04-2 and 04-12). -/
def State.ptpUdp (s : State) (d : Nat) : Bool := s.on (ptpCfg d Reg.PTP0_CFG_transport) && s.profile d != 2

/-- Whether a message came by the domain's transport (Table 04-2). -/
def State.ptpCarried (s : State) (d : Nat) : NetCarrier → Bool
  | .ethernet e => !s.ptpUdp d && e.toNat == 0x88F7
  | .udp p => s.ptpUdp d && (p.toNat == 319 || p.toNat == 320)

/-- Whether a message in domain d is for it: its port, transport and domainNumber (Table 04-12). -/
def State.ptpHears (s : State) (d : Nat) (h : PtpHeader) : Bool :=
  s.domainRuns d && s.ptpCarried d h.carrier && h.port.val == s.ptpPort d && h.domainNumber.toNat == s.get (ptpCfg d Reg.PTP0_CFG_domain_number)

/-! ### Master selection (R88) -/

/-- Lexicographic order of number lists. -/
def lexLt : List Nat → List Nat → Bool
  | [], [] => false
  | [], _ :: _ => true
  | _ :: _, [] => false
  | a :: s, b :: t => if a = b then lexLt s t else a < b

/-- What the data-set comparison looks at, in its order: the lower is the better (R88, IEEE 1588-2019). -/
def Foreign.rank (f : Foreign) : List Nat :=
  [f.data.priority1.toNat, f.data.clockClass.toNat, f.data.accuracy.toNat, f.data.variance.toNat, f.data.priority2.toNat,
    f.data.gmId.toNat, f.data.stepsRemoved.toNat, f.clockId.toNat, f.portNumber.toNat]

/-- Whether a master has been silent for the Announce receipt timeout: 3 intervals, the standard's default. -/
def Foreign.stale (f : Foreign) (beat : Nat) : Bool := f.heard + 3 * intervalNs f.logInterval ≤ beat

/-- The best master of a list. -/
def bestForeign (l : List Foreign) : Option Foreign :=
  l.foldl (fun b f => match b with | none => some f | some g => if lexLt f.rank g.rank then some f else some g) none

/-- The selected master: the best of those heard in time. -/
def State.master (s : State) (d : Nat) : Option Foreign :=
  bestForeign ((s.ptp d).foreign.filter fun f => !f.stale s.beat)

/-- Whether a message comes from the selected master. -/
def State.fromMaster (s : State) (d : Nat) (h : PtpHeader) : Bool :=
  match s.master d with
  | some m => m.clockId == h.clockId && m.portNumber == h.portNumber
  | none => false

/-- Show the clockIdentity of the selected master; 0 without one. -/
def State.showMaster (s : State) (d : Nat) : State :=
  s.set2 (Reg.PTPd_GM_ID_LO d) (Reg.PTPd_GM_ID_HI d) ((s.master d).map (·.clockId.toNat) |>.getD 0)

/-! ### Working time (R91 to R94) -/

/-- The time base that TB3 follows: src 0 TB2, 1 TB0, 2 TB1 (R103). -/
def State.tb3Source (s : State) : Nat :=
  match s.get Reg.TB_STATUS_src with
  | 1 => 0
  | 2 => 1
  | _ => 2

/-- TB3 less its source, in 2^-48 ns (R91). -/
def State.tb3Offset (s : State) : Int := signed 112 (wrap 112 ((s.tb 3 : Int) - s.tb s.tb3Source))

/-- A stamp moved by a step. -/
def shiftStamp (d : Int) (t : Nat) : Nat := wrap 80 ((t : Int) + d)

/-- Add a step of TB3 to every stamp that the observer, the line scheduler and the compare units hold (R92); a time-mode unit keeps
its target (R100). -/
def State.shiftStamps (s : State) (d : Int) : State :=
  let inst (e : Nat × Instance) : Nat × Instance := (e.1, { e.2 with
    tu := shiftStamp d e.2.tu, drefAt := shiftStamp d e.2.drefAt, started := shiftStamp d e.2.started })
  let cmp (e : Nat × Compare) : Nat × Compare := (e.1, { e.2 with due := if e.2.mode = 1 then e.2.due.map (shiftStamp d) else e.2.due })
  let bound (b : Bound) : Bound := { b with t := shiftStamp d b.t }
  let head (e : Nat × HeadSched) : Nat × HeadSched := (e.1, { e.2 with bound := e.2.bound.map bound })
  let s1 := s.modObs fun o => { o with
    inst := o.inst.map inst, last := { o.last with t := wrap 64 ((o.last.t : Int) + quot d 65536) }
    slewAt := shiftStamp d o.slewAt, reversedAt := shiftStamp d o.reversedAt, cmp := o.cmp.map cmp }
  s1.modSched fun c => { c with
    heads := c.heads.map head, inhibitFrom := c.inhibitFrom.map fun x => (shiftStamp d x.1, x.2) }

/-- TB3 steps to its source (R92): TB3_STEP, link times that do not step (R229), and time-mode units settled by R100. -/
def State.stepTb3 (s : State) : State :=
  let d := -s.tb3Offset
  let s0 := ((s.setTb 3 (wrap 112 ((s.tb 3 : Int) + d))).shiftStamps (quot d (2 ^ 32))).stepOffsets (quot d (2 ^ 32))
  let s1 := s0.raise Reg.TB_STATUS_stepped
  (s1.post 0x0204 [.s (sat32 (quot d (2 ^ 48)))]).cmpStepped

/-- Whether TB3 may step (R92). -/
def State.mayStep (s : State) : Bool := s.dev == stSetup || s.dev == stReady

/-- LOCKED and eligible (R93). -/
def State.choosable (s : State) (d : Nat) : Bool := s.domain d == 2 && s.on (Reg.PTPd_STATUS_eligible d)

/-- Switch TB3's source (R93). -/
def State.switchTb3 (s : State) (src : Nat) : State :=
  let old := s.get Reg.TB_STATUS_src
  let s1 := (s.set Reg.TB_STATUS_src src).raise Reg.TB_STATUS_switched
  s1.post 0x0205 [.b old, .b src, .s (sat32 (quot s1.tb3Offset (2 ^ 48)))]

/-- AUTO (R93): A is preferred; while neither domain is LOCKED and eligible TB3 stays on its present source. -/
def State.autoSwitch (s : State) : State :=
  if s.get Reg.TB3_CFG_select ≠ 3 then s
  else match s.get Reg.TB_STATUS_src with
    | 1 => if s.domain 0 != 2 && s.choosable 1 then s.switchTb3 2 else s
    | 2 =>
      if s.choosable 0 && (s.domain 1 != 2 || (s.on Reg.TB3_CFG_revert && (s.ptp 0).goodSince + 10000000000 ≤ s.beat)) then
        s.switchTb3 1
      else s
    | _ => if s.choosable 0 then s.switchTb3 1 else if s.choosable 1 then s.switchTb3 2 else s

/-- The difference TB0 less TB1 in 2^-48 ns. -/
def State.domainDiff (s : State) : Int := signed 112 (wrap 112 ((s.tb 0 : Int) - s.tb 1))

/-- disagree_ns; 0 taken as 1 (Table 04-11). -/
def State.disagreeNs (s : State) : Nat := max 1 (s.get Reg.TB3_CFG_disagree_ns)

/-- Compare the domains (R94): beyond the threshold with both LOCKED, DOMAIN_DISAGREE once, and the domains TB3 is not following marked
ineligible. -/
def State.compareDomains (s : State) : State :=
  let beyond := decide ((s.disagreeNs * 2 ^ 48 : Nat) < s.domainDiff.natAbs)
  if s.time.disagreeing then
    s.modTime fun t => { t with agreeSince := if beyond then none else some (t.agreeSince.getD s.beat) }
  else if beyond && s.domain 0 == 2 && s.domain 1 == 2 then
    let s1 := ((s.modTime fun t => { t with disagreeing := true, agreeSince := none }).raise Reg.TB_STATUS_disagree).post 0x0206
      [.s (sat32 (quot s.domainDiff (2 ^ 48)))]
    (List.range 2).foldl (fun (s : State) d => if s.tb3Source = d then s else s.clear (Reg.PTPd_STATUS_eligible d)) s1
  else s

/-- The 1 µs rate update of TB3 (R91). The correction c and the product of the rates are held in 2^-48;
how they round is not said (log 7). -/
def State.rateTb3 (s : State) : State :=
  let off := s.tb3Offset
  let slew := quot (clampN 1 100 (s.get Reg.TB3_CFG_slew_ppm) * 2 ^ 48) 1000000
  let c := clampI (-slew) slew (quot (-off) 10000000)
  let r : Int := s.time.rate.getD s.tb3Source 0
  let one : Int := (2 ^ 48 : Nat)
  let s1 := s.setRate 3 (quot ((one + r) * (one + c)) (2 ^ 48) - one)
  let s2 := ((s1.setOn Reg.TB_STATUS_tb3_aligned (decide (off.natAbs ≤ 10 * 2 ^ 48))).setOn Reg.TB_STATUS_slewing (off != 0)).setI
    Reg.TB3_OFFSET (sat32 (quot off (2 ^ 48)))
  s2.refresh

/-- TB3_RATE_UPDATE (R91). -/
def execTb3RateUpdate (dt : Nat) (s : State) : Result := (s.advance dt).whenOn 2 fun s => .next s.rateTb3.compareDomains

/-- Copy the four time bases (R102). -/
def State.tbSnapshot (s : State) : State :=
  (List.range 4).foldl (fun (s : State) k =>
    (s.set2 (Reg.TBk_SNAP_LO k) (Reg.TBk_SNAP_HI k) (s.tbNs k)).set (Reg.TBk_SNAP_FRAC_frac k) (s.stamp80 k)) s

/-- TB_SNAPSHOT (R102). -/
def execTbSnapshot (dt : Nat) (s : State) : Result :=
  .next ((s.advance dt).hostWrite Reg.TB_CTRL_snapshot.off State.tbSnapshot)

/-- A write of step_tb3 (R92). -/
def State.askStep (s : State) : State := if s.mayStep then s.stepTb3 else s

/-- STEP_TB3 (R92). -/
def execStepTb3 (dt : Nat) (s : State) : Result := .next ((s.advance dt).hostWrite Reg.TB_CTRL_step_tb3.off State.askStep)

/-- TB3_SWITCH (R93). -/
def execTb3Switch (dt : Nat) (s : State) : Result := (s.advance dt).whenOn 2 fun s => .next s.autoSwitch

/-- DOMAIN_ELIGIBLE_RESTORE (R94). -/
def execDomainEligibleRestore (dt : Nat) (s : State) : Result :=
  (s.advance dt).whenOn 2 fun s =>
  let s := s.compareDomains
  match s.time.agreeSince with
  | some t =>
    if t + 1000000000 ≤ s.beat then
      let s1 := s.modTime fun t => { t with disagreeing := false, agreeSince := none }
      .next ((List.range 2).foldl (fun (s : State) d =>
        if s.on (Reg.PTPd_STATUS_eligible d) then s
        else (s.raise (Reg.PTPd_STATUS_eligible d)).onPtp d fun p => { p with goodSince := s.beat }) s1).autoSwitch
    else .next s
  | none => .next s

/-- After a write of TB3_CFG: a change of select chooses the source (Table 04-4, R92); AUTO stays on the present one unless a domain is
LOCKED and eligible (R93, R94). -/
def State.selectWritten (s : State) (old : Nat) : State :=
  let sel := s.get Reg.TB3_CFG_select
  if sel = old then s
  else
    let s1 := s.modTime fun t => { t with sourceLocked := false }
    if sel ≠ 3 then s1.set Reg.TB_STATUS_src sel
    else
      let src := if s.choosable 0 then 1 else if s.choosable 1 then 2 else s.get Reg.TB_STATUS_src
      if src = s.get Reg.TB_STATUS_src then s1 else s1.switchTb3 src

/-! ### The servo of a domain (R89) -/

/-- After a write of PTPd_CFG: the domain starts UNLOCKED, or is DISABLED and runs at the rate of TB2 (Table 04-3). -/
def State.ptpWritten (s : State) (d : Nat) : State :=
  if s.domainRuns d then
    if s.domain d = 0 then s.set (Reg.PTPd_STATUS_state d) 1 else s
  else if s.domain d = 0 then s
  else (((s.set (Reg.PTPd_STATUS_state d) 0).onPtp d fun _ => {}).setRate d 0).set (Reg.PTPd_RATE d) 0 |>.autoSwitch

/-- TB3's source reaches LOCKED: the first time after a reset or a change of select, in SETUP or READY, TB3 steps (R92). -/
def State.sourceReached (s : State) (d : Nat) : State :=
  if s.tb3Source = d && !s.time.sourceLocked then
    let s1 := s.modTime fun t => { t with sourceLocked := true }
    if s1.mayStep then s1.stepTb3 else s1
  else s

/-- The servo of a LOCKED domain sets a new rate (Table 04-3); the loop's coefficients are not given: it is free within ±500 ppm. -/
def State.servoRate (s : State) (d : Nat) : State :=
  let (x, s1) := s.drawInt
  let lim : Int := 2 ^ 48 * 500 / 1000000
  let r := clampI (-lim) lim x
  (s1.setRate d r).setI (Reg.PTPd_RATE d) (quot (r * 1000000000) (2 ^ 48))

/-- A measured offset in 2^-16 ns, with the Sync's origin t1 and receive stamp t2 (R89): a step beyond step_us, the run of Syncs within
lock_ns, LOCKED at the eighth; the rate is servoed in LOCKED only. -/
def State.servo (s : State) (d : Nat) (t1 t2 : Int) (interval : Int) : State :=
  let off := timeDiff (t2 - t1 - (s.ptp d).pathDelay)
  let s1 := s.setI (Reg.PTPd_OFFSET d) (sat32 (nsOf off))
  let step := max 1 (s.get (Reg.PTPd_SERVO_step_us d)) * 1000 * 65536
  let s2 :=
    if step < off.natAbs then
      let s2 := (s1.setTb d (wrap 112 ((s1.tb d : Int) - off * 2 ^ 32))).onPtp d fun p => { p with
        lastSync := some (t1, t2 - off), request := none, waitResp := none }
      (s2.raise (Reg.PTPd_STATUS_stepped d)).post 0x0203 [.b d, .s (sat32 (nsOf (-off)))]
    else s1.onPtp d fun p => { p with lastSync := some (t1, t2) }
  let near := off.natAbs ≤ s.get (Reg.PTPd_SERVO_lock_ns d) * 65536
  let s3 := s2.onPtp d fun p => { p with
    lockRun := if near then min 8 (p.lockRun + 1) else 0
    syncBeat := s.beat, syncInterval := interval
    syncStamp := wrap 64 (((p.lastSync.map (·.2)).getD 0) / 65536) }
  let s4 := if (s3.domain d = 1 || s3.domain d = 3) && (s3.ptp d).lockRun = 8 then
      let s4 := ((s3.set (Reg.PTPd_STATUS_state d) 2).onPtp d fun p => { p with goodSince := s.beat }).post 0x0201
        [.b d, .s (sat32 (nsOf off))]
      s4.autoSwitch.sourceReached d
    else s3
  (if s4.domain d = 2 && off.natAbs ≤ step then s4.servoRate d else s4).compareDomains

/-- PTP_SYNC_RX (R88, R89): a two-step Sync waits for its Follow_Up. -/
def execPtpSyncRx (dt : Nat) (d : Fin 2) (h : PtpHeader) (origin : BitVec 64) (s : State) : Result :=
  (s.advance dt).whenOn 2 fun s => s.whenOn 4 fun s =>
  if s.ptpHears d h && s.fromMaster d h then
    let t2 := s.rxStamp d
    if h.twoStep then .next (s.onPtp d fun p => { p with waitFollow := some (h.seq.toNat, t2, h.correction) })
    else .next ((s.onPtp d fun p => { p with waitFollow := none }).servo d (origin.toNat * 65536 + h.correction) t2 h.logInterval)
  else .next s

/-- PTP_FOLLOW_UP_RX (R88). -/
def execPtpFollowUpRx (dt : Nat) (d : Fin 2) (h : PtpHeader) (origin : BitVec 64) (s : State) : Result :=
  (s.advance dt).whenOn 2 fun s => s.whenOn 4 fun s =>
  match (s.ptp d).waitFollow with
  | some (seq, t2, corr) =>
    if s.ptpHears d h && s.fromMaster d h && seq == h.seq.toNat then
      .next ((s.onPtp d fun p => { p with waitFollow := none }).servo d (origin.toNat * 65536 + corr + h.correction) t2 h.logInterval)
    else .next s
  | none => .next s

/-- Give a measured delay of 2^-16 ns (R88). -/
def State.setDelay (s : State) (d : Nat) (v : Int) : State :=
  (s.onPtp d fun p => { p with pathDelay := v, request := none, waitResp := none }).set (Reg.PTPd_PATH_DELAY d)
    (min (2 ^ 32 - 1) (nsOf v).toNat)

/-! ### Sending on the Ethernet ports -/

/-- Send a PTP message in the domain's transport (Table 04-2), to the addresses of IEEE 1588-2019 and 802.1AS-2020: those of the peer-delay
messages for them and in profile 2. UDP goes to port 319, that of event messages, or 320; by R521 a UDP message leaves with WC_DEST_MAC. -/
def State.sendPtp (s : State) (d : Nat) (peer event : Bool) (m : List (BitVec 8)) : State :=
  if s.ptpUdp d then
    s.sendNet (s.ptpPort d) s.wcDest (s.udp (if peer then 0xE000006B else 0xE0000181) (if event then 319 else 320)) m
  else s.sendNet (s.ptpPort d) (if peer || s.profile d == 2 then 0x0180C200000E else 0x011B19000000) (.ethernet 0x88F7#16) m

/-- A PTP message: the common header of IEEE 1588-2019 (majorSdoId 1 in profile 2), the port identity formed from the station address
as that standard forms it, and the body. -/
def State.ptpMessage (s : State) (d type seq : Nat) (corr : Int) (flags : Nat) (interval : Nat) (body : List (BitVec 8)) :
    List (BitVec 8) :=
  let sdo := if s.profile d = 2 then 1 else 0
  let mac := s.mac (s.ptpPort d)
  beBytes 1 (sdo * 16 + type) ++ beBytes 1 0x12 ++ beBytes 2 (34 + body.length)
    ++ beBytes 1 (s.get (ptpCfg d Reg.PTP0_CFG_domain_number)) ++ beBytes 1 0 ++ beBytes 2 flags ++ beBytes 8 (wrap 64 corr)
    ++ beBytes 4 0 ++ beBytes 3 (mac / 2 ^ 24) ++ beBytes 2 0xFFFE ++ beBytes 3 mac ++ beBytes 2 1 ++ beBytes 2 seq
    ++ beBytes 1 (if type = 1 then 1 else 5) ++ beBytes 1 interval ++ body

/-- A time of 2^-16 ns as a PTP timestamp: seconds, 6 bytes, and nanoseconds, 4 bytes. -/
def ptpStamp (t : Int) : List (BitVec 8) :=
  let ns := (t / 65536).toNat
  beBytes 6 (ns / 1000000000) ++ beBytes 4 (ns % 1000000000)

/-- Send a request and keep its stamp (R88, R90). -/
def State.sendRequest (s : State) (d type : Nat) (pad : Nat) : State :=
  let seq := (s.ptp d).nextSeq
  let m := s.ptpMessage d type seq 0 0 0x7F (ptpStamp 0 ++ beBytes pad 0)
  (s.onPtp d fun p => { p with request := some (seq, s.txStamp d), waitResp := none, nextSeq := (seq + 1) % 65536 }).sendPtp
    d (type == 2) true m

/-- PTP_DELAY_REQ_SEND (R88): profile 0, with a Sync to measure against. -/
def execPtpDelayReqSend (dt : Nat) (d : Fin 2) (s : State) : Result :=
  (s.advance dt).whenOn 2 fun s => s.whenOn 4 fun s =>
  if s.domainRuns d && s.profile d == 0 && (s.ptp d).lastSync.isSome then .next (s.sendRequest d 1 0) else .next s

/-- PTP_DELAY_RESP_RX (R88): half of the way there and back. -/
def execPtpDelayRespRx (dt : Nat) (d : Fin 2) (h : PtpHeader) (received : BitVec 64) (s : State) : Result :=
  (s.advance dt).whenOn 2 fun s => s.whenOn 4 fun s =>
  match (s.ptp d).request, (s.ptp d).lastSync with
  | some (seq, t3), some (t1, t2) =>
    if s.ptpHears d h && s.fromMaster d h && s.profile d == 0 && seq == h.seq.toNat then
      let t4 := received.toNat * 65536 - h.correction
      .next (s.setDelay d (quot (timeDiff (t2 - t1) + timeDiff (t4 - t3)) 2))
    else .next s
  | _, _ => .next s

/-- PTP_ANNOUNCE_RX (R88). -/
def execPtpAnnounceRx (dt : Nat) (d : Fin 2) (h : PtpHeader) (data : Announce) (s : State) : Result :=
  (s.advance dt).whenOn 2 fun s => s.whenOn 4 fun s =>
  if s.ptpHears d h then
    let f : Foreign := ⟨h.clockId, h.portNumber, data, s.beat, h.logInterval⟩
    .next ((s.onPtp d fun p => { p with
      foreign := f :: p.foreign.filter fun g => !(g.clockId == h.clockId && g.portNumber == h.portNumber) && !g.stale s.beat }).showMaster d)
  else .next s

/-- PTP_PDELAY_REQ_SEND (R88): profiles 1 and 2. -/
def execPtpPdelayReqSend (dt : Nat) (d : Fin 2) (s : State) : Result :=
  (s.advance dt).whenOn 2 fun s => s.whenOn 4 fun s =>
  if s.domainRuns d && s.profile d != 0 then .next (s.sendRequest d 2 10) else .next s

/-- PTP_PDELAY_REQ_RX (R88): answered with a two-step Pdelay_Resp and its Pdelay_Resp_Follow_Up, in profiles 1 and 2. -/
def execPtpPdelayReqRx (dt : Nat) (d : Fin 2) (h : PtpHeader) (s : State) : Result :=
  (s.advance dt).whenOn 2 fun s => s.whenOn 4 fun s =>
  if s.ptpHears d h && s.profile d != 0 then
    let who := beBytes 8 h.clockId.toNat ++ beBytes 2 h.portNumber.toNat
    let m1 := s.ptpMessage d 3 h.seq.toNat 0 0x0200 0x7F (ptpStamp (s.rxStamp d) ++ who)
    let m2 := s.ptpMessage d 10 h.seq.toNat h.correction 0 0x7F (ptpStamp (s.txStamp d) ++ who)
    .next ((s.sendPtp d true true m1).sendPtp d true false m2)
  else .next s

/-- PTP_PDELAY_RESP_RX (R88): `stamp` is the request's receipt time of a Pdelay_Resp, the origin time of a follow-up. -/
def execPtpPdelayRespRx (dt : Nat) (d : Fin 2) (h : PtpHeader) (followUp : Bool) (stamp : BitVec 64) (s : State) : Result :=
  (s.advance dt).whenOn 2 fun s => s.whenOn 4 fun s =>
  let p := s.ptp d
  if !(s.ptpHears d h && s.profile d != 0) then .next s
  else if followUp then
    match p.request, p.waitResp with
    | some (_, t1), some (seq, t2, t4) =>
      if seq == h.seq.toNat then
        .next (s.setDelay d (quot (timeDiff (t4 - t1) - timeDiff (stamp.toNat * 65536 - t2) - h.correction) 2))
      else .next s
    | _, _ => .next s
  else
    match p.request with
    | some (seq, t1) =>
      if seq == h.seq.toNat then
        if h.twoStep then
          .next (s.onPtp d fun p => { p with waitResp := some (seq, stamp.toNat * 65536 - h.correction, s.rxStamp d) })
        else .next (s.setDelay d (quot (timeDiff (s.rxStamp d - t1) - h.correction) 2))
      else .next s
    | none => .next s

/-- PTP_IGNORED_RX (R88). -/
def execPtpIgnoredRx (dt : Nat) (d : Fin 2) (h : PtpHeader) (s : State) : Result :=
  (s.advance dt).whenOn 4 fun s =>
  if s.ptpHears d h then .next (s.bump (Reg.PTPd_STATUS_ignored_count d) 1) else .next s

/-- Whether a LOCKED domain has lost its master (R89): no valid Sync for sync_loss_count intervals (0 taken as 1), or no master heard
within the Announce receipt timeout. -/
def State.masterLost (s : State) (d : Nat) : Bool :=
  let n := max 1 (s.get (ptpCfg d Reg.PTP0_CFG_sync_loss_count))
  decide ((s.ptp d).syncBeat + n * intervalNs (s.ptp d).syncInterval ≤ s.beat) || (s.master d).isNone

/-- PTP_HOLDOVER (R89, R93). -/
def execPtpHoldover (dt : Nat) (d : Fin 2) (s : State) : Result :=
  (s.advance dt).whenOn 2 fun s =>
  if s.domain d == 2 && s.masterLost d then
    let s1 := ((s.set (Reg.PTPd_STATUS_state d) 3).raise (Reg.PTPd_STATUS_holdover_seen d)).onPtp d fun p => { p with lockRun := 0 }
    .next ((s1.showMaster d).post 0x0202 [.b d, .ns (s.ptp d).syncStamp]).autoSwitch
  else .next s

/-! ### Web coordinates (R95 to R98) -/

/-- A web-coordinate message (Table 04-5). -/
def State.wcMessage (s : State) (d : Nat) : List (BitVec 8) :=
  let fl := s.get Reg.OBS_STATUS_pos_valid + 2 * s.get Reg.OBS_STATUS_reversal + 4 * b2n (s.domain d == 3)
  let m := beBytes 1 1 ++ beBytes 1 fl ++ beBytes 2 (s.get Reg.WCP_CFG_publisher_id) ++ beBytes 2 s.time.pubSeq ++ beBytes 1 d
    ++ beBytes 1 (s.get (ptpCfg d Reg.PTP0_CFG_domain_number)) ++ compactBytes (s.stamp80 d) ++ beBytes 8 (wrap 64 s.webPos)
    ++ beBytes 8 (wrap 64 (s.webVel s.now)) ++ beBytes 8 (wrap 64 s.webAcc) ++ beBytes 4 (s.get Reg.WCP_COUNT_PM)
  m ++ beBytes 4 (crc32c m)

/-- WC_PUBLISH (R96): a suspension lasts until a local source is active again. -/
def execWcPublish (dt : Nat) (s : State) : Result :=
  (s.advance dt).whenOn 2 fun s => s.whenOn 4 fun s =>
  let d := s.get Reg.WCP_CFG_domain
  if !s.on Reg.WCP_CFG_enable then .next s
  else if s.active = 4 || (s.active = 7 && s.time.pubSuspended) then
    if s.time.pubSuspended then .next s
    else .next ((s.modTime fun t => { t with pubSuspended := true }).post 0x0209 [.ns s.tb3])
  else
    let s1 := s.modTime fun t => { t with pubSuspended := false }
    if s1.domainGood d then
      .next ((s1.modTime fun t => { t with pubSeq := (t.pubSeq + 1) % 65536 }).sendWc (s.ptpPort d) (s.wcMessage d))
    else .next s1

/-- The remote coordinate becomes stale (R98): removed from the observer at once (R62), the next message exempt from the sequence
check (R97). -/
def State.goStale (s : State) (reason : Nat) : State :=
  if s.on Reg.WCS_STATUS_stale then s
  else
    let s1 := ((s.raise Reg.WCS_STATUS_stale).set Reg.WCS_STATUS_reason reason).raise Reg.WCS_STATUS_stale_seen
    let s2 := (s1.modTime fun t => { t with seqExempt := true }).post 0x0207 [.b reason]
    if s2.live 4 then (s2.stopSource 4 true).sources else s2

/-- An accepted message reaches the observer (R52, R54, R98): position y in 48.16, time t_e in TB3. One stamped before t_u is applied
with h 0 and without propagate (R540). -/
def State.remoteEdge (s : State) (y : Int) (te : Nat) : State :=
  if s.live 4 then
    if stampDiff te (s.inst 4).tu < 0 then s.updated 4 else (s.updateInst 4 te (errExact y)).updated 4
  else if s.named 4 && s.alive 4 && !s.removed 4 then s.startSource 4 y
  else s

/-- Whether a message came by the configured encapsulation (R95, R97). -/
def State.wcCarrier (s : State) : NetCarrier → Bool
  | .ethernet e => s.get Reg.WC_NET_CFG_encap == 0 && e.toNat == s.get Reg.WC_NET_CFG_ethertype
  | .udp p => s.get Reg.WC_NET_CFG_encap == 1 && p.toNat == s.get Reg.WC_UDP_port

/-- The accepted message's effects (R97, R98). -/
def State.wcAccept (s : State) (m : List (BitVec 8)) (te : Nat) : State :=
  let seq := beAt m 4 2
  let s1 := (s.set Reg.WCS_STATUS_last_sequence seq).modTime fun t => { t with
    seqExempt := false, lastAccepted := some s.beat, lastDomain := beAt m 6 1 }
  if bit (beAt m 1 1) 0 then
    let s2 := if s1.on Reg.WCS_STATUS_stale then
        ((s1.clear Reg.WCS_STATUS_stale).set Reg.WCS_STATUS_reason 0).post 0x0208 [.n (beAt m 2 2), .n seq]
      else s1
    s2.remoteEdge (signed 64 (beAt m 16 8)) te
  else s1.goStale 2

/-- A received web-coordinate message, checked in the order of R97. -/
def State.wcReceive (s : State) (m : List (BitVec 8)) : State :=
  let d := beAt m 6 1
  let now := s.stamp80 d
  let full := ((now / 65536 : Nat) : Int) + signed 48 (wrap 48 ((beAt m 8 6 : Int) - now / 65536))
  let t := full * 65536 + beAt m 14 2
  let age := (now : Int) - t
  let diff := signed 16 (wrap 16 ((beAt m 4 2 : Int) - s.get Reg.WCS_STATUS_last_sequence))
  if beAt m 2 2 ≠ s.get Reg.WCS_ID_publisher_id then s.bump Reg.WCS_REJECT_id_reject 1
  else if beAt m 44 4 ≠ crc32c (m.take 44) then s.bump Reg.WCS_REJECT_crc_reject 1
  else if 2 ≤ d || !s.domainGood d then s.bump Reg.WCS_REJECT_domain_reject 1
  else if !s.time.seqExempt && diff ≤ 0 then s.bump Reg.WCS_REJECT_seq_reject 1
  else if age < -(1000 * 65536) || (s.get Reg.WCS_CFG_max_age_us * 1000 * 65536 : Nat) < age then
    s.bump Reg.WCS_REJECT_AGE_age_reject 1
  else s.wcAccept m (wrap 80 (t + s.now - now))

/-- WC_MESSAGE_RX (R97, R98). -/
def execWcMessageRx (dt : Nat) (_port : Fin 2) (carrier : NetCarrier) (data : List Byte) (s : State) : Result :=
  (s.advance dt).whenOn 2 fun s => s.whenOn 4 fun s =>
  if s.on Reg.WCS_CFG_enable && s.wcCarrier carrier && 48 ≤ data.length && beAt data 0 1 == 1 then .next (s.wcReceive data)
  else .next s

/-- WC_STALE (R98): the timeout, or the domain of the last accepted message no longer LOCKED or HOLDOVER. -/
def execWcStale (dt : Nat) (s : State) : Result :=
  (s.advance dt).whenOn 2 fun s =>
  if s.on Reg.WCS_CFG_enable then
    match (if s.time.lastAccepted.isSome then s.time.lastAccepted else s.time.subscribedAt) with
    | some t =>
      if t + s.get Reg.WCS_CFG_stale_us * 1000 < s.beat then .next (s.goStale 1)
      else if s.time.lastAccepted.isSome && !s.domainGood s.time.lastDomain then .next (s.goStale 3)
      else .next s
    | none => .next s
  else .next s

/-- After a write of WCS_CFG: the first message after enable is exempt from the sequence check (R97), and the stale time runs from the
enable; a disabled subscription gives no source. -/
def State.wcsWritten (s : State) (was : Bool) : State :=
  if s.on Reg.WCS_CFG_enable then
    if was then s else s.modTime fun t => { t with seqExempt := true, lastAccepted := none, subscribedAt := some s.beat }
  else s.sources

/-! ### Ethernet ports (R520, R521) -/

/-- Whether a frame is addressed to the port. -/
def State.ethMine (s : State) (p : Nat) : EthDest → Bool
  | .unicast m => m.toNat == s.mac p
  | .broadcast => true
  | .multicast => true

/-- Whether a port keeps a frame: PTP messages, the EtherType of WC_NET_CFG, or with encap 1 UDP datagrams to WC_UDP.port. -/
def State.ethKeeps (s : State) : NetCarrier → Bool
  | .ethernet e => e.toNat == 0x88F7 || e.toNat == s.get Reg.WC_NET_CFG_ethertype
  | .udp p => p.toNat == 319 || p.toNat == 320 || (s.get Reg.WC_NET_CFG_encap == 1 && p.toNat == s.get Reg.WC_UDP_port)

/-- ETH_FRAME_RX (R520, R521): the counters of a port; a message it keeps acts by its own command. -/
def execEthFrameRx (dt : Nat) (port : Fin 2) (dest : EthDest) (bad : Bool) (carrier : NetCarrier) (s : State) : Result :=
  (s.advance dt).whenOn 4 fun s =>
  if !s.on (Reg.ETHp_CFG_enable port) then .next s
  else if bad then .next (s.bump (Reg.ETHp_RX_ERRORS port) 1)
  else if s.ethMine port dest && s.ethKeeps carrier then .next (s.bump (Reg.ETHp_RX_FRAMES port) 1)
  else .next (s.bump (Reg.ETHp_RX_FILTERED port) 1)

/-- ETH_LINK_CHANGE (R520). -/
def execEthLinkChange (dt : Nat) (port : Fin 2) (up : Bool) (s : State) : Result :=
  (s.advance dt).whenOn 4 fun s =>
  if s.on (Reg.ETHp_STATUS_link_up port) = up then .next s
  else .next ((s.setOn (Reg.ETHp_STATUS_link_up port) up).raise (Reg.ETHp_STATUS_link_changed port))

end Sys2Proof.Machine
end

