-- ==== Sys2Proof/Machine/Ceiling.lean ====
section
/-! DEFINITION. The speed ceiling (chapter 05, R127 to R130, R544) and the speed-ceiling message (R99). -/

namespace Sys2Proof.Machine

/-- The highest line rate, lines/s (R128). -/
def ceilTop : Nat := 125000

/-- One candidate of a term: lines/s, and what it names in LS_CEIL_TERMi and in LS_CEIL_DETAIL. -/
structure CeilTerm where
  rate : Nat
  who : Nat
  detail : Nat
deriving DecidableEq, Repr

/-- The lowest candidate, capped, the earliest of those that tie (R128, R544); none is no limit. -/
def lowest (l : List CeilTerm) : CeilTerm :=
  match l with
  | [] => ⟨ceilTop, 0, 0⟩
  | a :: t => t.foldl (fun b t => if t.rate < b.rate then t else b) { a with rate := min ceilTop a.rate }

/-- Bits of a column: 1 in one-bit mode (R127). -/
def State.columnBits (s : State) : Nat :=
  if (if s.streaming then s.oneBit else s.on Reg.LS_STREAM_CFG_one_bit) then 1 else 2

/-- Line rates in 10^4 bit/s of the lanes of string str in use: enabled, with a defined rate, UP or not (R127). -/
def State.stringRates (s : State) (str : Nat) : List Nat :=
  ((List.range 2).filter fun e => s.usesEnd e && s.on (Reg.LANEn_CFG_enable (laneOf str e))).map
    (fun e => lineRate (s.get (Reg.LANEn_CFG_rate (laneOf str e)))) |>.filter (· != 0)

/-- The lane term of string str (Table 05-8); none without an enabled head or a lane in use. -/
def State.laneTerm (s : State) (d : List (BitVec 8)) (str : Nat) : Option CeilTerm :=
  let hs := (List.range 8).map (8 * str + ·) |>.filter fun a => plEn d a
  match hs, s.stringRates str with
  | a :: _, r :: rs =>
    let w := (hs.map fun h => s.columnsOf d h * s.columnBits).foldl (· + ·) 0
    some ⟨quotN (rs.foldl min r * 10000 * 8 * 64) (10 * 66 * w), str, plPlane d a⟩
  | _, _ => none

/-- Bytes per print line of a stored block of a chain, in whole bytes (R127); how it rounds is not said. -/
def State.storedPerLine (s : State) (c : Chain) (h : Nat) : Nat :=
  match s.liveBlock h with
  | some b =>
    let n := blockLines (s.factor c) b
    if n = 0 then 0 else quotN (4096 * ceilDiv (32 + b.payLen) 4096) n
  | none => 0

/-- Without sheets, the stream with its queued panels placed up to a line (R121): their partings are known ahead. -/
def State.placedTo (s : State) (line : Nat) : Nat → State
  | 0 => s
  | fuel + 1 =>
    match s.nextJob with
    | some b => if line < s.nextStart b then s else (s.placePanel b (s.nextStart b)).placedTo line fuel
    | none => s

/-- r_q (R127): over the panels with lines from the reference line to 2 leads on. -/
def State.planeLoad (s : State) (q : Nat) : Nat :=
  let l0 := s.refLine
  let l1 := l0 + 2 * s.lead
  let t := if s.streaming && !s.sheetMode && !s.sched.stopping then s.placedTo l1 (l1 - l0 + 64) else s
  (t.sched.spans.filter fun p => p.start ≤ l1 && l0 < p.start + p.len).foldl
    (fun m p => let c := chainOf p q
      if c.present then c.handles.foldl (fun m h => max m (s.storedPerLine c h)) m else m) 0

/-- Enabled planes of a placement bank. -/
def enabledPlanes (d : List (BitVec 8)) : List Nat := upto 10 (plPlaneEn d ·)

/-- The image store term (Table 05-8). -/
def State.storeTerm (s : State) (d : List (BitVec 8)) : CeilTerm :=
  let loads := (enabledPlanes d).map fun q => (q, s.planeLoad q)
  let sum := loads.foldl (fun m x => m + x.2) 0
  let top := loads.foldl (fun (b : Nat × Nat) x => if b.2 < x.2 then x else b) (0, 0)
  if sum = 0 then ⟨ceilTop, top.1, top.1⟩ else ⟨quotN (max 1 (s.get Reg.LS_MEM_BUDGET_gbps) * 1000000000) sum, top.1, top.1⟩

/-- W_q, columns from the first to the last column of the plane's enabled heads (R127). -/
def State.planeWidth (s : State) (d : List (BitVec 8)) (q : Nat) : Nat :=
  match plHeads d q with
  | [] => 0
  | a :: t =>
    let lo := t.foldl (fun m h => min m (plFirst d h)) (plFirst d a)
    t.foldl (fun m h => max m (plFirst d h + s.columnsOf d h)) (plFirst d a + s.columnsOf d a) - lo

/-- The raster term of plane q (R127): 0 without a working slice. -/
def State.rasterTerm (s : State) (d : List (BitVec 8)) (q : Nat) : Option CeilTerm :=
  if s.raster.unserved.contains q then some ⟨0, q, q⟩
  else
    let w := s.planeWidth d q
    if w = 0 then none else some ⟨quotN 16000000000 w, q, q⟩

/-- The five terms, in the order of their codes (Table 05-8), capped (R128). -/
def State.ceilTerms (s : State) : List CeilTerm :=
  let d := s.placementNow
  let cap (t : CeilTerm) : CeilTerm := { t with rate := min ceilTop t.rate }
  [cap ⟨s.sched.headLimit.1, s.sched.headLimit.2, s.sched.headLimit.2⟩, cap ⟨s.sched.chipLimit, 0, 0⟩,
    lowest ((List.range 32).filterMap (s.laneTerm d)), cap (s.storeTerm d), lowest ((enabledPlanes d).filterMap (s.rasterTerm d))]

/-- Show the terms. -/
def State.showTerms (s : State) (ts : List CeilTerm) : State :=
  (ts.zipIdx).foldl (fun (s : State) x => (s.set (Reg.LS_CEIL_TERMi_term x.2) x.1.rate).set (Reg.LS_CEIL_TERMi_who x.2) x.1.who) s

/-- The limiting code and its detail (R544). -/
def limiting (ts : List CeilTerm) : Nat × CeilTerm :=
  (ts.zipIdx).foldl (fun (b : Nat × CeilTerm) x => if x.1.rate < b.2.rate then (x.2 + 1, x.1) else b) (0, ⟨ceilTop, 0, 0⟩)

/-- Beats of a period of SPEED_CEIL_PWM (Table 05-12). -/
def State.pwmPeriod (s : State) : Nat :=
  match s.get Reg.LS_CEIL_CFG_pwm_freq with
  | 0 => 100000
  | 2 => 20000
  | _ => 50000

/-- The speed-ceiling message (Table 04-7). -/
def State.ceilingMessage (s : State) : List (BitVec 8) :=
  let d := s.get Reg.SCM_CFG_domain
  let t := if s.domainGood d then s.tbNs d else 0
  let lpi := if !s.streaming then 0 else if s.lpi600 then 600 else 1200
  let m := beBytes 1 2 ++ beBytes 1 (b2n s.power.printOk + 2 * b2n s.held_) ++ beBytes 2 (s.get Reg.WCP_CFG_publisher_id)
    ++ beBytes 2 s.time.ceilSeq ++ beBytes 1 d ++ beBytes 1 (s.get Reg.LS_CEILING_code) ++ beBytes 6 t ++ beBytes 2 lpi
    ++ beBytes 4 (s.get Reg.LS_CEILING_ceiling) ++ beBytes 2 (s.get Reg.LS_CEIL_DETAIL_detail) ++ beBytes 2 0
  m ++ beBytes 4 (crc32c m)

/-- Send it while SCM_CFG.enable is 1 (R99). -/
def State.sendCeiling (s : State) : State :=
  if s.on Reg.SCM_CFG_enable then
    (s.modTime fun t => { t with ceilSeq := (t.ceilSeq + 1) % 65536 }).sendWc (s.ptpPort (s.get Reg.SCM_CFG_domain)) s.ceilingMessage
  else s

/-- The reference line above the ceiling by more than 1 % at three consecutive recomputations (R130). -/
def State.overCeiling (s : State) : State :=
  let c := s.get Reg.LS_CEILING_ceiling
  let v := s.webVel s.now
  if !s.streaming || s.sched.cpl = 0 || v * 100 ≤ (c * 101 * s.sched.cpl : Nat) then s.modSched fun x => { x with overRun := 0 }
  else
    let n := min 3 (s.sched.overRun + 1)
    let s1 := s.modSched fun x => { x with overRun := n }
    if n < 3 then s1
    else
      let s2 := s1.raise Reg.LS_STATUS_over_ceiling
      let due := match s.sched.overAt with | some t => decide (t + 100000000 ≤ s.beat) | none => true
      if due then
        (s2.modSched fun x => { x with overAt := some s.beat }).post 0x030B [.n c, .n (quot v s.sched.cpl).toNat]
      else s2

/-- Recompute the ceiling (R128, R544). -/
def State.recomputeCeiling (s : State) : State :=
  let ts := s.ceilTerms
  let s1 := s.showTerms ts
  let (code, t) := limiting ts
  let old := s.get Reg.LS_CEILING_ceiling
  let (c, code', det) := if !s.power.printOk then (0, 6, 0)
    else (if old < t.rate then min t.rate (old + 1250) else t.rate, code, t.detail)
  let s2 := ((s1.set Reg.LS_CEILING_ceiling c).set Reg.LS_CEILING_code code').set Reg.LS_CEIL_DETAIL_detail det
  let s3 := if code' = s.get Reg.LS_CEILING_code then s2 else s2.post 0x030A [.n c, .b code', .n det]
  let period := s.pwmPeriod
  (s3.modSched fun x => { x with pwm := ((2 * c * period + ceilTop) / (2 * ceilTop), period) }).overCeiling.sendCeiling

/-- CEILING_RECOMPUTE (R128). -/
def execCeilingRecompute (dt : Nat) (s : State) : Result := (s.advance dt).whenOn 2 fun s => .next s.recomputeCeiling

end Sys2Proof.Machine
end

