-- ==== Sys2Proof/Machine/TableLoad.lean ====
section
/-! DEFINITION. TABLE_LOAD (R396, R397): the checks of each table kind by its owning chapter (R109, R151, R172, R177, R178, R306, R310,
R334), refusals, and staging. -/

namespace Sys2Proof.Machine

/-- Why a table is refused: the byte offset of its first failing entry, and for a check of the Seam the reason of Table 07-2, the head
address (or plane), and the column or phase slot. -/
structure TableFault where
  off : Nat
  seam : Option (Nat × Nat × Nat) := none
deriving DecidableEq, Repr

/-- A check failing at an offset. -/
def failIf (b : Bool) (off : Nat) : Option TableFault := if b then some { off := off } else none

/-- A check of the Seam failing at an offset. -/
def failSeam (b : Bool) (off reason who slot : Nat) : Option TableFault :=
  if b then some { off := off, seam := some (reason, who, slot) } else none

/-- The first failing check of a list, in the order of the offsets. -/
def firstFault (l : List (Option TableFault)) : Option TableFault := l.findSome? id

/-! ### Head placement (R109, R168, R178) -/

/-- The enabled heads of a plane in column order. -/
def byColumn (d : List (BitVec 8)) (q : Nat) : List Nat := (plHeads d q).mergeSort fun a b => plFirst d a ≤ plFirst d b

/-- The next enabled head of the plane in column order (R178). -/
def nextHead (d : List (BitVec 8)) (a : Nat) : Option Nat :=
  let l := byColumn d (plPlane d a)
  (l.drop ((l.findIdx? (· == a)).getD 0 + 1)).head?

/-- Columns that two heads share. -/
def State.overlap (s : State) (d : List (BitVec 8)) (a b : Nat) : Nat :=
  min (plFirst d a + s.columnsOf d a) (plFirst d b + s.columnsOf d b) - max (plFirst d a) (plFirst d b)

/-- Whether head a breaks the rules of stitches (R178): its overlap with its right neighbour is its stitch_width, the last head has
none, and no column lies under more than two heads. -/
def State.stitchBad (s : State) (d : List (BitVec 8)) (a : Nat) : Bool :=
  let third := match nextHead d a with
    | some b => (nextHead d b).any fun c => decide (0 < s.overlap d a c)
    | none => false
  third || plStitch d a != (match nextHead d a with | some b => s.overlap d a b | none => 0)

/-- The lowest column, and whether the entry of either row breaks the depth rule there (R168): delay plus seam age above 63. -/
def State.depthBad (s : State) (d skew : List (BitVec 8)) (a : Nat) : Option Nat :=
  let e := seamAge d a
  (List.range (s.columnsOf d a)).find? fun i => [0, 1].any fun r =>
    let x := skewRaw skew (a % 8) i r
    !skDisable x && decide (63 < skDelay x + e)

/-- A plane record (Table 05-2). -/
def planeRecordBad (d : List (BitVec 8)) (q : Nat) : Option TableFault :=
  failIf (2 ≤ leAt d (16 * q + 10) 1 || leAt d (16 * q + 11) 5 != 0) (16 * q)

/-- A head record (Table 05-3, R109, Table 07-2 reasons 2 and 4). -/
def State.headRecordBad (s : State) (d : List (BitVec 8)) (a : Nat) : Option TableFault :=
  let o := plHead a
  let q := plPlane d a
  let n := s.columnsOf d a
  if 2 ^ 24 ≤ plPlace d a || leAt d (o + 12) 4 ≠ 0 then some { off := o }
  else if !plEn d a then none
  else
    let before := (List.range a).filter fun b => plEn d b
    let depth := (s.tableNewest tSkew (a / 8) 0).bind fun k => s.depthBad d k a
    let half := n / 2 < plStitch d a || (nextHead d a).any fun b => s.columnsOf d b / 2 < plStitch d a
    firstFault [
      (depth.map fun i => { off := o, seam := some (2, a, i) }),
      failSeam (s.stitchBad d a) o 4 a (plFirst d a),
      failIf (9 < q || !plPlaneEn d q || 122880 < plFirst d a + n || 2048 < plStitch d a || half
        || before.any (fun b => b / 8 == a / 8 && plPlane d b != q) || 24 ≤ (before.filter fun b => plPlane d b == q).length) o]

/-- The checks of a placement table. -/
def State.placementBad (s : State) (d : List (BitVec 8)) : Option TableFault :=
  firstFault ((List.range 10).map (planeRecordBad d) ++ (List.range 256).map (s.headRecordBad d))

/-! ### Raster tables (R148 to R151) -/

/-- The trim table. -/
def trimBad (d : List (BitVec 8)) : Option TableFault :=
  (List.range 245760).findSome? fun i =>
    let e := leAt d (2 * i) 2
    failIf (256 < (signed 10 e).natAbs || bit e 15) (2 * i)

/-- The tone-class table. -/
def toneBad (d : List (BitVec 8)) : Option TableFault :=
  (List.range 16).findSome? fun c =>
    firstFault [
      ((List.range 256).findSome? fun i => failIf (4095 < leAt d (520 * c + 2 * i) 2) (520 * c + 2 * i)),
      failIf (3 < leAt d (520 * c + 512) 1) (520 * c + 512),
      failIf (leAt d (520 * c + 513) 7 != 0) (520 * c + 513)]

/-- The screen table, whose header gives its size (R150, Table 15-3). -/
def screenBad (d : List (BitVec 8)) : Option TableFault :=
  let w := leAt d 0 2
  let h := leAt d 2 2
  if w < 1 || 256 < w then some { off := 0 }
  else if h < 1 || 256 < h then some { off := 2 }
  else if d.length ≠ 16 + 6 * w * h then some { off := 0xFFFFFFFF }
  else if leAt d 8 8 ≠ 0 then some { off := 8 }
  else
    (List.range (w * h)).findSome? fun i =>
      let o := 16 + 6 * i
      let t (k : Nat) : Nat := leAt d (o + 2 * k) 2
      failIf (4095 < t 0 || 4095 < t 1 || 4095 < t 2 || t 1 < t 0 || t 2 < t 1) o

/-! ### Skew and stitch (R168, R171, R172, R176, R177) -/

/-- The checks of one column of a node. -/
def skewColumnBad (k : List (BitVec 8)) (a e i : Nat) : Option TableFault :=
  let o (r : Nat) : Nat := 32768 * (a % 8) + 4 * i + 2 * r
  let deep (r : Nat) : Bool := let x := skewRaw k (a % 8) i r; !skDisable x && decide (63 < skDelay x + e)
  let row (r : Nat) : Nat := bits (skewRaw k (a % 8) i r) 10 10
  firstFault [failSeam (deep 0) (o 0) 2 a i, failSeam (row 0 != row 1) (o 0) 3 a i, failSeam (deep 1) (o 1) 2 a i]

/-- The checks of one node of a skew table: phase occupancy for a node already identified first (R176). -/
def State.skewNodeBad (s : State) (k : List (BitVec 8)) (a : Nat) : Option TableFault :=
  let d := s.placementNewest
  if !plEn d a then none
  else
    let cols := s.columnsOf d a
    let beyond := if (s.node a).known then (phaseFirst k (a % 8) cols) else none
    match beyond with
    | some p => some { off := 32768 * (a % 8), seam := some (1, a, p) }
    | none => (List.range cols).findSome? (skewColumnBad k a (seamAge d a))
where
  /-- The first phase slot of a node with more than an eighth of its columns (R176). -/
  phaseFirst (k : List (BitVec 8)) (n cols : Nat) : Option Nat :=
    (List.range 16).find? fun p =>
      decide (cols / 8 < ((List.range cols).filter fun i => let x := skewSel k n i; !skDisable x && skPhase x == p).length)

/-- The skew table of a string. -/
def State.skewTableBad (s : State) (str : Nat) (k : List (BitVec 8)) : Option TableFault :=
  (List.range 8).findSome? fun n => s.skewNodeBad k (8 * str + n)

/-- The stitch table of a plane: pattern 0 is reserved (R177). -/
def stitchTableBad (q : Nat) (d : List (BitVec 8)) : Option TableFault := failSeam (leAt d 0 8 != 0) 0 5 q 0

/-! ### Camera tables, inspection plan and Foreman target (R305, R306, R310, R334) -/

/-- Port calibration. -/
def calBad (d : List (BitVec 8)) (pixels : Nat) : Option TableFault :=
  firstFault [
    ((List.range 3).findSome? fun c => failIf (leAt d (18 + 2 * c) 2 == 0) (18 + 2 * c)),
    failIf (leAt d 24 8 != 0) 24,
    ((List.range (3 * pixels)).findSome? fun i => failIf (4095 < leAt d (32 + 4 * i) 2) (32 + 4 * i))]

/-- m_i of a column map, 17.15 plane columns. -/
def mapEntry (d : List (BitVec 8)) (i : Nat) : Nat := leAt d (4 * i) 4

/-- Column map: strictly rising or falling, below 122,880 columns. -/
def mapBad (d : List (BitVec 8)) (pixels : Nat) : Option TableFault :=
  let up := decide (mapEntry d 0 < mapEntry d 1)
  (List.range pixels).findSome? fun i =>
    let order := i == 0 || (if up then mapEntry d (i - 1) < mapEntry d i else mapEntry d i < mapEntry d (i - 1))
    failIf (122880 * 32768 ≤ mapEntry d i || !order) (4 * i)

/-- A field of region record r of an inspection plan (Table 11-4). -/
def rgAt (d : List (BitVec 8)) (r off n : Nat) : Nat := leAt d (32 * r + off) n
/-- kind of a region. -/
def rgKind (d : List (BitVec 8)) (r : Nat) : Nat := rgAt d r 0 1
/-- Bands of a region: columns over the band width, rounded up (R310). -/
def rgBands (d : List (BitVec 8)) (r : Nat) : Nat := ceilDiv (rgAt d r 20 4 - rgAt d r 16 4 + 1) (rgAt d r 26 2)

/-- Whether a region's parameters break Table 11-5 or R310. -/
def State.regionParamsBad (s : State) (d : List (BitVec 8)) (r : Nat) : Bool :=
  let p1 := rgAt d r 24 2
  let p2 := rgAt d r 26 2
  let p3 := rgAt d r 28 2
  let len := rgAt d r 8 2
  match rgKind d r with
  | 1 =>
    let pl := s.placementNow
    255 < p1 || p2 < 8 || 64 < p2 || 8 ≤ p3 || p3 % 4 == 3 || len % p2 != 0 || !plEn pl p1
      || plFirst pl p1 < rgAt d r 16 4 || rgAt d r 20 4 + 1 < plFirst pl p1 + s.columnsOf pl p1
  | 2 => p1 < 1 || 16 < p1 || p2 < 64 || 8192 < p2 || p3 != 0 || 4064 < p1 * rgBands d r * 6
  | 3 => 2 < p3
  | 4 => p1 != 0 || p2 < 64 || 8192 < p2 || p3 != 0 || 4064 < rgBands d r * 12
  | _ => true

/-- A region record (Tables 11-4 and 11-5, R310); an unused record is not looked at. -/
def State.regionBad (s : State) (d : List (BitVec 8)) (r : Nat) : Option TableFault :=
  if rgKind d r = 0 then none
  else
    let periodic := rgAt d r 3 1 == 1
    let len := rgAt d r 8 2
    failIf (4 < rgKind d r || 3 < rgAt d r 1 1 || 9 < rgAt d r 2 1 || 1 < rgAt d r 3 1 || len < 1 || 4096 < len
      || rgAt d r 10 2 != 0 || rgAt d r 30 2 != 0 || (if periodic then rgAt d r 12 4 < len else rgAt d r 12 4 != 0)
      || 122879 < rgAt d r 16 4 || 122879 < rgAt d r 20 4 || rgAt d r 20 4 < rgAt d r 16 4 || s.regionParamsBad d r) (32 * r)

/-- A record of the Foreman target table (R334). -/
def State.targetBad (s : State) (d : List (BitVec 8)) (q : Nat) : Option TableFault :=
  let plan := (s.tableNow tPlan 0 0).getD []
  let o := 16 * q
  let g := leAt d o 1
  let on := bit (leAt d (o + 3) 1) 0
  failIf (4 ≤ leAt d (o + 3) 1 || leAt d (o + 6) 10 != 0
    || (on && (63 < g || rgKind plan g != 2 || rgAt plan g 24 2 ≤ leAt d (o + 1) 1 || 2 < leAt d (o + 2) 1))) o

/-! ### The operation (R396, R397) -/

/-- CAMp_CFG.pixels of a port. -/
def State.camPixels (s : State) (p : Nat) : Nat := s.get (Reg.CAMp_CFG_pixels p)

/-- The size of a table (Table 15-3); a screen's comes from its header. -/
def State.tableSize (s : State) (kind index : Nat) : Option Nat :=
  match kind with
  | 1 => some 4256
  | 2 => some 491520
  | 3 => some 8320
  | 5 => some 262144
  | 6 => some 128
  | 7 => some 16384
  | 8 => some (32 + 12 * s.camPixels index)
  | 9 => some (4 * s.camPixels index)
  | 10 => some 2048
  | 11 => some 160
  | _ => none

/-- Whether table, index and sub name a table (Table 15-3). -/
def tableNamed (kind index sub : Nat) : Bool :=
  let sub0 := sub == 0
  match kind with
  | 1 => index == 0 && sub0
  | 2 => index ≤ 9 && sub0
  | 3 => index ≤ 9 && sub0
  | 4 => index ≤ 9 && sub ≤ 3
  | 5 => index ≤ 31 && sub0
  | 6 => index ≤ 9 && sub0
  | 7 => index ≤ 31 && sub0
  | 8 => index ≤ 3 && sub0
  | 9 => index ≤ 3 && sub0
  | 10 => index == 0 && sub0
  | 11 => index == 0 && sub0
  | _ => false

/-- Whether a TABLE_LOAD's fixed fields fail (R396). -/
def State.tableFieldsBad (s : State) (f : Flight) : Bool :=
  let k := f.fld 16 1
  !tableNamed k (f.fld 17 1) (f.fld 18 1) ||
    (match s.tableSize k (f.fld 17 1) with
      | some n => f.fld 20 4 != n
      | none => f.fld 20 4 < 22 || 393232 < f.fld 20 4)

/-- The check of a table by its owning chapter. -/
def State.tableBad (s : State) (kind index : Nat) (d : List (BitVec 8)) : Option TableFault :=
  match kind with
  | 1 => s.placementBad d
  | 2 => trimBad d
  | 3 => toneBad d
  | 4 => screenBad d
  | 5 => s.skewTableBad index d
  | 6 => stitchTableBad index d
  | 8 => calBad d (s.camPixels index)
  | 9 => mapBad d (s.camPixels index)
  | 10 => (List.range 64).findSome? (s.regionBad d)
  | 11 => (List.range 10).findSome? (s.targetBad d)
  | _ => none

/-- The result fields of a TABLE_LOAD that a refusal carries too (Table 15-6). -/
def tableResult (off : Nat) (f : Flight) : List (Nat × List (BitVec 8)) :=
  [(10, leBytes 1 (f.fld 16 1)), (11, leBytes 1 (f.fld 17 1)), (12, leBytes 4 off)]

/-- Record a refusal of the Seam (R172). -/
def State.seamRefused (s : State) (kind index : Nat) (x : Nat × Nat × Nat) : State :=
  let (reason, who, slot) := x
  let s1 := ((s.set Reg.SEAM_LAST_REFUSAL_reason reason).set Reg.SEAM_LAST_REFUSAL_head who).set Reg.SEAM_LAST_REFUSAL_slot
    (if reason = 1 then slot else 0)
  let str := if reason = 5 then index else who / 8
  (s1.raise Reg.SEAM_STATUS_refused).post 0x0410 [.b reason, .b str, .b (if reason = 5 || kind = tStitch then 0 else who % 8), .n slot]

/-- Stage a checked table of an operation; a trim, skew or placement table withdraws the Foreman's loads (R343). -/
def State.stageLoad (s : State) (f : Flight) (d : List (BitVec 8)) : State :=
  let k := f.fld 16 1
  let g : Staged := ⟨k, f.fld 17 1, f.fld 18 1, d, f.effLi, 0, none, some (f.ring, f.n), none, []⟩
  let s1 := if k = tPlacement || k = tTrim || k = tSkew then s.fmWithdraw k g.index else s
  if atFrames k then
    s1.modSched fun c => { c with staged := c.staged ++ [if s.streaming then g else { g with eff := 2 ^ 48 - 1 }] }
  else s1.stage g

/-- The table as a TABLE_LOAD reads it: checked, then refused or staged. -/
def State.loadTable (s : State) (f : Flight) (data : List (BitVec 8)) : State :=
  let k := f.fld 16 1
  let d := slice data 0 (f.fld 20 4)
  let s1 := s.hasRead f
  match s1.tableBad k (f.fld 17 1) d with
  | none => s1.stageLoad f d
  | some e =>
    let s2 := match e.seam with
      | some x => s1.seamRefused k (f.fld 17 1) x
      | none => s1
    s2.finish f stBad (tableResult e.off f)

/-- TABLE_LOAD as an operation: in SETUP it needs no tally (R391). -/
def State.tableOp (s : State) (op : OpRef) (body : Flight → State → State) : State :=
  s.runOp op 0x08 [(16, 3), (20, 12)] true s.tableFieldsBad (tableResult 0xFFFFFFFF) (s.dev != stSetup) body

/-- TABLE_LOAD (R396, R397): `data` is the table as read from host memory. -/
def execTableLoad (dt : Nat) (op : OpRef) (data : List Byte) (s : State) : Result :=
  .next ((s.advance dt).tableOp op fun f s => s.loadTable f data)

end Sys2Proof.Machine
end

