-- ==== Sys2Proof/Machine/Foreman.lean ====
section
/-! DEFINITION. The Foreman (chapter 12): what the loops read (R326 to R328), the laws of the nozzle, density, registration and
feed-forward loops (R329 to R339), the loads they submit (R321, R322, R341, R342), bounds and escalation (R344), and FM_NOZ_CLEAR
(R347). -/

namespace Sys2Proof.Machine

/-! ### Settings (Tables 12-11 to 12-14) -/

/-- A loop's mode: 1 nozzle, 2 density, 3 registration, 4 feed-forward; 3 is taken as OFF (Table 12-2). -/
def State.fmMode (s : State) (loop : Nat) : Nat :=
  let m := s.get ⟨Reg.FM_CFG_noz_mode.off, 2 * (loop - 1), 2⟩
  if m = 3 then 0 else m

/-- FM_DEN_CFG.step. -/
def State.fmStep (s : State) : Nat := clampN 1 5 (s.get Reg.FM_DEN_CFG_step)
/-- FM_DEN_CFG.gain, in 1/256. -/
def State.fmGain (s : State) : Nat := max 1 (s.get Reg.FM_DEN_CFG_gain)
/-- FM_NOZ_CFG.confirm. -/
def State.fmConfirm (s : State) : Nat := max 1 (s.get Reg.FM_NOZ_CFG_confirm)
/-- FM_REG_CFG.gain, in 1/8. -/
def State.fmRegGain (s : State) : Nat := clampN 1 8 (s.get Reg.FM_REG_CFG_gain)
/-- FM_CFG.ff_lines. -/
def State.fmFfLines (s : State) : Nat := max 1024 (s.get Reg.FM_CFG_ff_lines)
/-- FM_CFG.hold_lines, in reference lines (R328). -/
def State.fmHoldLines (s : State) : Nat := 16384 * max 1 (s.get Reg.FM_CFG_hold_lines)

/-- The bound of a quantity of Table 12-4 that has one. -/
def State.fmBound (s : State) (what : Nat) : Option Int :=
  let at256 (f : Fld) : Option Int := some ((min 256 (s.get f) : Nat) : Int)
  match what with
  | 1 => at256 Reg.FM_BOUNDS_plane_bound
  | 2 => at256 Reg.FM_BOUNDS_band_bound
  | 3 => at256 Reg.FM_BOUNDS_noz_bound
  | 4 => at256 Reg.FM_BOUNDS_noz_bound
  | 7 => some (s.get Reg.FM_REG_BOUND_down_bound : Nat)
  | 8 => some (s.get Reg.FM_REG_BOUND_cross_bound : Nat)
  | 9 => at256 Reg.FM_FF_BOUND_ff_bound
  | 10 => at256 Reg.FM_FF_BOUND_ff_bound
  | _ => none

/-- A value held to the bound of its quantity. -/
def State.toBound (s : State) (what : Nat) (v : Int) : Int :=
  match s.fmBound what with
  | some b => clampI (-b) b v
  | none => v

/-- Whether the Foreman works: with the tally, in PRINTING or DRAINING. -/
def State.fmWorks (s : State) : Bool := s.held_ && (s.dev == stPrinting || s.dev == stDraining) && s.streaming

/-! ### The table a load carries (R321, R322) -/

/-- The state as it will stand once every load submitted for a table is in force: a new load builds on its terms. -/
def State.fmView (s : State) (kind index : Nat) : State :=
  let host := (s.sched.staged.filter fun g => g.kind == kind && g.index == index && g.fm.isNone).getLast?
  let s0 := match host with
    | some g => s.fmRebase kind index g.data [] 0
    | none => s
  (s.fm.changes.filter fun c => c.table.1 == kind && c.table.2.1 == index).foldl
    (fun s c => c.items.foldl (fun s i => s.fmApply c i) s) s0

/-- The terms a change starts from: those in force for a proposal (R324), else as the loads submitted leave them. -/
def State.fmFrom (s : State) (mode kind index : Nat) : State := if mode = 1 then s else s.fmView kind index

/-- The base of a table. -/
def State.fmBase (s : State) (kind index : Nat) : List (BitVec 8) := Tab.get (fun _ => []) s.fm.bases (bankKey kind index 0)

/-- bd_q(c), interpolated between the centres of the bands (R322); how it rounds is free. -/
def State.bdAt (s : State) (i q c : Nat) : Int :=
  match s.fm.bands.find? (·.1 == q) with
  | none => 0
  | some (_, c0, last, w) =>
    let n := ceilDiv (last + 1 - c0) w
    let centre (j : Nat) : Nat := 2 * (c0 + j * w) + min w (last + 1 - c0 - j * w)
    if w = 0 || n = 0 || 2 * c ≤ centre 0 then s.fmBd q 0
    else if centre (n - 1) ≤ 2 * c then s.fmBd q (n - 1)
    else
      let j := min ((2 * c - centre 0) / (2 * w)) (n - 2)
      s.fmBd q j + quotAt i ((s.fmBd q (j + 1) - s.fmBd q j) * (2 * c - centre j : Nat)) (centre (j + 1) - centre j)

/-- ff(c, ρ) (R322): of the head that covers c, in a stitch the rounded mean of both. -/
def State.ffAt (s : State) (i : Nat) (heads : List (Nat × Nat × Nat)) (c row : Nat) : Int :=
  match heads.filter (fun h => decide (h.2.1 ≤ c) && decide (c < h.2.1 + h.2.2)) with
  | [] => 0
  | [h] => s.fmFf h.1 row
  | h :: h' :: _ => nearAt i (s.fmFf h.1 row + s.fmFf h'.1 row) 2

/-- One entry of a trim table with the terms added to its base, and whether the clamp acted (R322). -/
def trimEntry (base : Nat) (terms : Int) : Nat × Bool :=
  let sum := signed 10 base + terms
  let t := clampI (-256) 256 sum
  (base / 1024 * 1024 + wrap 10 t, t != sum)

/-- The trim table from a column on, built from its base. -/
def trimFrom (term : Nat → Nat → Int) : List (BitVec 8) → Nat → List (BitVec 8) × Bool
  | a0 :: a1 :: b0 :: b1 :: t, c =>
    let (a, ka) := trimEntry (a0.toNat + 256 * a1.toNat) (term c 0)
    let (b, kb) := trimEntry (b0.toNat + 256 * b1.toNat) (term c 1)
    let (r, k) := trimFrom term t (c + 1)
    (leBytes 2 a ++ leBytes 2 b ++ r, ka || kb || k)
  | _, _ => ([], false)

/-- The trim table of plane q by the terms of a view; a plane with no base has zeros. Rounding draws from k. -/
def State.buildTrim (v : State) (k q : Nat) : List (BitVec 8) × Bool :=
  let b := v.fmBase tTrim q
  let base := if b.isEmpty then List.replicate 491520 0#8 else b
  let d := v.placementNow
  let heads := (byColumn d q).map fun h => (h, plFirst d h, v.columnsOf d h)
  let pd := v.getI (Reg.FM_PDq_pd q)
  trimFrom (fun c row => v.ffAt (k + 2 * c + row) heads c row + pd + v.bdAt (k + 245760 + c) q c + v.fmNz q row c) base 0

/-- Flip row_sel in both entries of a column of a skew table (R171, R332). -/
def flipRow (d : List (BitVec 8)) (n i : Nat) : List (BitVec 8) :=
  let o := 32768 * n + 4 * i + 1
  let put (d : List (BitVec 8)) (o : Nat) : List (BitVec 8) := overlay d o [(d.getD o 0#8) ^^^ 4#8]
  put (put d o) (o + 2)

/-- The table of a load from its base and the terms of a view, and whether a sum was clamped (R321, R322, R332, R338). -/
def State.fmTable (v : State) (k kind index : Nat) : List (BitVec 8) × Bool :=
  if kind = tTrim then v.buildTrim k index
  else if kind = tSkew then
    ((v.fm.moves.filter fun m => m.1 / 8 == index).foldl (fun d m => flipRow d (m.1 % 8) m.2) (v.fmBase tSkew index), false)
  else if kind = tPlacement then
    ((List.range 10).foldl (fun d q =>
      overlay d (16 * q + 8) (leBytes 2 (wrap 16 (plBarTrim d q + v.getI (Reg.FM_REGq_dt q))))) (v.fmBase tPlacement 0), false)
  else (leBytes 2 (wrap 16 (v.getI (Reg.FM_REGq_xoff index))), false)

/-! ### Records and loads (R324, R325, R341, R344) -/

/-- A change of a loop, not yet issued. -/
def fmMake (loop plane head frame li flags : Nat) (items : List FmItem) : FmChange :=
  ⟨0, 0, loop, flags, plane, head, frame, li, items, (0, 0, 0)⟩

/-- An item, where the value changes. -/
def fmItem (index what : Nat) (old new : Int) : List FmItem := if old = new then [] else [⟨index, what, old, new⟩]

/-- FM_BOUND for each quantity of a change that reaches its bound from below (R344). -/
def State.noteBounds (s : State) (c : FmChange) : State :=
  [1, 2, 7, 8, 9, 10].foldl (fun (s : State) w =>
    match s.fmBound w with
    | none => s
    | some b =>
      if c.items.any fun i => i.what == w && decide (b ≤ i.new.natAbs) && decide ((i.old.natAbs : Int) < b) then
        (s.raise Reg.FM_STATUS_bound).post 0x0801 [.b c.loop, .b c.plane, .b c.head, .b w]
      else s) s

/-- FM_BOUND with the term "total" when the clamp of R322 begins to act on a plane (R344). -/
def State.noteTotal (s : State) (loop q : Nat) (clamped : Bool) : State :=
  if !clamped then s.modFm fun f => { f with clamped := f.clamped.filter (· != q) }
  else if s.fm.clamped.contains q then s
  else ((s.modFm fun f => { f with clamped := q :: f.clamped }).raise Reg.FM_STATUS_bound).post 0x0801 [.b loop, .b q, .b 0xFF, .b 0]

/-- A change that pulls terms beyond a lowered bound to it; none where no term is (R347 text). -/
def State.pullOf (s : State) (loop q head : Nat) (terms : List (Nat × Nat × Int)) : List FmChange :=
  let items := terms.flatMap fun t => fmItem t.1 t.2.1 t.2.2 (s.toBound t.2.1 t.2.2)
  if items.isEmpty then [] else [fmMake loop q head 0xFFFFFFFF s.refLine 1 items]

/-- The changes that pull the terms of a table to bounds lowered below them, in its next load. -/
def State.fmPulls (v : State) (kind index : Nat) : List FmChange :=
  let d := v.placementNow
  if kind = tTrim then
    let bd := v.fm.bd.filter fun e => e.1 / 512 == index
    let nzOf (h : Nat) : List (Nat × Nat × Int) := (v.fm.nz.filter fun e =>
      e.1 / 262144 == index && ((byColumn d index).find? fun a =>
        decide (plFirst d a ≤ e.1 % 131072) && decide (e.1 % 131072 < plFirst d a + v.columnsOf d a)) == some h).map fun e =>
          (e.1 % 131072, 3 + e.1 / 131072 % 2, e.2)
    v.pullOf 2 index 0xFF ((0, 1, v.getI (Reg.FM_PDq_pd index)) :: bd.map fun e => (e.1 % 512, 2, e.2))
      ++ (byColumn d index).flatMap (fun h => v.pullOf 1 index h (nzOf h))
      ++ (byColumn d index).flatMap fun h => v.pullOf 4 index h [(0, 9, v.fmFf h 0), (0, 10, v.fmFf h 1)]
  else if kind = tPlacement then
    (List.range 10).flatMap fun q => v.pullOf 3 q 0xFF [(0, 7, v.getI (Reg.FM_REGq_dt q))]
  else if kind = tXoff then v.pullOf 3 index 0xFF [(0, 8, v.getI (Reg.FM_REGq_xoff index))]
  else []

/-- Issue the ACTION records of changes and keep the changes as submitted with the next load. -/
def State.fmSubmitted (s : State) (kind index : Nat) (cs : List FmChange) : State :=
  let load := s.fm.nextLoad
  cs.foldl (fun (s : State) c =>
    let (l, s1) := (s.noteBounds c).issueChange { c with load := load, table := (kind, index, 0) } 0x11 (2 ^ 48 - 1)
    s1.modFm fun f => { f with changes := f.changes ++ l }) s

/-- Submit one load of a table with the changes that are ready (R341). -/
def State.fmLoad (s : State) (loop kind index eff : Nat) (cs : List FmChange) : State :=
  let load := s.fm.nextLoad
  let s1 := s.fmSubmitted kind index cs
  let s2 := s1.fmSubmitted kind index ((s1.fmView kind index).fmPulls kind index)
  let (k, s3) := (s2.modFm fun f => { f with nextLoad := load + 1 }).drawBlock 368640
  let (d, clamped) := (s3.fmView kind index).fmTable k kind index
  (if kind = tTrim then s3.noteTotal loop index clamped else s3).stage ⟨kind, index, 0, d, eff, 0, none, none, some load, []⟩

/-- A loop's change of one table: proposed in ADVISE, submitted in ACT; a change without an item is a record only (R324, R341). -/
def State.fmDo (s : State) (mode kind index : Nat) (c : FmChange) : State :=
  if mode = 1 then (s.issueChange c 0x10 (2 ^ 48 - 1)).2
  else if c.items.isEmpty then (s.issueChange c 0x11 (2 ^ 48 - 1)).2
  else s.fmLoad c.loop kind index (2 ^ 48 - 1) [c]

/-- FM_ESCALATE (R345). -/
def State.escalate (s : State) (loop q head reason : Nat) : State :=
  (s.raise Reg.FM_STATUS_escalated).post 0x0802 [.b loop, .b q, .b head, .b reason]

/-! ### Records the loops use (R326 to R328) -/

/-- kind of a statistics record (Table 11-6). -/
def recKind (b : List (BitVec 8)) : Nat := leAt b 0 1
/-- port. -/
def recPort (b : List (BitVec 8)) : Nat := leAt b 1 1
/-- flags. -/
def recFlags (b : List (BitVec 8)) : Nat := leAt b 2 2
/-- frame. -/
def recFrame (b : List (BitVec 8)) : Nat := leAt b 4 4
/-- first_li. -/
def recLi (b : List (BitVec 8)) : Nat := leAt b 8 6
/-- region. -/
def recRegion (b : List (BitVec 8)) : Nat := leAt b 16 1
/-- plane. -/
def recPlane (b : List (BitVec 8)) : Nat := leAt b 17 1

/-- Whether a record's flags and origin let a loop use it (R326). -/
def recUsable (b : List (BitVec 8)) : Bool := recFlags b &&& 60 == 0 && recLi b != 2 ^ 48 - 1

/-- A usable record of a loop and plane: it is noted, and a loop on hold resumes (R328). -/
def State.noteUsable (s : State) (loop q : Nat) (b : List (BitVec 8)) : State :=
  let k := loop * 16 + q
  let s1 := s.modFm fun f => { f with usable := Tab.put f.usable k (s.refLine, recPort b) }
  if s1.fm.held.contains k then
    (s1.modFm fun f => { f with held := f.held.filter (· != k) }).post 0x0806 [.b loop, .b q]
  else s1

/-- Whether a change of a loop for a plane (the nozzle and feed-forward loops: a head) is submitted and not yet in effect (R327). -/
def State.fmPending (s : State) (loop who : Nat) : Bool :=
  s.fm.changes.any fun c => c.loop == loop && (if loop = 1 || loop = 4 then c.head else c.plane) == who

/-- Whether a loop may compute a change from a record (R327). -/
def State.fmMay (s : State) (loop who : Nat) (b : List (BitVec 8)) : Bool :=
  decide (s.fmSince loop who ≤ recLi b) && !s.fmPending loop who

/-! ### Density loop (R334 to R336) -/

/-- The target table for a record (R334). -/
def State.targetFor (s : State) (li : Nat) : List (BitVec 8) := (s.tableAt tTarget 0 0 li).getD []

/-- Mean of channel c in band j of patch i of a WEDGE record (Table 11-7). -/
def wedgeMd (b : List (BitVec 8)) (i j c : Nat) : Nat := leAt b (36 + 6 * (i * leAt b 33 1 + j) + 2 * c) 2

/-- The band corrections of a plane (R336): the sum of the bands' means, their list, and whether a bound acted. -/
def State.bandItems (s : State) (k q sum : Nat) (md : List Nat) : List FmItem × Bool :=
  let n := md.length
  let db := s.get Reg.FM_DEN_CFG_deadband_md
  (md.take 512).zipIdx.foldl (fun (acc : List FmItem × Bool) x =>
    let (m, j) := x
    let e : Int := sum - n * m
    if e.natAbs ≤ db * n then acc
    else
      let old := s.fmBd q j
      let want := old + clampI (-s.fmStep) s.fmStep (nearAt (k + 1 + j) (4 * s.fmGain * e) sum)
      let new := s.toBound 2 want
      (acc.1 ++ fmItem j 2 old new, acc.2 || new != want)) ([], false)

/-- A run of updates by plane. -/
def State.setBoundRun (s : State) (q n : Nat) : State :=
  s.modFm fun f => { f with boundRun := Tab.set (fun _ => 0) f.boundRun q n }

/-- Plane q's step from a usable WEDGE record of its region (R335, R336). -/
def State.densityStep (s : State) (mode q : Nat) (b : List (BitVec 8)) : State :=
  let t := s.targetFor (recLi b)
  let v := s.fmFrom mode tTrim q
  let n := leAt b 33 1
  let md := (List.range n).map fun j => wedgeMd b (leAt t (16 * q + 1) 1) j (leAt t (16 * q + 2) 1)
  let sum := md.sum
  let target := leAt t (16 * q + 4) 2
  let e : Int := (target * n : Nat) - (sum : Int)
  let (k, s1) := s.drawBlock (n + 1)
  let change (flags : Nat) (items : List FmItem) : FmChange := fmMake 2 q 0xFF (recFrame b) (recLi b) flags items
  if e.natAbs ≤ s.get Reg.FM_DEN_CFG_deadband_md * n then
    let (items, acted) := if bit (leAt t (16 * q + 3) 1) 1 then v.bandItems k q sum md else ([], false)
    let plan := (s.tableNow tPlan 0 0).getD []
    let g := recRegion b
    let s2 := (s1.setBoundRun q 0).modFm fun f => { f with
      bands := if items.isEmpty || mode != 2 then f.bands else
        (q, rgAt plan g 16 4, rgAt plan g 20 4, leAt b 34 2) :: f.bands.filter (·.1 != q) }
    s2.fmDo mode tTrim q (change (b2n acted + if items.isEmpty then 8 else 0) items)
  else
    let old := v.getI (Reg.FM_PDq_pd q)
    let want := old + clampI (-s.fmStep) s.fmStep (nearAt k (4 * s.fmGain * e) (n * target))
    let new := s.toBound 1 want
    let at_ := s.fmBound 1 == some ((new.natAbs : Nat) : Int) && old == new
    let run := if at_ then min 8 (Tab.get (fun _ => 0) s.fm.boundRun q + 1) else 0
    let esc := decide (run = 8) && decide (Tab.get (fun _ => 0) s.fm.boundRun q < 8)
    let s2 := s1.setBoundRun q run
    let s3 := if esc then s2.escalate 2 q 0xFF 2 else s2
    s3.fmDo mode tTrim q (change (b2n (new != want) + 2 * b2n esc) (fmItem 0 1 old new))

/-- The density loop on a WEDGE record: every plane whose target names its region. -/
def State.densityLoop (s : State) (b : List (BitVec 8)) : State :=
  let mode := s.fmMode 2
  (List.range 10).foldl (fun (s : State) q =>
    let t := s.targetFor (recLi b)
    if mode != 0 && bit (leAt t (16 * q + 3) 1) 0 && leAt t (16 * q) 1 == recRegion b && decide (leAt t (16 * q + 1) 1 < leAt b 32 1) then
      let s1 := s.noteUsable 2 q b
      if s1.fmMay 2 q b then s1.densityStep mode q b else s1
    else s) s

/-! ### Registration loop (R337, R338) -/

/-- FM_REG_CFG.ref_plane; 10 to 14 are taken as 15. -/
def State.refPlane (s : State) : Nat := let r := s.get Reg.FM_REG_CFG_ref_plane; if r ≤ 9 then r else 15

/-- The errors a plane is corrected by (R337): none where the reference plane has no mark near enough. -/
def State.regErrors (s : State) (b : List (BitVec 8)) : Option (Int × Int) :=
  let d := signed 32 (leAt b 32 4)
  let x := signed 32 (leAt b 36 4)
  if s.refPlane = 15 then some (d, x)
  else if s.refPlane = recPlane b then none
  else
    match s.fm.regmarks.find? (·.1 == s.refPlane) with
    | some (_, li, d0, x0) =>
      if max li (recLi b) - min li (recLi b) ≤ 65536 then some (d - d0, x - x0) else none
    | none => none

/-- The step of plane q by its errors (R338): dt in the placement table, xoff in the Foreman's own state. -/
def State.regStep (s : State) (mode q : Nat) (b : List (BitVec 8)) (e : Int × Int) : State :=
  let (k, s1) := s.drawBlock 2
  let g := s.fmRegGain
  let step : Int := max 1 (s.get Reg.FM_REG_CFG_down_step)
  let law (dead : Nat) (what : Nat) (e old lim : Int) (i den : Nat) : Int × Bool × List FmItem :=
    if e.natAbs ≤ dead then (old, false, [])
    else
      let want := old + clampI (-lim) lim (-nearAt i (g * e) den)
      let new := s.toBound what want
      (new, new != want, fmItem 0 what old new)
  let (_, bd, di) := law (s.get Reg.FM_REG_CFG_down_deadband) 7 e.1 ((s.fmFrom mode tPlacement 0).getI (Reg.FM_REGq_dt q)) step k 32
  let (_, bx, xi) := law (s.get Reg.FM_REG_CFG_cross_deadband) 8 e.2 ((s.fmFrom mode tXoff q).getI (Reg.FM_REGq_xoff q)) 1 (k + 1) 512
  let change (flags : Nat) (items : List FmItem) : FmChange := fmMake 3 q 0xFF (recFrame b) (recLi b) flags items
  if mode = 1 || (di ++ xi).isEmpty then
    s1.fmDo mode tPlacement 0 (change (b2n (bd || bx) + if (di ++ xi).isEmpty && !(bd || bx) then 8 else 0) (di ++ xi))
  else
    let s2 := if di.isEmpty then s1 else s1.fmDo mode tPlacement 0 (change (b2n bd) di)
    if xi.isEmpty then s2 else s2.fmDo mode tXoff q (change (b2n bx) xi)

/-- The registration loop on a REGMARK record marked found. -/
def State.registrationLoop (s : State) (b : List (BitVec 8)) : State :=
  let mode := s.fmMode 3
  let q := recPlane b
  if mode = 0 || 9 < q then s
  else
    let s1 := s.noteUsable 3 q b
    if leAt b 42 1 = 0 then s1
    else
      let s2 := s1.modFm fun f => { f with regmarks :=
        (q, recLi b, signed 32 (leAt b 32 4), signed 32 (leAt b 36 4)) :: f.regmarks.filter (·.1 != q) }
      match s2.regErrors b with
      | some e => if s2.fmMay 3 q b then s2.regStep mode q b e else s2
      | none => s2

/-! ### Nozzle loop (R329 to R333) -/

/-- The entries of a LADDER record (Table 11-7): head column, offset, density, found. -/
def ladderEntries (b : List (BitVec 8)) : List (Nat × Int × Nat × Bool) :=
  (List.range (leAt b 36 2)).map fun j =>
    let e := leAt b (40 + 4 * j) 4
    (leAt b 34 2 + j, signed 16 e, bits e 27 16, bit e 28)

/-- Twice the median of a list; of an even count, the sum of the middle two. -/
def median2 (l : List Nat) : Nat :=
  let t := l.mergeSort
  t.getD ((t.length - 1) / 2) 0 + t.getD (t.length / 2) 0

/-- Class of an entry (Table 12-5): 0 good, 1 missing, 2 deviated, 3 weak. -/
def State.nozClass (s : State) (m2 : Nat) (e : Nat × Int × Nat × Bool) : Nat :=
  if !e.2.2.2 then 1
  else if max 1 (s.get Reg.FM_NOZ_CFG_dev_limit) < e.2.1.natAbs then 2
  else if 200 * e.2.2.1 < m2 * clampN 50 99 (s.get Reg.FM_NOZ_CFG_weak_pct) then 3
  else 0

/-- The row that a skew bank selected for a head column at a line; none without a bank. -/
def State.selectedRow (s : State) (h i line : Nat) : Option Nat := (s.tableAt tSkew (h / 8) 0 line).map fun d => skewRow d (h % 8) i

/-- Count a reading of a nozzle (R330) and the records it stays weak with nz at its bound (R333). -/
def State.countReading (s : State) (h row q col i cls : Nat) : State :=
  let s1 := s.onNoz h row i fun z => { z with
    printReading := cls, printRun := if z.printRun ≠ 0 && z.printReading = cls then min 15 (z.printRun + 1) else 1 }
  let key := nzKey q row col
  let full := cls == 3 && (match s.fmBound 3 with | some b => decide (b ≤ ((s.fmNz q row col).natAbs : Int)) | none => false)
  s1.modFm fun f => { f with
    weakRun := Tab.set (fun _ => 0) f.weakRun key (if full then min 15 (Tab.get (fun _ => 0) f.weakRun key + 1) else 0) }

/-- The finding that a nozzle's readings call for, where it differs from the one it has, and whether it is escalated from weak (R330,
R333). -/
def State.findingFor (s : State) (h row q col i : Nat) : Option (Nat × Bool) :=
  let z := s.noz h row i
  if z.print ≠ 1 && decide (s.fmConfirm ≤ Tab.get (fun _ => 0) s.fm.weakRun (nzKey q row col)) then some (1, true)
  else if z.printReading = 0 then
    if (z.print = 2 || z.print = 3) && decide (max 1 (s.get Reg.FM_NOZ_CFG_clear_confirm) ≤ z.printRun) then some (0, false) else none
  else if z.print ≠ 1 && z.print ≠ z.printReading && decide (s.fmConfirm ≤ z.printRun) then some (z.printReading, false)
  else none

/-- Nozzles of a head with the print finding missing. -/
def State.maskedCount (s : State) (h : Nat) : Nat := (s.care.nozzles.filter fun e => e.1 / 16384 == h && e.2.print == 1).length

/-- The findings of a head's row for an update: set, escalated and set, and missing beyond max_masked (R330, R331). -/
def State.splitFindings (s : State) (h row : Nat) (fs : List (Nat × Nat × Bool)) : List FmItem × List FmItem × List FmItem :=
  let cap := max 1 (s.get Reg.FM_NOZ_CFG_max_masked)
  let r := fs.foldl (fun (a : List FmItem × List FmItem × List FmItem × Nat) f =>
    let (x, y, z, n) := a
    let it : FmItem := ⟨f.1, 6, ((s.noz h row f.1).print : Nat), (f.2.1 : Nat)⟩
    if f.2.1 ≠ 1 then (x ++ [it], y, z, n)
    else if cap ≤ n then (x, y, z ++ [it], n)
    else if f.2.2 then (x, y ++ [it], z, n + 1) else (x ++ [it], y, z, n + 1)) ([], [], [], s.maskedCount h)
  (r.1, r.2.1, r.2.2.1)

/-- Put findings into the health map, with HEALTH_CHANGE when a code changes (R265, R266). -/
def State.setFindings (s : State) (h row : Nat) (items : List FmItem) : State :=
  let before := items.map fun i => (i.index, s.healthNow h row i.index)
  (items.foldl (fun (s : State) i => s.onNoz h row i.index fun z => { z with print := i.new.toNat }) s).healthChanged 3 h row before

/-- The findings step of an update (R330, R331, R333): in ACT they act at once, at the next image line begun. -/
def State.findingStep (s : State) (mode h row q : Nat) (b : List (BitVec 8)) (fs : List (Nat × Nat × Bool)) : State :=
  let (set, esc, beyond) := s.splitFindings h row fs
  let change (flags : Nat) (items : List FmItem) : FmChange := fmMake 1 q h (recFrame b) (recLi b) flags items
  let issue (kind flags : Nat) (items : List FmItem) (s : State) : State :=
    if items.isEmpty then s
    else (s.issueChange (change flags items) kind (if kind = 0x11 then (s.plane q).next else 2 ^ 48 - 1)).2
  let s1 := if mode = 2 then s.setFindings h row (set ++ esc) else s
  let kind := if mode = 2 then 0x11 else 0x10
  let s2 := issue 0x10 2 beyond (issue kind 2 esc (issue kind 0 set s1))
  if beyond.isEmpty then s2 else s2.escalate 1 q h 1

/-- The nozzle trims of an update (R333): entries classified weak, as column of the head and density, of twice the median. -/
def State.nzStep (s : State) (mode h row q first : Nat) (b : List (BitVec 8)) (m2 : Nat) (weak : List (Nat × Nat)) :
    State :=
  let v := s.fmFrom mode tTrim q
  let (k, s1) := s.drawBlock weak.length
  let (items, acted) := weak.zipIdx.foldl (fun (acc : List FmItem × Bool) x =>
    let i := x.1.1
    let d : Nat := x.1.2
    let j := x.2
    let old := v.fmNz q row (first + i)
    let want := old + clampI (-s.fmStep) s.fmStep (nearAt (k + j) (4 * s.fmGain * ((m2 : Int) - (2 * d : Nat))) m2)
    let new := s.toBound 3 want
    (acc.1 ++ fmItem (first + i) (3 + row) old new, acc.2 || new != want)) ([], false)
  if items.isEmpty then s1 else s1.fmDo mode tTrim q (fmMake 1 q h (recFrame b) (recLi b) (b2n acted) items)

/-- Columns of a head whose selected row is unusable or deviated while the other row's code is 0 (R332). -/
def State.moveColumns (s : State) (v : State) (h : Nat) : List Nat :=
  let d := (v.fmTable 0 tSkew (h / 8)).1
  if d.isEmpty then []
  else (List.range (s.headColumns h)).filter fun i =>
    let r := skewRow d (h % 8) i
    let c := s.healthNow h r i
    (bit (s.get Reg.RS_UNUSABLE_MASK_mask) c || c == 2) && s.healthNow h (1 - r) i == 0
      && !v.fm.moves.contains (h, i) && !s.fm.refused.contains (h, i)

/-- The row moves of an update (R332): a load refused by the checks of the Seam leaves its columns where they are. -/
def State.moveStep (s : State) (mode h q : Nat) (b : List (BitVec 8)) : State :=
  let str := h / 8
  let v := s.fmFrom mode tSkew str
  let cols := s.moveColumns v h
  if cols.isEmpty then s
  else
    let d := (v.fmTable 0 tSkew str).1
    let items := cols.map fun i => (⟨i, 5, (skewRow d (h % 8) i : Nat), (1 - skewRow d (h % 8) i : Nat)⟩ : FmItem)
    let change := fmMake 1 q h (recFrame b) (recLi b) 0 items
    if mode = 1 then s.fmDo mode tSkew str change
    else
      match (s.skewTableBad str (cols.foldl (fun d i => flipRow d (h % 8) i) d)).bind (·.seam) with
      | some x =>
        cols.foldl (fun (s : State) i =>
          ((s.modFm fun f => { f with refused := (h, i) :: f.refused }).raise Reg.FM_STATUS_move_refused).post 0x0804 [.b h, .n i])
          (s.seamRefused tSkew str x)
      | none => s.fmDo mode tSkew str change

/-- The nozzle loop on a LADDER record. -/
def State.nozzleLoop (s : State) (b : List (BitVec 8)) : State :=
  let mode := s.fmMode 1
  let q := recPlane b
  if mode = 0 then s
  else
    let s1 := s.noteUsable 1 q b
    let h := leAt b 32 1
    let row := leAt b 33 1
    let first := plFirst s.placementNow h
    let all := ladderEntries b
    let m2 := median2 ((all.filter (·.2.2.2)).map (·.2.2.1))
    let used := (all.filter fun e => s.selectedRow h e.1 (recLi b) == some row).map fun e => (e, s.nozClass m2 e)
    let s2 := used.foldl (fun (s : State) x => s.countReading h row q (first + x.1.1) x.1.1 x.2) s1
    let fs := used.filterMap fun x => (s2.findingFor h row q (first + x.1.1) x.1.1).map fun f => (x.1.1, f.1, f.2)
    let may := s2.fmMay 1 h b
    let s3 := s2.findingStep mode h row q b fs
    if !may then s3
    else
      let s4 := s3.nzStep mode h row q first b m2 ((used.filter (·.2 == 3)).map fun x => (x.1.1, x.1.2.2.1))
      s4.moveStep mode h q b

/-! ### The commands -/

/-- FOREMAN_RECORD (R326): the oldest statistics record that the Foreman has not taken. -/
def execForemanRecord (dt : Nat) (s : State) : Result :=
  (s.advance dt).whenOn 10 fun s =>
  match s.fm.queue with
  | [] => .next s
  | b :: t =>
    let s1 := s.modFm fun f => { f with queue := t }
    if !s1.fmWorks || !recUsable b then .next s1
    else
      let s2 := (s1.modFm fun f => { f with targetSeen := max f.targetSeen (recLi b + 1) }).switchTable tTarget 0 (recLi b)
      match recKind b with
      | 2 => .next (s2.nozzleLoop b)
      | 3 => .next (s2.densityLoop b)
      | 4 => .next (s2.registrationLoop b)
      | _ => .next s2

/-- The feed-forward of row ρ of head h (R339), from the mean die temperature `sum` / n in 2^-32 °C; free where the law has no value. -/
def State.ffValue (s : State) (i h row q : Nat) (sum : Int) (n : Nat) : Int :=
  let one : Int := (10 ^ 6 * n * 2 ^ 32 : Nat)
  let k := one + s.get (Reg.FM_FFq_kappa q) * (sum - (s.get (Reg.FM_FFq_t_ref q) * n * 2 ^ 32 : Nat))
  let rank := (s.node h).ranks.1
  let m : Int := (85 + 2 * (if row = 0 then rank % 16 else rank / 16 % 16) : Nat)
  if k ≤ 0 then Config.freeInt i else nearAt i (1024 * (100 * one - m * k)) (m * k).toNat

/-- The change of head h at an update (R339), in the terms of a view. -/
def State.ffChange (s : State) (v : State) (k q h : Nat) : List FmChange :=
  let x := Tab.get (fun _ => ((0 : Int), 0)) s.fm.ffSum h
  let (sum, n) := if x.2 = 0 then ((s.model h).td, 1) else x
  let step : Int := clampN 1 64 (s.get (Reg.FM_FFq_ff_step q))
  let goTo (row : Nat) : Int × Int × Int :=
    let old := v.fmFf h row
    let want := s.ffValue (k + 2 * h + row) h row q sum n
    let near := if s.fm.ffDone.contains h then old + clampI (-step) step (want - old) else want
    (old, near, s.toBound 9 near)
  let (oa, wa, na) := goTo 0
  let (ob, wb, nb) := goTo 1
  let items := fmItem 0 9 oa na ++ fmItem 0 10 ob nb
  if items.isEmpty then [] else [fmMake 4 q h 0xFFFFFFFF s.refLine (b2n (wa != na || wb != nb)) items]

/-- The update of one plane: one load for all its heads (R339, R342). -/
def State.ffPlane (s : State) (mode k q : Nat) : State :=
  let d := s.placementNow
  let v := s.fmFrom mode tTrim q
  let hs := (plHeads d q).filter fun h => s.served h && !s.holding h && !s.fmPending 4 h
  let cs := hs.flatMap fun h => s.ffChange v k q h
  let eff := if s.on Reg.FM_CFG_ff_at_partings then 2 ^ 48 - 1 else s.committed + 128
  if mode = 1 then cs.foldl (fun (s : State) c => (s.issueChange c 0x10 (2 ^ 48 - 1)).2) s
  else
    let s1 := s.modFm fun f => { f with ffDone := f.ffDone ++ hs.filter fun h => !f.ffDone.contains h }
    if cs.isEmpty then s1 else s1.fmLoad 4 tTrim q eff cs

/-- FEED_FORWARD_UPDATE (R339, R342): when it is due. -/
def execFeedForwardUpdate (dt : Nat) (s : State) : Result :=
  (s.advance dt).whenOn 10 fun s =>
  let mode := s.fmMode 4
  let due := match s.fm.ffAt with
    | some l => decide (l + s.fmFfLines ≤ s.refLine)
    | none => true
  if mode = 0 || !s.fmWorks || !due then .next s
  else
    let (k, s1) := s.drawBlock 512
    let s2 := (List.range 10).foldl (fun (s : State) q => s.ffPlane mode k q) s1
    .next (s2.modFm fun f => { f with ffAt := some s.refLine, ffSum := [] })

/-- The ports of the regions that a loop needs for plane q (R326, R328). -/
def State.loopPorts (s : State) (loop q : Nat) : List Nat :=
  let plan := (s.tableNow tPlan 0 0).getD []
  let t := s.targetFor s.refLine
  ((List.range 64).filter fun r =>
    match loop with
    | 1 => rgKind plan r == 1 && rgAt plan r 2 1 == q
    | 2 => rgKind plan r == 2 && bit (leAt t (16 * q + 3) 1) 0 && leAt t (16 * q) 1 == r
    | 3 => rgKind plan r == 3 && rgAt plan r 2 1 == q
    | _ => false).map fun r => rgAt plan r 1 1

/-- FM_HOLD (R328): a camera port of the loop's regions is silent, or no record has been usable for hold_lines; loop 1 nozzle, 2 density,
3 registration. -/
def execFmHold (dt : Nat) (loop : Fin 4) (q : Fin 10) (s : State) : Result :=
  (s.advance dt).whenOn 10 fun s =>
  let k := loop.val * 16 + q.val
  let ports := s.loopPorts loop q
  let silent := ports.find? fun p => s.on (Reg.CAMp_STATUS_silent p)
  let (last, port) := Tab.get (fun _ => (0, ports.headD 0)) s.fm.usable k
  let old := decide (last + s.fmHoldLines ≤ s.refLine)
  if s.fmWorks && loop != 0 && s.fmMode loop != 0 && !ports.isEmpty && !s.fm.held.contains k && (silent.isSome || old) then
    .next (((s.modFm fun f => { f with held := k :: f.held }).raise Reg.FM_STATUS_held).post 0x0805
      [.b loop, .b q, .b (silent.getD port)])
  else .next s

/-- Clear the print findings that FM_NOZ_CLEAR names (R347). -/
def State.nozClear (s : State) (v : Nat) : State :=
  let h := bits v 7 0
  let row := bits v 8 8
  let cols := if bit v 22 then List.range (s.headColumns h) else [bits v 21 9]
  let before := cols.map fun i => (i, s.healthNow h row i)
  if bit v 23 then
    (cols.foldl (fun (s : State) i => s.onNoz h row i fun z => { z with print := 0, printReading := 0, printRun := 0 }) s).healthChanged
      3 h row before
  else s

/-- FM_NOZ_CLEAR (R347). -/
def execFmNozClear (dt : Nat) (v : BitVec 32) (s : State) : Result :=
  .next ((s.advance dt).hostWrite Reg.FM_NOZ_CLEAR_go.off fun s => s.nozClear v.toNat)

end Sys2Proof.Machine
end

