-- ==== Sys2Proof/Machine/HostRings.lean ====
section
/-! DEFINITION. The rings in host memory (chapter 14): doorbells, enabling, fetching descriptors, writing completions and statistics
records, and the moderated interrupts. -/

namespace Sys2Proof.Machine

/-- The number of a consumer ring (Rings.waiting). -/
def ringNo : ConsumerRing → Nat
  | .completion j => j
  | .event => 16
  | .statistics => 17

/-! ### Enabling (R374, R375) -/

/-- Whether issue ring i is enabled and not stopped (R385). -/
def State.issueLive (s : State) (i : Nat) : Bool := s.on (Reg.HR_ISQi_STATUS_enabled i) && !s.rings.stopped.contains i

/-- Size of issue ring i, 64 to 65,536 entries (Table 14-12). -/
def State.issueSize (s : State) (i : Nat) : Nat := 2 ^ clampN 6 16 (s.get (Reg.HR_ISQi_CFG_size_log2 i))

/-- CFG register of a ring. -/
def ringCfg : AnyRing → Nat
  | .issue i => (Reg.HR_ISQi_CFG_enable i).off
  | .consumer r => (onRing (ringNo r) (Reg.HR_CQj_CFG_enable 0)).off

/-- size_log2 of a ring. -/
def ringSizeField : AnyRing → Fld
  | .issue i => Reg.HR_ISQi_CFG_size_log2 i
  | .consumer r => onRing (ringNo r) (Reg.HR_CQj_CFG_size_log2 0)

/-- STATUS.enabled of a ring. -/
def ringOn : AnyRing → Fld
  | .issue i => Reg.HR_ISQi_STATUS_enabled i
  | .consumer r => ringEnabled (ringNo r)

/-- Number of a ring in Rings.stopped. -/
def stopNo : AnyRing → Nat
  | .issue i => i
  | .consumer r => 16 + ringNo r

/-- Both counts to 0, and a consumer ring armed (R374, R386). -/
def State.startRing (s : State) (r : AnyRing) : State :=
  let s1 := (s.raise (ringOn r)).modRings fun x => { x with stopped := x.stopped.filter (· != stopNo r) }
  match r with
  | .issue i => ((s1.set (Reg.HR_ISQi_PROD i) 0).set (Reg.HR_ISQi_CONS i) 0).modRings fun x => { x with
      written := Tab.set (fun _ => 0) x.written i 0 }
  | .consumer c =>
    let k := ringNo c
    (((s1.set (ringProd k) 0).set (ringCons k) 0).raise (ringArmed k)).setWaiting k []

/-- A write of a ring's CFG register: a change of the size while the ring is enabled has no effect (R375), a change of the enable bit
enables or disables the ring (R374). -/
def State.writeRingCfg (s : State) (r : AnyRing) (v : BitVec 32) : State :=
  let f := ringSizeField r
  let was := s.on (ringOn r)
  let s1 := s.writeWord (ringCfg r) v
  let s2 := if was && s1.get f ≠ s.get f then (s1.set f (s.get f)).raise Reg.HR_STATUS_cfg_ignored else s1
  let en := s2.on ⟨ringCfg r, 0, 1⟩
  if en && !was then s2.startRing r
  else if was && !en then s2.clear (ringOn r)
  else s2

/-- RING_ENABLE (R374): the write of a ring's CFG register. -/
def execRingEnable (dt : Nat) (r : AnyRing) (v : BitVec 32) (s : State) : Result :=
  .next ((s.advance dt).hostWrite (ringCfg r) fun s => s.writeRingCfg r v)

/-! ### Doorbells (R384, R385, R386) -/

/-- A doorbell that moves nothing (R384, R385). -/
def State.badDoorbell (s : State) : State := s.bump Reg.HR_DB_ERRORS 1

/-- The signed 32-bit difference of two counts (R374). -/
def countDiff (a b : Nat) : Int := signed 32 (wrap 32 ((a : Int) - b))

/-- The doorbell of issue ring i (R376, R385). -/
def State.issueDoorbell (s : State) (i : Nat) (v : BitVec 64) : State :=
  let new := v.toNat % 2 ^ 32
  if !s.on (Reg.HR_ISQi_STATUS_enabled i) then s.badDoorbell
  else
    let ahead := countDiff new (s.get (Reg.HR_ISQi_CONS i))
    let stop := s.stopRing i (Reg.HR_ISQi_STATUS_error i) (Reg.HR_ISQi_STATUS_cause i)
    if ahead < 0 || (s.issueSize i : Int) < ahead || countDiff new (s.get (Reg.HR_ISQi_PROD i)) < 0 then stop 1
    else if v.toNat / 2 ^ 32 ≠ 0 then stop 3
    else s.set (Reg.HR_ISQi_PROD i) new

/-- Consume n entries, or n bytes of records, of what waits in a ring. -/
def consume : Nat → List (Nat × Nat) → List (Nat × Nat)
  | _, [] => []
  | n, (t, k) :: l => if k ≤ n then consume (n - k) l else (t, k - n) :: l

/-- The doorbell of consumer ring k (R385, R386): it frees slots; with arm, the ring is armed and moderation starts again for what stands
beyond the new count. -/
def State.consumerDoorbell (s : State) (k : Nat) (v : BitVec 64) : State :=
  let new := v.toNat % 2 ^ 32
  if !s.on (ringEnabled k) then s.badDoorbell
  else
    let moved := countDiff new (s.get (ringCons k))
    let stop := s.stopRing (16 + k) (ringErr k) (ringCause k)
    if moved < 0 || countDiff (s.get (ringProd k)) new < 0 then stop 2
    else if v.toNat / 2 ^ 32 % 2 ^ 31 ≠ 0 then stop 3
    else
      let left := consume moved.toNat (s.waiting k)
      let s1 := (s.set (ringCons k) new).setWaiting k left
      if v.getLsbD 63 then
        ((s1.raise (ringArmed k)).setWaiting k (left.map fun e => (s.beat, e.2))).moderate k false
      else s1

/-- ISSUE_DOORBELL (R376). -/
def execIssueDoorbell (dt : Nat) (g : Fin 16) (v : BitVec 64) (s : State) : Result := .next ((s.advance dt).issueDoorbell g v)

/-- COMPLETION_DOORBELL (R386). -/
def execCompletionDoorbell (dt : Nat) (g : Fin 16) (v : BitVec 64) (s : State) : Result := .next ((s.advance dt).consumerDoorbell g v)

/-- EVENT_DOORBELL (R386). -/
def execEventDoorbell (dt : Nat) (v : BitVec 64) (s : State) : Result := .next ((s.advance dt).consumerDoorbell 16 v)

/-- STATS_DOORBELL (R386). -/
def execStatsDoorbell (dt : Nat) (v : BitVec 64) (s : State) : Result := .next ((s.advance dt).consumerDoorbell 17 v)

/-- Whether a BAR2 write is a doorbell: 8 bytes, at an offset of Table 14-7. -/
def isDoorbell (off bytes : Nat) : Bool := bytes == 8 && off / 4096 ≤ 16 && (off % 4096 == 0 || off % 4096 == 8)

/-- BAR2_BAD_WRITE (R384). -/
def execBar2BadWrite (dt : Nat) (off : BitVec 17) (bytes : Nat) (s : State) : Result :=
  let s := s.advance dt
  if isDoorbell off.toNat bytes then .next s else .next s.badDoorbell

/-! ### Fetching (R376, R382, R383) -/

/-- Slots of completion ring j taken or reserved (R383). -/
def State.slotsUsed (s : State) (j : Nat) : Int := s.ringUsed j + (s.rings.flight.filter fun f => f.cq == j).length

/-- Whether issue ring i has a descriptor that may be fetched (R383). -/
def State.issueReady (s : State) (i : Nat) : Bool :=
  let j := s.get (Reg.HR_ISQi_CFG_cq i)
  s.issueLive i && decide (0 < countDiff (s.get (Reg.HR_ISQi_PROD i)) (s.get (Reg.HR_ISQi_CONS i)))
    && s.get Reg.HR_INFLIGHT < 1024 && s.on (ringEnabled j) && decide (s.slotsUsed j < (s.ringSize j : Int))

/-- The first ready ring of a level from a pointer on, in round-robin order (R382). -/
def State.nextIssue (s : State) (high : Bool) (from_ : Nat) : Option Nat :=
  ((List.range 16).map fun k => (from_ + k) % 16).find? fun i => s.on (Reg.HR_ISQi_CFG_high i) == high && s.issueReady i

/-- Choose the issue ring to fetch from (R382): of the rings of both levels, at most 7 of every 8 fetches are of the high level. -/
def State.chooseIssue (s : State) : Option (Nat × State) :=
  let takeHigh (i : Nat) (run : Nat) : Option (Nat × State) := some (i, s.modRings fun r => { r with rrHigh := (i + 1) % 16, highRun := run })
  let takeLow (i : Nat) : Option (Nat × State) := some (i, s.modRings fun r => { r with rrLow := (i + 1) % 16, highRun := 0 })
  match s.nextIssue true s.rings.rrHigh, s.nextIssue false s.rings.rrLow with
  | some h, some l => if s.rings.highRun < 7 then takeHigh h (s.rings.highRun + 1) else takeLow l
  | some h, none => takeHigh h 0
  | none, some l => takeLow l
  | none, none => none

/-- The opcodes of Table 15-1. -/
def opcodes : List Nat := [0x01, 0x02, 0x03, 0x08, 0x10, 0x11, 0x18, 0x19, 0x1A, 0x1B, 0x20, 0x28, 0x30, 0x38, 0x39, 0x40, 0x48, 0x50]

/-- Write back the consumer count of issue ring i: after at least every 64th descriptor and whenever all are fetched (R376). -/
def State.writeBack (s : State) (i : Nat) (ok : Bool) : State :=
  let c := s.get (Reg.HR_ISQi_CONS i)
  let w := Tab.get (fun _ => 0) s.rings.written i
  if 64 ≤ countDiff c w || c == s.get (Reg.HR_ISQi_PROD i) then
    if ok then
      (s.emit (.dmaWrite (8 * s.get (Reg.HR_ISQi_WB_LO_wb i) + 2 ^ 32 * s.get (Reg.HR_ISQi_WB_HI_wb i)) (leBytes 8 c))).modRings
        fun r => { r with written := Tab.set (fun _ => 0) r.written i c }
    else s.stopRing i (Reg.HR_ISQi_STATUS_error i) (Reg.HR_ISQi_STATUS_cause i) 5
  else s

/-- Take a fetched descriptor into flight (R383); a reserved opcode completes with BAD_DESCRIPTOR (R6, R390). -/
def State.fetched (s : State) (i : Nat) (desc : List (BitVec 8)) : State :=
  let n := s.rings.fetches
  let f : Flight := ⟨i, n, s.get (Reg.HR_ISQi_CFG_cq i), slice desc 0 64, false, false, none⟩
  let s1 := s.modRings fun r => { r with flight := r.flight ++ [f], fetches := n + 1 }
  let s2 := (s1.set (Reg.HR_ISQi_CONS i) (s.get (Reg.HR_ISQi_CONS i) + 1)).set Reg.HR_INFLIGHT
    (s1.rings.flight.filter fun g => g.cq < 16).length
  if opcodes.contains f.opcode then s2 else s2.endOp i n stBad []

/-- DESCRIPTOR_FETCH (R376, R382, R383): the descriptor at the consumer count of the ring chosen. -/
def execDescriptorFetch (dt : Nat) (desc : List Byte) (dma : FetchDma) (s : State) : Result :=
  (s.advance dt).whenOn 3 fun s =>
  if !s.power.pcieUp then .next s
  else match s.chooseIssue with
    | none => .next s
    | some (i, s1) =>
      if dma = .readBad then .next (s1.stopRing i (Reg.HR_ISQi_STATUS_error i) (Reg.HR_ISQi_STATUS_cause i) 4)
      else .next ((s1.fetched i desc).writeBack i (dma != .writeBackBad))

/-! ### Completions, statistics and interrupts (R379, R386, R388) -/

/-- The 32 bytes of a completion, phase left 0 (Table 14-5). -/
def completionBytes (f : Flight) (status : Nat) (result : List (BitVec 8)) : List (BitVec 8) :=
  leBytes 2 (f.tag + 1024 * f.ring) ++ leBytes 1 status ++ leBytes 1 f.opcode ++ slice result 0 27 ++ leBytes 1 0

/-- A completion that goes to no ring (R385). -/
def State.loseCompletion (s : State) : State := (s.bump Reg.HR_CPL_LOST 1).raise Reg.HR_STATUS_cpl_lost

/-- COMPLETION_WRITE (R379, R381): the completion of an operation that has ended; to a stopped or disabled ring it is discarded (R385). -/
def execCompletionWrite (dt : Nat) (op : OpRef) (ok : Bool) (s : State) : Result :=
  (s.advance dt).whenOn 3 fun s =>
  match s.flight op.ring op.n with
  | none => .next s
  | some f =>
    match f.ended with
    | none => .next s
    | some (status, result) =>
      let s1 := s.dropFlight f.ring f.n
      if !s1.ringLive f.cq then .next s1.loseCompletion
      else if !ok then .next (s1.stopRing (16 + f.cq) (ringErr f.cq) (ringCause f.cq) 5).loseCompletion
      else .next (s1.writeEntry f.cq (completionBytes f status result) f.urgent)

/-- RING_INTERRUPT (R386): the oldest entry of an armed ring has waited its time. -/
def execRingInterrupt (dt : Nat) (r : ConsumerRing) (s : State) : Result := .next ((s.advance dt).moderate (ringNo r) false)

/-- EVENT_POST (R387, R410): an event with its packed arguments. Where its write to the ring cannot be made the ring stops (R385 cause 5),
and the event is lost. -/
def execEventPost (dt : Nat) (code : BitVec 16) (args : List Byte) (ok : Bool) (s : State) : Result :=
  let s := s.advance dt
  let fails := !ok && s.ringLive 16 && bit (s.get Reg.HR_EVT_MASK_mask) (eventClass code.toNat - 1)
  let s1 := if fails then s.stopRing 32 (ringErr 16) (ringCause 16) 5 else s
  .next (s1.post code.toNat ((args.take 27).map fun b => .b b.toNat))

/-- Write bytes at an offset of a ring of a size, wrapping to its start (R388). -/
def wrapWrite (base off size : Nat) (bs : List (BitVec 8)) : List Output :=
  if off + bs.length ≤ size then [.dmaWrite (base + off) bs]
  else [.dmaWrite (base + off) (bs.take (size - off)), .dmaWrite base (bs.drop (size - off))]

/-- Write a statistics record whole, or discard it (R388). -/
def State.writeStat (s : State) (rec : List (BitVec 8)) (ok : Bool) : State :=
  let size := s.ringSize 17
  if !s.ringLive 17 || (size : Int) < s.ringUsed 17 + rec.length then
    (s.bump Reg.HR_STAT_DROPPED 1).raise Reg.HR_STATUS_stat_dropped
  else if !ok then s.stopRing 33 (ringErr 17) (ringCause 17) 5
  else
    let p := s.get (ringProd 17)
    let s1 := (s.emits (wrapWrite (s.ringAddr 17) (p % size) size rec)).set (ringProd 17) (p + rec.length)
    let wb := 8 * s.get Reg.HR_STAT_WB_LO_wb + 2 ^ 32 * s.get Reg.HR_STAT_WB_HI_wb
    ((s1.emit (.dmaWrite wb (leBytes 8 (s1.get (ringProd 17))))).setWaiting 17 (s.waiting 17 ++ [(s.beat, rec.length)])).moderate 17 false

/-- STATS_RECORD_WRITE (R388): the oldest record issued. -/
def execStatsRecordWrite (dt : Nat) (ok : Bool) (s : State) : Result :=
  (s.advance dt).whenOn 3 fun s =>
  match s.rings.statQ with
  | [] => .next s
  | r :: t => .next ((s.modRings fun x => { x with statQ := t }).writeStat r ok)

end Sys2Proof.Machine
end

