-- ==== Sys2Proof/Machine/WinderCore.lean ====
section
/-! DEFINITION. The winder channels between ticks (chapter 18): the profile of a move (R465 to R468), microstep modes (R460, R462, R463),
references and bridge controls (R457, R461, R469, R534). Positions of the profile are in 0.5 · 10^-18 full step, velocities in 10^-12
full step/s, accelerations in 10^-6 full step/s², jerks in full step/s³: in a tick of 1 µs a jerk j adds j to the acceleration, an
acceleration a adds a to the velocity, and both add 2 v + a to the position. -/

namespace Sys2Proof.Machine

/-- Winder channel n beside its registers. -/
def State.winder (s : State) (n : Nat) : Winder := Tab.get (fun _ => {}) s.wind.ch n

/-- Set it. -/
def State.setWinder (s : State) (n : Nat) (w : Winder) : State :=
  s.modWind fun x => { x with ch := Tab.set (fun _ => {}) x.ch n w }

/-- Change it. -/
def State.onWinder (s : State) (n : Nat) (f : Winder → Winder) : State := s.setWinder n (f (s.winder n))

/-- 1/256 full step in units of the profile. -/
def wPer256 : Nat := 2 * 10 ^ 18 / 256

/-- p in units of the profile. -/
def wOf256 (p : Int) : Int := p * 2 * 10 ^ 18 / 256

/-- A speed in 1/256 full step/s, in 10^-12 full step/s. -/
def wSpeed (v : Nat) : Nat := v * 10 ^ 12 / 256

/-- An acceleration in full steps/s², in 10^-6 full step/s². -/
def wAccel (a : Nat) : Nat := a * 10 ^ 6

/-! ### Stopping (R465) -/

/-- The square root of a number below 2^180, rounded down. -/
def wSqrt (n : Nat) : Nat := searchBits (fun r => decide (r * r ≤ n)) 90

/-- The stopping distance from speed v with acceleration 0 (R465), rounded up; with no deceleration it never stops. -/
def stopDist (v d j : Nat) : Option Nat :=
  if v = 0 then some 0
  else if d = 0 then none
  else if j = 0 then some (ceilDiv (v * v) d)
  else if d * d ≤ v * j then some (ceilDiv (v * v) d + ceilDiv (v * d) j)
  else some (2 * (wSqrt (v * v * v / j) + 1))

/-- Speed and way once an acceleration a has been brought to 0 by a jerk (without one, at once): the way rounded up. -/
def settleFrom (v : Nat) (a : Int) (j : Nat) : Nat × Nat :=
  if j = 0 || a = 0 then (v, 0)
  else if 0 < a then
    let b := a.toNat
    (v + ceilDiv (b * b) (2 * j), ceilDiv (2 * v * b) j + ceilDiv (2 * b * b * b) (3 * j * j))
  else
    let b := (-a).toNat
    (v - b * b / (2 * j), ceilDiv (2 * v * b) j - 2 * b * b * b / (3 * j * j))

/-- Whether a channel at speed v and acceleration a can still stop within a distance. -/
def canStop (v : Nat) (a : Int) (d j : Nat) (left : Int) : Bool :=
  let (v1, x1) := settleFrom v a j
  match stopDist v1 d j with
  | some x => decide ((x1 + x : Nat) ≤ left)
  | none => false

/-- The share of the time of a deceleration in which its acceleration rises, as a fraction: the rest, but for an equal share at its end,
is at constant deceleration (R465). -/
def WinderBrake.ramp (b : WinderBrake) : Nat × Nat :=
  if b.jerk = 0 then (0, 1)
  else if b.decel * b.decel ≤ b.v0 * b.jerk then (b.decel * b.decel, b.v0 * b.jerk + b.decel * b.decel)
  else (1, 2)

/-- Way, speed and deceleration after the ticks of a deceleration that stops exactly at its distance; none once it has stopped. The
profile is that of R465 with its deceleration and jerk lowered just so far that it ends there. -/
def WinderBrake.now (b : WinderBrake) : Option (Nat × Nat × Nat) :=
  let n := b.ticks * b.v0
  let m := b.left
  let (r1, r2) := b.ramp
  let r3 := r2 - r1
  let travel (part : Nat) : Nat := 2 * n - part
  if m ≤ n then none
  else if n * r2 < r1 * m then
    some (travel (n ^ 3 * r2 ^ 2 / (3 * m ^ 2 * r1 * r3)), b.v0 - b.v0 * (n ^ 2 * r2 ^ 2) / (2 * m ^ 2 * r1 * r3),
      b.v0 * b.v0 * n * r2 ^ 2 / (m * m * r1 * r3))
  else if n * r2 ≤ r3 * m then
    some (travel ((r1 ^ 2 * m ^ 2 + 3 * n ^ 2 * r2 ^ 2 - 3 * r1 * r2 * n * m) / (3 * m * r2 * r3)),
      b.v0 - b.v0 * (2 * n * r2 - r1 * m) / (2 * m * r3), b.v0 * b.v0 * r2 / (m * r3))
  else
    let k := m - n
    some (m - k ^ 3 * r2 ^ 2 / (3 * m ^ 2 * r1 * r3), b.v0 * (k ^ 2 * r2 ^ 2) / (2 * m ^ 2 * r1 * r3),
      b.v0 * b.v0 * k * r2 ^ 2 / (m * m * r1 * r3))

/-! ### One tick of a profile -/

/-- Position, velocity and acceleration of a profile. -/
structure Motion where
  pos : Int
  vel : Int
  acc : Int
deriving DecidableEq, Repr

/-- The motion seen in the other direction. -/
def Motion.neg (m : Motion) : Motion := ⟨-m.pos, -m.vel, -m.acc⟩

/-- A tick at an acceleration. -/
def Motion.tick (m : Motion) (a : Int) : Motion := ⟨m.pos + 2 * m.vel + a, m.vel + a, a⟩

/-- The greatest acceleration of lo to hi that satisfies a test which holds up to it; none where lo does not. -/
def greatest (lo hi : Int) (ok : Int → Bool) : Option Int :=
  if hi < lo || !ok lo then none
  else some (lo + (searchBits (fun d => decide (lo + (d : Int) ≤ hi) && ok (lo + (d : Int))) 45 : Nat))

/-- One tick towards a speed u ≥ 0 from a velocity v ≥ 0, rising by at most `a` and falling by at most `d`, with acceleration changes of
at most j (0: no limit) (R465, R466). -/
def rampUp (m : Motion) (u : Nat) (a d j : Nat) : Motion :=
  let v := m.vel.toNat
  if v ≤ u then
    let lo : Int := if j = 0 then 0 else max (m.acc - j) (-m.vel)
    let hi : Int := if j = 0 then a else min a (m.acc + j)
    if j ≠ 0 && u - v ≤ j && m.acc.natAbs ≤ j then m.tick (u - v : Nat)
    else
      match greatest lo hi (fun x => decide (0 ≤ m.vel + x) && decide ((settleFrom (m.vel + x).toNat x j).1 ≤ u)) with
      | some x => m.tick x
      | none => m.tick (if hi < lo then hi else lo)
  else
    let lo : Int := if j = 0 then -(d : Int) else max (-(d : Int)) (m.acc - j)
    let hi : Int := if j = 0 then 0 else m.acc + j
    if j ≠ 0 && v - u ≤ j && m.acc.natAbs ≤ j then m.tick (-(v - u : Nat))
    else
      match greatest (-hi) (-lo) (fun x => decide (u ≤ (settleFrom (m.vel - x).toNat (-x) j).1) && decide ((u : Int) ≤ m.vel - x)) with
      | some x => m.tick (-x)
      | none => m.tick hi

/-- One tick towards a signed velocity: against the direction of travel the channel comes to rest first. -/
def rampTo (m : Motion) (u : Int) (a d j : Nat) : Motion :=
  if 0 < m.vel || (m.vel = 0 && 0 ≤ u) then rampUp m u.toNat a d j
  else (rampUp m.neg (-u).toNat a d j).neg

/-- One tick of a position move in the direction of travel (R465): the way `left` to the target, the top speed, and whether the velocity is
held (R468). The answer holds a deceleration that begins. -/
def posUp (m : Motion) (left : Int) (top a d j : Nat) (hold : Bool) : Motion × Option WinderBrake :=
  let v := m.vel.toNat
  if !canStop v m.acc d j left then (rampUp m 0 a d j, none)
  else if top < v then (rampUp m top a d j, none)
  else
    let lo : Int := if j = 0 then 0 else max (m.acc - j) (-m.vel)
    let hi0 : Int := if j = 0 then a else min a (m.acc + j)
    let hi := if hold then min hi0 (max lo 0) else hi0
    let ok (x : Int) : Bool :=
      decide (0 ≤ m.vel + x) && decide ((settleFrom (m.vel + x).toNat x j).1 ≤ max top v)
        && canStop (m.vel + x).toNat x d j (left - (2 * m.vel + x))
    match greatest lo hi ok with
    | some x =>
      if v = 0 && x ≤ 0 && m.acc = 0 then (⟨m.pos + left, 0, 0⟩, none) else (m.tick x, none)
    | none =>
      if v = 0 && m.acc = 0 then (⟨m.pos + left, 0, 0⟩, none)
      else if 0 < m.acc && j ≠ 0 then (m.tick lo, none)
      else if m.acc < 0 && j ≠ 0 && decide (j < m.acc.natAbs) then (m.tick (m.acc + j), none)
      else
        let b : WinderBrake := ⟨v, left.toNat, d, j, 1⟩
        match b.now with
        | some (x, v1, a1) => (⟨m.pos + x, v1, -(a1 : Int)⟩, some b)
        | none => (⟨m.pos + left, 0, 0⟩, none)

/-- One tick of a position move to a target in units of the profile: a deceleration under way goes on, otherwise R465 decides. -/
def posTick (m : Motion) (target : Int) (top a d j : Nat) (hold : Bool) (brake : Option WinderBrake) (neg : Bool) :
    Motion × Option WinderBrake :=
  match brake with
  | some b =>
    let b1 := { b with ticks := b.ticks + 1 }
    let sign (x : Int) : Int := if neg then -x else x
    let from_ := target - sign b.left
    match b1.now with
    | some (x, v, dec) => (⟨from_ + sign x, sign v, -sign dec⟩, some b1)
    | none => (⟨target, 0, 0⟩, none)
  | none =>
    if m.vel < 0 || (m.vel = 0 && target < m.pos) then
      let (m1, b) := posUp m.neg (m.pos - target) top a d j hold
      (m1.neg, b)
    else posUp m (target - m.pos) top a d j hold

/-! ### Microstep modes (R460, R462, R463) -/

/-- The output index of position p in a mode: 0 BASE, 1 EIGHTH, 2 HALF, 3 FULL (Table 18-2). -/
def State.outIndex (s : State) (n mode : Nat) (p : Int) : Int :=
  let unit : Int := 2 ^ min 4 (s.get (Reg.WCn_CFG_base_res n))
  match mode with
  | 0 => p / unit * unit
  | 1 => p / 32 * 32
  | 2 => p / 128 * 128
  | _ => p / 256 * 256 + 128

/-- The threshold of a mode in 10^-12 full step/s; 0 where it is not in the ladder (R462). -/
def State.modeThreshold (s : State) (n mode : Nat) : Nat :=
  let t8 := s.get (Reg.WCn_MSTEP_thr_8 n)
  let t2 := s.get (Reg.WCn_MSTEP_thr_2 n)
  let tf := s.get (Reg.WCn_MSTEP_thr_full n)
  let t2' := if t2 = 0 then 0 else max t2 t8
  4 * 10 ^ 12 * match mode with
    | 1 => t8
    | 2 => t2'
    | 3 => if tf = 0 then 0 else max tf (max t2' t8)
    | _ => 0

/-- The mode selected from |v| and the mode selected before (R462). -/
def State.selectMode (s : State) (n cur v : Nat) : Nat :=
  let reached (m : Nat) : Bool := s.modeThreshold n m != 0 && decide (s.modeThreshold n m ≤ v)
  let top := if reached 3 then 3 else if reached 2 then 2 else if reached 1 then 1 else 0
  if cur < top then top
  else if cur = 0 then 0
  else if 16 * v < s.modeThreshold n cur * (16 - s.get (Reg.WCn_CFG_hyst n)) || s.modeThreshold n cur = 0 then
    if cur = 3 && s.modeThreshold n 2 != 0 then 2 else if 2 ≤ cur && s.modeThreshold n 1 != 0 then 1 else 0
  else cur

/-! ### References and bridge controls (R457, R458, R460, R461, R469, R534) -/

/-- sin(π k / 512) for k up to 256, in 10^-18, by its series. -/
def quarterSine (k : Nat) : Nat :=
  let x := k * 3141592653589793238 / 512
  let sq := x * x / 10 ^ 18
  let r := (List.range 11).foldl (fun (acc : Int × Int) i =>
    (acc.1 + acc.2, -(acc.2 * (sq : Nat) / ((10 ^ 18 * (2 * i + 2) * (2 * i + 3) : Nat) : Int)))) ((0 : Int), ((x : Nat) : Int))
  r.1.toNat

/-- |sin| of index i of 1,024 to a turn, in 10^-18. -/
def sineOf (i : Nat) : Nat := let k := i % 512; quarterSine (if k ≤ 256 then k else 512 - k)

/-- Whether the sine of index i is negative. -/
def sineNeg (i : Nat) : Bool := 512 < i % 1024

/-- The index of a channel's electrical angle for a phase: false A, sin θ; true B, cos θ. -/
def State.phaseIndex (s : State) (n : Nat) (b : Bool) : Nat :=
  let i := wrap 10 (s.outIndex n (s.get (Reg.WCn_STATUS_mode n)) (s.winder n).p)
  (if b then i + 256 else i) % 1024

/-- I of R461: hold current once the standstill mode applies, else run. -/
def State.windCurrent (s : State) (n : Nat) : Nat :=
  if (s.winder n).settled then s.get (Reg.WCn_CURRENT_hold n) else s.get (Reg.WCn_CURRENT_run n)

/-- The reference duty of a phase in 1/256 (R461). -/
def State.refDuty (s : State) (n : Nat) (b : Bool) : Nat :=
  (2 * s.windCurrent n * sineOf (s.phaseIndex n b) + 10 ^ 18) / (2 * 10 ^ 18)

/-- Whether the reference of a phase is negative; invert negates phase B (R460). -/
def State.refNeg (s : State) (n : Nat) (b : Bool) : Bool :=
  sineNeg (s.phaseIndex n b) != (b && s.on (Reg.WCn_CFG_invert n))

/-- Whether a channel's outputs are driven (R458). -/
def State.windDriven (s : State) (n : Nat) : Bool := s.powered 9 && s.on (Reg.WCn_CFG_enable n)

/-- Off time of the chopper in beats (Table 18-10). -/
def State.chopOff (s : State) (n : Nat) : Nat := 500 * max 1 (s.get (Reg.WCn_CHOP_toff n))
/-- Blanking time in beats. -/
def State.chopBlank (s : State) (n : Nat) : Nat := 100 * max 1 (s.get (Reg.WCn_CHOP_blank n))

/-- The chopper of a phase. -/
def Winder.phase (w : Winder) (b : Bool) : ChopPhase := if b then w.phaseB else w.phaseA

/-- Whether a phase chops: its channel is driven, not in FAULT, in no standstill mode that stops it, and its reference is not 0 (R469,
R470, R471). -/
def State.chops (s : State) (n : Nat) (b : Bool) : Bool :=
  let mode := s.get (Reg.WCn_CFG_standstill n)
  s.windDriven n && s.get (Reg.WCn_STATUS_state n) != 4 && !((s.winder n).settled && (mode == 1 || mode == 2)) && s.refDuty n b != 0

/-- The bridge control inputs x1, x2 of a phase (Table 18-1); none while the outputs are high-impedance. -/
def State.bridge (s : State) (n : Nat) (b : Bool) : Option (Bool × Bool) :=
  let c := (s.winder n).phase b
  let gone := s.beat - c.since
  if !s.windDriven n then none
  else if s.get (Reg.WCn_STATUS_state n) = 4 || ((s.winder n).settled && s.get (Reg.WCn_CFG_standstill n) == 1) then some (false, false)
  else if !s.chops n b then some (true, true)
  else if !c.off then some (!c.neg, c.neg)
  else if gone * 8 < s.get (Reg.WCn_CHOP_fd n) * s.chopOff n then
    if gone < 50 then some (false, false) else some (c.neg, !c.neg)
  else some (true, true)

end Sys2Proof.Machine
end

