-- ==== Sys2Proof/Machine/Winder.lean ====
section
/-! DEFINITION. The commands of the winder channels and the SSI scales (chapter 18) and MOTION_MOVE (R404). -/

namespace Sys2Proof.Machine

/-! ### Settings of a channel -/

/-- accel of a move, from the register where it names none (R464). -/
def State.moveAccel (s : State) (n : Nat) (m : WinderMove) : Nat :=
  wAccel (if m.accel = 0 then s.get (Reg.WCn_ACCEL n) else m.accel)

/-- decel of a move. -/
def State.moveDecel (s : State) (n : Nat) (m : WinderMove) : Nat :=
  wAccel (if m.decel = 0 then s.get (Reg.WCn_DECEL n) else m.decel)

/-- WCn_HARD_DECEL. -/
def State.hardDecel (s : State) (n : Nat) : Nat := wAccel (s.get (Reg.WCn_HARD_DECEL n))

/-- Whether a limit switch is enabled: 0 negative, 1 positive. -/
def State.limitOn (s : State) (n sw : Nat) : Bool := s.on (if sw = 0 then Reg.WCn_SW_neg_en n else Reg.WCn_SW_pos_en n)

/-- The accepted-active flag of a switch: 0 negative, 1 positive, 2 home. -/
def switchFlag (n sw : Nat) : Fld :=
  if sw = 0 then Reg.WCn_STATUS_neg_active n else if sw = 1 then Reg.WCn_STATUS_pos_active n else Reg.WCn_STATUS_home_active n

/-- The switch that is the home source: 0 negative, 1 positive, 2 home; none for a scale (R474). -/
def State.homeSwitch (s : State) (n : Nat) : Option Nat :=
  match s.get (Reg.WCn_SW_home_src n) with
  | 0 => some 2
  | 1 => some 0
  | 2 => some 1
  | _ => none

/-- Whether a switch counts: a limit switch only while it is enabled (R472). -/
def State.switchCounts (s : State) (n sw : Nat) : Bool := sw == 2 || s.limitOn n sw

/-- Whether the home source is active. -/
def State.homeActive (s : State) (n : Nat) : Bool :=
  match s.homeSwitch n with
  | some sw => s.switchCounts n sw && s.on (switchFlag n sw)
  | none => false

/-- +1 where home lies in the positive direction, else -1. -/
def State.homeDir (s : State) (n : Nat) : Int := if s.on (Reg.WCn_SW_home_dir n) then 1 else -1

/-- Whether a channel runs a home move. -/
def Winder.homing (w : Winder) : Bool := w.move.any fun m => m.kind == 2 && !m.done

/-- Whether a limit switch trips: enabled, and not the source of a homing that runs (R473, R475). -/
def State.limitTrips (s : State) (n sw : Nat) : Bool :=
  s.limitOn n sw && !((s.winder n).homing && s.homeSwitch n == some sw)

/-! ### The end of a move -/

/-- A channel's position as an event carries it: a count, shifted into 48.16 (R459, Table 15-8). -/
def winderPos (p : Int) : EArg := .pos (65536 * p)

/-- Whether a move is the one that runs on a channel, rather than one that waits for the next tick. -/
def Winder.runs (w : Winder) (m : WinderMove) : Bool := w.move.any fun x => x.ring == m.ring && x.n == m.n

/-- A move ends with an outcome (R404, Table 15-6); a home move posts WINDER_HOME (R482), whose latched position is free where it has
latched none. -/
def State.moveEnds (s : State) (n : Nat) (m : WinderMove) (outcome : Nat) : State :=
  if m.done then s
  else
    let w := s.winder n
    let s1 := s.endOp m.ring m.n (if outcome = 0 then stOk else stPartial)
      [(4, leBytes 4 (wrap 32 w.p)), (8, leBytes 1 outcome), (9, leBytes 1 m.notes)]
    if m.kind = 2 then
      let (x, s2) := match (if w.runs m then w.latch else none) with | some x => (x, s1) | none => s1.drawInt
      (if w.runs m then s2.set (Reg.WCn_STATUS_home_state n) 0 else s2).post 0x0B02 [.n n, .n outcome, winderPos x]
    else s1

/-- The channel is at rest and its move is over: standstill, run current for hold_delay_ms (R471). -/
def State.windRest (s : State) (n : Nat) : State :=
  (s.onWinder n fun w => { w with move := none, vel := 0, acc := 0, endedAt := some s.beat, settled := false }).set
    (Reg.WCn_STATUS_state n) 1

/-- The outcome of a move that several causes end, in the order of R473. -/
def firstOutcome (a b : Nat) : Nat := ([5, 2, 3, 4, 1].find? fun x => x == a || x == b).getD a

/-- A cause ends the move in progress, once the channel is at rest. -/
def State.moveEnding (s : State) (n outcome : Nat) : State :=
  s.onWinder n fun w => { w with move := w.move.map fun m => { m with
    ending := some (match m.ending with | some x => firstOutcome x outcome | none => outcome), brake := none } }

/-- A limit switch stops the channel (R473, R475). -/
def State.limitStop (s : State) (n sw : Nat) (p : Int) : State :=
  if (s.winder n).homing then s.moveEnding n 2
  else ((s.moveEnding n 3).raise (Reg.WCn_STATUS_limit_seen n)).post 0x0B01 [.n n, .n (sw + 1), winderPos p]

/-! ### Homing (R474, R477) -/

/-- A home move begins. -/
def State.homeBegin (s : State) (n : Nat) : State :=
  let code := if (s.homeSwitch n).isNone then 0 else if s.homeActive n then 1 else 2
  (((s.onWinder n fun w => { w with latch := none, seekFrom := w.p, clearedAt := none, chatterPosted := false }).clear
    (Reg.WCn_STATUS_homed n)).set (Reg.WCn_STATUS_home_state n) code).clear (Reg.WCn_CHATTER n)

/-- The scale linked to a channel: the lowest enabled one that names it (R477). -/
def State.scaleOf (s : State) (n : Nat) : Option Nat :=
  (List.range 8).find? fun k => s.on (Reg.SSIk_CFG_enable k) && s.get (Reg.SSIk_CFG_channel k) == n

/-- The scale position of a raw value, in 1/256 full step (R481); which way a tie rounds is free. -/
def State.scalePos (s : State) (i k raw : Nat) : Int :=
  nearAt i (s.getI (Reg.SSIk_SCALE k) * raw) 65536 + s.getI (Reg.SSIk_OFFSET k)

/-- Give a channel another position, with the integral of its profile and what its switches have sampled. -/
def State.setPos (s : State) (n : Nat) (p : Int) : State :=
  let d := p - (s.winder n).p
  ((s.onWinder n fun w => { w with pos := w.pos + wOf256 d, p := p }).modWind fun x => { x with
    sw := x.sw.map fun e => if e.1 / 3 = n then (e.1, { e.2 with first := e.2.first + d }) else e }).setI (Reg.WCn_POS n) p

/-- The home move is done. -/
def State.homeDone (s : State) (n : Nat) (m : WinderMove) : State :=
  ((s.raise (Reg.WCn_STATUS_homed n)).moveEnds n m 0).windRest n

/-- Homing by a scale, once the channel is at rest (R477). -/
def State.homeByScale (s : State) (n : Nat) (m : WinderMove) : State :=
  match s.scaleOf n with
  | some k =>
    if s.on (Reg.SSIk_STATUS_valid k) then
      let (i, s1) := s.drawBlock 1
      let x := s1.scalePos i k (s1.get (Reg.SSIk_RAW k))
      ((s1.setPos n x).onWinder n fun w => { w with latch := some x }).homeDone n m
    else (s.moveEnds n m 4).windRest n
  | none => (s.moveEnds n m 4).windRest n

/-- The states of a homing after a tick (Table 18-4). -/
def State.homeStep (s : State) (n : Nat) (m : WinderMove) : State :=
  let w := s.winder n
  let still := w.vel == 0 && w.acc == 0
  match s.get (Reg.WCn_STATUS_home_state n) with
  | 1 =>
    match w.clearedAt with
    | some c =>
      if 256 * s.get (Reg.WCn_HOME_backoff n) ≤ (w.p - c).natAbs then
        (s.onWinder n fun w => { w with seekFrom := w.p }).set (Reg.WCn_STATUS_home_state n) 2
      else s
    | none => s
  | 2 => if 256 * s.get (Reg.WCn_HOME_TRAVEL n) < (w.p - w.seekFrom).natAbs then s.moveEnding n 4 else s
  | 3 => if still then (s.setPos n (w.p + m.target - w.latch.getD 0)).set (Reg.WCn_STATUS_home_state n) 4 else s
  | 4 => if still && w.p == m.target then s.homeDone n m else s
  | _ => if still then s.homeByScale n m else s

/-! ### Switches (R472 to R476) -/

/-- An edge of the home source during a homing, accepted at position p (R474, R476). -/
def State.homeEdge (s : State) (n : Nat) (active : Bool) (p : Int) : State :=
  let st := s.get (Reg.WCn_STATUS_home_state n)
  if (s.winder n).latch.isSome then
    let s1 := s.bump (Reg.WCn_CHATTER n) 1
    let k := s1.get (Reg.WCn_CHATTER n)
    if s1.get (Reg.WCn_SW_chatter_max n) < k && !(s1.winder n).chatterPosted then
      ((s1.onWinder n fun w => { w with
        chatterPosted := true, move := w.move.map fun m => { m with notes := m.notes ||| 2 } }).raise (Reg.WCn_STATUS_chatter n)).post 0x0B03
        [.n n, .n k]
    else s1
  else if st = 2 && active && ((s.winder n).move.any fun m => m.ending.isNone) then
    ((s.onWinder n fun w => { w with latch := some p }).clear (Reg.WCn_CHATTER n)).set (Reg.WCn_STATUS_home_state n) 3
  else if st = 1 && !active then s.onWinder n fun w => { w with clearedAt := some p }
  else s

/-- A switch input of channel n: 0 negative, 1 positive, 2 home. -/
def State.windSwitch (s : State) (n sw : Nat) : WindSwitch := Tab.get (fun _ => {}) s.wind.sw (3 * n + sw)

/-- Set it. -/
def State.setSwitch (s : State) (n sw : Nat) (x : WindSwitch) : State :=
  s.modWind fun w => { w with sw := Tab.set (fun _ => {}) w.sw (3 * n + sw) x }

/-- The active level of a switch is low (Table 18-11). -/
def State.switchPol (s : State) (n sw : Nat) : Bool :=
  s.on (if sw = 0 then Reg.WCn_SW_neg_pol n else if sw = 1 then Reg.WCn_SW_pos_pol n else Reg.WCn_SW_home_pol n)

/-- A switch is accepted at a new level, first sampled at position p: its flag, and what a home source or a limit switch does (R472 to
R476). In a homing any other enabled limit switch that is accepted active stops the channel (R475); otherwise one it moves towards
(R473). -/
def State.acceptSwitch (s : State) (n sw : Nat) (active : Bool) (p : Int) : State :=
  let w := s.winder n
  let s1 := s.setOn (switchFlag n sw) active
  let toward := if sw = 0 then decide (w.vel < 0) else decide (0 < w.vel)
  if w.homing && s1.homeSwitch n == some sw && s1.switchCounts n sw then s1.homeEdge n active p
  else if sw ≠ 2 && active && s1.limitTrips n sw && (toward || w.homing) && (w.move.any fun m => m.ending.isNone) then s1.limitStop n sw p
  else s1

/-- A sample of a switch (R472): the filter_us + 1st sample in a row at a new level is accepted. -/
def State.sampleSwitch (s : State) (n sw : Nat) : State :=
  let x := s.windSwitch n sw
  if x.level = x.acc then if x.run = 0 then s else s.setSwitch n sw { x with run := 0 }
  else
    let first := if x.run = 0 then (s.winder n).p else x.first
    if s.get (Reg.WCn_SW_filter_us n) ≤ x.run then
      (s.setSwitch n sw { x with acc := x.level, run := 0 }).acceptSwitch n sw (x.level != s.switchPol n sw) first
    else s.setSwitch n sw { x with run := x.run + 1, first := first }

/-- Sample every switch. -/
def State.sampleSwitches (s : State) : State :=
  s.wind.sw.foldl (fun (s : State) e => s.sampleSwitch (e.1 / 3) (e.1 % 3)) s

/-- Show which switches of channel n are active, by their accepted levels and polarities. -/
def State.showSwitches (s : State) (n : Nat) : State :=
  (List.range 3).foldl (fun (s : State) sw => s.setOn (switchFlag n sw) ((s.windSwitch n sw).acc != s.switchPol n sw)) s

/-- WCn_SW is written: the switches show as active by the new polarities. -/
def State.switchCfg (s : State) (n : Nat) (v : BitVec 32) : State := (s.writeWord (Reg.WCn_SW_filter_us n).off v).showSwitches n

/-- SWITCH_EDGE (R472): the ball of a switch input (0 negative, 1 positive, 2 home) shows another level from now on. Each WINDER_TICK is a
sample. -/
def execSwitchEdge (dt : Nat) (n : Fin 32) (sw : Fin 3) (level : Bool) (s : State) : Result :=
  let s := s.advance dt
  .next (s.setSwitch n sw { s.windSwitch n sw with level := level })

/-! ### The tick (R459) -/

/-- The motion of a channel over one tick (R465, R466, R474). -/
def State.moveTick (s : State) (n : Nat) (w : Winder) (m : WinderMove) : Motion × Option WinderBrake :=
  let x : Motion := ⟨w.pos, w.vel, w.acc⟩
  let a := s.moveAccel n m
  let d := s.moveDecel n m
  let h := s.hardDecel n
  let goTo (u : Int) : Motion × Option WinderBrake := (rampTo x u a d m.jerk, none)
  let stop : Motion × Option WinderBrake := (rampTo x 0 a h 0, none)
  let reach (top : Nat) : Motion × Option WinderBrake :=
    let t := wOf256 m.target
    posTick x t top a d m.jerk m.hold m.brake (decide (t < x.pos))
  let v : Int := (wSpeed m.speed : Nat)
  match m.ending with
  | some 4 => goTo 0
  | some _ => stop
  | none =>
    match m.kind with
    | 0 => reach (if m.hold then w.vel.natAbs else wSpeed m.speed)
    | 1 => goTo (if m.target < 0 then -v else v)
    | 2 =>
      match s.get (Reg.WCn_STATUS_home_state n) with
      | 1 => goTo (-(s.homeDir n * v))
      | 2 => goTo (s.homeDir n * v)
      | 3 => if s.homeSwitch n == some 2 then goTo 0 else stop
      | 4 => reach (if m.hold then w.vel.natAbs else wSpeed (256 * s.get (Reg.WCn_HOME_creep n)))
      | _ => goTo 0
    | 3 => goTo 0
    | _ => stop

/-- The integral in 1/256 full step, rounded towards the position before (R459). -/
def nextP (p pos : Int) : Int := let f := pos / wPer256; if p ≤ f then f else -(-pos / wPer256)

/-- Show position and velocity (R459). -/
def State.showMotion (s : State) (n : Nat) (m : Motion) : State :=
  let p := nextP (s.winder n).p m.pos
  let s1 := s.onWinder n fun w => { w with pos := m.pos, vel := m.vel, acc := m.acc, p := p }
  (s1.setI (Reg.WCn_POS n) p).setI (Reg.WCn_VEL n) (quot (m.vel * 256) (10 ^ 12))

/-- Select a microstep mode and take it where the output index does not jump (R462, R463). -/
def State.stepMode (s : State) (n : Nat) : State :=
  let w := s.winder n
  let want := s.selectMode n w.wanted w.vel.natAbs
  let now := s.get (Reg.WCn_STATUS_mode n)
  let s1 := s.onWinder n fun w => { w with wanted := want }
  if s.outIndex n now w.p = s.outIndex n want w.p then s1.set (Reg.WCn_STATUS_mode n) want else s1

/-- A move that waits takes over (R467); p, a signed 32-bit count (R459), is brought into its range. -/
def State.takeNext (s : State) (n : Nat) : State :=
  let w := s.winder n
  match w.next with
  | none => s
  | some m =>
    let s0 := match w.move with
      | some old => s.moveEnds n old (old.ending.getD 1)
      | none => s
    let p := signed 32 (wrap 32 w.p)
    let s1 := if p = w.p then s0 else s0.setPos n p
    let s2 := (s1.onWinder n fun w => { w with move := some m, next := none, endedAt := none, settled := false }).set
      (Reg.WCn_STATUS_state n) (if m.kind = 2 then 3 else 2)
    if m.kind = 2 then s2.homeBegin n else s2

/-- After a tick: whether the move has done what it was for (R465, R466, R473, R475). -/
def State.moveDone (s : State) (n : Nat) (m : WinderMove) : State :=
  let w := s.winder n
  let still := w.vel == 0 && w.acc == 0
  match m.ending with
  | some o => if still then (s.moveEnds n m o).windRest n else s
  | none =>
    match m.kind with
    | 0 => if still && w.pos == wOf256 m.target then (s.moveEnds n m 0).windRest n else s
    | 1 =>
      if m.speed = 0 then (if still then (s.moveEnds n m 0).windRest n else s)
      else if w.vel == (if m.target < 0 then -(wSpeed m.speed : Int) else wSpeed m.speed) then
        (s.moveEnds n m 0).onWinder n fun w => { w with move := some { m with done := true } }
      else s
    | 2 => s.homeStep n m
    | _ => if still then (s.moveEnds n m 0).windRest n else s

/-- Limit switches that are active in the direction of motion stop the channel (R473, R475). -/
def State.limitCheck (s : State) (n : Nat) : State :=
  let w := s.winder n
  let hit (sw : Nat) : Bool :=
    s.limitTrips n sw && s.on (switchFlag n sw) && (if sw = 0 then decide (w.vel < 0) else decide (0 < w.vel))
  if (w.move.any fun m => m.ending.isNone) then
    if hit 0 then s.limitStop n 0 w.p else if hit 1 then s.limitStop n 1 w.p else s
  else s

/-- One tick of channel n. -/
def State.windTick (s : State) (n : Nat) : State :=
  let st := s.get (Reg.WCn_STATUS_state n)
  if !s.windDriven n || st = 0 || st = 4 then s
  else
    let s1 := (s.takeNext n).limitCheck n
    let w := s1.winder n
    match w.move with
    | none => (s1.showMotion n ⟨w.pos, 0, 0⟩).stepMode n
    | some m =>
      let (x, b) := s1.moveTick n w m
      let m1 := { m with brake := b, hold := m.hold && b.isNone }
      let s2 := (s1.onWinder n fun w => { w with move := some m1 }).showMotion n x
      (s2.moveDone n m1).stepMode n

/-- Whether the channels work: in every state but BOOT and DEEP (R456). -/
def State.windWorks (s : State) : Bool := s.powered 9 && s.dev != stBoot && s.dev != stDeep

/-- WINDER_TICK (R459, R472): a sample of every switch, then a tick of every channel. -/
def execWinderTick (dt : Nat) (s : State) : Result :=
  let s := s.advance dt
  if s.windWorks then .next ((List.range 32).foldl (fun (s : State) n => s.windTick n) s.sampleSwitches) else .next s

/-! ### Moves (R404, R464, R467, R473) -/

/-- Whether a MOTION_MOVE fails the checks of R464. -/
def State.motionBad (s : State) (f : Flight) : Bool :=
  let n := f.fld 16 1
  let kind := f.fld 17 1
  let speed := f.fld 24 4
  31 < n || 4 < kind || (kind < 3 && 16776960 < speed) || ((kind == 0 || kind == 2) && speed == 0)
    || 10000000 < f.fld 28 4 || 10000000 < f.fld 32 4 || 1000000000 < f.fld 36 4
    || !s.windWorks || !s.on (Reg.WCn_CFG_enable n) || s.get (Reg.WCn_STATUS_state n) == 4

/-- The result a refusal carries too: the position, `free` where the descriptor names no channel, and outcome 0. -/
def State.motionResult (s : State) (free : Nat) (f : Flight) : List (Nat × List (BitVec 8)) :=
  let n := f.fld 16 1
  [(4, leBytes 4 (if 31 < n then free else wrap 32 (s.winder n).p)), (8, leBytes 1 0)]

/-- A free number for a descriptor that names no channel. -/
def State.motionFree (s : State) (op : OpRef) : Nat × State :=
  if (s.flight op.ring op.n).any fun f => decide (31 < f.fld 16 1) then s.drawNat else (0, s)

/-- The direction in which a move begins: -1, 0 or 1. -/
def State.moveDir (s : State) (n : Nat) (m : WinderMove) : Int :=
  match m.kind with
  | 0 => (m.target - (s.winder n).p).sign
  | 1 => if m.speed = 0 then 0 else if m.target < 0 then -1 else 1
  | 2 => if (s.homeSwitch n).isNone then 0 else if s.homeActive n then -(s.homeDir n) else s.homeDir n
  | _ => 0

/-- A limit switch already active towards which a move would go. -/
def State.limitAhead (s : State) (n : Nat) (m : WinderMove) : Option Nat :=
  let dir := s.moveDir n m
  let sw := if dir < 0 then 0 else 1
  if dir ≠ 0 && s.limitOn n sw && s.on (switchFlag n sw) && !(m.kind == 2 && s.homeSwitch n == some sw) then some sw else none

/-- The move of a descriptor is accepted: it waits for the next tick, or ends at once before an active limit switch. -/
def State.motionMove (s : State) (f : Flight) : State :=
  let n := f.fld 16 1
  let m : WinderMove := ⟨f.ring, f.n, f.fld 17 1, signed 32 (f.fld 20 4), f.fld 24 4, f.fld 28 4, f.fld 32 4, f.fld 36 4, none, false,
    none, 0, false⟩
  match s.limitAhead n m with
  | some sw =>
    if m.kind = 2 then (s.clear (Reg.WCn_STATUS_homed n)).moveEnds n m 2
    else ((s.raise (Reg.WCn_STATUS_limit_seen n)).post 0x0B01 [.n n, .n (sw + 1), winderPos (s.winder n).p]).moveEnds n m 3
  | none =>
    let s1 := match (s.winder n).next with
      | some old => s.moveEnds n old 1
      | none => s
    s1.onWinder n fun w => { w with next := some m }

/-- MOTION_MOVE (R404). -/
def execMotionMove (dt : Nat) (op : OpRef) (s : State) : Result :=
  let (i, s) := (s.advance dt).motionFree op
  .next (s.runOp op 0x20 [(16, 2), (20, 20)] false s.motionBad (s.motionResult i) false fun f s => s.motionMove f)

/-! ### Enable, ramps, faults, standstill -/

/-- WCn_CFG is written: enable changing to 1 enters standstill at position 0, not homed; to 0 the channel is off (R458). -/
def State.windCfg (s : State) (n : Nat) (v : BitVec 32) : State :=
  let was := s.on (Reg.WCn_CFG_enable n)
  let s1 := s.writeWord (Reg.WCn_CFG_enable n).off v
  let on := s1.on (Reg.WCn_CFG_enable n)
  if was = on then s1
  else
    let s2 := match (s1.winder n).move, (s1.winder n).next with
      | some a, some b => (s1.moveEnds n a 1).moveEnds n b 1
      | some a, none => s1.moveEnds n a 1
      | none, some b => s1.moveEnds n b 1
      | none, none => s1
    let s3 := ((s2.setWinder n {}).setI (Reg.WCn_POS n) 0).setI (Reg.WCn_VEL n) 0
    ((s3.clear (Reg.WCn_STATUS_homed n)).clear (Reg.WCn_STATUS_mode n)).set (Reg.WCn_STATUS_state n) (b2n on)

/-- The MOTION domain returns (R458, R483 text): enabled channels stand still at position 0, not homed. -/
def State.windReturn (s : State) : State :=
  (List.range 32).foldl (fun (s : State) n =>
    let s1 := s.showSwitches n
    if s1.on (Reg.WCn_CFG_enable n) && s1.get (Reg.WCn_STATUS_state n) == 0 then s1.set (Reg.WCn_STATUS_state n) 1 else s1) s

/-- WINDER_ENABLE (R458): a write of WCn_CFG. -/
def execWinderEnable (dt : Nat) (n : Fin 32) (v : BitVec 32) (s : State) : Result :=
  .next ((s.advance dt).hostWrite (Reg.WCn_CFG_enable n).off fun s => s.windCfg n v)

/-- A write of WCn_DECEL while a position move that reads it decelerates (R468). -/
def State.newDecel (s : State) (n : Nat) (m : WinderMove) (b : WinderBrake) : State :=
  let w := s.winder n
  let d := s.moveDecel n m
  let left := (wOf256 m.target - w.pos).natAbs
  let v := w.vel.natAbs
  let a : Int := -(w.acc.natAbs : Int)
  if 0 < (settleFrom v a m.jerk).1 && canStop v a d m.jerk left then
    s.onWinder n fun w => { w with
      acc := if m.jerk = 0 then 0 else w.acc, move := some { m with brake := none, hold := true } }
  else
    let kept := if m.jerk = 0 then (if left = 0 then quotN b.decel (10 ^ 6) else quotN (v * v) (left * 10 ^ 6)) else quotN b.decel (10 ^ 6)
    ((s.onWinder n fun w => { w with move := some { m with notes := m.notes ||| 1 } }).raise (Reg.WCn_STATUS_accel_deferred n)).post 0x0B05
      [.n n, .n kept]

/-- The effect of a write of WCn_ACCEL or WCn_DECEL. -/
def State.rampWrite (s : State) (n : Nat) (decel : Bool) (v : BitVec 32) : State :=
  let s1 := s.writeWord (if decel then Reg.WCn_DECEL n else Reg.WCn_ACCEL n).off v
  match (s1.winder n).move with
  | some m =>
    match m.brake with
    | some b => if decel && m.decel = 0 then s1.newDecel n m b else s1
    | none => s1
  | none => s1

/-- RAMP_REGISTER_WRITE (R468): a write of WCn_ACCEL or WCn_DECEL. -/
def execRampRegisterWrite (dt : Nat) (n : Fin 32) (decel : Bool) (v : BitVec 32) (s : State) : Result :=
  .next ((s.advance dt).hostWrite (if decel then Reg.WCn_DECEL n else Reg.WCn_ACCEL n).off fun s => s.rampWrite n decel v)

/-- Change the chopper of a phase. -/
def State.onChop (s : State) (n : Nat) (b : Bool) (f : ChopPhase → ChopPhase) : State :=
  s.onWinder n fun w => if b then { w with phaseB := f w.phaseB } else { w with phaseA := f w.phaseA }

/-- The channel enters FAULT (R470): its bridges coast, its move ends with outcome 5. -/
def State.windFault (s : State) (n : Nat) (b : Bool) : State :=
  let w := s.winder n
  let s1 := ((s.set (Reg.WCn_STATUS_state n) 4).raise (Reg.WCn_STATUS_overcurrent n)).post 0x0B04 [.n n, .n (b2n b)]
  let s2 := match w.move with | some m => s1.moveEnds n m 5 | none => s1
  let s3 := match w.next with | some m => s2.moveEnds n m 5 | none => s2
  (s3.onWinder n fun w => { w with move := none, next := none, vel := 0, acc := 0, endedAt := none }).setI (Reg.WCn_VEL n) 0

/-- CHOPPER_TRIP (R469, R470): the trip input shows a level. Active after the blanking time it ends the on time; active in the first beat
after it, it counts for the overcurrent check. -/
def execChopperTrip (dt : Nat) (n : Fin 32) (phaseB : Bool) (level : Bool) (s : State) : Result :=
  let s := s.advance dt
  let c := (s.winder n).phase phaseB
  if !s.windWorks || !s.chops n phaseB || c.off || level == s.on (Reg.WCn_CHOP_trip_pol n) || s.beat < c.since + s.chopBlank n then .next s
  else
    let run := if s.beat = c.since + s.chopBlank n then c.ocRun + 1 else 0
    let s1 := s.onChop n phaseB fun c => { c with off := true, since := s.beat, ocRun := min 15 run }
    let lim := s.get (Reg.WCn_CFG_oc_cycles n)
    .next (if lim ≠ 0 && lim ≤ run then s1.windFault n phaseB else s1)

/-- CHOPPER_OFF_END (R469): the off time is over, and the phase drives again in the sign of its reference. -/
def execChopperOffEnd (dt : Nat) (n : Fin 32) (phaseB : Bool) (s : State) : Result :=
  let s := s.advance dt
  let c := (s.winder n).phase phaseB
  if s.windWorks && s.chops n phaseB && c.off && decide (c.since + s.chopOff n ≤ s.beat) then
    .next (s.onChop n phaseB fun c => { c with off := false, since := s.beat, neg := s.refNeg n phaseB })
  else .next s

/-- The effect of WCn_CTRL.clear_fault. -/
def State.clearFault (s : State) (n : Nat) : State :=
  if s.get (Reg.WCn_STATUS_state n) = 4 then
    ((s.onWinder n fun w => { w with settled := true, phaseA := {}, phaseB := {} }).set (Reg.WCn_STATUS_state n) 1).clear
      (Reg.WCn_STATUS_homed n)
  else s

/-- CLEAR_FAULT (R470): a write of WCn_CTRL. -/
def execClearFault (dt : Nat) (n : Fin 32) (v : BitVec 32) (s : State) : Result :=
  .next ((s.advance dt).hostWrite (Reg.WCn_CTRL_clear_fault n).off fun s => if v.getLsbD 0 then s.clearFault n else s)

/-- HOLD_DELAY_EXPIRE (R461, R471). -/
def execHoldDelayExpire (dt : Nat) (n : Fin 32) (s : State) : Result :=
  let s := s.advance dt
  match (s.winder n).endedAt with
  | some t =>
    if s.windWorks && decide (t + 1000000 * s.get (Reg.WCn_CURRENT_hold_delay_ms n) ≤ s.beat) then
      .next (s.onWinder n fun w => { w with endedAt := none, settled := true })
    else .next s
  | none => .next s

/-! ### SSI scales (R478 to R481) -/

/-- Scale k beside its registers. -/
def State.ssi (s : State) (k : Nat) : Ssi := Tab.get (fun _ => {}) s.wind.ssi k

/-- Change it. -/
def State.onSsi (s : State) (k : Nat) (f : Ssi → Ssi) : State :=
  s.modWind fun x => { x with ssi := Tab.set (fun _ => {}) x.ssi k (f (s.ssi k)) }

/-- Bits, most significant first, as a number. -/
def ofBits (l : List Bool) : Nat := l.foldl (fun a b => 2 * a + b2n b) 0

/-- Gray code to binary, most significant bit first. -/
def grayBits (l : List Bool) : List Bool := (l.foldl (fun (a : List Bool × Bool) b => let x := a.2 != b; (a.1 ++ [x], x)) ([], false)).1

/-- nbits of a scale, 8 to 32. -/
def State.ssiBits (s : State) (k : Nat) : Nat := clampN 8 32 (s.get (Reg.SSIk_CFG_nbits k))

/-- Beats from one frame of a scale to the next (R478, R480): period_us, and no less than the frame with monoflop_us. -/
def State.ssiPeriod (s : State) (k : Nat) : Nat :=
  max (1000 * max 50 (s.get (Reg.SSIk_PERIOD_period_us k)))
    ((s.ssiBits k + b2n (s.on (Reg.SSIk_CFG_err_bit k)) + 1) * (8000 / 2 ^ s.get (Reg.SSIk_CFG_clk k))
      + 1000 * max 1 (s.get (Reg.SSIk_PERIOD_monoflop_us k)))

/-- Whether the next frame of a scale is due. -/
def State.ssiDue (s : State) (k : Nat) : Bool :=
  match (s.ssi k).readAt with
  | some t => decide (t + s.ssiPeriod k ≤ s.beat)
  | none => true

/-- A read fails (R479). -/
def State.ssiFails (s : State) (k cause : Nat) : State :=
  let x := s.ssi k
  let run := min 3 (x.failRun + 1)
  let s1 := ((s.onSsi k fun x => { x with failRun := run }).bump (Reg.SSIk_STATUS_failed k) 1).raise (Reg.SSIk_STATUS_error_seen k)
  let s2 := if run = 3 then s1.clear (Reg.SSIk_STATUS_valid k) else s1
  if (match x.postedAt with | some t => decide (t + 100000000 ≤ s.beat) | none => true) then
    (s2.onSsi k fun x => { x with postedAt := some s.beat }).post 0x0B06 [.n k, .b cause]
  else s2

/-- A good read: the value, its stamp, and the check against the linked channel (R479, R481). -/
def State.ssiGood (s : State) (k raw : Nat) : State :=
  let s1 := ((s.onSsi k fun x => { x with failRun := 0 }).set (Reg.SSIk_RAW k) raw).set2 (Reg.SSIk_TIME_LO k) (Reg.SSIk_TIME_HI k) s.tb3
  let s2 := s1.raise (Reg.SSIk_STATUS_valid k)
  let n := s.get (Reg.SSIk_CFG_channel k)
  if s.on (Reg.SSIk_CFG_check_en k) && s.on (Reg.WCn_STATUS_homed n) then
    let (i, s3) := s2.drawBlock 1
    let diff := s.scalePos i k raw - (s.winder n).p
    let tol := s.get (Reg.SSIk_TOL k)
    if tol ≠ 0 && tol < diff.natAbs then
      let s4 := s3.raise (Reg.SSIk_STATUS_slip k)
      if (s.ssi k).slipping then s4 else (s4.onSsi k fun x => { x with slipping := true }).post 0x0B07 [.n n, .n k, .s diff]
    else s3.onSsi k fun x => { x with slipping := false }
  else s2

/-- SSI_READ (R478 to R480), once its period has passed: the data line before the frame, the bits sampled, most significant first, and whether the line was low after
the last. -/
def execSsiRead (dt : Nat) (k : Fin 8) (ready : Bool) (data : List Bool) (low : Bool) (s : State) : Result :=
  let s := s.advance dt
  if !s.windWorks || !s.on (Reg.SSIk_CFG_enable k) || 4 < s.get (Reg.SSIk_CFG_clk k) || !s.ssiDue k then .next s
  else
    let s := s.onSsi k fun x => { x with readAt := some s.beat }
    if !ready then .next (s.ssiFails k 1) else
    let nb := s.ssiBits k
    let err := s.on (Reg.SSIk_CFG_err_bit k)
    let s1 := s.emit (.ssiBurst k (nb + b2n err))
    let v := (List.range nb).map fun i => data.getD i false
    if !low then .next (s1.ssiFails k 2)
    else if err && data.getD nb false == s.on (Reg.SSIk_CFG_err_pol k) then .next (s1.ssiFails k 3)
    else .next (s1.ssiGood k (ofBits (if s.on (Reg.SSIk_CFG_gray k) then grayBits v else v)))

end Sys2Proof.Machine
end

