-- ==== Sys2Proof/Machine/Power.lean ====
section
/-! DEFINITION. Power, reset, start-up and security (chapter 19), ALIVE (R24), the host reset (R373), the interrupt registers (R518, R519)
and DMA time-outs (R392). -/

namespace Sys2Proof.Machine

/-! ### Alarms and key slots (R499 to R505) -/

/-- The response of an alarm source: 0 LOG, 1 LOCK, 2 ERASE; 3 is taken as ERASE (Table 19-12). -/
def State.response (s : State) (src : Nat) : Nat := min 2 (s.get ⟨Reg.SEC_RESP_resp.off, 2 * src, 2⟩)

/-- The active bit of a source (Table 19-13). -/
def activeBit (src : Nat) : Fld := ⟨Reg.SEC_ALARM_active.off, 16 + src, 1⟩

/-- The slots in a state, as a bitmap. -/
def State.slotsIn (s : State) (st : Nat → Bool) : Nat := ((List.range 16).map fun j => if st (s.keyState j) then 2 ^ j else 0).sum

/-- LOCK: every LOADED slot becomes LOCKED (R503). -/
def State.lockKeys (s : State) : State :=
  (List.range 16).foldl (fun (s : State) j => if s.keyState j = 1 then s.setKeyState j 2 else s) s

/-- ERASE: every slot that is not EMPTY is zeroed and becomes ERASED; KEYS_ERASED; reset class S (R503). -/
def State.eraseKeys (s : State) (src : Nat) : State :=
  let m := s.slotsIn fun k => k != 0
  let s1 := (List.range 16).foldl (fun (s : State) j => if s.keyState j = 0 then s else s.putKey j ⟨[], 0⟩ 3) s
  (s1.resetRegs 16 fun _ => true).post 0x0D02 [.b src, .n m]

/-- A source raises an alarm: the record, SEC_ALARM, then the response (R503, R505). -/
def State.alarm (s : State) (src : Nat) (active : Bool) : State :=
  let r := s.response src
  let s1 := ((s.raise ⟨Reg.SEC_ALARM_seen.off, src, 1⟩).bump Reg.SEC_ALARM_COUNT_count 1).setOn (activeBit src) active
  let s2 := s1.post 0x0D01 [.b src, .b r]
  let s3 := if r = 0 then s2 else if r = 1 then s2.lockKeys else s2.eraseKeys src
  s3.keysLost

/-- A source that is now active raises its alarm; one that no longer is clears its active bit. -/
def State.alarmLevel (s : State) (src : Nat) (active : Bool) : State :=
  if active then s.alarm src true else s.clear (activeBit src)

/-- SEC_ALARM (R503): a source raises an alarm, or is no longer active. -/
def execSecAlarm (dt : Nat) (src : Fin 14) (active : Bool) (s : State) : Result := .next ((s.advance dt).alarmLevel src active)

/-- ENCLOSURE_ALARM (R502, R533): ENCLOSURE_N has been low for `lowNs` without a break, 0 when it is high. -/
def execEnclosureAlarm (dt : Nat) (lowNs : Nat) (s : State) : Result :=
  let s := s.advance dt
  let on := decide (1000000 * max 1 (s.get Reg.SEC_ENCL_CFG_filter_ms) ≤ lowNs)
  if on && s.on (activeBit 13) then .next s else .next (s.alarmLevel 13 on)

/-- GLITCH_ALARM (R491): the core supply of domain d + 1 leaves the glitch window, or is inside it again. -/
def execGlitchAlarm (dt : Nat) (d : Fin 10) (active : Bool) (s : State) : Result := .next ((s.advance dt).alarmLevel d active)

/-- CLOCK_MONITOR_ALARM (R502). -/
def execClockMonitorAlarm (dt : Nat) (active : Bool) (s : State) : Result := .next ((s.advance dt).alarmLevel 10 active)

/-- DEBUG_UNLOCK_ATTEMPT (R502, R515): an attempt is over at once. -/
def execDebugUnlockAttempt (dt : Nat) (s : State) : Result := .next ((s.advance dt).alarm 11 false)

/-- The effect of SEC_UNLOCK.go (R504). -/
def State.unlockKeys (s : State) : State :=
  if (List.range 14).any fun i => s.on (activeBit i) && s.response i == 1 then s.raise Reg.SEC_ALARM_unlock_refused
  else
    let m := s.slotsIn fun k => k == 2
    let s1 := (List.range 16).foldl (fun (s : State) j => if s.keyState j = 2 then s.setKeyState j 1 else s) s
    (s1.post 0x0D03 [.n m]).refresh

/-- SEC_UNLOCK (R504). -/
def execSecUnlock (dt : Nat) (v : BitVec 32) (s : State) : Result :=
  .next ((s.advance dt).hostWrite Reg.SEC_UNLOCK_go.off fun s => if v.getLsbD 0 then s.unlockKeys else s)

/-! ### Reset and boot (R485 to R487, R498) -/

/-- A power-on reset: everything at its reset value; the outputs, the model's clock and what the balls show stay. -/
def State.coldReset (s : State) : State :=
  { State.reset with
    pending := s.pending, beat := s.beat, out := s.out, free := s.free, inputs := { balls := s.inputs.balls }
    wind := { sw := s.wind.sw.map fun e => (e.1, { level := e.2.level }) }
    link := { inhibitPin := s.link.inhibitPin }, power := { fireInhibit := s.power.fireInhibit } }

/-- A warm reset (column W of Table 19-4): the fields of class W, and all that is not kept. -/
def State.warmReset (s : State) : State :=
  { s.coldReset with
    regs := (s.resetRegs 2 fun _ => true).regs
    power := { ({} : Power) with
      keys := s.power.keys, keySerial := s.power.keySerial, fuseOk := s.power.fuseOk, tripHeld := s.power.tripHeld
      fireInhibit := s.power.fireInhibit } }

/-- The slice that serves no plane is the spare (Table 06-11). -/
def State.showSpare (s : State) : State :=
  match s.spareSlice with
  | some n => s.set (Reg.RSn_STATUS_state n) 4
  | none => s

/-- A FIRE_INHIBIT_N that is low as the device leaves BOOT inhibits from then on (R21). -/
def State.bootInhibit (s : State) : State :=
  if s.link.inhibitPin then (s.modLink fun l => { l with inhibitPin := false }).startInhibit fun l => { l with inhibitPin := true } else s

/-- The steps of Table 19-2 from the release of reset (R85, R486, R487, R498): the time bases start at 0; the fuse alarm; a failing check,
or TEST_MODE high (R525), keeps the device in BOOT; else SETUP, the chip nodes at their sensor readings (R277). -/
def State.boot (s : State) (f : BootFacts) : State :=
  let s1 := ((s.set Reg.PWR_DOMAINS_powered 0x3FF).modTime fun t => { t with tb := [0, 0, 0, 0] }).modPower fun p => { p with fuseOk := p.fuseOk && f.fusesOk }
  let s2 := if f.fusesOk then s1 else s1.alarm 12 true
  if f.fail.val = 0 then
    if f.testMode then s2 else (((s2.modPower fun p => { p with pcieUp := f.pcie }).showSpare).startChip (f.sensors.map fun x => signed 16 x.toNat)).bootInhibit.enter stSetup
  else s2.set Reg.PWR_STATE_boot_fail f.fail

/-- POWER_ON_RESET (R486). -/
def execPowerOnReset (dt : Nat) (boot : BootFacts) (s : State) : Result := .next ((s.advance dt).coldReset.boot boot)

/-- A warm reset and its boot, unless the analog trip holds the device (R498). -/
def State.warmBoot (s : State) (f : BootFacts) : State := if s.power.tripHeld then s.warmReset else s.warmReset.boot f

/-- WARM_RESET (R485): a low pulse of RESET_N; one from 100 ns to 1 us may or may not be taken. -/
def execWarmReset (dt : Nat) (pulseNs : Nat) (boot : BootFacts) (s : State) : Result :=
  let s := s.advance dt
  if pulseNs < 100 then .next s
  else if 1000 ≤ pulseNs then .next (s.warmBoot boot)
  else
    let (r, s1) := s.drawNat
    if r % 2 = 0 then .next s1 else .next (s1.warmBoot boot)

/-- THERMAL_TRIP (R498): the hottest sensor reaches 140 °C, or falls below 110 °C. -/
def execThermalTrip (dt : Nat) (hot : Bool) (boot : BootFacts) (s : State) : Result :=
  let s := s.advance dt
  if hot then .next (s.warmReset.modPower fun p => { p with tripHeld := true })
  else if s.power.tripHeld then
    .next (((s.modPower fun p => { p with tripHeld := false }).raise Reg.PWR_STATE_thermal_trip).boot boot)
  else .next s

/-! ### The host reset (R373) -/

/-- A host reset: operations that have not read their data are abandoned with their pages, completions and records not written are
discarded, fields of class H take their reset values. -/
def State.hostReset (s : State) : State :=
  let keep (f : Flight) : Bool := f.ended.isNone && !((f.opcode == 0x01 || f.opcode == 0x02) && !f.dataRead)
  let s1 := s.modRings fun r => { r with
    flight := (r.flight.filter keep).map fun f => { f with cq := 16 }
    statQ := [], waiting := [], stopped := [], written := [] }
  (s1.resetRegs 4 fun _ => true).set Reg.HR_INFLIGHT 0

/-- HOST_RESET (R373): after a link down or PCIE_PERST_N the link has to train again. -/
def execHostReset (dt : Nat) (kind : HostResetKind) (s : State) : Result :=
  let down := kind = .linkDown || kind = .perst
  .next ((s.advance dt).hostReset.modPower fun p => { p with pcieUp := p.pcieUp && !down })

/-- PCIE_LINK_TRAINED (R486). -/
def execPcieLinkTrained (dt : Nat) (s : State) : Result := .next ((s.advance dt).modPower fun p => { p with pcieUp := true })

/-! ### The image store at SETUP_LOCK (R300, R414, R415) -/

/-- Show which ports have their repeat buffer (R300). -/
def State.showRepeats (s : State) : State :=
  (List.range 4).foldl (fun (s : State) p => s.setOn (Reg.CAMp_STATUS_tnr_ok p) (s.repeatPlan.2.contains p)) s

/-- Reserve the areas of Table 16-2; TNR_NO_SPACE for each port whose buffer does not fit. -/
def State.reserveAreas (s : State) : State :=
  let (n, ports) := s.repeatPlan
  let reserved := s.fixedAreas + n
  let s1 := ((s.set Reg.MEM_STORE_PAGES s.storePages).set Reg.MEM_RESERVED_PAGES reserved).set Reg.CR_AREA_PAGES
    (s.storePages - reserved)
  (List.range 4).foldl (fun (s : State) p =>
    if s.on (Reg.CAMp_CFG_enable p) && s.on (Reg.CAMp_CFG_tnr_en p) && !ports.contains p then
      (s.raise ⟨Reg.ASSAY_STATUS_ports.off, p, 1⟩).post 0x070A [.b p, .n (s.repeatBytes p)]
    else s) s1.showRepeats

/-- Train the populated channels and fill the store (R414): a channel that fails is reported, and the store is not ready. A reserved code
of MEM_CFG trains no channel (Table 16-1). -/
def State.trainStore (s : State) (fails : List (Fin 6)) : State :=
  let bad := fails.filter fun c => decide (c.val < s.memChannels)
  if s.memChannels = 0 then s
  else if bad.isEmpty then
    let s1 := s.clearStore.modMem fun m => { m with trained := List.range s.memChannels }
    (((s1.raise Reg.MEM_STATUS_ready).set Reg.MEM_RETIRED 0).reserveAreas).countStore
  else bad.foldl (fun (s : State) (c : Fin 6) => (s.raise Reg.MEM_STATUS_train_fail).post 0x0909 [.n c.val]) s

/-- Once the setup is locked, a configured node that no path reaches yet is unreachable (R244). -/
def State.settleNodes (s : State) : State :=
  if s.locked then (List.range 32).foldl (fun (s : State) str => s.settleReach str) s else s

/-- Every lane takes up its configuration (R203), and with the lanes the reach of the nodes (R244). -/
def State.settleLanes (s : State) : State := ((List.range 68).foldl (fun (s : State) n => s.settleLane n) s).settleNodes

/-! ### SETUP_LOCK and READY (R489, R516) -/

/-- The effect of SETUP_LOCK.lock written 1 in SETUP (R489, R495): lock, the retention set, the store, the lanes. -/
def State.lockSetup (s : State) (fails : List (Fin 6)) : State :=
  let s1 := s.raise Reg.SETUP_LOCK_lock
  let s2 := s1.modPower fun p => { p with retention := s1.regs }
  (s2.trainStore fails).settleLanes

/-- SETUP_LOCK (R489, R516); `trainFails` names the channels that fail training. -/
def execSetupLock (dt : Nat) (v : BitVec 32) (trainFails : List (Fin 6)) (s : State) : Result :=
  .next ((s.advance dt).hostWrite Reg.SETUP_LOCK_lock.off fun s =>
    if v.getLsbD 0 && s.dev = stSetup && !s.locked then s.lockSetup trainFails else s)

/-- Whether a string counts as trained and identified (R546): each node served or declared not served. -/
def State.stringReady (s : State) (str : Nat) : Bool :=
  (List.range (s.nodeCount str)).all fun n => [2, 3].contains (s.get (Reg.NODEa_STATE_state (8 * str + n)))

/-- Whether READY may be entered (Table 01-6, R414, R489, R492). An arbiter drives no heads (R443). -/
def State.mayBeReady (s : State) : Bool :=
  s.dev == stSetup && s.locked && s.on Reg.MEM_STATUS_ready && s.power.domainReset.isEmpty
    && (s.config == 3 || (List.range 32).all s.stringReady) && s.on Reg.OBS_STATUS_pos_valid

/-- The role a device has as it enters READY (Table 17-13). -/
def State.readyRole (s : State) : Nat := if s.config = 0 then 0 else if s.config = 3 then 3 else 2

/-- READY_ENTRY (R23, R489); in solo the device takes the tally (R439). -/
def execReadyEntry (dt : Nat) (s : State) : Result :=
  let s := s.advance dt
  if !s.mayBeReady then .next s
  else
    let s1 := s.modPower fun p => { p with lowFault := false }
    let s2 := (if s1.held_ then s1 else s1.set Reg.TALLY_STATUS_role s1.readyRole).modTally fun t => { t with readyAt := s.beat }
    let s3 := s2.enter stReady
    if s3.config = 0 then .next (s3.takeTally 1 none) else .next s3

/-! ### Domain resets (R491, R492) -/

/-- The stream of a device in PRINTING or DRAINING ends for a domain reset (R492); the device goes to `st`. -/
def State.faultEndsStream (s : State) (st : Nat) : State :=
  if s.streaming then (s.endStream st).modPower fun p => { p with lowFault := true } else s.enter st

/-- What a domain loses when it goes off for a domain reset (column D of Table 19-4). The job tables lie in the store. -/
def State.domainLoses (s : State) (d : Nat) : State :=
  match d with
  | 2 => s.restartHeadstock.clearTables [tPlacement]
  | 3 => s.hostReset
  | 5 => (s.clearStore.modSched fun c => { c with jobs := [] }).clear Reg.MEM_STATUS_ready
  | 6 => s.clearRaster
  | 7 => s.clearHealth.clearNodes
  | 8 => s.clearPorts
  | 9 => s.clearWinders
  | 10 => s.clearForeman.clearTally
  | _ => s

/-- A domain whose reset is a hard condition (R492, Table 17-4). -/
def hardDomain (d : Nat) : Bool := [2, 5, 6, 7, 10].contains d

/-- The stream at a hard domain reset: in solo the device returns to READY through SETUP; in a pair a lost scheduler or store ends its
stream, and a device that loses the tally with CTRL is in COLD (R492, Table 01-6). -/
def State.faultState (s : State) (d : Nat) : State :=
  if !([stReady, stPrinting, stDraining].contains s.dev) then
    if (d = 2 || d = 5) && s.streaming then s.endStream s.dev else s
  else if s.config = 0 then s.faultEndsStream stSetup
  else
    let s1 := if (d = 2 || d = 5) && s.streaming then s.endStream s.dev else s
    if d = 10 && s1.inPair then (s1.set Reg.TALLY_STATUS_role 2).enter stCold else s1

/-- A domain reset switches a domain off (R492). -/
def State.domainOffNow (s : State) (d : Nat) : State :=
  let s1 := if hardDomain d then s.faultState d else s
  (((s1.domainLoses d).switchOff d).modPower fun p => { p with domainReset := d :: p.domainReset.filter (· != d) }).showPorts.refresh

/-- POWER_FAULT (R491, R492) of domain d + 1. That of AON is a power-on reset, and the device stays in BOOT. -/
def execPowerFault (dt : Nat) (d : Fin 10) (s : State) : Result :=
  let s := s.advance dt
  let n := d.val + 1
  if n = 1 then .next s.coldReset
  else if !s.powered n then .next s
  else
    let s1 := (s.raise ⟨Reg.PWR_FAULT_fault.off, d, 1⟩).bump Reg.PWR_FAULT_COUNT_count 1
    .next ((s1.post 0x0C03 [.b n]).domainOffNow n)

/-- A domain comes back: its registers, and what its blocks do then (R492, R494). -/
def State.domainBack (s : State) (d : Nat) (fails : List (Fin 6)) : State :=
  let s1 := (s.returnRegs d).setPowered d true
  match d with
  | 2 => s1.restartBalls (List.range 20)
  | 5 => s1.trainStore fails
  | 6 => s1.showSpare
  | 7 => (if s1.inhibiting then (s1.startChip s1.care.sensors).raise Reg.LINK_INHIBIT_sending
      else s1.startChip s1.care.sensors).settleLanes
  | 8 => s1.showRepeats.showPorts
  | 9 => s1.windReturn
  | 10 => (if s1.inPair then s1.set Reg.TALLY_STATUS_role 2 else s1).countStore
  | _ => s1

/-- DOMAIN_POWER_RETURN (R492) of domain d + 1; `trainFails` names the channels that fail training. -/
def execDomainPowerReturn (dt : Nat) (d : Fin 10) (trainFails : List (Fin 6)) (s : State) : Result :=
  let s := s.advance dt
  let n := d.val + 1
  if s.power.domainReset.contains n then
    .next ((s.modPower fun p => { p with domainReset := p.domainReset.filter (· != n) }).domainBack n trainFails).refresh
  else .next s

/-! ### DEEP is left (R494) -/

/-- The effect of PWR_CTRL.wake. -/
def State.wake (s : State) : State :=
  let thermal := s.get Reg.PWR_STATE_deep_cause = 2 || s.get Reg.PWR_STATE_deep_cause = 3
  if s.dev ≠ stDeep || (thermal && 100 * 2 ^ 32 ≤ s.chipTemp.1) then s
  else
    let s1 := ((s.modPower fun p => { p with lowThermal := false }).clear Reg.PWR_STATE_deep_cause).enter stSetup
    let s2 := [6, 7, 8, 9, 10].foldl (fun (s : State) d => s.domainBack d []) s1
    (s2.set Reg.TALLY_STATUS_role 0).refresh.post 0x0C05 [.ns s2.tb3]

/-- WAKE (R494). -/
def execWake (dt : Nat) (v : BitVec 32) (s : State) : Result :=
  .next ((s.advance dt).hostWrite Reg.PWR_CTRL_wake.off fun s => if v.getLsbD 0 then s.wake else s)

/-! ### ALIVE (R24) -/

/-- ALIVE_TOGGLE (R24): where it toggles, one transition every 50 us, 1 % less at the least. -/
def execAliveToggle (dt : Nat) (s : State) : Result :=
  let s := s.advance dt
  if !s.aliveRuns || s.beat < s.power.aliveAt + 49500 then .next s
  else .next (s.modPower fun p => { p with alive := !p.alive, aliveAt := s.beat })

/-! ### Cause register and interrupt (R518, R519) -/

/-- GLB_CAUSE_WRITE (R518). -/
def execGlbCauseWrite (dt : Nat) (v : BitVec 32) (s : State) : Result :=
  .next ((s.advance dt).hostWrite Reg.GLB_CAUSE_classes.off fun s => s.writeWord Reg.GLB_CAUSE_classes.off v)

/-- The effect of a write of GLB_INT_EN (R519): the vector is sent when an enable bit is set whose cause bit is 1. -/
def State.writeIntEn (s : State) (v : BitVec 32) : State :=
  let off := Reg.GLB_INT_EN_classes.off
  let s1 := s.writeWord off v
  if s1.reg off &&& ~~~ s.reg off &&& s.reg Reg.GLB_CAUSE_classes.off = 0#32 then s1
  else s1.sendVector (s1.get Reg.GLB_INT_CFG_vector)

/-- GLB_INT_EN_WRITE (R519). -/
def execGlbIntEnWrite (dt : Nat) (v : BitVec 32) (s : State) : Result :=
  .next ((s.advance dt).hostWrite Reg.GLB_INT_EN_classes.off fun s => s.writeIntEn v)

/-! ### DMA time-outs (R392) -/

/-- DMA_TIMEOUT (R392): the host data an operation reads errs or does not come: TIMEOUT, after the checks that come before its data. -/
def execDmaTimeout (dt : Nat) (op : OpRef) (s : State) : Result :=
  let (free, s1) := (s.advance dt).drawFault
  let late (f : Flight) (s : State) : State := s.finish f stTimeout []
  let s2 := (s1.ingestOp op late).storeOp op (fun _ => false) late
  let s3 := s2.tableOp op fun f s => s.finish f stTimeout (tableResult 0xFFFFFFFF f)
  let s4 := s3.jobOp op free fun f s => s.finish f stTimeout (jobResult f (2 ^ 48 - 1) 0 free)
  .next (s4.keyOp op fun f s => if f.fld 17 1 = 1 then late f s else s.loadKey f [])

end Sys2Proof.Machine
end

