-- ==== Sys2Proof/Machine/HostRegs.lean ====
section
/-! DEFINITION. Host reads and writes of BAR0 (R5, R9 to R11, R372, R488, R509 to R514) and the FIRE_INHIBIT_N pin (R21, R227, R532). -/

namespace Sys2Proof.Machine

/-! ### Pairs (R510, R511) -/

/-- Number i of a repeated register, when an offset is one of them. -/
def nthOf (base stride count off : Nat) : Option Nat :=
  if base ≤ off && (off - base) % stride == 0 && decide ((off - base) / stride < count) then some ((off - base) / stride) else none

/-- LO registers of pairs that are RW or RWL: base, stride, count; HI lies 4 above (R511). -/
def writtenPairs : List (Nat × Nat × Nat) :=
  [(0x104004, 0x40, 48), (0x143004, 4, 1), (0x180004, 4, 1), (0x700010, 0x1000, 4), (0xA01000, 0x40, 16), (0xA01010, 0x40, 16),
   (0xA02000, 0x40, 16), (0xA03000, 4, 1), (0xA03100, 4, 1), (0xA03118, 4, 1), (0xE00004, 0x1000, 2)]

/-- LO registers of the other pairs whose HI lies 4 above. -/
def shownPairs : List (Nat × Nat × Nat) :=
  [(0x20010, 4, 1), (0x100010, 0x100, 4), (0x100018, 0x100, 4), (0x100020, 0x100, 4), (0x100028, 0x100, 4), (0x101008, 0x40, 8),
   (0x101010, 0x40, 8), (0x102030, 8, 5), (0x10401C, 0x40, 48), (0x104024, 0x40, 48), (0x140010, 0x10, 4), (0x141018, 0x100, 2),
   (0x180060, 8, 4), (0x200004, 0x10000, 11), (0x2F0000, 4, 1), (0x400014, 0x1000, 68), (0x400024, 0x1000, 68), (0x500008, 0x100, 32),
   (0x502008, 0x10, 256), (0x900018, 4, 1), (0x900020, 4, 1), (0xC00010, 4, 1)]

/-- Whether an offset is one of some repeated registers. -/
def among (l : List (Nat × Nat × Nat)) (off : Nat) : Bool := l.any fun x => (nthOf x.1 x.2.1 x.2.2 off).isSome

/-- The HI register of a LO register: 4 above, or in its own row for SSIk_TIME (Table 18-8). -/
def hiOf (off : Nat) : Option Nat :=
  match nthOf 0xD01018 0x20 8 off with
  | some k => some (0xD01800 + 4 * k)
  | none => if among writtenPairs off || among shownPairs off then some (off + 4) else none

/-- Whether an offset is a HI register. -/
def isHi (off : Nat) : Bool :=
  (nthOf 0xD01800 4 8 off).isSome || (4 ≤ off && (among writtenPairs (off - 4) || among shownPairs (off - 4)))

/-- The LO registers that themselves show a shadow: ENCn_INDEX_TIME_LO (Table 02-6) and CMPn_LAST_POS_LO (Table 03-7). -/
def loShown (off : Nat) : Bool := (nthOf 0x100028 0x100 4 off).isSome || (nthOf 0x104024 0x40 48 off).isSome

/-- Whether the host reads a register's shadow. -/
def showsShadow (off : Nat) : Bool := isHi off || loShown off

/-- The registers whose shadows a read of an offset fills: its HI register; the rest of the index latch for ENCn_INDEX_COUNT_LO and of the
last pulse for CMPn_LAST_TIME_LO. -/
def filledBy (off : Nat) : List Nat :=
  if (nthOf 0x100020 0x100 4 off).isSome || (nthOf 0x10401C 0x40 48 off).isSome then [off + 4, off + 8, off + 12]
  else if loShown off then []
  else (hiOf off).toList

/-- The shadow a register shows. -/
def State.shadowOf (s : State) (off : Nat) : BitVec 32 := Tab.get (fun _ => 0#32) s.shadow off

/-- Fill shadows. -/
def State.fillShadow (s : State) (l : List Nat) (f : Nat → BitVec 32) : State :=
  { s with shadow := l.foldl (fun m o => Tab.set (fun _ => 0#32) m o (f o)) s.shadow }

/-! ### Reads -/

/-- CAPS with its fused bits (Table 20-4). -/
def State.capsWord (s : State) : BitVec 32 :=
  insertField (insertField (s.reg 0x4) 27 1 (b2n Config.debugClosed)) 28 1 (b2n s.power.fuseOk)

/-- GLB_STATUS: the fields that show something kept elsewhere (Table 20-5). -/
def State.globalStatus (s : State) : BitVec 32 :=
  let bits := s.dev + 8 * b2n s.locked + 16 * b2n s.power.printOk + 32 * b2n s.aliveRuns
    + 64 * b2n s.held_ + 128 * b2n s.power.fireInhibit + 256 * b2n (s.on Reg.OBS_STATUS_pos_valid)
  insertField (s.reg 0xC) 0 9 bits

/-- The word that a register reads as. -/
def State.readWord (s : State) (off : Nat) : BitVec 32 :=
  if off = 0x4 then s.capsWord
  else if off = 0xC then s.globalStatus
  else if off = 0x20010 then Config.chipId.extractLsb' 0 32
  else if off = 0x20014 then Config.chipId.extractLsb' 32 32
  else if off = 0x180030 then insertField (s.reg off) 2 1 (b2n s.sheetWait)
  else if off = 0x180068 then (if s.streaming then BitVec.ofNat 32 s.refLine else s.reg off)
  else if off = 0x18006C then (if s.streaming then BitVec.ofNat 32 (s.refLine / 2 ^ 32 % 2 ^ 16) else s.reg off)
  else match nthOf 0x300100 4 10 off with
    | some q => insertField (s.reg off) 0 6 (s.depthMax q)
    | none => s.reg off

/-- Whether BOOT lets the host read an offset: IDREV and the power registers (R488). -/
def bootReads (off : Nat) : Bool := off == 0 || (0x10000 ≤ off && off < 0x20000)

/-- The register that shows an equaliser's setting takes its present value before it is read (R195). -/
def State.readAdapt (s : State) (off : Nat) : State :=
  if 0x400000 ≤ off && off < 0x444000 && (off % 0x1000 == 0x10 || off % 0x1000 == 0x14 || off % 0x1000 == 0x18) then
    s.adapt ((off - 0x400000) / 0x1000)
  else s

/-- A host read of 4 aligned bytes (R488, R510, R513): a LO register copies the high word to the shadow of the
pair, a HI register reads the shadow. -/
def State.hostRead (s : State) (off : Nat) : State :=
  if s.dev = stBoot && !bootReads off then s.emit (.regRead off 0#32)
  else if s.dev ≠ stBoot && s.domainOff off then
    ((s.raise Reg.GLB_STATUS_off_access).emit (.regRead off 0#32)).fillShadow (filledBy off) fun _ => 0#32
  else
    let s := s.readAdapt off
    (s.emit (.regRead off (if showsShadow off then s.shadowOf off else s.readWord off))).fillShadow (filledBy off) s.readWord

/-- LO_REGISTER_READ (R510). A read of any other register is the same step without the shadow copy (R509). -/
def execLoRegisterRead (dt : Nat) (off : BitVec 25) (s : State) : Result := .next ((s.advance dt).hostRead (off.toNat / 4 * 4))

/-- BAR0_BAD_ACCESS (R372): another size or alignment. -/
def execBar0BadAccess (dt : Nat) (off : BitVec 25) (bytes : Nat) (isWrite : Bool) (s : State) : Result :=
  let s := s.advance dt
  if isWrite || (bytes = 4 && off.toNat % 4 = 0) then .next s else .next (s.emit (.regRead off.toNat 0#32))

/-! ### Writes -/

/-- The controls of a lane, bit by bit (Table 08-9); a wake wins over a sleep of the same direction (R204). What an eye scan stopped now has compared and found is free. -/
def State.writeLaneCtrl (s : State) (n : Nat) (v : BitVec 32) : State :=
  let doIf (b : Nat) (f : State → State) (s : State) : State := if v.getLsbD b then f s else s
  let s1 := doIf 2 (fun s => s.askWakeTx n) ((if v.getLsbD 2 then id else doIf 1 (fun s => s.askSleepTx n)) (doIf 0 (fun s => s.askRetrain n) s))
  let s2 := doIf 5 (fun s => s.eyeStart n) (doIf 4 (fun s => s.askWakeRx n) ((if v.getLsbD 4 then id else doIf 3 (fun s => s.askSleepRx n)) s1))
  doIf 6 (fun s =>
    let (c, s') := s.drawNat
    let (e, s'') := s'.drawNat
    let compared := min c (s.eyeBits n)
    s''.eyeResult n compared (min e compared)) s2

/-- The rings: base, write-back and CFG registers (R374, R375). -/
def State.writeRingReg (s : State) (off : Nat) (v : BitVec 32) : State :=
  let ring : Option AnyRing :=
    if off < 0xA02000 then some (.issue (Fin.ofNat 16 ((off - 0xA01000) / 0x40)))
    else if off < 0xA03000 then some (.consumer (.completion (Fin.ofNat 16 ((off - 0xA02000) / 0x40))))
    else if off < 0xA03100 then some (.consumer .event)
    else some (.consumer .statistics)
  match ring with
  | some r =>
    if off = ringCfg r then s.writeRingCfg r v
    else if (off = ringCfg r - 8 || off = ringCfg r - 4) && s.on (ringOn r) then s.raise Reg.HR_STATUS_cfg_ignored
    else s.writeWord off v
  | none => s

/-- A host write of a word to a register of the Headstock, time and scheduler blocks, with what follows from it. -/
def State.writeTiming (s : State) (off : Nat) (v : BitVec 32) : State :=
  match nthOf 0x100000 0x100 4 off, nthOf 0x101000 0x40 8 off, nthOf 0x10101C 0x40 8 off, nthOf 0x104014 0x40 48 off,
    nthOf 0x141000 0x100 2 off with
  | some n, _, _, _, _ => s.encCfg n v
  | _, some n, _, _, _ => s.trigCfg n v
  | _, _, some n, _, _ => s.popCapture n
  | _, _, _, some n, _ =>
    if v.getLsbD 1 then s.disarm n else if v.getLsbD 0 then s.arm n else s
  | _, _, _, _, some d => (s.writeWord off v).ptpWritten d
  | _, _, _, _, _ =>
    if off = 0x102000 || off = 0x102004 then (s.writeWord off v).sources
    else if off = 0x102020 then
      let s1 := if v.getLsbD 0 then s.obsSnapshot else s
      let s2 := if v.getLsbD 1 then s1.readmit else s1
      if v.getLsbD 2 then s2.resync else s2
    else if off = 0x140000 then
      let s1 := if v.getLsbD 0 then s.tbSnapshot else s
      if v.getLsbD 1 then s1.askStep else s1
    else if off = 0x140004 then (s.writeWord off v).selectWritten (s.get Reg.TB3_CFG_select)
    else if off = 0x143024 then (s.writeWord off v).wcsWritten (s.on Reg.WCS_CFG_enable)
    else if off = 0x18000C then s.leadWrite v.toNat
    else s.writeWord off v

/-- The same for the raster, lane, care and camera blocks. -/
def State.writeHeads (s : State) (off : Nat) (v : BitVec 32) : State :=
  match nthOf 0x400000 0x1000 68 off, nthOf 0x400004 0x1000 68 off, nthOf 0x700000 0x1000 4 off, nthOf 0x700020 0x1000 4 off,
    nthOf 0x600100 0x10 10 off with
  | some n, _, _, _, _ => ((s.adapt n).writeWord off v).settleLane n
  | _, some n, _, _, _ => s.writeLaneCtrl n v
  | _, _, some p, _, _ => s.camCfg p v
  | _, _, _, _, some q => s.gateCfg q v
  | _, _, _, some p, _ =>
    let s1 := if v.getLsbD 1 then s.onCam p fun c => { c with fifo := [] } else s
    if v.getLsbD 0 then s1.commitCam p else s1
  | _, _, _, _, _ =>
    if off = 0x2F000C then
      let s1 := if v.getLsbD 4 then s.spareTake (bits v.toNat 3 0) else s
      if v.getLsbD 12 then s1.spareRestore (bits v.toNat 11 8) else s1
    else if off = 0x600014 then (if v.getLsbD 8 && s.held_ then s.releaseHead (v.toNat % 256) else s)
    else s.writeWord off v

/-- The same for the rings, Foreman, Crusher and winder blocks. -/
def State.writeRest (s : State) (off : Nat) (v : BitVec 32) : State :=
  if off = 0x800020 then s.nozClear v.toNat
  else if off = 0x900000 then (s.writeWord off v).countStore
  else if 0xA01000 ≤ off && off < 0xA03200 then s.writeRingReg off v
  else match nthOf 0xD00000 0x40 32 off, nthOf 0xD00010 0x40 32 off, nthOf 0xD00014 0x40 32 off, nthOf 0xD00034 0x40 32 off,
      nthOf 0xD0001C 0x40 32 off with
    | some n, _, _, _, _ => s.windCfg n v
    | _, some n, _, _, _ => s.rampWrite n false v
    | _, _, some n, _, _ => s.rampWrite n true v
    | _, _, _, some n, _ => if v.getLsbD 0 then s.clearFault n else s
    | _, _, _, _, some n => s.switchCfg n v
    | _, _, _, _, _ => s.writeWord off v

/-- A host write of a word, pairs apart, with what follows from it. -/
def State.writeReg (s : State) (off : Nat) (v : BitVec 32) : State :=
  if off = 0x8 then (if v.getLsbD 0 && s.dev = stSetup && !s.locked then s.lockSetup [] else s)
  else if off = 0x14 then s.writeIntEn v
  else if off = 0x10004 then (if v.getLsbD 0 then s.wake else s)
  else if off = 0x2000C then (if v.getLsbD 0 then s.unlockKeys else s)
  else if off < 0x100000 then s.writeWord off v
  else if off < 0x200000 then s.writeTiming off v
  else if off < 0x800000 then s.writeHeads off v
  else s.writeRest off v

/-- A host write of 4 aligned bytes: the LO register of a written pair is held, its HI register commits both (R511). -/
def State.hostWriteReg (s : State) (off : Nat) (v : BitVec 32) : State :=
  s.hostWrite off fun s =>
    if among writtenPairs off then { s with held := Tab.put s.held off v }
    else if 4 ≤ off && among writtenPairs (off - 4) then
      match s.held.find? fun e => e.1 == off - 4 with
      | some (_, lo) => (({ s with held := Tab.del s.held (off - 4) }).writeReg (off - 4) lo).writeReg off v
      | none => s.writeReg off v
    else s.writeReg off v

/-- REGISTER_WRITE (R9 to R11). At a register whose write has a row of its own it does what that row does, with nothing from outside. -/
def execRegisterWrite (dt : Nat) (off : BitVec 25) (v : BitVec 32) (s : State) : Result :=
  .next ((s.advance dt).hostWriteReg (off.toNat / 4 * 4) v)

/-- HI_REGISTER_WRITE (R511). -/
def execHiRegisterWrite (dt : Nat) (off : BitVec 25) (v : BitVec 32) (s : State) : Result :=
  .next ((s.advance dt).hostWriteReg (off.toNat / 4 * 4) v)

/-! ### FIRE_INHIBIT_N (R21, R227, R532) -/

/-- The pin is accepted low (R21). -/
def State.assertInhibit (s : State) : State :=
  (s.startInhibit fun l => { l with inhibitPin := true }).modPower fun p => { p with fireInhibit := true }

/-- FIRE_INHIBIT_ASSERT (R21, R532): the pin has been low for `lowNs` without a break. 2 ns are accepted; a shorter pulse may be ignored. -/
def execFireInhibitAssert (dt : Nat) (lowNs : Nat) (s : State) : Result :=
  let s := s.advance dt
  if 2 ≤ lowNs then .next s.assertInhibit
  else
    let (r, s1) := s.drawNat
    if lowNs = 0 || r % 2 = 0 then .next s1 else .next s1.assertInhibit

/-- FIRE_INHIBIT_RELEASE (R227, R532): the pin has been high for `highNs` without a break; 2 ns are accepted. -/
def execFireInhibitRelease (dt : Nat) (highNs : Nat) (s : State) : Result :=
  let s := s.advance dt
  if highNs < 2 then .next s
  else if s.link.inhibitPin then
    .next ((s.endInhibit fun l => { l with inhibitPin := false }).modPower fun p => { p with fireInhibit := false })
  else .next (s.modPower fun p => { p with fireInhibit := false })

/-- INHIBIT_BLOCK_REPEAT (R227): an assert block on each active lane. -/
def execInhibitBlockRepeat (dt : Nat) (s : State) : Result :=
  let s := s.advance dt
  if s.inhibiting then .next (s.inhibitAll true) else .next s

end Sys2Proof.Machine
end

