-- ==== Sys2Proof/Machine/Rx.lean ====
section
/-! DEFINITION. What arrives on the lanes (chapters 08 and 09): every command that brings blocks acts on whatever those blocks hold. -/

namespace Sys2Proof.Machine

/-- An ordered set under block lock (R197, R198, R201, R205, R217): a block whose CRC fails is ignored; FIRE INHIBIT is removed. -/
def State.orderedIn (s : State) (n p : Nat) (converged : Bool) : State :=
  let quiet := s.onLane n fun l => { l with notices := 0 }
  if !crc8Ok p then quiet
  else if p % 16 = 0xA then
    if s.laneState n = lnUp then s.laneGoesDown n 3
    else if s.laneState n = lnTraining then quiet.trainingIn n p converged
    else quiet
  else if p % 16 = 0xB && s.laneState n = lnUp then s.noticeIn n
  else quiet

/-- One thing that arrives. A receiver without block lock takes none but the lock itself; packets are taken while the lane is UP. -/
def State.rxItem (s : State) (n : Nat) (converged : Bool) (it : RxItem) : State :=
  match it with
  | .locked => s.lockIn n
  | it =>
    if !s.on (Reg.LANEn_STATUS_block_lock n) then s
    else
      match it with
      | .lost => s.lockOut n
      | .badHeader => s.badHeader n
      | .ordered p => s.orderedIn n p converged
      | .broken => if n < 64 && s.laneUp n then s.bump (Reg.LINKs_ERRCNT_crc_errors (n / 2)) 1 else s
      | .packet p =>
        let s1 := s.onLane n fun l => { l with notices := 0 }
        if n < 64 then s1.laneReceive n p else s1.pairReceive n p
      | .locked => s

/-- Whether a receiver listens: the lane is neither OFF nor IDLE, and the receiver is awake and not waiting for its far transmitter (R203,
R205). -/
def State.listens (s : State) (n : Nat) : Bool :=
  let st := s.laneState n
  st != lnOff && st != lnIdle && !s.on (Reg.LANEn_STATUS_rx_asleep n) && !s.on (Reg.LANEn_STATUS_far_tx_asleep n)

/-- Blocks arrive on a lane (R194): the clock is recovered (Table 08-4, step 2), and what the receiver makes of them is taken in order. Where
the lane trains anew among them, the rest finds the receiver without lock. -/
def State.laneIn (s : State) (n : Nat) (rx : LaneRx) (converged : Bool) : State :=
  if rx.blocks.isEmpty || !s.listens n then s
  else
    let r := s.pcsIn n rx
    let s1 := (s.raise (Reg.LANEn_STATUS_signal n)).onLane n fun l => { l with
      headers := r.1.headers, invalid := r.1.invalid, packet := r.1.packet, step := max 2 l.step }
    r.2.foldl (fun (s : State) it => s.rxItem n converged it) s1

/-! ### The commands -/

/-- TRAINING_BLOCK_RX (R198, R199). `converged`: the receiver's own equalisers have converged. -/
def execTrainingBlockRx (dt : Nat) (n : Fin 68) (rx : LaneRx) (converged : Bool) (s : State) : Result :=
  .next ((s.advance dt).laneIn n rx converged)

/-- BLOCK_LOCK_ACQUIRED (R194, R205, Table 08-4): the blocks that give lock. -/
def execBlockLockAcquired (dt : Nat) (n : Fin 68) (rx : LaneRx) (s : State) : Result := .next ((s.advance dt).laneIn n rx false)

/-- LANE_DOWN (R201). -/
def execLaneDown (dt : Nat) (n : Fin 68) (cause : LaneDownCause) (s : State) : Result :=
  let s := s.advance dt
  match cause with
  | .lockLost rx => .next (s.laneIn n rx false)
  | .signalLost => if s.on (Reg.LANEn_STATUS_signal n) then .next (s.signalOut n) else .next s
  | .trainingBlock rx => .next (s.laneIn n rx false)

/-- LANE_BER_WARN (R202): blocks with invalid sync headers. -/
def execLaneBerWarn (dt : Nat) (n : Fin 68) (rx : LaneRx) (s : State) : Result := .next ((s.advance dt).laneIn n rx false)

/-- SLEEP_NOTICE_RX (R205). -/
def execSleepNoticeRx (dt : Nat) (n : Fin 68) (rx : LaneRx) (s : State) : Result := .next ((s.advance dt).laneIn n rx false)

/-- STATUS_RX (R244). -/
def execStatusRx (dt : Nat) (lane : Fin 68) (rx : LaneRx) (s : State) : Result := .next ((s.advance dt).laneIn lane rx false)

/-- MEASURE_RX (R259). -/
def execMeasureRx (dt : Nat) (lane : Fin 68) (rx : LaneRx) (s : State) : Result := .next ((s.advance dt).laneIn lane rx false)

/-- MEMREAD_RX (R242). -/
def execMemreadRx (dt : Nat) (lane : Fin 68) (rx : LaneRx) (s : State) : Result := .next ((s.advance dt).laneIn lane rx false)

/-- NODE_EVENT_RX (R248). -/
def execNodeEventRx (dt : Nat) (lane : Fin 68) (rx : LaneRx) (s : State) : Result := .next ((s.advance dt).laneIn lane rx false)

/-- DOWNSTREAM_PASSTHROUGH (R223). -/
def execDownstreamPassthrough (dt : Nat) (lane : Fin 68) (rx : LaneRx) (s : State) : Result :=
  .next ((s.advance dt).laneIn lane rx false)

/-- SYNC_RESPONSE_RX (R230). -/
def execSyncResponseRx (dt : Nat) (lane : Fin 68) (rx : LaneRx) (s : State) : Result := .next ((s.advance dt).laneIn lane rx false)

/-- RELAY_DOWN_RX (R451). -/
def execRelayDownRx (dt : Nat) (lane : Fin 68) (rx : LaneRx) (s : State) : Result := .next ((s.advance dt).laneIn lane rx false)

/-- RELAY_UP_RX (R451). -/
def execRelayUpRx (dt : Nat) (lane : Fin 68) (rx : LaneRx) (s : State) : Result := .next ((s.advance dt).laneIn lane rx false)

end Sys2Proof.Machine
end

