-- ==== Sys2Proof/Machine/Dispatch.lean ====
section
/-! DEFINITION. The dispatch: one arm per command, each a direct call of its meaning. -/

namespace Sys2Proof.Machine

/-- The effect of a command on everything but the queue. -/
def exec (i : Instr) (s : State) : Host.Outcome State Fault Refusal :=
  match i with
  | .registerWrite dt off v => Sys2Proof.Machine.execRegisterWrite dt off v s
  | .bar0BadAccess dt off bytes isWrite => Sys2Proof.Machine.execBar0BadAccess dt off bytes isWrite s
  | .loRegisterRead dt off => Sys2Proof.Machine.execLoRegisterRead dt off s
  | .hiRegisterWrite dt off v => Sys2Proof.Machine.execHiRegisterWrite dt off v s
  | .setupLock dt v trainFails => Sys2Proof.Machine.execSetupLock dt v trainFails s
  | .readyEntry dt => Sys2Proof.Machine.execReadyEntry dt s
  | .powerOnReset dt boot => Sys2Proof.Machine.execPowerOnReset dt boot s
  | .warmReset dt pulseNs boot => Sys2Proof.Machine.execWarmReset dt pulseNs boot s
  | .hostReset dt kind => Sys2Proof.Machine.execHostReset dt kind s
  | .powerFault dt d => Sys2Proof.Machine.execPowerFault dt d s
  | .thermalTrip dt hot boot => Sys2Proof.Machine.execThermalTrip dt hot boot s
  | .secAlarm dt src active => Sys2Proof.Machine.execSecAlarm dt src active s
  | .enclosureAlarm dt lowNs => Sys2Proof.Machine.execEnclosureAlarm dt lowNs s
  | .glitchAlarm dt d active => Sys2Proof.Machine.execGlitchAlarm dt d active s
  | .clockMonitorAlarm dt active => Sys2Proof.Machine.execClockMonitorAlarm dt active s
  | .debugUnlockAttempt dt => Sys2Proof.Machine.execDebugUnlockAttempt dt s
  | .secUnlock dt v => Sys2Proof.Machine.execSecUnlock dt v s
  | .wake dt v => Sys2Proof.Machine.execWake dt v s
  | .aliveToggle dt => Sys2Proof.Machine.execAliveToggle dt s
  | .fireInhibitAssert dt lowNs => Sys2Proof.Machine.execFireInhibitAssert dt lowNs s
  | .fireInhibitRelease dt highNs => Sys2Proof.Machine.execFireInhibitRelease dt highNs s
  | .inhibitBlockRepeat dt => Sys2Proof.Machine.execInhibitBlockRepeat dt s
  | .encEnable dt n cfg => Sys2Proof.Machine.execEncEnable dt n cfg s
  | .encoderEdge dt levels => Sys2Proof.Machine.execEncoderEdge dt levels s
  | .indexLatch dt levels => Sys2Proof.Machine.execIndexLatch dt levels s
  | .indexDriftWrite dt n v => Sys2Proof.Machine.execIndexDriftWrite dt n v s
  | .trigEnable dt n cfg => Sys2Proof.Machine.execTrigEnable dt n cfg s
  | .trigCapture dt levels => Sys2Proof.Machine.execTrigCapture dt levels s
  | .trigPop dt n => Sys2Proof.Machine.execTrigPop dt n s
  | .observerTick dt k => Sys2Proof.Machine.execObserverTick dt k s
  | .posValid dt => Sys2Proof.Machine.execPosValid dt s
  | .sourceFailed dt k => Sys2Proof.Machine.execSourceFailed dt k s
  | .obsSnapshot dt => Sys2Proof.Machine.execObsSnapshot dt s
  | .obsReadmit dt => Sys2Proof.Machine.execObsReadmit dt s
  | .obsResync dt => Sys2Proof.Machine.execObsResync dt s
  | .cmpArm dt n => Sys2Proof.Machine.execCmpArm dt n s
  | .cmpDisarm dt n => Sys2Proof.Machine.execCmpDisarm dt n s
  | .cmpCrossing dt n => Sys2Proof.Machine.execCmpCrossing dt n s
  | .cmpPulseCommit dt n => Sys2Proof.Machine.execCmpPulseCommit dt n s
  | .cmpPulseEnd dt n => Sys2Proof.Machine.execCmpPulseEnd dt n s
  | .cmpTimePulse dt n => Sys2Proof.Machine.execCmpTimePulse dt n s
  | .tb3RateUpdate dt => Sys2Proof.Machine.execTb3RateUpdate dt s
  | .tbSnapshot dt => Sys2Proof.Machine.execTbSnapshot dt s
  | .stepTb3 dt => Sys2Proof.Machine.execStepTb3 dt s
  | .ptpSyncRx dt d h origin => Sys2Proof.Machine.execPtpSyncRx dt d h origin s
  | .ptpFollowUpRx dt d h origin => Sys2Proof.Machine.execPtpFollowUpRx dt d h origin s
  | .ptpDelayReqSend dt d => Sys2Proof.Machine.execPtpDelayReqSend dt d s
  | .ptpDelayRespRx dt d h received => Sys2Proof.Machine.execPtpDelayRespRx dt d h received s
  | .ptpAnnounceRx dt d h data => Sys2Proof.Machine.execPtpAnnounceRx dt d h data s
  | .ptpPdelayReqSend dt d => Sys2Proof.Machine.execPtpPdelayReqSend dt d s
  | .ptpPdelayReqRx dt d h => Sys2Proof.Machine.execPtpPdelayReqRx dt d h s
  | .ptpPdelayRespRx dt d h followUp stamp => Sys2Proof.Machine.execPtpPdelayRespRx dt d h followUp stamp s
  | .ptpIgnoredRx dt d h => Sys2Proof.Machine.execPtpIgnoredRx dt d h s
  | .ptpHoldover dt d => Sys2Proof.Machine.execPtpHoldover dt d s
  | .tb3Switch dt => Sys2Proof.Machine.execTb3Switch dt s
  | .domainEligibleRestore dt => Sys2Proof.Machine.execDomainEligibleRestore dt s
  | .wcPublish dt => Sys2Proof.Machine.execWcPublish dt s
  | .wcMessageRx dt port carrier data => Sys2Proof.Machine.execWcMessageRx dt port carrier data s
  | .wcStale dt => Sys2Proof.Machine.execWcStale dt s
  | .ethFrameRx dt port dest bad carrier => Sys2Proof.Machine.execEthFrameRx dt port dest bad carrier s
  | .originSet dt => Sys2Proof.Machine.execOriginSet dt s
  | .bindSend dt h => Sys2Proof.Machine.execBindSend dt h s
  | .lineSend dt h => Sys2Proof.Machine.execLineSend dt h s
  | .sheetMissing dt => Sys2Proof.Machine.execSheetMissing dt s
  | .streamEnd dt => Sys2Proof.Machine.execStreamEnd dt s
  | .drainComplete dt => Sys2Proof.Machine.execDrainComplete dt s
  | .tableTakesEffect dt kind index sub => Sys2Proof.Machine.execTableTakesEffect dt kind index sub s
  | .ceilingRecompute dt => Sys2Proof.Machine.execCeilingRecompute dt s
  | .leadWrite dt v => Sys2Proof.Machine.execLeadWrite dt v s
  | .sliceBeginLine dt q => Sys2Proof.Machine.execSliceBeginLine dt q s
  | .blockFetch dt q wait => Sys2Proof.Machine.execBlockFetch dt q wait s
  | .blockVerify dt q => Sys2Proof.Machine.execBlockVerify dt q s
  | .spareAuditLine dt crc => Sys2Proof.Machine.execSpareAuditLine dt crc s
  | .sliceLineTimeout dt n => Sys2Proof.Machine.execSliceLineTimeout dt n s
  | .sliceTakeover dt => Sys2Proof.Machine.execSliceTakeover dt s
  | .spareTake dt n => Sys2Proof.Machine.execSpareTake dt n s
  | .spareRestore dt n => Sys2Proof.Machine.execSpareRestore dt n s
  | .sliceBistDone dt pass => Sys2Proof.Machine.execSliceBistDone dt pass s
  | .recutStart dt => Sys2Proof.Machine.execRecutStart dt s
  | .recutDone dt => Sys2Proof.Machine.execRecutDone dt s
  | .rasterBankRelease dt kind q sub => Sys2Proof.Machine.execRasterBankRelease dt kind q sub s
  | .seamAssemble dt h => Sys2Proof.Machine.execSeamAssemble dt h s
  | .mapDataSend dt h => Sys2Proof.Machine.execMapDataSend dt h s
  | .mapCommitSend dt h => Sys2Proof.Machine.execMapCommitSend dt h s
  | .bankSpareSwitch dt q => Sys2Proof.Machine.execBankSpareSwitch dt q s
  | .laneEnable dt n => Sys2Proof.Machine.execLaneEnable dt n s
  | .trainingBlockRx dt n rx converged => Sys2Proof.Machine.execTrainingBlockRx dt n rx converged s
  | .trainTimeout dt n => Sys2Proof.Machine.execTrainTimeout dt n s
  | .laneRetrain dt n => Sys2Proof.Machine.execLaneRetrain dt n s
  | .laneDown dt n cause => Sys2Proof.Machine.execLaneDown dt n cause s
  | .laneBerWarn dt n rx => Sys2Proof.Machine.execLaneBerWarn dt n rx s
  | .sleepTx dt n => Sys2Proof.Machine.execSleepTx dt n s
  | .sleepRx dt n => Sys2Proof.Machine.execSleepRx dt n s
  | .wakeTx dt n => Sys2Proof.Machine.execWakeTx dt n s
  | .wakeRx dt n => Sys2Proof.Machine.execWakeRx dt n s
  | .sleepNoticeRx dt n rx => Sys2Proof.Machine.execSleepNoticeRx dt n rx s
  | .signalDetectWake dt n => Sys2Proof.Machine.execSignalDetectWake dt n s
  | .relockTimeout dt n => Sys2Proof.Machine.execRelockTimeout dt n s
  | .eyeStart dt n => Sys2Proof.Machine.execEyeStart dt n s
  | .eyeStop dt n compared errors => Sys2Proof.Machine.execEyeStop dt n compared errors s
  | .eyeScanDone dt n errors => Sys2Proof.Machine.execEyeScanDone dt n errors s
  | .statusRx dt lane rx => Sys2Proof.Machine.execStatusRx dt lane rx s
  | .measureRx dt lane rx => Sys2Proof.Machine.execMeasureRx dt lane rx s
  | .memreadRx dt lane rx => Sys2Proof.Machine.execMemreadRx dt lane rx s
  | .nodeEventRx dt lane rx => Sys2Proof.Machine.execNodeEventRx dt lane rx s
  | .downstreamPassthrough dt lane rx => Sys2Proof.Machine.execDownstreamPassthrough dt lane rx s
  | .syncRequestSend dt a => Sys2Proof.Machine.execSyncRequestSend dt a s
  | .syncResponseRx dt lane rx => Sys2Proof.Machine.execSyncResponseRx dt lane rx s
  | .nodeIdentify dt a => Sys2Proof.Machine.execNodeIdentify dt a s
  | .identifyStepTimeout dt a => Sys2Proof.Machine.execIdentifyStepTimeout dt a s
  | .nodeLost dt a => Sys2Proof.Machine.execNodeLost dt a s
  | .ringBreak dt str hop => Sys2Proof.Machine.execRingBreak dt str hop s
  | .ringRestored dt str hop => Sys2Proof.Machine.execRingRestored dt str hop s
  | .resistScan dt op => Sys2Proof.Machine.execResistScan dt op s
  | .dropCheck dt op => Sys2Proof.Machine.execDropCheck dt op s
  | .dropGateEdge dt q level => Sys2Proof.Machine.execDropGateEdge dt q level s
  | .gateBlocked dt q => Sys2Proof.Machine.execGateBlocked dt q s
  | .spitPlan dt op => Sys2Proof.Machine.execSpitPlan dt op s
  | .keepWetSpit dt a => Sys2Proof.Machine.execKeepWetSpit dt a s
  | .warmLevelUpdate dt a => Sys2Proof.Machine.execWarmLevelUpdate dt a s
  | .headModelUpdate dt a => Sys2Proof.Machine.execHeadModelUpdate dt a s
  | .headSenseCorrection dt a => Sys2Proof.Machine.execHeadSenseCorrection dt a s
  | .chipModelUpdate dt powerMw => Sys2Proof.Machine.execChipModelUpdate dt powerMw s
  | .chipSensorCorrection dt sensors => Sys2Proof.Machine.execChipSensorCorrection dt sensors s
  | .throttleUpdate dt => Sys2Proof.Machine.execThrottleUpdate dt s
  | .headAutoRelease dt a => Sys2Proof.Machine.execHeadAutoRelease dt a s
  | .headRelease dt v => Sys2Proof.Machine.execHeadRelease dt v s
  | .csiFrameStart dt p vc corrected => Sys2Proof.Machine.execCsiFrameStart dt p vc corrected s
  | .csiFrameEnd dt p vc corrected => Sys2Proof.Machine.execCsiFrameEnd dt p vc corrected s
  | .csiLongPacket dt p h payload crcOk => Sys2Proof.Machine.execCsiLongPacket dt p h payload crcOk s
  | .frameTimeout dt p => Sys2Proof.Machine.execFrameTimeout dt p s
  | .cameraSilent dt p => Sys2Proof.Machine.execCameraSilent dt p s
  | .flushStamps dt p => Sys2Proof.Machine.execFlushStamps dt p s
  | .camCommit dt p => Sys2Proof.Machine.execCamCommit dt p s
  | .pipelineTile dt => Sys2Proof.Machine.execPipelineTile dt s
  | .regionClose dt p => Sys2Proof.Machine.execRegionClose dt p s
  | .foremanRecord dt => Sys2Proof.Machine.execForemanRecord dt s
  | .feedForwardUpdate dt => Sys2Proof.Machine.execFeedForwardUpdate dt s
  | .fmHold dt loop q => Sys2Proof.Machine.execFmHold dt loop q s
  | .fmNozClear dt v => Sys2Proof.Machine.execFmNozClear dt v s
  | .ingest dt op data => Sys2Proof.Machine.execIngest dt op data s
  | .storePrecompressed dt op data => Sys2Proof.Machine.execStorePrecompressed dt op data s
  | .blockFree dt op => Sys2Proof.Machine.execBlockFree dt op s
  | .blockRelease dt h => Sys2Proof.Machine.execBlockRelease dt h s
  | .issueDoorbell dt g v => Sys2Proof.Machine.execIssueDoorbell dt g v s
  | .completionDoorbell dt g v => Sys2Proof.Machine.execCompletionDoorbell dt g v s
  | .eventDoorbell dt v => Sys2Proof.Machine.execEventDoorbell dt v s
  | .statsDoorbell dt v => Sys2Proof.Machine.execStatsDoorbell dt v s
  | .bar2BadWrite dt off bytes => Sys2Proof.Machine.execBar2BadWrite dt off bytes s
  | .ringEnable dt r v => Sys2Proof.Machine.execRingEnable dt r v s
  | .descriptorFetch dt desc dma => Sys2Proof.Machine.execDescriptorFetch dt desc dma s
  | .completionWrite dt op ok => Sys2Proof.Machine.execCompletionWrite dt op ok s
  | .dmaTimeout dt op => Sys2Proof.Machine.execDmaTimeout dt op s
  | .ringInterrupt dt r => Sys2Proof.Machine.execRingInterrupt dt r s
  | .eventPost dt code args ok => Sys2Proof.Machine.execEventPost dt code args ok s
  | .statsRecordWrite dt ok => Sys2Proof.Machine.execStatsRecordWrite dt ok s
  | .tableLoad dt op data => Sys2Proof.Machine.execTableLoad dt op data s
  | .jobQueue dt op list handles => Sys2Proof.Machine.execJobQueue dt op list handles s
  | .jobStop dt op => Sys2Proof.Machine.execJobStop dt op s
  | .headQuery dt op => Sys2Proof.Machine.execHeadQuery dt op s
  | .motionMove dt op => Sys2Proof.Machine.execMotionMove dt op s
  | .capture dt op => Sys2Proof.Machine.execCapture dt op s
  | .keyLoad dt op data => Sys2Proof.Machine.execKeyLoad dt op data s
  | .retire dt op => Sys2Proof.Machine.execRetire dt op s
  | .pageRetired dt page errors => Sys2Proof.Machine.execPageRetired dt page errors s
  | .spareBank dt op => Sys2Proof.Machine.execSpareBank dt op s
  | .logRead dt op => Sys2Proof.Machine.execLogRead dt op s
  | .tallyCtrl dt op => Sys2Proof.Machine.execTallyCtrl dt op s
  | .powerState dt op => Sys2Proof.Machine.execPowerState dt op s
  | .codewordRead dt r => Sys2Proof.Machine.execCodewordRead dt r s
  | .partialWrite dt t op => Sys2Proof.Machine.execPartialWrite dt t op s
  | .dramScrub dt errors wait => Sys2Proof.Machine.execDramScrub dt errors wait s
  | .sramScrub dt errors => Sys2Proof.Machine.execSramScrub dt errors s
  | .renewSend dt => Sys2Proof.Machine.execRenewSend dt s
  | .healthSend dt => Sys2Proof.Machine.execHealthSend dt s
  | .leaseMessageRx dt viaNet data => Sys2Proof.Machine.execLeaseMessageRx dt viaNet data s
  | .tallyFence dt => Sys2Proof.Machine.execTallyFence dt s
  | .leaseLate dt => Sys2Proof.Machine.execLeaseLate dt s
  | .tallyLapseTake dt => Sys2Proof.Machine.execTallyLapseTake dt s
  | .pairStartTimeout dt => Sys2Proof.Machine.execPairStartTimeout dt s
  | .arbiterTick dt k => Sys2Proof.Machine.execArbiterTick dt k s
  | .handoverTimeout dt => Sys2Proof.Machine.execHandoverTimeout dt s
  | .mirrorSend dt full => Sys2Proof.Machine.execMirrorSend dt full s
  | .mirrorRx dt lane number item => Sys2Proof.Machine.execMirrorRx dt lane number item s
  | .mirrorLost dt cause => Sys2Proof.Machine.execMirrorLost dt cause s
  | .mirrorSynced dt => Sys2Proof.Machine.execMirrorSynced dt s
  | .relayDownRx dt lane rx => Sys2Proof.Machine.execRelayDownRx dt lane rx s
  | .relayUpRx dt lane rx => Sys2Proof.Machine.execRelayUpRx dt lane rx s
  | .deputyHalt dt => Sys2Proof.Machine.execDeputyHalt dt s
  | .doubleFault dt a => Sys2Proof.Machine.execDoubleFault dt a s
  | .winderTick dt => Sys2Proof.Machine.execWinderTick dt s
  | .winderEnable dt n v => Sys2Proof.Machine.execWinderEnable dt n v s
  | .rampRegisterWrite dt n decel v => Sys2Proof.Machine.execRampRegisterWrite dt n decel v s
  | .chopperTrip dt n phaseB level => Sys2Proof.Machine.execChopperTrip dt n phaseB level s
  | .chopperOffEnd dt n phaseB => Sys2Proof.Machine.execChopperOffEnd dt n phaseB s
  | .clearFault dt n v => Sys2Proof.Machine.execClearFault dt n v s
  | .holdDelayExpire dt n => Sys2Proof.Machine.execHoldDelayExpire dt n s
  | .switchEdge dt n sw level => Sys2Proof.Machine.execSwitchEdge dt n sw level s
  | .ssiRead dt k ready data low => Sys2Proof.Machine.execSsiRead dt k ready data low s
  | .glbCauseWrite dt v => Sys2Proof.Machine.execGlbCauseWrite dt v s
  | .glbIntEnWrite dt v => Sys2Proof.Machine.execGlbIntEnWrite dt v s
  | .ethLinkChange dt port up => Sys2Proof.Machine.execEthLinkChange dt port up s
  | .pcieLinkTrained dt => Sys2Proof.Machine.execPcieLinkTrained dt s
  | .domainPowerReturn dt d trainFails => Sys2Proof.Machine.execDomainPowerReturn dt d trainFails s
  | .mirrorAckTimeout dt => Sys2Proof.Machine.execMirrorAckTimeout dt s
  | .tallyCtrlTimeout dt => Sys2Proof.Machine.execTallyCtrlTimeout dt s
  | .dropWindowEnd dt q => Sys2Proof.Machine.execDropWindowEnd dt q s
  | .blockLockAcquired dt n rx => Sys2Proof.Machine.execBlockLockAcquired dt n rx s

end Sys2Proof.Machine
end

