-- ==== Sys2Proof/WellFormed.lean ====
section
/-! DEFINITION. Which commands are well formed: what their operands must satisfy beyond their types, by the rules that give the sizes. -/

namespace Sys2Proof

/-- The errors of a burst name no DQ pin and no virtual address symbol twice (R418, R419). -/
def burstOk (e : BurstErrors) : Bool := decide (e.pins.map (·.1)).Nodup && decide (e.virt.map fun x => (x.1, x.2.1)).Nodup

/-- The error bits of an SRAM word: positions below 290, none twice (R420). -/
def sramBitsOk (e : List Nat) : Bool := e.all (fun p => decide (p < 290)) && decide e.Nodup

/-- Requests waiting at the controllers name each plane once (R417). -/
def waitOk (w : StoreWait) : Bool := decide (w.raster.map (·.1)).Nodup

/-- The facts of a boot give all six on-die sensors (R277). -/
def bootOk (b : BootFacts) : Bool := b.sensors.length == 6

/-- A table, job or block as read from host memory is at most 256 MiB (R398). -/
def hostDataOk (d : List Byte) : Bool := decide (d.length ≤ 268435456)

/-- A word read names a codeword of at most 96 GiB, and error positions that exist (R412, R418, R420). -/
def wordReadOk : WordRead → Bool
  | .dram w e => decide (w < 96 * 2 ^ 25) && burstOk e
  | .sram _ e _ => sramBitsOk e

/-- A partial write stays in one access unit of 128 bytes (R413, R424). -/
def partialOk : PartialTarget → Bool
  | .dram a d e => decide (a % 128 + d.length ≤ 128) && decide (1 ≤ d.length) && burstOk e
  | .sram _ e _ => sramBitsOk e

/-- The item of a mirror packet names what exists (Table 17-5). -/
def mirrorItemOk : MirrorItem → Bool
  | .nozzle h r c _ _ _ _ => decide (h < 256) && decide (r < 2) && decide (c < 8192)
  | .checkpoint q _ _ _ _ => decide (q < 10)
  | .block _ slot _ h _ _ _ _ => decide (slot < 16) && decide (1 ≤ h) && decide (h ≤ 35)
  | _ => true

/-- Whether a command is well formed. -/
def Instr.wellFormed : Instr → Bool
  | .registerWrite _ off _ | .hiRegisterWrite _ off _ | .loRegisterRead _ off => off.toNat % 4 == 0
  | .bar0BadAccess _ off bytes _ => decide (1 ≤ bytes) && !(bytes == 4 && off.toNat % 4 == 0)
  | .powerOnReset _ b | .warmReset _ _ b | .thermalTrip _ _ b => bootOk b
  | .blockFetch _ _ w => waitOk w
  | .leaseMessageRx _ _ d => d.length == 44 || d.length == 46
  | .chipModelUpdate _ p => p.length == 10
  | .chipSensorCorrection _ t => t.length == 6
  | .csiLongPacket _ _ h d _ => d.length == h.wordCount.toNat
  | .descriptorFetch _ d _ => d.length == 64
  | .keyLoad _ _ d => d.isEmpty || d.length == 72
  | .eventPost _ code args _ => decide (1 ≤ code.toNat / 256) && decide (code.toNat / 256 ≤ 13) && decide (args.length ≤ 27)
  | .bar2BadWrite _ off bytes => decide (1 ≤ bytes) && !(bytes == 8 && off.toNat % 4096 < 16 && off.toNat % 8 == 0 && decide (off.toNat / 4096 < 17))
  | .ingest _ _ d | .storePrecompressed _ _ d => decide (d.length ≤ 1048608)
  | .tableLoad _ _ d => hostDataOk d
  | .jobQueue _ _ l hs => hostDataOk l && hs.all hostDataOk
  | .eyeStop _ _ compared errors => decide (errors ≤ compared)
  | .codewordRead _ r => wordReadOk r
  | .partialWrite _ t _ => partialOk t
  | .dramScrub _ e w => (e.all fun x => burstOk x.2) && waitOk w
  | .pageRetired _ _ e => e.all fun x => burstOk x.2
  | .sramScrub _ e => e.all fun x => sramBitsOk x.2.1
  | .mirrorRx _ _ _ i => mirrorItemOk i
  | .ssiRead _ _ _ d _ => decide (d.length ≤ 33)
  | _ => true

end Sys2Proof
end

