-- ==== Sys2Proof/Safety.lean ====
section
/-! DEFINITION. The terms in which statements about the machine are made: what a command gives, the words no command changes, the
distance of a command, and the commands that are no reset. -/

namespace Sys2Proof

/-- How many beats a command comes after the one before it. -/
def Instr.dt : Instr → Nat
  | .registerWrite dt _ _ => dt
  | .bar0BadAccess dt _ _ _ => dt
  | .loRegisterRead dt _ => dt
  | .hiRegisterWrite dt _ _ => dt
  | .setupLock dt _ _ => dt
  | .readyEntry dt => dt
  | .powerOnReset dt _ => dt
  | .warmReset dt _ _ => dt
  | .hostReset dt _ => dt
  | .powerFault dt _ => dt
  | .thermalTrip dt _ _ => dt
  | .secAlarm dt _ _ => dt
  | .enclosureAlarm dt _ => dt
  | .glitchAlarm dt _ _ => dt
  | .clockMonitorAlarm dt _ => dt
  | .debugUnlockAttempt dt => dt
  | .secUnlock dt _ => dt
  | .wake dt _ => dt
  | .aliveToggle dt => dt
  | .fireInhibitAssert dt _ => dt
  | .fireInhibitRelease dt _ => dt
  | .inhibitBlockRepeat dt => dt
  | .encEnable dt _ _ => dt
  | .encoderEdge dt _ => dt
  | .indexLatch dt _ => dt
  | .indexDriftWrite dt _ _ => dt
  | .trigEnable dt _ _ => dt
  | .trigCapture dt _ => dt
  | .trigPop dt _ => dt
  | .observerTick dt _ => dt
  | .posValid dt => dt
  | .sourceFailed dt _ => dt
  | .obsSnapshot dt => dt
  | .obsReadmit dt => dt
  | .obsResync dt => dt
  | .cmpArm dt _ => dt
  | .cmpDisarm dt _ => dt
  | .cmpCrossing dt _ => dt
  | .cmpPulseCommit dt _ => dt
  | .cmpPulseEnd dt _ => dt
  | .cmpTimePulse dt _ => dt
  | .tb3RateUpdate dt => dt
  | .tbSnapshot dt => dt
  | .stepTb3 dt => dt
  | .ptpSyncRx dt _ _ _ => dt
  | .ptpFollowUpRx dt _ _ _ => dt
  | .ptpDelayReqSend dt _ => dt
  | .ptpDelayRespRx dt _ _ _ => dt
  | .ptpAnnounceRx dt _ _ _ => dt
  | .ptpPdelayReqSend dt _ => dt
  | .ptpPdelayReqRx dt _ _ => dt
  | .ptpPdelayRespRx dt _ _ _ _ => dt
  | .ptpIgnoredRx dt _ _ => dt
  | .ptpHoldover dt _ => dt
  | .tb3Switch dt => dt
  | .domainEligibleRestore dt => dt
  | .wcPublish dt => dt
  | .wcMessageRx dt _ _ _ => dt
  | .wcStale dt => dt
  | .ethFrameRx dt _ _ _ _ => dt
  | .originSet dt => dt
  | .bindSend dt _ => dt
  | .lineSend dt _ => dt
  | .sheetMissing dt => dt
  | .streamEnd dt => dt
  | .drainComplete dt => dt
  | .tableTakesEffect dt _ _ _ => dt
  | .ceilingRecompute dt => dt
  | .leadWrite dt _ => dt
  | .sliceBeginLine dt _ => dt
  | .blockFetch dt _ _ => dt
  | .blockVerify dt _ => dt
  | .spareAuditLine dt _ => dt
  | .sliceLineTimeout dt _ => dt
  | .sliceTakeover dt => dt
  | .spareTake dt _ => dt
  | .spareRestore dt _ => dt
  | .sliceBistDone dt _ => dt
  | .recutStart dt => dt
  | .recutDone dt => dt
  | .rasterBankRelease dt _ _ _ => dt
  | .seamAssemble dt _ => dt
  | .mapDataSend dt _ => dt
  | .mapCommitSend dt _ => dt
  | .bankSpareSwitch dt _ => dt
  | .laneEnable dt _ => dt
  | .trainingBlockRx dt _ _ _ => dt
  | .trainTimeout dt _ => dt
  | .laneRetrain dt _ => dt
  | .laneDown dt _ _ => dt
  | .laneBerWarn dt _ _ => dt
  | .sleepTx dt _ => dt
  | .sleepRx dt _ => dt
  | .wakeTx dt _ => dt
  | .wakeRx dt _ => dt
  | .sleepNoticeRx dt _ _ => dt
  | .signalDetectWake dt _ => dt
  | .relockTimeout dt _ => dt
  | .eyeStart dt _ => dt
  | .eyeStop dt _ _ _ => dt
  | .eyeScanDone dt _ _ => dt
  | .statusRx dt _ _ => dt
  | .measureRx dt _ _ => dt
  | .memreadRx dt _ _ => dt
  | .nodeEventRx dt _ _ => dt
  | .downstreamPassthrough dt _ _ => dt
  | .syncRequestSend dt _ => dt
  | .syncResponseRx dt _ _ => dt
  | .nodeIdentify dt _ => dt
  | .identifyStepTimeout dt _ => dt
  | .nodeLost dt _ => dt
  | .ringBreak dt _ _ => dt
  | .ringRestored dt _ _ => dt
  | .resistScan dt _ => dt
  | .dropCheck dt _ => dt
  | .dropGateEdge dt _ _ => dt
  | .gateBlocked dt _ => dt
  | .spitPlan dt _ => dt
  | .keepWetSpit dt _ => dt
  | .warmLevelUpdate dt _ => dt
  | .headModelUpdate dt _ => dt
  | .headSenseCorrection dt _ => dt
  | .chipModelUpdate dt _ => dt
  | .chipSensorCorrection dt _ => dt
  | .throttleUpdate dt => dt
  | .headAutoRelease dt _ => dt
  | .headRelease dt _ => dt
  | .csiFrameStart dt _ _ _ => dt
  | .csiFrameEnd dt _ _ _ => dt
  | .csiLongPacket dt _ _ _ _ => dt
  | .frameTimeout dt _ => dt
  | .cameraSilent dt _ => dt
  | .flushStamps dt _ => dt
  | .camCommit dt _ => dt
  | .pipelineTile dt => dt
  | .regionClose dt _ => dt
  | .foremanRecord dt => dt
  | .feedForwardUpdate dt => dt
  | .fmHold dt _ _ => dt
  | .fmNozClear dt _ => dt
  | .ingest dt _ _ => dt
  | .storePrecompressed dt _ _ => dt
  | .blockFree dt _ => dt
  | .blockRelease dt _ => dt
  | .issueDoorbell dt _ _ => dt
  | .completionDoorbell dt _ _ => dt
  | .eventDoorbell dt _ => dt
  | .statsDoorbell dt _ => dt
  | .bar2BadWrite dt _ _ => dt
  | .ringEnable dt _ _ => dt
  | .descriptorFetch dt _ _ => dt
  | .completionWrite dt _ _ => dt
  | .dmaTimeout dt _ => dt
  | .ringInterrupt dt _ => dt
  | .eventPost dt _ _ _ => dt
  | .statsRecordWrite dt _ => dt
  | .tableLoad dt _ _ => dt
  | .jobQueue dt _ _ _ => dt
  | .jobStop dt _ => dt
  | .headQuery dt _ => dt
  | .motionMove dt _ => dt
  | .capture dt _ => dt
  | .keyLoad dt _ _ => dt
  | .retire dt _ => dt
  | .pageRetired dt _ _ => dt
  | .spareBank dt _ => dt
  | .logRead dt _ => dt
  | .tallyCtrl dt _ => dt
  | .powerState dt _ => dt
  | .codewordRead dt _ => dt
  | .partialWrite dt _ _ => dt
  | .dramScrub dt _ _ => dt
  | .sramScrub dt _ => dt
  | .renewSend dt => dt
  | .healthSend dt => dt
  | .leaseMessageRx dt _ _ => dt
  | .tallyFence dt => dt
  | .leaseLate dt => dt
  | .tallyLapseTake dt => dt
  | .pairStartTimeout dt => dt
  | .arbiterTick dt _ => dt
  | .handoverTimeout dt => dt
  | .mirrorSend dt _ => dt
  | .mirrorRx dt _ _ _ => dt
  | .mirrorLost dt _ => dt
  | .mirrorSynced dt => dt
  | .relayDownRx dt _ _ => dt
  | .relayUpRx dt _ _ => dt
  | .deputyHalt dt => dt
  | .doubleFault dt _ => dt
  | .winderTick dt => dt
  | .winderEnable dt _ _ => dt
  | .rampRegisterWrite dt _ _ _ => dt
  | .chopperTrip dt _ _ _ => dt
  | .chopperOffEnd dt _ _ => dt
  | .clearFault dt _ _ => dt
  | .holdDelayExpire dt _ => dt
  | .switchEdge dt _ _ _ => dt
  | .ssiRead dt _ _ _ _ => dt
  | .glbCauseWrite dt _ => dt
  | .glbIntEnWrite dt _ => dt
  | .ethLinkChange dt _ _ => dt
  | .pcieLinkTrained dt => dt
  | .domainPowerReturn dt _ _ => dt
  | .mirrorAckTimeout dt => dt
  | .tallyCtrlTimeout dt => dt
  | .dropWindowEnd dt _ => dt
  | .blockLockAcquired dt _ _ => dt

/-- Whether a command is an ordinary one: no reset, no fault that may be one (POWER_FAULT of AON), no write of SETUP_LOCK and no host
write of any register, since one of them is SETUP_LOCK. -/
def Instr.ordinary : Instr → Bool
  | .registerWrite .. => false
  | .bar0BadAccess .. => true
  | .loRegisterRead .. => true
  | .hiRegisterWrite .. => false
  | .setupLock .. => false
  | .readyEntry .. => true
  | .powerOnReset .. => false
  | .warmReset .. => false
  | .hostReset .. => true
  | .powerFault .. => false
  | .thermalTrip .. => false
  | .secAlarm .. => true
  | .enclosureAlarm .. => true
  | .glitchAlarm .. => true
  | .clockMonitorAlarm .. => true
  | .debugUnlockAttempt .. => true
  | .secUnlock .. => true
  | .wake .. => true
  | .aliveToggle .. => true
  | .fireInhibitAssert .. => true
  | .fireInhibitRelease .. => true
  | .inhibitBlockRepeat .. => true
  | .encEnable .. => true
  | .encoderEdge .. => true
  | .indexLatch .. => true
  | .indexDriftWrite .. => true
  | .trigEnable .. => true
  | .trigCapture .. => true
  | .trigPop .. => true
  | .observerTick .. => true
  | .posValid .. => true
  | .sourceFailed .. => true
  | .obsSnapshot .. => true
  | .obsReadmit .. => true
  | .obsResync .. => true
  | .cmpArm .. => true
  | .cmpDisarm .. => true
  | .cmpCrossing .. => true
  | .cmpPulseCommit .. => true
  | .cmpPulseEnd .. => true
  | .cmpTimePulse .. => true
  | .tb3RateUpdate .. => true
  | .tbSnapshot .. => true
  | .stepTb3 .. => true
  | .ptpSyncRx .. => true
  | .ptpFollowUpRx .. => true
  | .ptpDelayReqSend .. => true
  | .ptpDelayRespRx .. => true
  | .ptpAnnounceRx .. => true
  | .ptpPdelayReqSend .. => true
  | .ptpPdelayReqRx .. => true
  | .ptpPdelayRespRx .. => true
  | .ptpIgnoredRx .. => true
  | .ptpHoldover .. => true
  | .tb3Switch .. => true
  | .domainEligibleRestore .. => true
  | .wcPublish .. => true
  | .wcMessageRx .. => true
  | .wcStale .. => true
  | .ethFrameRx .. => true
  | .originSet .. => true
  | .bindSend .. => true
  | .lineSend .. => true
  | .sheetMissing .. => true
  | .streamEnd .. => true
  | .drainComplete .. => true
  | .tableTakesEffect .. => true
  | .ceilingRecompute .. => true
  | .leadWrite .. => true
  | .sliceBeginLine .. => true
  | .blockFetch .. => true
  | .blockVerify .. => true
  | .spareAuditLine .. => true
  | .sliceLineTimeout .. => true
  | .sliceTakeover .. => true
  | .spareTake .. => true
  | .spareRestore .. => true
  | .sliceBistDone .. => true
  | .recutStart .. => true
  | .recutDone .. => true
  | .rasterBankRelease .. => true
  | .seamAssemble .. => true
  | .mapDataSend .. => true
  | .mapCommitSend .. => true
  | .bankSpareSwitch .. => true
  | .laneEnable .. => true
  | .trainingBlockRx .. => true
  | .trainTimeout .. => true
  | .laneRetrain .. => true
  | .laneDown .. => true
  | .laneBerWarn .. => true
  | .sleepTx .. => true
  | .sleepRx .. => true
  | .wakeTx .. => true
  | .wakeRx .. => true
  | .sleepNoticeRx .. => true
  | .signalDetectWake .. => true
  | .relockTimeout .. => true
  | .eyeStart .. => true
  | .eyeStop .. => true
  | .eyeScanDone .. => true
  | .statusRx .. => true
  | .measureRx .. => true
  | .memreadRx .. => true
  | .nodeEventRx .. => true
  | .downstreamPassthrough .. => true
  | .syncRequestSend .. => true
  | .syncResponseRx .. => true
  | .nodeIdentify .. => true
  | .identifyStepTimeout .. => true
  | .nodeLost .. => true
  | .ringBreak .. => true
  | .ringRestored .. => true
  | .resistScan .. => true
  | .dropCheck .. => true
  | .dropGateEdge .. => true
  | .gateBlocked .. => true
  | .spitPlan .. => true
  | .keepWetSpit .. => true
  | .warmLevelUpdate .. => true
  | .headModelUpdate .. => true
  | .headSenseCorrection .. => true
  | .chipModelUpdate .. => true
  | .chipSensorCorrection .. => true
  | .throttleUpdate .. => true
  | .headAutoRelease .. => true
  | .headRelease .. => true
  | .csiFrameStart .. => true
  | .csiFrameEnd .. => true
  | .csiLongPacket .. => true
  | .frameTimeout .. => true
  | .cameraSilent .. => true
  | .flushStamps .. => true
  | .camCommit .. => true
  | .pipelineTile .. => true
  | .regionClose .. => true
  | .foremanRecord .. => true
  | .feedForwardUpdate .. => true
  | .fmHold .. => true
  | .fmNozClear .. => true
  | .ingest .. => true
  | .storePrecompressed .. => true
  | .blockFree .. => true
  | .blockRelease .. => true
  | .issueDoorbell .. => true
  | .completionDoorbell .. => true
  | .eventDoorbell .. => true
  | .statsDoorbell .. => true
  | .bar2BadWrite .. => true
  | .ringEnable .. => true
  | .descriptorFetch .. => true
  | .completionWrite .. => true
  | .dmaTimeout .. => true
  | .ringInterrupt .. => true
  | .eventPost .. => true
  | .statsRecordWrite .. => true
  | .tableLoad .. => true
  | .jobQueue .. => true
  | .jobStop .. => true
  | .headQuery .. => true
  | .motionMove .. => true
  | .capture .. => true
  | .keyLoad .. => true
  | .retire .. => true
  | .pageRetired .. => true
  | .spareBank .. => true
  | .logRead .. => true
  | .tallyCtrl .. => true
  | .powerState .. => true
  | .codewordRead .. => true
  | .partialWrite .. => true
  | .dramScrub .. => true
  | .sramScrub .. => true
  | .renewSend .. => true
  | .healthSend .. => true
  | .leaseMessageRx .. => true
  | .tallyFence .. => true
  | .leaseLate .. => true
  | .tallyLapseTake .. => true
  | .pairStartTimeout .. => true
  | .arbiterTick .. => true
  | .handoverTimeout .. => true
  | .mirrorSend .. => true
  | .mirrorRx .. => true
  | .mirrorLost .. => true
  | .mirrorSynced .. => true
  | .relayDownRx .. => true
  | .relayUpRx .. => true
  | .deputyHalt .. => true
  | .doubleFault .. => true
  | .winderTick .. => true
  | .winderEnable .. => true
  | .rampRegisterWrite .. => true
  | .chopperTrip .. => true
  | .chopperOffEnd .. => true
  | .clearFault .. => true
  | .holdDelayExpire .. => true
  | .switchEdge .. => true
  | .ssiRead .. => true
  | .glbCauseWrite .. => true
  | .glbIntEnWrite .. => true
  | .ethLinkChange .. => true
  | .pcieLinkTrained .. => true
  | .domainPowerReturn .. => true
  | .mirrorAckTimeout .. => true
  | .tallyCtrlTimeout .. => true
  | .dropWindowEnd .. => true
  | .blockLockAcquired .. => true

/-- Whether a command clears SETUP_LOCK: a power-on reset (also that of AON), a warm reset, the analog trip (R491, R498, R516). -/
def Instr.clearsLock : Instr → Bool
  | .registerWrite .. => false
  | .bar0BadAccess .. => false
  | .loRegisterRead .. => false
  | .hiRegisterWrite .. => false
  | .setupLock .. => false
  | .readyEntry .. => false
  | .powerOnReset .. => true
  | .warmReset .. => true
  | .hostReset .. => false
  | .powerFault _ d => d == 0
  | .thermalTrip .. => true
  | .secAlarm .. => false
  | .enclosureAlarm .. => false
  | .glitchAlarm .. => false
  | .clockMonitorAlarm .. => false
  | .debugUnlockAttempt .. => false
  | .secUnlock .. => false
  | .wake .. => false
  | .aliveToggle .. => false
  | .fireInhibitAssert .. => false
  | .fireInhibitRelease .. => false
  | .inhibitBlockRepeat .. => false
  | .encEnable .. => false
  | .encoderEdge .. => false
  | .indexLatch .. => false
  | .indexDriftWrite .. => false
  | .trigEnable .. => false
  | .trigCapture .. => false
  | .trigPop .. => false
  | .observerTick .. => false
  | .posValid .. => false
  | .sourceFailed .. => false
  | .obsSnapshot .. => false
  | .obsReadmit .. => false
  | .obsResync .. => false
  | .cmpArm .. => false
  | .cmpDisarm .. => false
  | .cmpCrossing .. => false
  | .cmpPulseCommit .. => false
  | .cmpPulseEnd .. => false
  | .cmpTimePulse .. => false
  | .tb3RateUpdate .. => false
  | .tbSnapshot .. => false
  | .stepTb3 .. => false
  | .ptpSyncRx .. => false
  | .ptpFollowUpRx .. => false
  | .ptpDelayReqSend .. => false
  | .ptpDelayRespRx .. => false
  | .ptpAnnounceRx .. => false
  | .ptpPdelayReqSend .. => false
  | .ptpPdelayReqRx .. => false
  | .ptpPdelayRespRx .. => false
  | .ptpIgnoredRx .. => false
  | .ptpHoldover .. => false
  | .tb3Switch .. => false
  | .domainEligibleRestore .. => false
  | .wcPublish .. => false
  | .wcMessageRx .. => false
  | .wcStale .. => false
  | .ethFrameRx .. => false
  | .originSet .. => false
  | .bindSend .. => false
  | .lineSend .. => false
  | .sheetMissing .. => false
  | .streamEnd .. => false
  | .drainComplete .. => false
  | .tableTakesEffect .. => false
  | .ceilingRecompute .. => false
  | .leadWrite .. => false
  | .sliceBeginLine .. => false
  | .blockFetch .. => false
  | .blockVerify .. => false
  | .spareAuditLine .. => false
  | .sliceLineTimeout .. => false
  | .sliceTakeover .. => false
  | .spareTake .. => false
  | .spareRestore .. => false
  | .sliceBistDone .. => false
  | .recutStart .. => false
  | .recutDone .. => false
  | .rasterBankRelease .. => false
  | .seamAssemble .. => false
  | .mapDataSend .. => false
  | .mapCommitSend .. => false
  | .bankSpareSwitch .. => false
  | .laneEnable .. => false
  | .trainingBlockRx .. => false
  | .trainTimeout .. => false
  | .laneRetrain .. => false
  | .laneDown .. => false
  | .laneBerWarn .. => false
  | .sleepTx .. => false
  | .sleepRx .. => false
  | .wakeTx .. => false
  | .wakeRx .. => false
  | .sleepNoticeRx .. => false
  | .signalDetectWake .. => false
  | .relockTimeout .. => false
  | .eyeStart .. => false
  | .eyeStop .. => false
  | .eyeScanDone .. => false
  | .statusRx .. => false
  | .measureRx .. => false
  | .memreadRx .. => false
  | .nodeEventRx .. => false
  | .downstreamPassthrough .. => false
  | .syncRequestSend .. => false
  | .syncResponseRx .. => false
  | .nodeIdentify .. => false
  | .identifyStepTimeout .. => false
  | .nodeLost .. => false
  | .ringBreak .. => false
  | .ringRestored .. => false
  | .resistScan .. => false
  | .dropCheck .. => false
  | .dropGateEdge .. => false
  | .gateBlocked .. => false
  | .spitPlan .. => false
  | .keepWetSpit .. => false
  | .warmLevelUpdate .. => false
  | .headModelUpdate .. => false
  | .headSenseCorrection .. => false
  | .chipModelUpdate .. => false
  | .chipSensorCorrection .. => false
  | .throttleUpdate .. => false
  | .headAutoRelease .. => false
  | .headRelease .. => false
  | .csiFrameStart .. => false
  | .csiFrameEnd .. => false
  | .csiLongPacket .. => false
  | .frameTimeout .. => false
  | .cameraSilent .. => false
  | .flushStamps .. => false
  | .camCommit .. => false
  | .pipelineTile .. => false
  | .regionClose .. => false
  | .foremanRecord .. => false
  | .feedForwardUpdate .. => false
  | .fmHold .. => false
  | .fmNozClear .. => false
  | .ingest .. => false
  | .storePrecompressed .. => false
  | .blockFree .. => false
  | .blockRelease .. => false
  | .issueDoorbell .. => false
  | .completionDoorbell .. => false
  | .eventDoorbell .. => false
  | .statsDoorbell .. => false
  | .bar2BadWrite .. => false
  | .ringEnable .. => false
  | .descriptorFetch .. => false
  | .completionWrite .. => false
  | .dmaTimeout .. => false
  | .ringInterrupt .. => false
  | .eventPost .. => false
  | .statsRecordWrite .. => false
  | .tableLoad .. => false
  | .jobQueue .. => false
  | .jobStop .. => false
  | .headQuery .. => false
  | .motionMove .. => false
  | .capture .. => false
  | .keyLoad .. => false
  | .retire .. => false
  | .pageRetired .. => false
  | .spareBank .. => false
  | .logRead .. => false
  | .tallyCtrl .. => false
  | .powerState .. => false
  | .codewordRead .. => false
  | .partialWrite .. => false
  | .dramScrub .. => false
  | .sramScrub .. => false
  | .renewSend .. => false
  | .healthSend .. => false
  | .leaseMessageRx .. => false
  | .tallyFence .. => false
  | .leaseLate .. => false
  | .tallyLapseTake .. => false
  | .pairStartTimeout .. => false
  | .arbiterTick .. => false
  | .handoverTimeout .. => false
  | .mirrorSend .. => false
  | .mirrorRx .. => false
  | .mirrorLost .. => false
  | .mirrorSynced .. => false
  | .relayDownRx .. => false
  | .relayUpRx .. => false
  | .deputyHalt .. => false
  | .doubleFault .. => false
  | .winderTick .. => false
  | .winderEnable .. => false
  | .rampRegisterWrite .. => false
  | .chopperTrip .. => false
  | .chopperOffEnd .. => false
  | .clearFault .. => false
  | .holdDelayExpire .. => false
  | .switchEdge .. => false
  | .ssiRead .. => false
  | .glbCauseWrite .. => false
  | .glbIntEnWrite .. => false
  | .ethLinkChange .. => false
  | .pcieLinkTrained .. => false
  | .domainPowerReturn .. => false
  | .mirrorAckTimeout .. => false
  | .tallyCtrlTimeout .. => false
  | .dropWindowEnd .. => false
  | .blockLockAcquired .. => false

namespace Machine

/-- A meaning gives a next state of which P holds. -/
def Gives (r : Result) (P : State → Prop) : Prop := ∃ t, r = .next t ∧ P t

/-- IDREV and CAPS hold what Tables 20-3 and 20-4 give; CAPS bits 27 and 28 are fused and stand in no register. -/
abbrev State.hardwired (s : State) : Prop := s.reg 0x0 = 0xD1640A00#32 ∧ s.reg 0x4 = resetVal 0x4

/-- Every register outside a set of offsets is as before. -/
def State.sameRegsBut (s t : State) (offs : List Nat) : Prop := ∀ off, off ∉ offs → t.reg off = s.reg off

/-- Whether a node that has told its buffer holds fewer than n lines (R117). -/
def State.bufferShort (s : State) (n : Nat) : Bool :=
  (upto 256 fun a => (s.node a).known && !(s.node a).status.isEmpty).any fun a => decide (beAt (s.node a).status 4 2 < n)

/-- The operation r is in flight as f with an opcode, its turn has come (R381), no domain it needs is in reset (R492), its reserved fields
are 0 (R6) and SETUP_LOCK allows it (R489): it is about to be carried out. -/
abbrev State.opRuns (s : State) (r : OpRef) (f : Flight) (opcode : Nat) (used : List (Nat × Nat)) (eff : Bool) : Prop :=
  s.flight r.ring r.n = some f ∧ f.opcode = opcode ∧ s.mayBegin f.ring f.n = true ∧ s.opWaits opcode = false ∧
    f.reservedOk used eff = true ∧ (s.locked = true ∨ earlyOp opcode = true) ∧ f.cq ≠ 16

/-- The operation r has ended with a status and these result fields (R379, R393). -/
def State.opEnds (t : State) (r : OpRef) (st : Nat) (res : List (Nat × List (BitVec 8))) : Prop :=
  ∃ f, t.flight r.ring r.n = some f ∧ f.ended = some (st, resBytes res)

/-- The asserting inhibit block of lane n as it leaves it, after a number of idle blocks (R194, R209, R226). -/
def State.inhibitOut (s : State) (n idles : Nat) : Output :=
  let q := Tab.get (fun _ => 0) s.link.inhibitSeq n
  .inhibitBlock n true q ((scrambleAll (afterIdles idles (Tab.get (fun _ => 0) s.link.scrambler n)) [orderedBlock (inhibitPayload true n q)]).2.map
    (invertBlock (s.on (Reg.LANEn_CFG_tx_invert n))))

/-- The state of a lane's receiver after blocks, before anything they hold is taken (R194, Table 08-4). -/
def State.takenIn (s : State) (n : Nat) (rx : LaneRx) : State :=
  let r := (s.pcsIn n rx).1
  (s.raise (Reg.LANEn_STATUS_signal n)).onLane n fun l => { l with
    headers := r.headers, invalid := r.invalid, packet := r.packet, step := max 2 l.step }

/-- Blocks reach a receiver of lane n that listens, and hold these things, in order (R194). -/
abbrev State.brings (s : State) (n : Nat) (rx : LaneRx) (its : List RxItem) : Prop :=
  rx.blocks.isEmpty = false ∧ s.listens n = true ∧ (s.pcsIn n rx).2 = its

/-- The device holds the tally and may do the work that needs it (R391). -/
abbrev State.holdsTally (s : State) : Prop := s.held_ = true ∧ s.dev ≠ stCold ∧ s.config ≠ 3

/-- A lease message of 44 bytes that a device awake accepts (R437): its type and CRC are right, its sequence is new, and it came over the
network or over a pair-link lane that is UP. -/
abbrev State.leaseOk (s : State) (viaNet : Bool) (m : List (BitVec 8)) : Prop :=
  m.length = 44 ∧ leAt m 0 1 = 3 ∧ beAt m 40 4 = crc32c (m.take 40) ∧
    (s.tally.heard.any fun h => h.1 == beAt m 34 2 && h.2 == beAt m 4 2) = false ∧ s.dev ≠ stBoot ∧ s.dev ≠ stDeep ∧
    (viaNet = true ∨ s.pairLane.isSome = true)

end Machine

end Sys2Proof
end

