-- ==== Sys2Proof/Certificates/Slice0/Obligations.lean ====
section
/-! DEFINITION. The statements for the provers. -/

open Sys2Proof Sys2Proof.Machine

/-- A step runs the command at the front of the queue. 01_device_in_the_press.md -/
def Obligations.FrontCommand : Prop :=
  ∀ (c : Instr) (s : State), step { s with pending := c :: s.pending } = exec c s

/-- On an empty queue a step is one beat of waiting (the model's choice, log 2). 01_device_in_the_press.md -/
def Obligations.IdleBeat : Prop :=
  ∀ s : State, s.pending = [] → step s = .next (s.advance 1)

/-- Every command answers a next state in every state. 00_scope.md, 20_register_map.md R508 -/
def Obligations.EveryCommandCompletes : Prop :=
  ∀ (c : Instr) (s : State), ∃ t, exec c s = .next t

/-- No command touches the queue, and each moves the beat on by its distance (log 2). 01_device_in_the_press.md -/
def Obligations.QueueAndBeat : Prop :=
  ∀ (c : Instr) (s t : State), exec c s = .next t → t.pending = s.pending ∧ t.beat = s.beat + c.dt

/-- Every step keeps IDREV and CAPS at their fixed words. 20_register_map.md R514, 00_scope.md R1, 00_scope.md R9 -/
def Obligations.HardwiredKept : Prop :=
  ∀ s t : State, s.hardwired → step s = .next t → t.hardwired

/-- After reset IDREV and CAPS hold their fixed words. 00_scope.md R1, 20_register_map.md R514 -/
def Obligations.HardwiredAtReset : Prop :=
  State.reset.hardwired ∧ State.reset.reg 0x4 = 0x1C4120BA#32

/-- Only a power-on or a warm reset clears SETUP_LOCK.lock. 20_register_map.md R516, 00_scope.md R11, 19_power_reset_and_security.md R491, 19_power_reset_and_security.md R498 -/
def Obligations.LockKept : Prop :=
  ∀ (c : Instr) (s t : State), c.clearsLock = false → s.locked = true → exec c s = .next t → t.locked = true

/-- No command but a host write or a reset changes GLB_SCRATCH, SETUP_LOCK or the identity words. 20_register_map.md R514, 00_scope.md R12 -/
def Obligations.ScratchKept : Prop :=
  ∀ (c : Instr) (s t : State), c.ordinary = true → exec c s = .next t →
    t.reg 0x0 = s.reg 0x0 ∧ t.reg 0x4 = s.reg 0x4 ∧ t.reg 0x8 = s.reg 0x8 ∧ t.reg 0x1C = s.reg 0x1C

/-- State.reset: BOOT, every register at its reset value, the time bases at 0, nothing waiting. 19_power_reset_and_security.md R486, 19_power_reset_and_security.md R507, 04_time_bases_and_network_time.md R85, 20_register_map.md R510 -/
def Obligations.ResetState : Prop :=
  State.reset.dev = stBoot ∧ State.reset.locked = false ∧ (∀ off, State.reset.reg off = resetVal off) ∧
    State.reset.time.tb = [0, 0, 0, 0] ∧ State.reset.shadow = [] ∧ State.reset.pending = [] ∧
    State.reset.mem.dram = [] ∧ State.reset.store.blocks = [] ∧ State.reset.power.keys = []

/-- A host write acts on each field by its access code. 00_scope.md R9, 00_scope.md R10, 00_scope.md R11 -/
def Obligations.AccessCodes : Prop :=
  ∀ (s : State) (off : Nat) (v : BitVec 32) (f : FieldRow), f ∈ fieldsAt off →
    (fieldsAt off).Pairwise (fun a b => a.mask &&& b.mask = 0#32) →
    (s.writeWord off v).reg off &&& f.mask =
      match f.acc with
      | .rw => v &&& f.mask
      | .rwl => if s.locked then s.reg off &&& f.mask else v &&& f.mask
      | .w1c => s.reg off &&& f.mask &&& ~~~ (v &&& ~~~ s.freshBits off)
      | .w1s => (s.reg off ||| v) &&& f.mask
      | .ro => s.reg off &&& f.mask
      | .wo => s.reg off &&& f.mask

/-- Host writes: GLB_SCRATCH, GLB_CAUSE, BOOT and a switched-off domain. 00_scope.md R5, 00_scope.md R9, 00_scope.md R10, 19_power_reset_and_security.md R488, 20_register_map.md R513, 20_register_map.md R514, 20_register_map.md R518 -/
def Obligations.HostWrites : Prop :=
  (∀ dt v (s : State), s.dev ≠ stBoot →
    Gives (exec (.registerWrite dt 0x1C#25 v) s) fun t => t.reg 0x1C = v ∧ s.sameRegsBut t [0x1C] ∧ t.out = s.out) ∧
  (∀ dt v (s : State), s.dev ≠ stBoot →
    Gives (exec (.glbCauseWrite dt v) s) fun t =>
      t.reg 0x10 = s.reg 0x10 &&& ~~~ (v &&& 0x31FFF#32 &&& ~~~ (s.advance dt).freshBits 0x10) ∧ s.sameRegsBut t [0x10] ∧ t.out = s.out) ∧
  (∀ dt off v (s : State), s.dev = stBoot →
    exec (.registerWrite dt off v) s = .next (s.advance dt) ∧ exec (.hiRegisterWrite dt off v) s = .next (s.advance dt)) ∧
  (∀ dt off v (s : State), s.dev ≠ stBoot → s.domainOff (off.toNat / 4 * 4) = true →
    exec (.registerWrite dt off v) s = .next ((s.advance dt).raise Reg.GLB_STATUS_off_access) ∧
    exec (.hiRegisterWrite dt off v) s = .next ((s.advance dt).raise Reg.GLB_STATUS_off_access))

/-- Register pairs: held low words, the HI commit, the read shadow, and misformed accesses. 20_register_map.md R510, 20_register_map.md R511, 14_host_interface_and_rings.md R372 -/
def Obligations.RegisterPairs : Prop :=
  (∀ dt (off : BitVec 25) v (s : State), s.dev ≠ stBoot → s.domainOff (off.toNat / 4 * 4) = false →
    among writtenPairs (off.toNat / 4 * 4) = true →
    Gives (exec (.registerWrite dt off v) s) fun t =>
      t.regs = s.regs ∧ t.out = s.out ∧ t.held = Tab.put s.held (off.toNat / 4 * 4) v) ∧
  (∀ dt (off : BitVec 25) v lo (s : State), s.dev ≠ stBoot → s.domainOff (off.toNat / 4 * 4) = false →
    among writtenPairs (off.toNat / 4 * 4) = false → 4 ≤ off.toNat / 4 * 4 → among writtenPairs (off.toNat / 4 * 4 - 4) = true →
    s.held.find? (fun e => e.1 == off.toNat / 4 * 4 - 4) = some (off.toNat / 4 * 4 - 4, lo) →
    exec (.hiRegisterWrite dt off v) s =
      .next ((({ s.advance dt with held := Tab.del s.held (off.toNat / 4 * 4 - 4) }).writeReg (off.toNat / 4 * 4 - 4) lo).writeReg
        (off.toNat / 4 * 4) v)) ∧
  (∀ dt (off : BitVec 25) (s : State), s.dev ≠ stBoot → s.domainOff (off.toNat / 4 * 4) = false →
    ∀ u : State, u = (s.advance dt).readAdapt (off.toNat / 4 * 4) → Gives (exec (.loRegisterRead dt off) s) fun t =>
      (∀ o, t.shadowOf o = if o ∈ filledBy (off.toNat / 4 * 4) then u.readWord o else s.shadowOf o) ∧ t.regs = u.regs ∧
      t.out = s.out ++ [.regRead (off.toNat / 4 * 4)
        (if showsShadow (off.toNat / 4 * 4) then s.shadowOf (off.toNat / 4 * 4) else u.readWord (off.toNat / 4 * 4))]) ∧
  (∀ n o (s : State), n < 68 → (o ∈ [(Reg.LANEn_CTLE_ctle n).off, (Reg.LANEn_DFE_LO n).off, (Reg.LANEn_DFE_HI n).off] → s.readAdapt o = s.adapt n) ∧
    ((∀ m, m < 68 → o ∉ [(Reg.LANEn_CTLE_ctle m).off, (Reg.LANEn_DFE_LO m).off, (Reg.LANEn_DFE_HI m).off]) → s.readAdapt o = s)) ∧
  (∀ off hi, hiOf off = some hi → loShown off = false → hi ∈ filledBy off) ∧
  (filledBy 0x100010 = [0x100014] ∧ filledBy 0x100014 = [] ∧ showsShadow 0x100010 = false ∧ showsShadow 0x100014 = true ∧
    filledBy 0x100020 = [0x100024, 0x100028, 0x10002C] ∧ filledBy 0x100028 = [] ∧ showsShadow 0x100028 = true ∧
    filledBy 0x10401C = [0x104020, 0x104024, 0x104028] ∧ filledBy 0xD01018 = [0xD01800]) ∧
  (∀ dt (off : BitVec 25) bytes (s : State), ¬ (bytes = 4 ∧ off.toNat % 4 = 0) →
    exec (.bar0BadAccess dt off bytes false) s = .next ((s.advance dt).emit (.regRead off.toNat 0#32)) ∧
    exec (.bar0BadAccess dt off bytes true) s = .next (s.advance dt))

/-- IDREV reads 0xD1640A00 in every device state. R1 -/
def Obligations.IdrevReads : Prop :=
  ∀ dt (s : State), s.hardwired → Gives (exec (.loRegisterRead dt 0#25) s) fun t => t.out = s.out ++ [.regRead 0 0xD1640A00#32]

/-- GLB_INT_EN: a cause newly enabled while it is set sends the vector. 20_register_map.md R519, 20_register_map.md R518 -/
def Obligations.InterruptEnable : Prop :=
  (∀ dt v (s : State), s.dev ≠ stBoot → (s.writeWord 0x14 v).reg 0x14 &&& ~~~ s.reg 0x14 &&& s.reg 0x10 = 0#32 →
    Gives (exec (.glbIntEnWrite dt v) s) fun t => t.reg 0x14 = (s.writeWord 0x14 v).reg 0x14 ∧ s.sameRegsBut t [0x14] ∧ t.out = s.out) ∧
  (∀ dt v (s : State), s.dev ≠ stBoot → (s.writeWord 0x14 v).reg 0x14 &&& ~~~ s.reg 0x14 &&& s.reg 0x10 ≠ 0#32 →
    Gives (exec (.glbIntEnWrite dt v) s) fun t =>
      t.reg 0x14 = (s.writeWord 0x14 v).reg 0x14 ∧ s.sameRegsBut t [0x14] ∧
      ∃ masked, t.out = s.out ++ [.msix (s.get Reg.GLB_INT_CFG_vector) masked])

/-- Power-on reset, warm reset, the thermal trip and host resets. 19_power_reset_and_security.md R485, 19_power_reset_and_security.md R486, 19_power_reset_and_security.md R498, 14_host_interface_and_rings.md R373, 21_pins_electrical_package.md R525 -/
def Obligations.Resets : Prop :=
  (∀ dt pcie temps (s : State), Gives (exec (.powerOnReset dt ⟨0, true, pcie, false, temps⟩) s) fun t =>
    t.dev = stSetup ∧ t.locked = false ∧ t.get Reg.PWR_DOMAINS_powered = 0x3FF ∧ t.power.pcieUp = pcie ∧ t.time.tb = [0, 0, 0, 0]) ∧
  (∀ dt b (s : State), b.fail.val ≠ 0 ∨ b.testMode = true → Gives (exec (.powerOnReset dt b) s) fun t =>
    t.dev = stBoot ∧ t.locked = false ∧ t.get Reg.PWR_STATE_boot_fail = b.fail.val) ∧
  (∀ dt ns pcie temps (s : State), 1000 ≤ ns → s.power.tripHeld = false → Gives (exec (.warmReset dt ns ⟨0, true, pcie, false, temps⟩) s) fun t =>
    t.dev = stSetup ∧ t.locked = false ∧ t.get Reg.PWR_DOMAINS_powered = 0x3FF ∧ t.power.pcieUp = pcie ∧ t.time.tb = [0, 0, 0, 0]) ∧
  (∀ dt ns b (s : State), ns < 100 → exec (.warmReset dt ns b) s = .next (s.advance dt)) ∧
  (∀ dt b (s : State), Gives (exec (.thermalTrip dt true b) s) fun t => t.dev = stBoot ∧ t.power.tripHeld = true ∧ t.locked = false) ∧
  (∀ dt pcie temps (s : State), s.power.tripHeld = true → Gives (exec (.thermalTrip dt false ⟨0, true, pcie, false, temps⟩) s) fun t =>
    t.dev = stSetup ∧ t.on Reg.PWR_STATE_thermal_trip = true ∧ t.power.tripHeld = false) ∧
  (∀ dt k (s : State), Gives (exec (.hostReset dt k) s) fun t =>
    (∀ i, i < 16 → t.on (Reg.HR_ISQi_CFG_enable i) = false) ∧ t.get Reg.HR_INFLIGHT = 0 ∧ t.rings.waiting = [] ∧ t.rings.statQ = [] ∧
    t.inputs = s.inputs ∧ t.obs = s.obs ∧ t.sched = s.sched ∧ t.raster = s.raster ∧ t.link = s.link ∧ t.mem = s.mem ∧ t.wind = s.wind) ∧
  (∀ dt (s : State), exec (.pcieLinkTrained dt) s = .next ((s.advance dt).modPower fun p => { p with pcieUp := true }))

/-- SETUP_LOCK and the entry of READY. 20_register_map.md R516, 19_power_reset_and_security.md R489, 19_power_reset_and_security.md R495, 01_device_in_the_press.md R23 -/
def Obligations.SetupAndReady : Prop :=
  (∀ dt (v : BitVec 32) fails (s : State), v.getLsbD 0 = true → s.dev = stSetup → s.locked = false →
    Gives (exec (.setupLock dt v fails) s) fun t => t.locked = true ∧ t.power.retention = (s.raise Reg.SETUP_LOCK_lock).regs) ∧
  (∀ dt (v : BitVec 32) fails (s : State), s.dev ≠ stBoot → (s.locked = true ∨ v.getLsbD 0 = false) →
    exec (.setupLock dt v fails) s = .next (s.advance dt)) ∧
  (∀ dt (s : State), (s.advance dt).mayBeReady = true → s.config ≠ 0 → Gives (exec (.readyEntry dt) s) fun t => t.dev = stReady) ∧
  (∀ dt (s : State), (s.advance dt).mayBeReady = true → s.config = 0 → s.held_ = false → s.nextEpoch none < 0xFFFFFFFF →
    Gives (exec (.readyEntry dt) s) fun t => t.dev = stReady ∧ t.held_ = true)

/-- Power faults, the return of a domain, waking and ALIVE. 19_power_reset_and_security.md R491, 19_power_reset_and_security.md R492, 19_power_reset_and_security.md R494, 01_device_in_the_press.md R24 -/
def Obligations.DomainPower : Prop :=
  (∀ dt (d : Fin 10) (s : State), d.val ≠ 0 → s.powered (d.val + 1) = true → Gives (exec (.powerFault dt d) s) fun t =>
    t.powered (d.val + 1) = false ∧ (d.val + 1) ∈ t.power.domainReset) ∧
  (∀ dt (s : State), Gives (exec (.powerFault dt 0) s) fun t => t.dev = stBoot ∧ t.regs = [] ∧ t.power.pcieUp = false) ∧
  (∀ dt (d : Fin 10) fails (s : State), s.power.domainReset.contains (d.val + 1) = true → Gives (exec (.domainPowerReturn dt d fails) s) fun t =>
    t.powered (d.val + 1) = true ∧ (d.val + 1) ∉ t.power.domainReset) ∧
  (∀ dt (v : BitVec 32) (s : State), v.getLsbD 0 = true → s.dev = stDeep → s.get Reg.PWR_STATE_deep_cause = 1 →
    Gives (exec (.wake dt v) s) fun t => t.dev = stSetup ∧ t.get Reg.PWR_STATE_deep_cause = 0) ∧
  (∀ dt (s : State), s.dev ≠ stBoot → s.dev ≠ stDeep → s.powered 2 = true → s.power.aliveAt + 49500 ≤ s.beat + dt →
    exec (.aliveToggle dt) s = .next ((s.advance dt).modPower fun p => { p with alive := !p.alive, aliveAt := s.beat + dt })) ∧
  (∀ dt (s : State), s.dev = stBoot ∨ s.dev = stDeep ∨ s.powered 2 = false ∨ s.beat + dt < s.power.aliveAt + 49500 →
    exec (.aliveToggle dt) s = .next (s.advance dt))

/-- Alarm sources: their record, and LOCK and ERASE of the key slots. 19_power_reset_and_security.md R502, 19_power_reset_and_security.md R503, 19_power_reset_and_security.md R499 -/
def Obligations.SecurityAlarms : Prop :=
  (∀ dt (src : Fin 14) (s : State), Gives (exec (.secAlarm dt src true) s) fun t =>
    t.on ⟨Reg.SEC_ALARM_seen.off, src, 1⟩ = true ∧ t.on (activeBit src) = true ∧
    (s.response src = 1 → ∀ j, j < 16 → s.keyState j = 1 → t.keyState j = 2) ∧
    (s.response src = 2 → ∀ j, j < 16 → s.keyState j ≠ 0 → t.keyState j = 3)) ∧
  (∀ dt (src : Fin 14) (s : State), exec (.secAlarm dt src false) s = .next ((s.advance dt).clear (activeBit src))) ∧
  (∀ dt (d : Fin 10) (s : State), Gives (exec (.glitchAlarm dt d true) s) fun t =>
    t.on ⟨Reg.SEC_ALARM_seen.off, d, 1⟩ = true ∧ t.on (activeBit d) = true ∧
    (s.response d = 2 → ∀ j, j < 16 → s.keyState j ≠ 0 → t.keyState j = 3)) ∧
  (∀ dt (s : State), Gives (exec (.clockMonitorAlarm dt true) s) fun t =>
    t.on ⟨Reg.SEC_ALARM_seen.off, 10, 1⟩ = true ∧ t.on (activeBit 10) = true) ∧
  (∀ dt low (s : State), 1000000 * max 1 (s.get Reg.SEC_ENCL_CFG_filter_ms) ≤ low → s.on (activeBit 13) = false →
    Gives (exec (.enclosureAlarm dt low) s) fun t => t.on ⟨Reg.SEC_ALARM_seen.off, 13, 1⟩ = true ∧ t.on (activeBit 13) = true) ∧
  (∀ dt (s : State), Gives (exec (.debugUnlockAttempt dt) s) fun t => t.on ⟨Reg.SEC_ALARM_seen.off, 11, 1⟩ = true)

/-- SEC_UNLOCK returns locked slots, unless a LOCK source is active; ERASED slots stay. R504 -/
def Obligations.SecUnlock : Prop :=
  (∀ dt (v : BitVec 32) (s : State), v.getLsbD 0 = true → s.dev ≠ stBoot →
    ((List.range 14).any fun i => s.on (activeBit i) && s.response i == 1) = false →
    Gives (exec (.secUnlock dt v) s) fun t =>
      (∀ j, j < 16 → t.keyState j = if s.keyState j = 2 then 1 else s.keyState j) ∧
      ∃ u : State, t = (u.post 0x0D03 [.n (s.slotsIn fun k => k == 2)]).refresh ∧ u.out = s.out ∧ u.rings = s.rings) ∧
  (∀ dt (v : BitVec 32) (s : State), v.getLsbD 0 = true → s.dev ≠ stBoot →
    ((List.range 14).any fun i => s.on (activeBit i) && s.response i == 1) = true →
    exec (.secUnlock dt v) s = .next ((s.advance dt).raise Reg.SEC_ALARM_unlock_refused))

/-- FIRE_INHIBIT_N: the control block goes to every active lane, and firing resumes after its release. 01_device_in_the_press.md R21, 09_phied_link_protocol.md R227, 21_pins_electrical_package.md R532 -/
def Obligations.FireInhibit : Prop :=
  (∀ dt low (s : State), 2 ≤ low → s.inhibiting = false → Gives (exec (.fireInhibitAssert dt low) s) fun t =>
    t.on Reg.LINK_INHIBIT_sending = true ∧ t.link.inhibitPin = true ∧ t.power.fireInhibit = true ∧
    ∃ idles : Nat → Nat, t.out = (s.advance dt).retireBound.out ++ s.activeLanes.map fun n => s.inhibitOut n (idles n)) ∧
  (∀ dt (s : State), Gives (exec (.fireInhibitAssert dt 0) s) fun t =>
    t.regs = s.regs ∧ t.out = s.out ∧ t.link = s.link ∧ t.power = s.power ∧ t.sched = s.sched) ∧
  (∀ dt (s : State), s.inhibiting = true → Gives (exec (.inhibitBlockRepeat dt) s) fun t =>
    ∃ idles : Nat → Nat, t.out = s.out ++ s.activeLanes.map fun n => s.inhibitOut n (idles n)) ∧
  (∀ dt (s : State), s.inhibiting = false → exec (.inhibitBlockRepeat dt) s = .next (s.advance dt)) ∧
  (∀ dt high (s : State), 2 ≤ high → s.link.inhibitPin = true → s.link.inhibitReversal = false → s.tally.haltInhibit = false →
    Gives (exec (.fireInhibitRelease dt high) s) fun t =>
      t.on Reg.LINK_INHIBIT_sending = false ∧ t.link.inhibitPin = false ∧ t.power.fireInhibit = false ∧ t.sched.inhibitFrom = none) ∧
  (∀ dt high (s : State), high < 2 → exec (.fireInhibitRelease dt high) s = .next (s.advance dt))

/-- Enabling an encoder takes the first accepted levels without a count; disabled, it counts and latches nothing. R36 -/
def Obligations.EncoderEnable : Prop :=
  (∀ dt (n : Fin 4) cfg (s : State), s.dev ≠ stBoot → s.domainOff (Reg.ENCn_CFG_enable n).off = false →
    s.on (Reg.ENCn_CFG_enable n) = false → (s.writeWord (Reg.ENCn_CFG_enable n).off cfg).on (Reg.ENCn_CFG_enable n) = true →
    Gives (exec (.encEnable dt n cfg) s) fun t =>
      (∀ m, m < 4 → t.encCount m = s.encCount m) ∧ t.on (Reg.ENCn_STATUS_index_valid n) = false ∧
      (t.enc n).initialA = true ∧ (t.enc n).initialB = true ∧ (t.enc n).initialZ = true ∧
      ∀ i, i < 3 → (t.ball (3 * n + i)).since = s.beat + dt ∧ (t.ball (3 * n + i)).level = (s.ball (3 * n + i)).level) ∧
  (∀ dt levels (n : Fin 4) (s u : State), u = (s.advance dt).showBalls levels → s.powered 2 = true → s.on (Reg.ENCn_CFG_enable n) = true →
    s.nextAccept (s.beat + dt - 1) = none → (s.enc n).initialA = true → (s.enc n).initialB = true →
    u.accepts (3 * n) (s.beat + dt) = true → u.accepts (3 * n + 1) (s.beat + dt) = true → Gives (exec (.encoderEdge dt levels) s) fun t =>
      t.encCount n = s.encCount n ∧ t.on (Reg.ENCn_STATUS_level_a n) = (u.ball (3 * n)).level ∧
      t.on (Reg.ENCn_STATUS_level_b n) = (u.ball (3 * n + 1)).level ∧ t.on (Reg.ENCn_STATUS_quad_error n) = s.on (Reg.ENCn_STATUS_quad_error n) ∧
      (t.enc n).initialA = false ∧ (t.enc n).initialB = false) ∧
  (∀ dt levels (n : Fin 4) (s u : State), u = (s.advance dt).showBalls levels → s.powered 2 = true → s.on (Reg.ENCn_CFG_enable n) = true →
    s.nextAccept (s.beat + dt - 1) = none → (s.enc n).initialZ = true → u.accepts (3 * n + 2) (s.beat + dt) = true →
    Gives (exec (.indexLatch dt levels) s) fun t =>
      t.on (Reg.ENCn_STATUS_level_z n) = (u.ball (3 * n + 2)).level ∧ (t.enc n).initialZ = false ∧
      t.on (Reg.ENCn_STATUS_index_valid n) = s.on (Reg.ENCn_STATUS_index_valid n) ∧
      t.getI2 (Reg.ENCn_INDEX_COUNT_LO n) (Reg.ENCn_INDEX_COUNT_HI n) = s.getI2 (Reg.ENCn_INDEX_COUNT_LO n) (Reg.ENCn_INDEX_COUNT_HI n)) ∧
  (∀ dt levels (n : Fin 4) (s : State), s.on (Reg.ENCn_CFG_enable n) = false → ∀ c : Instr,
    c = .encoderEdge dt levels ∨ c = .indexLatch dt levels ∨ c = .trigCapture dt levels → Gives (exec c s) fun t =>
      t.encCount n = s.encCount n ∧ t.reg (Reg.ENCn_STATUS_level_a n).off = s.reg (Reg.ENCn_STATUS_level_a n).off ∧
      t.getI2 (Reg.ENCn_INDEX_COUNT_LO n) (Reg.ENCn_INDEX_COUNT_HI n) = s.getI2 (Reg.ENCn_INDEX_COUNT_LO n) (Reg.ENCn_INDEX_COUNT_HI n))

/-- The input filters: N + 1 beats before a level is accepted, its stamp, and glitches. 02_web_position_inputs.md R29, 02_web_position_inputs.md R30, 02_web_position_inputs.md R31 -/
def Obligations.BallSamples : Prop :=
  (∀ levels i (s u : State), u = s.showBalls levels → i < 20 →
    ((s.ball i).level = levels.getLsbD i → u.ball i = s.ball i) ∧
    ((s.ball i).level ≠ levels.getLsbD i → (s.inputs.sampled ≠ some s.beat → u.ball i = ⟨levels.getLsbD i, s.beat, s.tb3⟩) ∧
      (s.inputs.sampled = some s.beat → (u.ball i).level = levels.getLsbD i ∧ (u.ball i).since = s.beat + 1)) ∧
    (∀ d, u.accepts i d = true ↔ (u.inputOn i = true ∧ (u.initialOf i = true ∨ (u.ball i).level ≠ u.accepted i) ∧ d = (u.ball i).since + u.filterN i))) ∧
  (∀ levels (n : Fin 4) (s u : State), u = s.showBalls levels → s.powered 2 = true →
    ∀ g : Nat → Bool, (∀ i, g i = (s.waits i && !s.initialOf i && (s.ball i).level != levels.getLsbD i)) →
      u.get (Reg.ENCn_ERRCNT_glitch_count n) =
        min (2 ^ (Reg.ENCn_ERRCNT_glitch_count n).w - 1) (s.get (Reg.ENCn_ERRCNT_glitch_count n) + b2n (g (3 * n)) + b2n (g (3 * n + 1)))) ∧
  (∀ dt levels (s : State), s.nextAccept (s.beat + dt - 1) = none → (∀ i, i < 20 → ((s.advance dt).showBalls levels).accepts i (s.beat + dt) = false) →
    ∀ c : Instr, c = .encoderEdge dt levels ∨ c = .indexLatch dt levels ∨ c = .trigCapture dt levels →
      Gives (exec c s) fun t => t.regs = ((s.advance dt).showBalls levels).regs ∧ t.inputs = ((s.advance dt).showBalls levels).inputs ∧
        t.out = s.out ∧ t.obs = s.obs)

/-- One accepted edge of A or B counts by one, in the decoded direction. 02_web_position_inputs.md R32, 02_web_position_inputs.md R34, 02_web_position_inputs.md R35, 02_web_position_inputs.md R37 -/
def Obligations.EncoderCount : Prop :=
  ∀ dt levels (n : Fin 4) (s u : State), u = (s.advance dt).showBalls levels → s.powered 2 = true → s.on (Reg.ENCn_CFG_enable n) = true →
    s.nextAccept (s.beat + dt - 1) = none → (s.enc n).initialA = false → (s.enc n).initialB = false →
    u.accepts (3 * n) (s.beat + dt) ≠ u.accepts (3 * n + 1) (s.beat + dt) → ∀ (step : Int) (a b : Bool) (stamp : Nat),
    step = (if s.on (Reg.ENCn_CFG_invert_dir n) then -1 else 1) →
    a = (if u.accepts (3 * n) (s.beat + dt) then (u.ball (3 * n)).level else s.on (Reg.ENCn_STATUS_level_a n)) →
    b = (if u.accepts (3 * n) (s.beat + dt) then s.on (Reg.ENCn_STATUS_level_b n) else (u.ball (3 * n + 1)).level) →
    stamp = (if u.accepts (3 * n) (s.beat + dt) then (u.ball (3 * n)).stamp else (u.ball (3 * n + 1)).stamp) →
    ∀ up, up = decide ((quadPhase a b + 4 - quadPhase (s.on (Reg.ENCn_STATUS_level_a n)) (s.on (Reg.ENCn_STATUS_level_b n))) % 4 = 1) →
      Gives (exec (.encoderEdge dt levels) s) fun t =>
        t.encCount n = signed 48 (wrap 48 (s.encCount n + if up then step else -step)) ∧
        t.on (Reg.ENCn_STATUS_dir n) = decide ((if up then step else -step) < 0) ∧
        t.get2 (Reg.ENCn_EDGE_TIME_LO n) (Reg.ENCn_EDGE_TIME_HI n) = stamp % 2 ^ 64 ∧
        t.on (Reg.ENCn_STATUS_level_a n) = a ∧ t.on (Reg.ENCn_STATUS_level_b n) = b ∧
        ∀ m, m < 4 → m ≠ n → u.accepts (3 * m) (s.beat + dt) = false → u.accepts (3 * m + 1) (s.beat + dt) = false → t.encCount m = s.encCount m

/-- A and B accepted at new levels in one beat: no count, quad_error set and counted. 02_web_position_inputs.md R33, 02_web_position_inputs.md R48 -/
def Obligations.QuadratureError : Prop :=
  ∀ dt levels (n : Fin 4) (s u : State), u = (s.advance dt).showBalls levels → s.powered 2 = true → s.on (Reg.ENCn_CFG_enable n) = true →
    s.nextAccept (s.beat + dt - 1) = none → (s.enc n).initialA = false → (s.enc n).initialB = false →
    u.accepts (3 * n) (s.beat + dt) = true → u.accepts (3 * n + 1) (s.beat + dt) = true →
    Gives (exec (.encoderEdge dt levels) s) fun t =>
      t.encCount n = s.encCount n ∧ t.on (Reg.ENCn_STATUS_level_a n) = (u.ball (3 * n)).level ∧
      t.on (Reg.ENCn_STATUS_level_b n) = (u.ball (3 * n + 1)).level ∧ t.on (Reg.ENCn_STATUS_quad_error n) = true ∧
      t.get (Reg.ENCn_ERRCNT_quad_error_count n) =
        min (2 ^ (Reg.ENCn_ERRCNT_quad_error_count n).w - 1) (s.get (Reg.ENCn_ERRCNT_quad_error_count n) + 1)

/-- The index latch takes the count of its beat; the drift, the slip and a host write of the drift. 02_web_position_inputs.md R39, 02_web_position_inputs.md R40, 02_web_position_inputs.md R42 -/
def Obligations.IndexLatch : Prop :=
  (∀ dt levels (n : Fin 4) (s u : State), u = (s.advance dt).showBalls levels → s.powered 2 = true → s.on (Reg.ENCn_CFG_enable n) = true →
    s.nextAccept (s.beat + dt - 1) = none → (s.enc n).initialZ = false → u.accepts (3 * n + 2) (s.beat + dt) = true →
    (u.ball (3 * n + 2)).level ≠ s.on (Reg.ENCn_CFG_z_polarity n) →
    (s.get (Reg.ENCn_CFG_z_gate n) = 0 ∨
      s.gateOpen n = true ∧ u.accepts (3 * n) (s.beat + dt) = false ∧ u.accepts (3 * n + 1) (s.beat + dt) = false) →
    Gives (exec (.indexLatch dt levels) s) fun t =>
      t.getI2 (Reg.ENCn_INDEX_COUNT_LO n) (Reg.ENCn_INDEX_COUNT_HI n) = t.encCount n ∧ t.on (Reg.ENCn_STATUS_index_valid n) = true ∧
      (u.accepts (3 * n) (s.beat + dt) = false → u.accepts (3 * n + 1) (s.beat + dt) = false → t.encCount n = s.encCount n) ∧
      ((s.get (Reg.ENCn_CPR_cpr n) = 0 ∨ s.on (Reg.ENCn_STATUS_index_valid n) = false) →
        t.get (Reg.ENCn_INDEX_DRIFT_drift n) = s.get (Reg.ENCn_INDEX_DRIFT_drift n)) ∧
      (s.get (Reg.ENCn_CPR_cpr n) ≠ 0 → s.on (Reg.ENCn_STATUS_index_valid n) = true → ∀ expected d : Int,
        expected = (if t.on (Reg.ENCn_STATUS_dir n) ≠ (s.enc n).refDir then (s.enc n).ref
          else if t.on (Reg.ENCn_STATUS_dir n) then (s.enc n).ref - s.get (Reg.ENCn_CPR_cpr n) else (s.enc n).ref + s.get (Reg.ENCn_CPR_cpr n)) →
        d = signed 48 (wrap 48 (t.encCount n - expected)) →
        (d.natAbs ≤ s.get (Reg.ENCn_INDEX_TOL_tolerance n) → t.getI (Reg.ENCn_INDEX_DRIFT_drift n) =
          clampI (-(2 ^ 31 : Nat)) ((2 ^ 31 : Nat) - 1) (s.getI (Reg.ENCn_INDEX_DRIFT_drift n) + d)) ∧
        (s.get (Reg.ENCn_INDEX_TOL_tolerance n) < d.natAbs → t.on (Reg.ENCn_STATUS_index_slip n) = true ∧
          t.get (Reg.ENCn_INDEX_DRIFT_drift n) = s.get (Reg.ENCn_INDEX_DRIFT_drift n)))) ∧
  (∀ dt (n : Fin 4) v (s : State), s.dev ≠ stBoot → s.domainOff (Reg.ENCn_INDEX_DRIFT_drift n).off = false →
    ((∀ d, (s.enc n).driftAt ≠ some (s.beat + dt, d)) → Gives (exec (.indexDriftWrite dt n v) s) fun t =>
      t.reg (Reg.ENCn_INDEX_DRIFT_drift n).off = v ∧ s.sameRegsBut t [(Reg.ENCn_INDEX_DRIFT_drift n).off] ∧ t.inputs = s.inputs) ∧
    (∀ d, (s.enc n).driftAt = some (s.beat + dt, d) → Gives (exec (.indexDriftWrite dt n v) s) fun t =>
      t.getI (Reg.ENCn_INDEX_DRIFT_drift n) = clampI (-(2 ^ 31 : Nat)) ((2 ^ 31 : Nat) - 1) (signed 32 v.toNat + d)))

/-- Trigger inputs: the initial level, a capture, the full FIFO and a pop. 02_web_position_inputs.md R44, 02_web_position_inputs.md R45, 02_web_position_inputs.md R46, 02_web_position_inputs.md R47, 02_web_position_inputs.md R50 -/
def Obligations.Triggers : Prop :=
  (∀ dt (n : Fin 8) cfg (s : State), s.dev ≠ stBoot → s.domainOff (Reg.TRIGn_CFG_enable n).off = false →
    s.on (Reg.TRIGn_CFG_enable n) = false → (s.writeWord (Reg.TRIGn_CFG_enable n).off cfg).on (Reg.TRIGn_CFG_enable n) = true →
    Gives (exec (.trigEnable dt n cfg) s) fun t =>
      (t.trig n).initial = true ∧ (t.trig n).level = (s.trig n).level ∧ (t.trig n).fifo = (s.trig n).fifo ∧ t.on (Reg.TRIGn_CFG_enable n) = true ∧
      (t.ball (12 + n)).since = s.beat + dt ∧ t.out = s.out) ∧
  (∀ dt levels (n : Fin 8) (s u : State), u = (s.advance dt).showBalls levels → s.powered 2 = true → s.on (Reg.TRIGn_CFG_enable n) = true →
    s.nextAccept (s.beat + dt - 1) = none → u.accepts (12 + n) (s.beat + dt) = true →
    ((s.trig n).initial = true → Gives (exec (.trigCapture dt levels) s) fun t =>
      (t.trig n).fifo = (s.trig n).fifo ∧ (t.trig n).level = (u.ball (12 + n)).level ∧ (t.trig n).initial = false) ∧
    ((s.trig n).initial = false → (s.trig n).lockout = none →
      (s.get (Reg.TRIGn_CFG_edge n) = (if (u.ball (12 + n)).level then 0 else 1) ∨ s.get (Reg.TRIGn_CFG_edge n) = 2) →
      s.on (Reg.ENCn_CFG_enable (s.get (Reg.TRIGn_CFG_enc_src n))) = true →
      ((s.trig n).fifo.length < 16 → Gives (exec (.trigCapture dt levels) s) fun t =>
        (t.trig n).fifo = (s.trig n).fifo ++ [⟨t.encCount (s.get (Reg.TRIGn_CFG_enc_src n)), (u.ball (12 + n)).stamp, (u.ball (12 + n)).level⟩] ∧
        (t.trig n).level = (u.ball (12 + n)).level) ∧
      (16 ≤ (s.trig n).fifo.length → Gives (exec (.trigCapture dt levels) s) fun t =>
        (t.trig n).fifo = (s.trig n).fifo ∧ t.on (Reg.TRIGn_FIFO_STATUS_overflow n) = true))) ∧
  (∀ dt (n : Fin 8) (s : State), s.dev ≠ stBoot → s.domainOff (Reg.TRIGn_POP_pop n).off = false →
    Gives (exec (.trigPop dt n) s) fun t => (t.trig n).fifo = (s.trig n).fifo.drop 1 ∧ t.out = s.out ∧
      ((s.trig n).fifo ≠ [] → t.get (Reg.TRIGn_FIFO_STATUS_level n) = ((s.trig n).fifo.length - 1) % 32) ∧
      ((s.trig n).fifo.length = 1 → t.get2 (Reg.TRIGn_CAP_COUNT_LO n) (Reg.TRIGn_CAP_COUNT_HI n) = 0 ∧
        t.get2 (Reg.TRIGn_CAP_TIME_LO n) (Reg.TRIGn_CAP_TIME_HI n) = 0 ∧ t.shadowOf (Reg.TRIGn_CAP_COUNT_HI n).off = 0#32 ∧
        t.shadowOf (Reg.TRIGn_CAP_TIME_HI n).off = 0#32))

/-- The observer: updates, pos_valid, a failed source, snapshot, readmission and resynchronisation. 03_observer_and_compare.md R53, 03_observer_and_compare.md R56, 03_observer_and_compare.md R62, 03_observer_and_compare.md R64, 03_observer_and_compare.md R82 -/
def Obligations.Observer : Prop :=
  (∀ dt (k : Fin 5) (s : State), s.powered 2 = true → (s.inst k).running = true →
    0 < stampDiff ((s.advance dt).tb3 / 1000 * 1000 * 65536) (s.inst k).tu →
    s.edgeIn k ((s.advance dt).tb3 / 1000 * 1000) = false → (k.val < 4 → s.edgeWaits k ((s.advance dt).tb3 / 1000 * 1000) = false) →
    Gives (exec (.observerTick dt k) s) fun t => (t.inst k).tu = (s.advance dt).tb3 / 1000 * 1000 * 65536 ∧
      t.obs.last.t = (s.advance dt).tb3 / 1000 * 1000) ∧
  (∀ dt k w (s : State), s.powered 2 = true → s.reference = some k → s.settling = some w →
    (w : Int) ≤ stampDiff (s.advance dt).now (s.inst k).started → s.obs.lost = false →
    (∃ j < 4, s.named j = true ∧ s.alive j = true) →
    Gives (exec (.posValid dt) s) fun t => t.on Reg.OBS_STATUS_pos_valid = true ∧ t.obs = s.obs) ∧
  (∀ dt (k : Fin 5) (s : State), s.powered 2 = true → s.live k = true → s.alive k = false →
    Gives (exec (.sourceFailed dt k) s) fun t => t.live k = false) ∧
  (∀ dt (s : State), s.dev ≠ stBoot → s.domainOff Reg.OBS_CTRL_snapshot.off = false →
    Gives (exec (.obsSnapshot dt) s) fun t =>
      t.get2 Reg.OBS_SNAP_TIME_LO Reg.OBS_SNAP_TIME_HI = s.obs.last.t % 2 ^ 64 ∧
      t.getI2 Reg.OBS_SNAP_POS_LO Reg.OBS_SNAP_POS_HI = signed 64 (wrap 64 s.obs.last.p) ∧
      t.getI2 Reg.OBS_SNAP_VEL_LO Reg.OBS_SNAP_VEL_HI = signed 64 (wrap 64 s.obs.last.v) ∧
      t.getI2 Reg.OBS_SNAP_ACC_LO Reg.OBS_SNAP_ACC_HI = signed 64 (wrap 64 s.obs.last.a) ∧
      t.getI2 Reg.OBS_SNAP_HW_LO Reg.OBS_SNAP_HW_HI = signed 64 (wrap 64 s.obs.last.hw) ∧ t.obs = s.obs ∧ t.out = s.out) ∧
  (∀ dt (s : State), s.dev ≠ stBoot → s.domainOff Reg.OBS_CTRL_readmit.off = false →
    ∃ u : State, exec (.obsReadmit dt) s = .next u.sources ∧ u.get Reg.OBS_STATUS_enc_removed = 0 ∧
      u.on Reg.OBS_STATUS_remote_removed = false ∧ u.inputs = s.inputs ∧
      ∀ k, k < 5 → u.inst k = { s.inst k with readmitted := s.removed k || (s.inst k).readmitted }) ∧
  (∀ dt k (s : State), s.dev ≠ stBoot → s.domainOff Reg.OBS_CTRL_resync.off = false → s.obs.lost = true →
    s.order.find? (fun j => s.live j) = some k →
    Gives (exec (.obsResync dt) s) fun t => t.obs.lost = false ∧ t.get Reg.OBS_STATUS_active = (if s.blending then 5 else k) % 8)

/-- Compare units: arming, disarming, a pulse, its commitment and its end. 03_observer_and_compare.md R69, 03_observer_and_compare.md R71, 03_observer_and_compare.md R73, 03_observer_and_compare.md R74, 03_observer_and_compare.md R75, 03_observer_and_compare.md R77, 03_observer_and_compare.md R79 -/
def Obligations.CompareUnits : Prop :=
  (∀ dt (n : Fin 48) (s : State), s.dev ≠ stBoot → s.domainOff (Reg.CMPn_CTRL_arm n).off = false →
    (s.get (Reg.CMPn_CFG_mode n) = 3 → Gives (exec (.cmpArm dt n) s) fun t => t.get (Reg.CMPn_STATUS_state n) = 0 ∧ t.obs = s.obs) ∧
    (s.get (Reg.CMPn_CFG_target_kind n) = 1 → (s.get (Reg.CMPn_CFG_mode n) = 2 ∨ s.get (Reg.CMPn_CFG_mode n) = 0 ∧ s.get (Reg.CMPn_CFG_dir n) ≠ 3 ∨
        s.get (Reg.CMPn_CFG_mode n) = 1 ∧ s.get (Reg.CMPn_CFG_dir n) ≠ 3 ∧ s.get (Reg.CMPn_CFG_plane n) < 10 ∧ s.streaming = false) →
      Gives (exec (.cmpArm dt n) s) fun t =>
        t.on (Reg.CMPn_STATUS_bad_target n) = true ∧ t.get (Reg.CMPn_STATUS_state n) = 0 ∧ t.obs = s.obs) ∧
    (s.get (Reg.CMPn_CFG_mode n) = 2 → s.get (Reg.CMPn_CFG_target_kind n) = 0 →
      (s.advance dt).tb3 < s.get2 (Reg.CMPn_TARGET_LO n) (Reg.CMPn_TARGET_HI n) →
      s.get2 (Reg.CMPn_TARGET_LO n) (Reg.CMPn_TARGET_HI n) < (s.advance dt).tb3 + 2 ^ 62 →
      Gives (exec (.cmpArm dt n) s) fun t =>
        t.armed n = true ∧ (t.cmp n).mode = 2 ∧ (t.cmp n).target = (s.get2 (Reg.CMPn_TARGET_LO n) (Reg.CMPn_TARGET_HI n) : Nat)) ∧
    (s.get (Reg.CMPn_CFG_mode n) = 0 → s.get (Reg.CMPn_CFG_dir n) = 2 → s.get (Reg.CMPn_CFG_target_kind n) = 0 →
      Gives (exec (.cmpArm dt n) s) fun t =>
        t.armed n = true ∧ (t.cmp n).mode = 0 ∧ (t.cmp n).dir = 2 ∧ (t.cmp n).src = s.get (Reg.CMPn_CFG_src n) ∧
        (t.cmp n).target = s.getI2 (Reg.CMPn_TARGET_LO n) (Reg.CMPn_TARGET_HI n) ∧ (t.cmp n).pulses = 0 ∧ t.out = s.out)) ∧
  (∀ dt (n : Fin 48) (s : State), s.dev ≠ stBoot → s.domainOff (Reg.CMPn_CTRL_disarm n).off = false →
    Gives (exec (.cmpDisarm dt n) s) fun t =>
      t.get (Reg.CMPn_STATUS_state n) = 0 ∧ (t.cmp n).due = none ∧ (t.cmp n).committed = false ∧ (t.cmp n).active = (s.cmp n).active) ∧
  (∀ dt (n : Fin 48) (s : State), s.powered 2 = true → s.armed n = true → s.cmpHeld n = false → s.on (Reg.CMPn_CFG_periodic n) = false →
    ∀ c : Instr, (c = .cmpTimePulse dt n ∧ (s.cmp n).mode = 2 ∧ 0 ≤ (s.advance dt).past (s.cmp n)) ∨
      (c = .cmpCrossing dt n ∧ (s.cmp n).mode = 0 ∧ ∃ d, (s.cmp n).due = some d ∧ d ≤ s.beat + dt) ∨
      (c = .cmpCrossing dt n ∧ (s.cmp n).mode = 1 ∧ s.on Reg.OBS_STATUS_pos_valid = true ∧
        ∃ d, (s.cmp n).due = some d ∧ (s.advance dt).come d = true) →
    Gives (exec c s) fun t =>
      (t.cmp n).active = true ∧ (t.cmp n).until_ = s.beat + dt + max 1 (s.get (Reg.CMPn_WIDTH_width n)) ∧
      t.get (Reg.CMPn_STATUS_state n) = 2 ∧ (t.cmp n).due = none ∧
      t.getI2 (Reg.CMPn_LAST_POS_LO n) (Reg.CMPn_LAST_POS_HI n) = signed 64 (wrap 64 (s.cmp n).form)) ∧
  (∀ dt (n : Fin 48) d (s : State), s.powered 2 = true → s.armed n = true → (s.cmp n).mode = 1 → (s.cmp n).due = some d →
    stampDiff d (s.advance dt).now ≤ 1000 * 65536 →
    exec (.cmpPulseCommit dt n) s = .next ((s.advance dt).setCmp n { s.cmp n with committed := true })) ∧
  (∀ dt (n : Fin 48) (s : State), s.powered 2 = true → (s.cmp n).active = true → (s.cmp n).until_ ≤ s.beat + dt →
    exec (.cmpPulseEnd dt n) s = .next ((s.advance dt).setCmp n { s.cmp n with active := false }))

/-- Working time: the rate update, snapshot, step, switch of source and return of a domain. 04_time_bases_and_network_time.md R91, 04_time_bases_and_network_time.md R92, 04_time_bases_and_network_time.md R93, 04_time_bases_and_network_time.md R94, 04_time_bases_and_network_time.md R102 -/
def Obligations.TimeBases : Prop :=
  (∀ dt (s : State), s.powered 2 = true → ∃ u : State, exec (.tb3RateUpdate dt) s = .next u.refresh.compareDomains ∧
    u.getI Reg.TB3_OFFSET = sat32 (quot (s.advance dt).tb3Offset (2 ^ 48)) ∧
    u.on Reg.TB_STATUS_tb3_aligned = decide ((s.advance dt).tb3Offset.natAbs ≤ 10 * 2 ^ 48) ∧
    u.on Reg.TB_STATUS_slewing = ((s.advance dt).tb3Offset != 0) ∧ u.time.tb = (s.advance dt).time.tb ∧
    s.sameRegsBut u [Reg.TB3_OFFSET.off, Reg.TB_STATUS_slewing.off] ∧ u.out = s.out) ∧
  (∀ dt (s : State), s.dev ≠ stBoot → s.domainOff Reg.TB_CTRL_snapshot.off = false → Gives (exec (.tbSnapshot dt) s) fun t =>
    (∀ k, k < 4 → t.get2 (Reg.TBk_SNAP_LO k) (Reg.TBk_SNAP_HI k) = (s.advance dt).tbNs k % 2 ^ 64 ∧
      t.get (Reg.TBk_SNAP_FRAC_frac k) = (s.advance dt).stamp80 k % 2 ^ 16) ∧ t.time = (s.advance dt).time ∧ t.out = s.out) ∧
  (∀ dt (s : State), s.domainOff Reg.TB_CTRL_step_tb3.off = false →
    (s.dev = stSetup ∨ s.dev = stReady → s.time.tb.length = 4 → s.time.rate.length = 4 → ∃ u : State,
      exec (.stepTb3 dt) s = .next (u.post 0x0204 [.s (sat32 (quot (-(s.advance dt).tb3Offset) (2 ^ 48)))]).cmpStepped ∧
      u.on Reg.TB_STATUS_stepped = true ∧ u.tb 3 = (s.advance dt).tb s.tb3Source % 2 ^ 112 ∧
      (∀ k, k < 3 → u.tb k = (s.advance dt).tb k) ∧ (∀ n, n < 32 → (u.str n).offset = (s.str n).offset +
        if s.nodeCount n = 0 then 0 else quot (-(s.advance dt).tb3Offset) (2 ^ 32)) ∧
      s.sameRegsBut u (Reg.TB_STATUS_stepped.off :: (List.range 32).flatMap fun n => [(Reg.LINKs_OFFSET_LO n).off, (Reg.LINKs_OFFSET_HI n).off]) ∧
      u.out = s.out) ∧
    (s.dev ≠ stBoot → s.dev ≠ stSetup → s.dev ≠ stReady → exec (.stepTb3 dt) s = .next (s.advance dt))) ∧
  (∀ dt (s : State), s.powered 2 = true →
    (s.get Reg.TB3_CFG_select ≠ 3 → exec (.tb3Switch dt) s = .next (s.advance dt)) ∧
    (s.get Reg.TB3_CFG_select = 3 → s.get Reg.TB_STATUS_src = 1 → s.domain 0 ≠ 2 → s.choosable 1 = true → ∃ (u : State) (e : Int),
      exec (.tb3Switch dt) s = .next (u.post 0x0205 [.b 1, .b 2, .s e]) ∧ u.get Reg.TB_STATUS_src = 2 ∧ u.on Reg.TB_STATUS_switched = true ∧
      s.sameRegsBut u [Reg.TB_STATUS_src.off] ∧ u.time = (s.advance dt).time) ∧
    (s.get Reg.TB3_CFG_select = 3 → s.get Reg.TB_STATUS_src = 2 → s.domain 1 ≠ 2 → s.choosable 0 = true → ∃ (u : State) (e : Int),
      exec (.tb3Switch dt) s = .next (u.post 0x0205 [.b 2, .b 1, .s e]) ∧ u.get Reg.TB_STATUS_src = 1 ∧ u.on Reg.TB_STATUS_switched = true ∧
      s.sameRegsBut u [Reg.TB_STATUS_src.off] ∧ u.time = (s.advance dt).time)) ∧
  (∀ dt t0 (s : State), s.powered 2 = true → s.time.disagreeing = true → (s.advance dt).domainDiff.natAbs ≤ s.disagreeNs * 2 ^ 48 →
    s.time.agreeSince = some t0 → t0 + 1000000000 ≤ s.beat + dt → ∃ u : State, exec (.domainEligibleRestore dt) s = .next u.autoSwitch ∧
      u.on (Reg.PTPd_STATUS_eligible 0) = true ∧ u.on (Reg.PTPd_STATUS_eligible 1) = true ∧ u.time.disagreeing = false ∧
      u.time.agreeSince = none ∧ u.out = s.out)

/-- PTP offset: a Sync and its Follow_Up from the selected master, and the loss of the master. 04_time_bases_and_network_time.md R88, 04_time_bases_and_network_time.md R89, 04_time_bases_and_network_time.md R90 -/
def Obligations.PtpSync : Prop :=
  (∀ dt (d : Fin 2) h origin (s : State), s.powered 2 = true → s.powered 4 = true → s.ptpHears d h = true →
    (s.advance dt).fromMaster d h = true →
    (h.twoStep = true → exec (.ptpSyncRx dt d h origin) s =
      .next ((s.advance dt).onPtp d fun p => { p with waitFollow := some (h.seq.toNat, (s.advance dt).rxStamp d, h.correction) })) ∧
    (∀ off t1 : Int, h.twoStep = false → s.domain d = 2 → t1 = (origin.toNat : Int) * 65536 + h.correction →
      off = timeDiff ((s.advance dt).rxStamp d - t1 - (s.ptp d).pathDelay) →
      off.natAbs ≤ max 1 (s.get (Reg.PTPd_SERVO_step_us d)) * 1000 * 65536 →
      ∃ u : State, exec (.ptpSyncRx dt d h origin) s = .next u.compareDomains ∧ u.getI (Reg.PTPd_OFFSET d) = sat32 (nsOf off) ∧
        (u.ptp d).lastSync = some (t1, (s.advance dt).rxStamp d) ∧ (u.ptp d).waitFollow = none ∧ u.time.tb = (s.advance dt).time.tb ∧
        u.domain d = 2 ∧ u.out = s.out)) ∧
  (∀ dt (d : Fin 2) h origin t2 corr (s : State), (s.ptp d).waitFollow = some (h.seq.toNat, t2, corr) → s.powered 2 = true →
    s.powered 4 = true → s.ptpHears d h = true → (s.advance dt).fromMaster d h = true → s.domain d = 2 →
    ∀ off t1 : Int, t1 = (origin.toNat : Int) * 65536 + corr + h.correction → off = timeDiff (t2 - t1 - (s.ptp d).pathDelay) →
      off.natAbs ≤ max 1 (s.get (Reg.PTPd_SERVO_step_us d)) * 1000 * 65536 →
      ∃ u : State, exec (.ptpFollowUpRx dt d h origin) s = .next u.compareDomains ∧ u.getI (Reg.PTPd_OFFSET d) = sat32 (nsOf off) ∧
        (u.ptp d).lastSync = some (t1, t2) ∧ (u.ptp d).waitFollow = none ∧ u.time.tb = (s.advance dt).time.tb ∧ u.domain d = 2 ∧
        u.out = s.out) ∧
  (∀ dt (d : Fin 2) (s : State), s.powered 2 = true → s.domain d = 2 → (s.advance dt).masterLost d = true →
    ∃ u : State, exec (.ptpHoldover dt d) s = .next (u.post 0x0202 [.b d, .ns (s.ptp d).syncStamp]).autoSwitch ∧ u.domain d = 3 ∧
      u.on (Reg.PTPd_STATUS_holdover_seen d) = true ∧ u.time.tb = (s.advance dt).time.tb ∧ u.out = s.out)

/-- PTP delay measurement, Announce messages and messages of other types. 04_time_bases_and_network_time.md R88, 04_time_bases_and_network_time.md R90 -/
def Obligations.PtpDelay : Prop :=
  (∀ dt (d : Fin 2) (s : State), s.powered 2 = true → s.powered 4 = true → s.domainRuns d = true → s.on (Reg.ETHp_CFG_enable (s.ptpPort d)) = true →
    (s.profile d = 0 → (s.ptp d).lastSync.isSome = true → Gives (exec (.ptpDelayReqSend dt d) s) fun t =>
      (∃ m, t.out = s.out ++ [.netMessage (s.ptpPort d) m] ∧ beAt m.body 0 1 % 16 = 1 ∧ beAt m.body 30 2 = (s.ptp d).nextSeq % 65536) ∧ (t.ptp d).request = some ((s.ptp d).nextSeq, (s.advance dt).txStamp d) ∧
      (t.ptp d).nextSeq = ((s.ptp d).nextSeq + 1) % 65536 ∧ (t.ptp d).lastSync = (s.ptp d).lastSync ∧
      s.sameRegsBut t [(Reg.ETHp_TX_FRAMES (s.ptpPort d)).off]) ∧
    (s.profile d ≠ 0 → Gives (exec (.ptpPdelayReqSend dt d) s) fun t =>
      (∃ m, t.out = s.out ++ [.netMessage (s.ptpPort d) m] ∧ beAt m.body 0 1 % 16 = 2 ∧ beAt m.body 30 2 = (s.ptp d).nextSeq % 65536) ∧ (t.ptp d).request = some ((s.ptp d).nextSeq, (s.advance dt).txStamp d) ∧
      (t.ptp d).nextSeq = ((s.ptp d).nextSeq + 1) % 65536 ∧ s.sameRegsBut t [(Reg.ETHp_TX_FRAMES (s.ptpPort d)).off])) ∧
  (∀ dt (d : Fin 2) h (s : State), s.powered 2 = true → s.powered 4 = true → s.ptpHears d h = true → s.profile d ≠ 0 →
    s.on (Reg.ETHp_CFG_enable (s.ptpPort d)) = true → Gives (exec (.ptpPdelayReqRx dt d h) s) fun t =>
      (∃ m1 m2, t.out = s.out ++ [.netMessage (s.ptpPort d) m1, .netMessage (s.ptpPort d) m2] ∧ beAt m1.body 0 1 % 16 = 3 ∧
        beAt m2.body 0 1 % 16 = 10 ∧ beAt m1.body 30 2 = h.seq.toNat ∧ beAt m2.body 30 2 = h.seq.toNat) ∧ t.time = (s.advance dt).time ∧
      s.sameRegsBut t [(Reg.ETHp_TX_FRAMES (s.ptpPort d)).off]) ∧
  (∀ dt (d : Fin 2) h (v : BitVec 64) t1 t2 t3 (s : State), s.powered 2 = true → s.powered 4 = true →
    (s.ptp d).request = some (h.seq.toNat, t3) → (s.ptp d).lastSync = some (t1, t2) → s.ptpHears d h = true →
    (s.advance dt).fromMaster d h = true → s.profile d = 0 → Gives (exec (.ptpDelayRespRx dt d h v) s) fun t =>
      (t.ptp d).pathDelay = quot (timeDiff (t2 - t1) + timeDiff ((v.toNat : Int) * 65536 - h.correction - t3)) 2 ∧ (t.ptp d).request = none ∧
      t.get (Reg.PTPd_PATH_DELAY d) = min (2 ^ 32 - 1) (nsOf (t.ptp d).pathDelay).toNat ∧ s.sameRegsBut t [(Reg.PTPd_PATH_DELAY d).off] ∧
      t.out = s.out) ∧
  (∀ dt (d : Fin 2) h (v : BitVec 64) t1 (s : State), s.powered 2 = true → s.powered 4 = true → s.ptpHears d h = true → s.profile d ≠ 0 →
    (s.ptp d).request = some (h.seq.toNat, t1) →
    (h.twoStep = false → Gives (exec (.ptpPdelayRespRx dt d h false v) s) fun t =>
      (t.ptp d).pathDelay = quot (timeDiff ((s.advance dt).rxStamp d - t1) - h.correction) 2 ∧ (t.ptp d).request = none ∧ t.out = s.out) ∧
    (h.twoStep = true → Gives (exec (.ptpPdelayRespRx dt d h false v) s) fun t =>
      (t.ptp d).waitResp = some (h.seq.toNat, (v.toNat : Int) * 65536 - h.correction, (s.advance dt).rxStamp d) ∧ t.regs = s.regs ∧
      t.out = s.out) ∧
    (∀ t2 t4, (s.ptp d).waitResp = some (h.seq.toNat, t2, t4) → Gives (exec (.ptpPdelayRespRx dt d h true v) s) fun t =>
      (t.ptp d).pathDelay = quot (timeDiff (t4 - t1) - timeDiff ((v.toNat : Int) * 65536 - t2) - h.correction) 2 ∧ (t.ptp d).waitResp = none ∧
      t.out = s.out)) ∧
  (∀ dt (d : Fin 2) h a (s : State), s.powered 2 = true → s.powered 4 = true → s.ptpHears d h = true →
    Gives (exec (.ptpAnnounceRx dt d h a) s) fun t =>
      (t.ptp d).foreign.head? = some ⟨h.clockId, h.portNumber, a, s.beat + dt, h.logInterval⟩ ∧
      t.get2 (Reg.PTPd_GM_ID_LO d) (Reg.PTPd_GM_ID_HI d) = ((t.master d).map (·.clockId.toNat)).getD 0 ∧ t.out = s.out) ∧
  (∀ dt (d : Fin 2) h (s : State), s.powered 4 = true → s.ptpHears d h = true →
    exec (.ptpIgnoredRx dt d h) s = .next ((s.advance dt).bump (Reg.PTPd_STATUS_ignored_count d) 1))

/-- Web coordinates: publishing, its suspension, the checks of a received message and its staleness. 04_time_bases_and_network_time.md R96, 04_time_bases_and_network_time.md R97, 04_time_bases_and_network_time.md R98 -/
def Obligations.WebCoordinates : Prop :=
  (∀ dt (s : State), s.powered 2 = true → s.powered 4 = true → s.on Reg.WCP_CFG_enable = true →
    (s.active ≠ 4 → (s.active = 7 → s.time.pubSuspended = false) → s.domainGood (s.get Reg.WCP_CFG_domain) = true →
      s.on (Reg.ETHp_CFG_enable (s.ptpPort (s.get Reg.WCP_CFG_domain))) = true → Gives (exec (.wcPublish dt) s) fun t =>
        (∃ m, t.out = s.out ++ [.netMessage (s.ptpPort (s.get Reg.WCP_CFG_domain)) m] ∧ m.carrier = s.wcOut ∧
          m.body.take 48 = (s.advance dt).wcMessage (s.get Reg.WCP_CFG_domain) ∧ m.dest = BitVec.ofNat 48 s.wcDest) ∧
        t.time.pubSeq = (s.time.pubSeq + 1) % 65536 ∧ t.time.pubSuspended = false ∧ t.obs = s.obs) ∧
    (s.active = 4 → s.time.pubSuspended = false → exec (.wcPublish dt) s =
      .next (((s.advance dt).modTime fun t => { t with pubSuspended := true }).post 0x0209 [.ns (s.advance dt).tb3])) ∧
    (s.active = 4 ∨ s.active = 7 → s.time.pubSuspended = true → exec (.wcPublish dt) s = .next (s.advance dt))) ∧
  (∀ dt port c m (s : State), s.powered 2 = true → s.powered 4 = true → s.on Reg.WCS_CFG_enable = true → s.wcCarrier c = true →
    48 ≤ m.length → beAt m 0 1 = 1 → ∀ (now : Nat) (at_ diff : Int), now = (s.advance dt).stamp80 (beAt m 6 1) →
    at_ = (((now / 65536 : Nat) : Int) + signed 48 (wrap 48 ((beAt m 8 6 : Int) - (now / 65536 : Nat)))) * 65536 + beAt m 14 2 →
    diff = signed 16 (wrap 16 ((beAt m 4 2 : Int) - s.get Reg.WCS_STATUS_last_sequence)) →
    exec (.wcMessageRx dt port c m) s = .next (
      if beAt m 2 2 ≠ s.get Reg.WCS_ID_publisher_id then (s.advance dt).bump Reg.WCS_REJECT_id_reject 1
      else if beAt m 44 4 ≠ crc32c (m.take 44) then (s.advance dt).bump Reg.WCS_REJECT_crc_reject 1
      else if 2 ≤ beAt m 6 1 ∨ s.domainGood (beAt m 6 1) = false then (s.advance dt).bump Reg.WCS_REJECT_domain_reject 1
      else if s.time.seqExempt = false ∧ diff ≤ 0 then (s.advance dt).bump Reg.WCS_REJECT_seq_reject 1
      else if now - at_ < -(1000 * 65536) ∨ (s.get Reg.WCS_CFG_max_age_us * 1000 * 65536 : Nat) < now - at_ then
        (s.advance dt).bump Reg.WCS_REJECT_AGE_age_reject 1
      else (s.advance dt).wcAccept m (wrap 80 (at_ + (s.advance dt).now - now)))) ∧
  (∀ m te (s : State), bit (beAt m 1 1) 0 = false → ∃ u : State, s.wcAccept m te = u.goStale 2 ∧
    u.get Reg.WCS_STATUS_last_sequence = beAt m 4 2 % 2 ^ 16 ∧ u.time.lastAccepted = some s.beat ∧ u.time.seqExempt = false ∧ u.obs = s.obs) ∧
  (∀ m te (s : State), bit (beAt m 1 1) 0 = true → (s.wcAccept m te).get Reg.WCS_STATUS_last_sequence = beAt m 4 2 % 2 ^ 16 ∧
    (s.wcAccept m te).on Reg.WCS_STATUS_stale = false ∧ (s.wcAccept m te).time.lastAccepted = some s.beat) ∧
  (∀ dt a (s : State), s.powered 2 = true → s.on Reg.WCS_CFG_enable = true →
    (if s.time.lastAccepted.isSome then s.time.lastAccepted else s.time.subscribedAt) = some a → s.on Reg.WCS_STATUS_stale = false →
    (∀ r, r = (if a + s.get Reg.WCS_CFG_stale_us * 1000 < s.beat + dt then 1 else 3) →
      (r = 3 → s.time.lastAccepted.isSome = true ∧ s.domainGood s.time.lastDomain = false) → ∃ u : State,
        exec (.wcStale dt) s = .next (if s.live 4 then ((u.post 0x0207 [.b r]).stopSource 4 true).sources else u.post 0x0207 [.b r]) ∧
        u.on Reg.WCS_STATUS_stale = true ∧ u.get Reg.WCS_STATUS_reason = r ∧ u.on Reg.WCS_STATUS_stale_seen = true ∧
        u.time.seqExempt = true ∧ u.obs = s.obs ∧ u.out = s.out))

/-- Ethernet ports: one counter for every frame, and the link's change. 20_register_map.md R520, 20_register_map.md R521 -/
def Obligations.EthernetPorts : Prop :=
  (∀ dt (p : Fin 2) dest bad c (s : State), s.powered 4 = true → s.on (Reg.ETHp_CFG_enable p) = true →
    ∀ f : Fld, f = (if bad then Reg.ETHp_RX_ERRORS p else if s.ethMine p dest ∧ s.ethKeeps c then Reg.ETHp_RX_FRAMES p else Reg.ETHp_RX_FILTERED p) →
      Gives (exec (.ethFrameRx dt p dest bad c) s) fun t =>
        t.get f = min (2 ^ 32 - 1) (s.get f + 1) ∧ s.sameRegsBut t [f.off] ∧ t.out = s.out ∧ t.time = (s.advance dt).time ∧ t.obs = s.obs) ∧
  (∀ dt (p : Fin 2) up (s : State), s.powered 4 = true → s.on (Reg.ETHp_STATUS_link_up p) ≠ up → Gives (exec (.ethLinkChange dt p up) s) fun t =>
    t.on (Reg.ETHp_STATUS_link_up p) = up ∧ t.on (Reg.ETHp_STATUS_link_changed p) = true ∧
    s.sameRegsBut t [(Reg.ETHp_STATUS_link_up p).off] ∧ t.out = s.out)

/-- The life of a stream: origin, a missing sheet, the end, the drain, a late LEAD and a table's switch. 05_line_schedule.md R104, 05_line_schedule.md R105, 05_line_schedule.md R117, 05_line_schedule.md R123, 05_line_schedule.md R124, 05_line_schedule.md R125 -/
def Obligations.StreamLife : Prop :=
  (∀ dt b x0 moved (s : State), s.powered 2 = true → s.sched.jobs.head? = some b → s.dev = stReady → s.on Reg.OBS_STATUS_pos_valid = true →
    s.cplReg ≠ 0 → (s.tableNow tPlacement 0 0).isSome = true →
    ((s.advance dt).originFor b = none → exec (.originSet dt) s = .next (s.advance dt)) ∧
    ((s.advance dt).originFor b = some (x0, moved) →
      (b.startKind ≠ 2 ∨ ¬ posDiff x0 (s.advance dt).webPos < (s.advance dt).leadRoom) →
      ∃ u : State, exec (.originSet dt) s =
          .next ((u.enter stPrinting).post 0x0301 [.pos x0, .b (b2n moved), .ns (s.advance dt).tb3]).partings ∧
        u.getI2 Reg.LS_ORIGIN_LO Reg.LS_ORIGIN_HI = signed 64 (wrap 64 x0) ∧ u.streaming = true ∧ u.get Reg.LS_SKIP_COUNT = 0 ∧
        u.get Reg.LS_LATE_COUNT = 0 ∧ u.get Reg.LS_STATUS_edges_ignored = 0 ∧ u.sched.cpl = s.cplReg ∧ u.sched.heads = [] ∧ u.obs.hw = (s.advance dt).webPos ∧ u.out = s.out) ∧
    ((s.advance dt).originFor b = some (x0, moved) → b.startKind = 2 → posDiff x0 (s.advance dt).webPos < (s.advance dt).leadRoom →
      exec (.originSet dt) s = .next ((s.advance dt).ignoreEdge.modSched fun c => { c with edge := none }))) ∧
  (∀ dt b (s : State), s.powered 2 = true → s.sched.jobs.head? = some b →
    (s.dev ≠ stReady ∨ s.on Reg.OBS_STATUS_pos_valid = false ∨ s.cplReg = 0 ∨ s.tableNow tPlacement 0 0 = none) →
    exec (.originSet dt) s = .next (s.advance dt)) ∧
  (∀ dt p (s : State), (s.advance dt).lastSpan = some p → (s.advance dt).streaming = true → (s.advance dt).sheetWait = true →
    s.get Reg.LS_SHEET_GAP_max_gap_lines ≠ 0 → p.start + p.len - 1 + s.get Reg.LS_SHEET_GAP_max_gap_lines < (s.advance dt).refLine →
    (s.sched.missingPosted = true → exec (.sheetMissing dt) s = .next (s.advance dt)) ∧
    (s.sched.missingPosted = false → exec (.sheetMissing dt) s =
      .next ((((s.advance dt).modSched fun c => { c with missingPosted := true }).raise Reg.LS_STATUS_sheet_missing).post 0x0307
        [.li (s.advance dt).refLine, .n ((s.advance dt).refLine - (p.start + p.len - 1))]))) ∧
  (∀ dt (l : Int) (s : State), s.lastLine = some l → s.dev = stPrinting → s.streaming = true → l < s.committedI →
    ∃ u : State, exec (.streamEnd dt) s = .next (u.post 0x030C [.li (wrap 48 l)]) ∧ u.dev = stDraining ∧ u.sched = s.sched) ∧
  (∀ dt (l : Int) (s : State), s.lastLine = some l → s.dev = stDraining → (s.advance dt).drained (l + 63).toNat = true →
    ∃ u : State, exec (.drainComplete dt) s = .next u.releaseDue ∧ u.dev = stReady ∧ u.streaming = false ∧ u.sched.last = none ∧
      u.sched.spans = [] ∧ u.sched.stopping = false ∧ u.sched.jobs = s.sched.jobs.filter jobMore ∧
      u.get2 Reg.LS_NEXT_PARTING_LO Reg.LS_NEXT_PARTING_HI = 2 ^ 48 - 1 ∧ u.raster.recuts = [] ∧
      u.get Reg.LS_LEAD_lead_in_force = s.get Reg.LS_LEAD_lead) ∧
  (∀ dt (v : BitVec 32) (s : State), s.dev ≠ stBoot → s.domainOff Reg.LS_LEAD_lead.off = false →
    (256 ≤ v.toNat % 2048 → v.toNat % 2048 ≤ 1024 → s.bufferShort (v.toNat % 2048) = false → Gives (exec (.leadWrite dt v) s) fun t =>
      t.get Reg.LS_LEAD_lead = v.toNat % 2048 ∧
      t.get Reg.LS_LEAD_lead_in_force = (if s.streaming then s.get Reg.LS_LEAD_lead_in_force else v.toNat % 2048) ∧
      s.sameRegsBut t [Reg.LS_LEAD_lead.off] ∧ t.out = s.out) ∧
    (v.toNat % 2048 < 256 ∨ 1024 < v.toNat % 2048 → exec (.leadWrite dt v) s =
      .next (((s.advance dt).raise Reg.LS_STATUS_lead_refused).post 0x0302 [.b 1, .n (v.toNat % 2048)])) ∧
    (256 ≤ v.toNat % 2048 → v.toNat % 2048 ≤ 1024 → s.bufferShort (v.toNat % 2048) = true → exec (.leadWrite dt v) s =
      .next (((s.advance dt).raise Reg.LS_STATUS_lead_refused).post 0x0302 [.b 2, .n (v.toNat % 2048)]))) ∧
  (∀ dt (k : Fin 13) (i : Fin 32) (b : Fin 4) g l (s : State), s.sched.staged = [g] → g.kind = k → g.index = i → g.sub = b → g.line = some l →
    k.val ≠ tCal → k.val ≠ tColumn → k.val ≠ tPlan → k.val ≠ tPlacement →
    ((s.advance dt).progress k i < l → exec (.tableTakesEffect dt k i b) s = .next (s.advance dt)) ∧
    (l ≤ (s.advance dt).progress k i → ∃ u : State,
      exec (.tableTakesEffect dt k i b) s = .next (u.takeEffect g (some l) (some l)).fixLines ∧ u.sched.staged = [] ∧ u.regs = s.regs ∧
      u.out = s.out)) ∧
  (∀ g l f (s : State), g.kind = tTone ∨ g.kind = tTarget → g.fm = none → g.op = none →
    (s.takeEffect g (some l) f).banksOf g.kind g.index g.sub = ⟨l, g.data, g.bad⟩ :: s.banksOf g.kind g.index g.sub)

/-- Bindings and line data: what BIND_SEND and LINE_SEND send. 05_line_schedule.md R110, 05_line_schedule.md R112, 05_line_schedule.md R115, 05_line_schedule.md R119, 05_line_schedule.md R120 -/
def Obligations.BindAndLines : Prop :=
  (∀ dt (h : Fin 256) src (s : State), (s.advance dt).bindSource = some src → plEn s.placementNow h = true →
    ∀ v u : State, v = (s.advance dt).retireHead h → v.bindCase h (v.head h).next = .wait → u = v.settleRuns.releaseDue →
      exec (.bindSend dt h) s =
        .next (u.sendBind h (if src = 0 then u.nodeEnd h else u.get Reg.PAIR_CFG_end) src ((u.head h).bound.take 16))) ∧
  (∀ dt (h : Fin 256) (s : State), s.streaming = false → exec (.bindSend dt h) s = .next (s.advance dt)) ∧
  (∀ dt (h : Fin 256) (s : State), s.powered 7 = true → s.held_ = true → (s.dev = stPrinting ∨ s.dev = stDraining) →
    (s.str (h.val / 8)).returning = 0 → s.tally.takenFrom = none →
    ((s.head h).ready = [] → exec (.lineSend dt h) s = .next (s.advance dt)) ∧
    (∀ l ls, (s.head h).ready = l :: ls → (s.advance dt).beyondEnd l.k = true → exec (.lineSend dt h) s = .next (s.advance dt)) ∧
    (∀ l ls, (s.head h).ready = l :: ls → (s.advance dt).beyondEnd l.k = false → bit l.flags 3 = true → (s.head h).lateRun = none → Gives (exec (.lineSend dt h) s) fun t =>
      (t.head h).ready = ls ∧ t.get Reg.LS_LATE_COUNT = min (2 ^ 32 - 1) (s.get Reg.LS_LATE_COUNT + 1) ∧ t.out = s.out ∧
      s.sameRegsBut t [Reg.LS_LATE_COUNT.off] ∧ (t.head h).sent = (s.head h).sent) ∧
    (∀ l ls, (s.head h).ready = l :: ls → (s.advance dt).beyondEnd l.k = false → bit l.flags 3 = false → (s.advance dt).isLate h l.k = true →
      Gives (exec (.lineSend dt h) s) fun t => (t.head h).ready = ls ∧ (t.head h).sent = (s.head h).sent ∧
        t.get Reg.LS_LATE_COUNT = min (2 ^ 32 - 1) (s.get Reg.LS_LATE_COUNT + 1) ∧
        ((s.head h).lateRun = none → ((s.advance dt).mapWait h l.k).isSome = true → t.on Reg.SEAM_STATUS_map_late = true)) ∧
    (∀ l ls, (s.head h).ready = l :: ls → (s.advance dt).beyondEnd l.k = false → bit l.flags 3 = false → (s.advance dt).isLate h l.k = false →
      (((s.advance dt).mapWait h l.k).isSome = true ∨ posDiff (s.advance dt).webPos (s.planeLine s.placementNow (plPlane s.placementNow h)
        (((l.k : Int) - s.lead) * 65536 + plDown s.placementNow h)) < 0) →
      exec (.lineSend dt h) s = .next (s.advance dt)) ∧
    (∀ l ls, (s.head h).ready = l :: ls → (s.advance dt).beyondEnd l.k = false → bit l.flags 3 = false → (s.advance dt).isLate h l.k = false → (s.advance dt).mapWait h l.k = none →
      0 ≤ posDiff (s.advance dt).webPos (s.planeLine s.placementNow (plPlane s.placementNow h)
        (((l.k : Int) - s.lead) * 65536 + plDown s.placementNow h)) →
      ∃ u : State, exec (.lineSend dt h) s = .next (u.sendLine h l) ∧ (u.head h).ready = ls ∧ (u.head h).sent = some l.k ∧
        (u.head h).lateRun = none))

/-- The speed ceiling follows the lowest term, rises by at most 1,250 lines/s, and is 0 while PRINT_OK is low. 05_line_schedule.md R128, 05_line_schedule.md R544, 05_line_schedule.md R130 -/
def Obligations.SpeedCeiling : Prop :=
  ∀ dt c code det (s : State), s.powered 2 = true →
    (c, code, det) = (if s.power.printOk then
      (min (limiting (s.advance dt).ceilTerms).2.rate (s.get Reg.LS_CEILING_ceiling + 1250), (limiting (s.advance dt).ceilTerms).1,
        (limiting (s.advance dt).ceilTerms).2.detail) else (0, 6, 0)) →
    ∃ (u : State) (p : Nat × Nat), u.get Reg.LS_CEILING_ceiling = c % 2 ^ 17 ∧ u.get Reg.LS_CEILING_code = code % 256 ∧
      u.get Reg.LS_CEIL_DETAIL_detail = det % 65536 ∧ u.out = s.out ∧ u.sched = s.sched ∧
      exec (.ceilingRecompute dt) s = .next (((if code = s.get Reg.LS_CEILING_code then u else u.post 0x030A [.n c, .b code, .n det]).modSched
        fun x => { x with pwm := p }).overCeiling.sendCeiling)

/-- Slices and the Seam: a line begun, a block fetched and verified, a retired bank, a head line assembled. 06_raster_path.md R135, 06_raster_path.md R138, 06_raster_path.md R140, 06_raster_path.md R153, 07_seam_buffer_and_skew.md R169 -/
def Obligations.SliceLines : Prop :=
  (∀ dt (q : Fin 10) (s : State), s.powered 6 = true → (s.advance dt).mayBegin_ q (s.plane q).next = true →
    (∃ u : State, exec (.sliceBeginLine dt q) s = .next (u.completeLine q) ∧ (u.plane q).next = (s.plane q).next + 1 ∧
      (u.plane q).busy = some ((s.plane q).next, s.beat + dt)) ∨
    Gives (exec (.sliceBeginLine dt q) s) fun t => (t.plane q).lateRun.isSome = true ∧ (t.plane q).next = (s.plane q).next + 1) ∧
  (∀ dt (q : Fin 10) (w : StoreWait) p i b j (s : State), s.powered 6 = true → s.streaming = true → s.slicing = true → s.planeServed q = true →
    s.takenOver q = false →
    (s.chainAhead q).find? (fun e => !((s.plane q).blocks.any fun b => b.span == e.1.start && b.pos == e.2.1)) = some (p, i, b, j) →
    b.pages ≠ [] → s.keyUsable p.keySlot = true → s.blockBad b = false →
    ∃ u : State, exec (.blockFetch dt q w) s =
      .next (u.onPlane q fun x => { x with blocks := x.blocks ++ [s.fetchBlock p q i b j] }).refresh ∧
      u.regs = s.regs ∧ u.raster = s.raster ∧ u.sched = s.sched ∧ u.store = s.store) ∧
  (∀ dt (q : Fin 10) b p (s : State), s.powered 6 = true → (s.plane q).blocks.find? (fun b => !b.verified) = some b →
    s.sched.spans.find? (fun p => p.start == b.span) = some p →
    ∃ (u : State) (b' : BlockBuf), exec (.blockVerify dt q) s = .next (u.completeLine q) ∧
      b' = s.verifyBlock q (s.chainWidth (chainOf p q)) (chainOf p q) b ∧ b'.verified = true ∧
      (u.plane q).blocks = (s.plane q).blocks.map (fun y => if y.span == b.span && y.pos == b.pos then b' else y) ∧ u.regs = s.regs) ∧
  (∀ dt (k : Fin 12) (q : Fin 10) (i : Fin 4) b c r (s : State), s.powered 6 = true → (k.val = tTrim ∨ k.val = tTone ∨ k.val = tScreen) →
    s.banksOf k q i = b :: c :: r → (s.advance dt).headsPassed q (b.start + 191) = true →
    exec (.rasterBankRelease dt k q i) s = .next ((s.advance dt).setBanks k q i [b]).fixLines) ∧
  (∀ dt (h : Fin 256) (s : State), s.powered 6 = true →
    (s.asmFrom h = none → exec (.seamAssemble dt h) s = .next (s.advance dt)) ∧
    (∀ k, s.asmFrom h = some k → (s.advance dt).mayAssemble h k = false → exec (.seamAssemble dt h) s = .next (s.advance dt)) ∧
    (∀ k, s.asmFrom h = some k → (s.advance dt).mayAssemble h k = true → Gives (exec (.seamAssemble dt h) s) fun t =>
      (t.head h).asm = k + 1 ∧ ∃ l : HeadLine, (t.head h).ready = (s.head h).ready ++ [l] ∧ l.k = k ∧
        ((s.advance dt).planeServed (plPlane ((s.advance dt).placementFor k) h) = false →
          l.flags = 1 ∧ l.codes = List.replicate (s.columnsOf ((s.advance dt).placementFor k) h) 0 ∧ t.regs = s.regs)))

/-- The spare slice: audit, failure of a slice, takeover, self-test and re-cut. 06_raster_path.md R158, 06_raster_path.md R159, 06_raster_path.md R161, 06_raster_path.md R163, 06_raster_path.md R166 -/
def Obligations.SpareSlice : Prop :=
  (∀ dt (v : BitVec 32) line c r (s : State), s.powered 6 = true → s.get Reg.RS_SPARE_STATUS_state = spAudit →
    (s.plane s.raster.auditPlane).crcs = (line, c, 0) :: r →
    (∀ o : Option (BitVec 32), (o = none ∨ (o = some v ∧ v.toNat = c)) → Gives (exec (.spareAuditLine dt o) s) fun t =>
      t.get Reg.RS_AUDIT_COUNT = min (2 ^ 32 - 1) (s.get Reg.RS_AUDIT_COUNT + 1) ∧ s.sameRegsBut t [Reg.RS_AUDIT_COUNT.off] ∧
      (t.plane s.raster.auditPlane).crcs = r ∧ t.raster.auditRecheck = s.raster.auditRecheck - 1 ∧ t.out = s.out) ∧
    (v.toNat ≠ c → s.raster.auditRecheck = 0 → ∃ u : State, exec (.spareAuditLine dt (some v)) s =
        .next ((u.post 0x0407 [.b s.raster.auditPlane, .b (s.sliceOf s.raster.auditPlane), .li line]).modRaster
          fun r => { r with auditRecheck := 4 }) ∧
      u.get Reg.RS_AUDIT_MISMATCH = min (2 ^ 16 - 1) (s.get Reg.RS_AUDIT_MISMATCH + 1) ∧ u.on Reg.RS_SPARE_STATUS_mismatch = true ∧
      (u.plane s.raster.auditPlane).crcs = r ∧ u.out = s.out) ∧
    (v.toNat ≠ c → s.raster.auditRecheck ≠ 0 → Gives (exec (.spareAuditLine dt (some v)) s) fun t => s.sliceOf s.raster.auditPlane ∈ t.raster.failed ∧
      t.get Reg.RS_AUDIT_MISMATCH = min (2 ^ 16 - 1) (s.get Reg.RS_AUDIT_MISMATCH + 1))) ∧
  (∀ dt (n : Fin 11) q l a (s : State), s.powered 6 = true → s.planeOf n = some q → (s.plane q).busy = some (l, a) →
    a + 100000 ≤ s.beat + dt → s.planeServed q = true → Gives (exec (.sliceLineTimeout dt n) s) fun t =>
      n.val ∈ t.raster.failed ∧
      (s.on Reg.RS_SPARE_CFG_auto_takeover = true → s.spareFree = true → s.deputyHalted = false → t.raster.takeover = some (q, n.val, (s.plane q).delivered) ∧
        t.raster.unserved = s.raster.unserved ∧ t.get Reg.RS_SPARE_STATUS_state = spServing) ∧
      (s.on Reg.RS_SPARE_CFG_auto_takeover = false ∨ s.spareFree = false ∨ s.deputyHalted = true → q ∈ t.raster.unserved ∧ t.raster.takeover = s.raster.takeover)) ∧
  (∀ dt (n : Fin 16) (s : State), s.dev ≠ stBoot → s.domainOff Reg.RS_SPARE_CTRL_take.off = false →
    (s.raster.failed.contains n.val = false → (s.planeOf n).isSome = true → Gives (exec (.spareTake dt n) s) fun t => n.val ∈ t.raster.failed) ∧
    (s.raster.failed.contains n.val = true ∨ s.planeOf n = none → exec (.spareTake dt n) s = .next (s.advance dt))) ∧
  (∀ dt q f lf (s : State), s.powered 6 = true → s.deputyHalted = false → s.raster.takeover = some (q, f, lf) → ∃ u : State,
    exec (.sliceTakeover dt) s = .next ((u.raise Reg.RS_SPARE_STATUS_takeover).post 0x0409 [.b q, .b f, .b (s.sliceOf q), .li lf]) ∧
    u.raster.takeover = none ∧ (u.plane q).next = lf ∧ (u.plane q).busy = none ∧ (u.plane q).blocks = [] ∧ u.regs = s.regs) ∧
  (∀ dt (n : Fin 16) (s : State), s.dev ≠ stBoot → s.domainOff Reg.RS_SPARE_CTRL_restore.off = false → s.raster.failed.contains n.val = true →
    s.raster.bist = none → Gives (exec (.spareRestore dt n) s) fun t =>
      t.raster = { s.raster with bist := some (n.val, s.beat + dt) } ∧ t.on (Reg.RSn_BIST_done n) = false ∧ t.on (Reg.RSn_BIST_pass n) = false) ∧
  (∀ dt n a (s : State), s.powered 6 = true → s.raster.bist = some (n, a) →
    (Gives (exec (.sliceBistDone dt true) s) fun t => t.raster.bist = none ∧ n ∉ t.raster.failed ∧ t.on (Reg.RSn_BIST_done n) = true ∧
      t.on (Reg.RSn_BIST_pass n) = true ∧ t.get (Reg.RSn_STATUS_state n) = 4 ∧ t.out = s.out) ∧
    (Gives (exec (.sliceBistDone dt false) s) fun t => t.raster = { s.raster with bist := none } ∧ t.on (Reg.RSn_BIST_done n) = true ∧
      t.on (Reg.RSn_BIST_pass n) = false ∧ s.sameRegsBut t [(Reg.RSn_BIST_done n).off] ∧ t.out = s.out)) ∧
  (∀ dt c (s : State), s.powered 6 = true → s.deputyHalted = false → s.raster.recuts.find? (fun c =>
      c.slice.isNone && (s.planeServed c.plane || s.spareSlice.isSome) && !s.resourceBusy (planeResource c.plane)) = some c →
    (∀ n, s.spareFree = true → s.spareSlice = some n → ∃ u : State, exec (.recutStart dt) s =
        .next ((u.post 0x040A [.b c.plane, .n c.first, .n c.last, .li c.lm, .li c.le, .b n]).setSpare spRecut c.plane) ∧
      u.raster.recuts = startRecut n c s.raster.recuts ∧ u.get (Reg.RSn_STATUS_state n) = 2 ∧ u.out = s.out) ∧
    (s.spareFree = false → s.planeServed c.plane = true → (s.plane c.plane).busy = none →
      (s.raster.recuts.any fun d => d.slice == some (s.sliceOf c.plane)) = false → ∃ u : State, exec (.recutStart dt) s =
        .next (u.post 0x040A [.b c.plane, .n c.first, .n c.last, .li c.lm, .li c.le, .b (s.sliceOf c.plane)]) ∧
      u.raster.recuts = startRecut (s.sliceOf c.plane) c s.raster.recuts ∧ u.out = s.out)) ∧
  (∀ dt c (s : State), s.powered 6 = true → s.raster.recuts.find? (fun c => c.slice.isSome) = some c → ∃ (u : State) (late : Nat),
    exec (.recutDone dt) s = .next (u.post 0x040B [.b c.plane, .n (c.le + 1 - (s.advance dt).recutFirst c.plane c.lm), .n late]) ∧
    u.raster.recuts = s.raster.recuts.filter (· != c))

/-- Fire maps and the spare bank of the Seam. 07_seam_buffer_and_skew.md R174, 07_seam_buffer_and_skew.md R188 -/
def Obligations.MapsAndBanks : Prop :=
  (∀ dt (h : Fin 256) (s : State), s.powered 7 = true → s.mapPending h = true → exec (.mapDataSend dt h) s = .next (s.advance dt)) ∧
  (∀ dt (h : Fin 256) skew bad e m (s : State), s.powered 7 = true → plEn s.placementNewest h = true → (s.node h).known = true →
    s.mapPending h = false → s.mapBank h = some (skew, bad, e) → m = fireMap h skew bad (s.columnsOf s.placementNewest h) →
    ((s.map h).pending = some m → exec (.mapDataSend dt h) s = .next (s.advance dt)) ∧
    ((s.map h).pending ≠ some m → Gives (exec (.mapDataSend dt h) s) fun t =>
      (t.map h).pending = some m ∧ (t.map h).committed = (s.map h).committed ∧ t.regs = s.regs ∧ t.sched = s.sched ∧ t.raster = s.raster)) ∧
  (∀ dt (h : Fin 256) m skew bad e (s u : State), s.powered 7 = true → u = (s.advance dt).fixLines → (u.map h).pending = some m →
    u.mapPending h = false → u.mapBank h = some (skew, bad, some e) → Gives (exec (.mapCommitSend dt h) s) fun t =>
      (t.map h).pending = none ∧ (t.map h).committed = some (e, (u.node h).tag) ∧ (t.map h).acked = (u.map h).acked ∧
      (t.map h).unseen = true ∧ (t.map h).bank = u.freeNodeBank h ∧ t.regs = u.regs ∧
      t.sched = u.sched) ∧
  (∀ dt (q : Fin 10) b ls ring n (s : State), s.powered 6 = true → s.deputyHalted = false → s.seam.copying.find? (fun c => c.1 == q.val) = some (q.val, b, some ls, ring, n) →
    ls + 64 ≤ (s.plane q).delivered → ∃ u : State, exec (.bankSpareSwitch dt q) s =
        .next ((u.post 0x0416 [.b q, .b b, .li (ls + 63)]).endOp ring n stOk [(4, leBytes 6 (ls + 63))]) ∧
      u.get (Reg.SEAM_PLANEq_spared_bank q) = b % 16 ∧ u.on (Reg.SEAM_PLANEq_spare_in_use q) = true ∧ u.on (Reg.SEAM_PLANEq_copying q) = false ∧
      u.on Reg.SEAM_STATUS_bank_spared = true ∧ u.seam.copying = s.seam.copying.filter (fun c => c.1 != q.val) ∧ u.out = s.out)

/-- Training of a lane: its start, the blocks it hears, the timeout, a retrain, block lock and its end. 08_phied_lanes.md R194, 08_phied_lanes.md R197, 08_phied_lanes.md R198, 08_phied_lanes.md R199, 08_phied_lanes.md R200, 08_phied_lanes.md R201, 08_phied_lanes.md R202, 08_phied_lanes.md R203, 08_phied_lanes.md R205 -/
def Obligations.LaneTraining : Prop :=
  (∀ dt (n : Fin 68) (s : State), (s.advance dt).laneOn n = true → s.locked = true → (s.laneState n = lnOff ∨ s.laneState n = lnIdle) →
    Gives (exec (.laneEnable dt n) s) fun t => t.laneState n = lnTraining ∧ t.get (Reg.LANEn_STATUS_attempts n) = 0 ∧
      (t.lane n).trainAt = s.beat + dt ∧ (t.lane n).trainFrom = s.beat + dt ∧
      t.get (Reg.LANEn_ERRCNT_trainings n) = min 255 (s.get (Reg.LANEn_ERRCNT_trainings n) + 1) ∧
      ∃ b x, t.out = s.out ++ [.trainingBlock n b x]) ∧
  (∀ dt (n : Fin 68) (rx : LaneRx) conv (c : Instr) (s : State), (c = .trainingBlockRx dt n rx conv ∨
      (conv = false ∧ (c = .blockLockAcquired dt n rx ∨ c = .laneDown dt n (.lockLost rx) ∨ c = .laneDown dt n (.trainingBlock rx) ∨
        c = .laneBerWarn dt n rx))) →
    (rx.blocks.isEmpty = true ∨ (s.advance dt).listens n = false → exec c s = .next (s.advance dt)) ∧
    ∀ its, (s.advance dt).brings n rx its →
      exec c s = .next (its.foldl (fun (v : State) it => v.rxItem n conv it) ((s.advance dt).takenIn n rx))) ∧
  (∀ w bs (k : Pcs), k.locked = false → k.headers = 0 → bs.length = 64 → (bs.all fun b => headOk b.head) = true → (pcsRun w k bs).2 = [.locked]) ∧
  (∀ w bs (k : Pcs), k.locked = true → k.headers = 0 → k.invalid = 0 → k.packet = none → bs.length = 16 → (bs.all fun b => !headOk b.head) = true →
    (pcsRun w k bs).2 = List.replicate 16 .badHeader ++ [.lost]) ∧
  (∀ w p (k : Pcs), k.locked = true → k.invalid < 16 → p < 2 ^ 56 → (crc8Ok p = true → p % 16 = 1 ∨ p % 16 = 0xA ∨ p % 16 = 0xB) →
    (pcsRun w k (scrambleAll w [orderedBlock p]).2).2 = [.ordered p]) ∧
  (∀ n p conv (u : State), n < 68 → u.on (Reg.LANEn_STATUS_block_lock n) = true →
    (crc8Ok p = false → u.rxItem n conv (.ordered p) = u.onLane n fun l => { l with notices := 0 }) ∧
    (crc8Ok p = true → p % 16 = 0xA → u.laneState n = lnUp → u.rxItem n conv (.ordered p) = u.laneGoesDown n 3) ∧
    (crc8Ok p = true → p % 16 = 0xA → u.laneState n = lnTraining → bit p 22 = false → u.txAsleep n = false → ∃ t : State,
      u.rxItem n conv (.ordered p) = t ∧ t.laneState n = lnTraining ∧ (t.lane n).gotReady = 0 ∧ ∃ b x, t.out = u.out ++ [.trainingBlock n b x]) ∧
    (u.laneState n = lnUp ∨ u.laneState n = lnTraining → u.rxItem n conv .lost = u.laneGoesDown n 1) ∧
    (u.laneState n ≠ lnUp → u.laneState n ≠ lnTraining → ∃ t : State, u.rxItem n conv .lost = t ∧ t.on (Reg.LANEn_STATUS_block_lock n) = false ∧
      t.laneState n = u.laneState n ∧ t.get (Reg.LANEn_ERRCNT_lock_losses n) = min (2 ^ (Reg.LANEn_ERRCNT_lock_losses n).w - 1)
        (u.get (Reg.LANEn_ERRCNT_lock_losses n) + 1) ∧ t.out = u.out) ∧
    (∃ t : State, u.rxItem n conv .badHeader = (if u.beat < (u.lane n).berFrom + 125000 ∧ (u.lane n).berCount = 15 then t.berHigh n else t) ∧
      t.get (Reg.LANEn_ERRCNT_invalid_headers n) = min (2 ^ (Reg.LANEn_ERRCNT_invalid_headers n).w - 1)
        (u.get (Reg.LANEn_ERRCNT_invalid_headers n) + 1) ∧ u.sameRegsBut t [(Reg.LANEn_ERRCNT_invalid_headers n).off] ∧ t.out = u.out)) ∧
  (∀ n conv (u : State), n < 68 →
    (∀ a, (u.lane n).relockFrom = some a → u.laneState n = lnUp → ∃ t : State, u.rxItem n conv .locked =
        t.post 0x0507 [.b n, .b 1, .n (u.beat - a)] ∧ (t.lane n).relockFrom = none ∧ t.on (Reg.LANEn_STATUS_signal n) = true ∧
      t.on (Reg.LANEn_STATUS_block_lock n) = true ∧ t.out = u.out ∧ u.sameRegsBut t [(Reg.LANEn_STATUS_signal n).off]) ∧
    ((u.lane n).relockFrom = none → ∃ t : State, u.rxItem n conv .locked = t ∧ t.on (Reg.LANEn_STATUS_signal n) = true ∧
      t.on (Reg.LANEn_STATUS_block_lock n) = true ∧ 3 ≤ (t.lane n).step ∧ t.out = u.out ∧ u.sameRegsBut t [(Reg.LANEn_STATUS_signal n).off])) ∧
  (∀ dt (n : Fin 68) (s : State), s.laneState n = lnTraining →
    (s.lane n).trainAt + 1000000 * max 1 (s.get (Reg.LANEn_CFG_train_timeout_ms n)) ≤ s.beat + dt →
    (max 1 (s.get (Reg.LANEn_CFG_max_attempts n)) ≤ s.get (Reg.LANEn_STATUS_attempts n) + 1 → ∃ u : State, exec (.trainTimeout dt n) s =
        .next (u.post 0x0503 [.b n, .n (s.get (Reg.LANEn_STATUS_attempts n) + 1), .n (s.lane n).step]) ∧
      u.laneState n = lnFailed ∧ u.on (Reg.LANEn_STATUS_train_fail n) = true ∧ u.link = s.link ∧ u.out = s.out) ∧
    (s.get (Reg.LANEn_STATUS_attempts n) + 1 < max 1 (s.get (Reg.LANEn_CFG_max_attempts n)) → Gives (exec (.trainTimeout dt n) s) fun t =>
      t.laneState n = lnTraining ∧ t.get (Reg.LANEn_STATUS_attempts n) = s.get (Reg.LANEn_STATUS_attempts n) + 1 ∧
      (t.lane n).trainAt = s.beat + dt ∧ (t.lane n).trainFrom = (s.lane n).trainFrom ∧ ∃ b x, t.out = s.out ++ [.trainingBlock n b x])) ∧
  (∀ dt (n : Fin 68) (s : State), s.dev ≠ stBoot → s.domainOff (Reg.LANEn_CTRL_retrain n).off = false →
    (s.laneState n = lnOff ∨ s.laneState n = lnIdle → exec (.laneRetrain dt n) s = .next (s.advance dt)) ∧
    (s.laneState n ≠ lnOff → s.laneState n ≠ lnIdle → ∃ u : State,
      exec (.laneRetrain dt n) s = .next (if s.laneState n = lnUp then (u.laneLost n).refresh else u) ∧
      u.laneState n = lnTraining ∧ u.get (Reg.LANEn_STATUS_attempts n) = 0 ∧ (u.lane n).trainAt = s.beat + dt ∧
      ∃ b x, u.out = s.out ++ [.trainingBlock n b x])) ∧
  (∀ dt (n : Fin 68) (s : State),
    (s.on (Reg.LANEn_STATUS_signal n) = false → exec (.laneDown dt n .signalLost) s = .next (s.advance dt)) ∧
    (s.on (Reg.LANEn_STATUS_signal n) = true → s.on (Reg.LANEn_STATUS_far_tx_asleep n) = true →
      exec (.laneDown dt n .signalLost) s = .next ((s.advance dt).clear (Reg.LANEn_STATUS_signal n))) ∧
    (s.on (Reg.LANEn_STATUS_signal n) = true → s.on (Reg.LANEn_STATUS_far_tx_asleep n) = false →
      (s.laneState n = lnUp ∨ s.laneState n = lnTraining) → exec (.laneDown dt n .signalLost) s = .next ((s.advance dt).laneGoesDown n 2))) ∧
  (∀ n k (s : State), n < 68 → ∃ u v : State, s.laneGoesDown n k = (if s.on (Reg.LANEn_CFG_auto_retrain n) then v.startTraining n else v).refresh ∧
    v = (if s.laneState n = lnUp then (u.post 0x0502 [.b n, .b k]).laneLost n else u.post 0x0502 [.b n, .b k]) ∧
    u.laneState n = lnDown ∧ u.on (Reg.LANEn_STATUS_went_down n) = true ∧ u.on (Reg.LANEn_STATUS_tx_asleep n) = false ∧
    u.on (Reg.LANEn_STATUS_rx_asleep n) = false ∧ (k = 1 ∨ k = 2 → u.on (Reg.LANEn_STATUS_block_lock n) = false) ∧
    (k = 2 → u.on (Reg.LANEn_STATUS_signal n) = false) ∧ u.out = s.out) ∧
  (∀ n (u : State), n < 68 →
    ((u.lane n).berAt = none → u.berHigh n = ((u.raise (Reg.LANEn_STATUS_hi_ber n)).onLane n fun l => { l with berAt := some u.beat }).post 0x0504 [.b n]) ∧
    (∀ a, (u.lane n).berAt = some a → u.beat < a + 100000000 → u.berHigh n = u.raise (Reg.LANEn_STATUS_hi_ber n))) ∧
  (∀ dt (n : Fin 68) a (s : State), (s.lane n).relockFrom = some a → s.laneState n = lnUp →
    (a + 10000 ≤ s.beat + dt → exec (.relockTimeout dt n) s = .next ((s.advance dt).laneGoesDown n 1)) ∧
    (s.beat + dt < a + 10000 → exec (.relockTimeout dt n) s = .next (s.advance dt)))

/-- Sleep and wake of a lane's directions, and its eye scan. 08_phied_lanes.md R204, 08_phied_lanes.md R205, 08_phied_lanes.md R206, 08_phied_lanes.md R207 -/
def Obligations.LaneSleep : Prop :=
  (∀ dt (n : Fin 68) (s : State), s.dev ≠ stBoot → s.domainOff (Reg.LANEn_CTRL_retrain n).off = false → s.laneState n = lnUp →
    (s.on (Reg.LANEn_STATUS_tx_asleep n) = false → s.laneInUse n = false → ∃ u : State,
      exec (.sleepTx dt n) s = .next (u.post 0x0506 [.b n, .b 0, .n 1]) ∧ u.on (Reg.LANEn_STATUS_tx_asleep n) = true ∧
      (∃ x, u.out = s.out ++ [.sleepNotices n 16 x]) ∧ s.sameRegsBut u [(Reg.LANEn_STATUS_state n).off]) ∧
    (s.on (Reg.LANEn_STATUS_tx_asleep n) = false → s.laneInUse n = true →
      exec (.sleepTx dt n) s = .next (((s.advance dt).raise (Reg.LANEn_STATUS_sleep_refused n)).post 0x0505 [.b n, .b 0])) ∧
    (s.on (Reg.LANEn_STATUS_rx_asleep n) = false → s.laneInUse n = false → ∃ u : State,
      exec (.sleepRx dt n) s = .next (u.post 0x0506 [.b n, .b 1, .n 1]) ∧ u.on (Reg.LANEn_STATUS_rx_asleep n) = true ∧
      u.on (Reg.LANEn_STATUS_eye_busy n) = false ∧ u.on (Reg.LANEn_STATUS_block_lock n) = false ∧ u.out = s.out) ∧
    (s.on (Reg.LANEn_STATUS_rx_asleep n) = false → s.laneInUse n = true →
      exec (.sleepRx dt n) s = .next (((s.advance dt).raise (Reg.LANEn_STATUS_sleep_refused n)).post 0x0505 [.b n, .b 1]))) ∧
  (∀ dt (n : Fin 68) (s : State), s.dev ≠ stBoot → s.domainOff (Reg.LANEn_CTRL_retrain n).off = false → s.laneState n = lnTraining →
    exec (.sleepTx dt n) s = .next ((s.advance dt).onLane n fun l => { l with heldTx := true }) ∧
    exec (.sleepRx dt n) s = .next ((s.advance dt).onLane n fun l => { l with heldRx := true })) ∧
  (∀ dt (n : Fin 68) (s : State), s.dev ≠ stBoot → s.domainOff (Reg.LANEn_CTRL_retrain n).off = false →
    (s.on (Reg.LANEn_STATUS_tx_asleep n) = true → ∃ (u : State) (w : Nat), exec (.wakeTx dt n) s = .next (u.post 0x0507 [.b n, .b 0, .n w]) ∧
      w ≤ 1000 ∧ u.on (Reg.LANEn_STATUS_tx_asleep n) = false ∧ (u.lane n).heldTx = false ∧ u.out = s.out) ∧
    (s.on (Reg.LANEn_STATUS_rx_asleep n) = true → Gives (exec (.wakeRx dt n) s) fun t =>
      t.on (Reg.LANEn_STATUS_rx_asleep n) = false ∧ (t.lane n).heldRx = false ∧
      (s.on (Reg.LANEn_STATUS_far_tx_asleep n) = true → t.on (Reg.LANEn_STATUS_far_tx_asleep n) = true ∧ (t.lane n).relockFrom = (s.lane n).relockFrom) ∧
      (s.on (Reg.LANEn_STATUS_far_tx_asleep n) = false → t.on (Reg.LANEn_STATUS_block_lock n) = false ∧
        (t.lane n).relockFrom = some (s.beat + dt)) ∧ t.out = s.out ∧ s.sameRegsBut t [(Reg.LANEn_STATUS_state n).off])) ∧
  (∀ dt (n : Fin 68) (s : State), s.laneState n = lnUp → s.on (Reg.LANEn_STATUS_far_tx_asleep n) = true → Gives (exec (.signalDetectWake dt n) s) fun t =>
      t.on (Reg.LANEn_STATUS_rx_asleep n) = false ∧ t.on (Reg.LANEn_STATUS_far_tx_asleep n) = false ∧
      t.on (Reg.LANEn_STATUS_signal n) = true ∧
      t.on (Reg.LANEn_STATUS_block_lock n) = false ∧ (t.lane n).relockFrom = some (s.beat + dt) ∧ t.out = s.out) ∧
  (∀ dt (n : Fin 68) (rx : LaneRx) (s : State),
    (rx.blocks.isEmpty = true ∨ (s.advance dt).listens n = false → exec (.sleepNoticeRx dt n rx) s = .next (s.advance dt)) ∧
    ∀ its, (s.advance dt).brings n rx its →
      exec (.sleepNoticeRx dt n rx) s = .next (its.foldl (fun (v : State) it => v.rxItem n false it) ((s.advance dt).takenIn n rx))) ∧
  (∀ n p (u : State), n < 68 → u.laneState n = lnUp → u.on (Reg.LANEn_STATUS_block_lock n) = true → crc8Ok p = true → p % 16 = 0xB →
    ((u.lane n).notices = 0 → u.rxItem n false (.ordered p) = u.onLane n fun l => { l with notices := 1 }) ∧
    ((u.lane n).notices ≠ 0 → ∃ v : State, u.rxItem n false (.ordered p) =
        ((v.post 0x0506 [.b n, .b 1, .n 2]).raise (Reg.LANEn_STATUS_far_tx_asleep n)).clear (Reg.LANEn_STATUS_signal n) ∧
      v.on (Reg.LANEn_STATUS_rx_asleep n) = true ∧ v.on (Reg.LANEn_STATUS_block_lock n) = false ∧ (v.lane n).notices = 0 ∧ v.out = u.out)) ∧
  (∀ dt (n : Fin 68) (s : State), s.dev ≠ stBoot → s.domainOff (Reg.LANEn_CTRL_retrain n).off = false →
    s.laneState n = lnUp → s.on (Reg.LANEn_STATUS_eye_busy n) = false → s.on (Reg.LANEn_STATUS_rx_asleep n) = false →
    Gives (exec (.eyeStart dt n) s) fun t => t.on (Reg.LANEn_STATUS_eye_busy n) = true ∧
      (t.lane n).eye = (s.get (Reg.LANEn_EYE_CTRL_phase n), s.get (Reg.LANEn_EYE_CTRL_voffset n), s.get (Reg.LANEn_EYE_CTRL_prescale n)) ∧
      t.out = s.out ∧ s.sameRegsBut t [(Reg.LANEn_STATUS_state n).off]) ∧
  (∀ dt (n : Fin 68) b e (s : State), s.on (Reg.LANEn_STATUS_eye_busy n) = true →
    (s.dev ≠ stBoot → s.domainOff (Reg.LANEn_CTRL_retrain n).off = false → Gives (exec (.eyeStop dt n b e) s) fun t =>
      t.on (Reg.LANEn_STATUS_eye_busy n) = false ∧ t.on (Reg.LANEn_STATUS_eye_done n) = true ∧
      t.get2 (Reg.LANEn_EYE_BITS_LO n) (Reg.LANEn_EYE_BITS_HI n) = min b (s.eyeBits n) ∧
      t.get (Reg.LANEn_EYE_ERR n) = min (2 ^ 32 - 1) (min e (min b (s.eyeBits n))) ∧ t.out = s.out) ∧
    (s.laneState n = lnUp → Gives (exec (.eyeScanDone dt n e) s) fun t =>
      t.on (Reg.LANEn_STATUS_eye_busy n) = false ∧ t.on (Reg.LANEn_STATUS_eye_done n) = true ∧
      t.get2 (Reg.LANEn_EYE_BITS_LO n) (Reg.LANEn_EYE_BITS_HI n) = s.eyeBits n ∧
      t.get (Reg.LANEn_EYE_ERR n) = min (2 ^ 32 - 1) (min e (s.eyeBits n)) ∧ t.out = s.out))

/-- Packets on a head lane: a packet sent comes out whole, and what a received one does. 08_phied_lanes.md R194, 09_phied_link_protocol.md R215, 09_phied_link_protocol.md R216, 09_phied_link_protocol.md R219, 09_phied_link_protocol.md R223, 09_phied_link_protocol.md R230, 09_phied_link_protocol.md R241, 09_phied_link_protocol.md R244, 09_phied_link_protocol.md R248 -/
def Obligations.LinkPackets : Prop :=
  (∀ dt (n : Fin 68) (rx : LaneRx) (c : Instr) (s : State), (c = .statusRx dt n rx ∨ c = .measureRx dt n rx ∨ c = .memreadRx dt n rx ∨
      c = .nodeEventRx dt n rx ∨ c = .syncResponseRx dt n rx ∨ c = .downstreamPassthrough dt n rx) →
    (rx.blocks.isEmpty = true ∨ (s.advance dt).listens n = false → exec c s = .next (s.advance dt)) ∧
    ∀ its, (s.advance dt).brings n rx its →
      exec c s = .next (its.foldl (fun (v : State) it => v.rxItem n false it) ((s.advance dt).takenIn n rx))) ∧
  (∀ w p (k : Pcs), k.locked = true → k.packet = none → k.headers < 64 → k.invalid < 16 → 7 ≤ p.length → ∃ k' : Pcs,
    pcsRun w k (scrambleAll w (packetBlocks p)).2 = (k', [.packet p]) ∧ k'.locked = true ∧ k'.packet = none) ∧
  (∀ (n : Nat) (p : List Byte) (u v : State), n < 64 → u.on (Reg.LANEn_STATUS_block_lock n) = true → u.laneUp n = true → u.usesEnd (n % 2) = true →
    u.tally.relays = [] → v = (u.onLane n fun l => { l with notices := 0 }) →
    u.rxItem n false .broken = u.bump (Reg.LINKs_ERRCNT_crc_errors (n / 2)) 1 ∧
    (Machine.packetOk p = false ∨ (280 < p.length ∧ 8 ≤ pkType p) ∨ [1, 2, 3, 4, 5, 8, 9, 10, 11].contains (pkType p) = false →
      u.rxItem n false (.packet p) = v.bump (Reg.LINKs_ERRCNT_crc_errors (n / 2)) 1) ∧
    (Machine.packetOk p = true → 1 ≤ pkType p → pkType p < 5 → u.rxItem n false (.packet p) = v.bump (Reg.LINKs_ERRCNT_passthrough (n / 2)) 1) ∧
    (∀ a : Nat, Machine.packetOk p = true → p.length ≤ 280 → pkString p = n / 2 → pkNode p < u.nodeCount (n / 2) → a = 8 * (n / 2) + pkNode p →
      (pkType p = 8 → ∃ x : State, u.rxItem n false (.packet p) = (
          let y := x.learnHops (n / 2) (pkNode p) (leAt ((p.drop 6).take 40) 1 1)
          let z := if y.config ≠ 0 && y.held_ && decide (y.epoch < beAt ((p.drop 6).take 40) 8 4) then y.fence 3 else y
          ((if (z.node a).rerouting && z.nodeEnd a == n % 2 then z.rerouted a else z).checkHead a 2).wakeReroute (n / 2)) ∧
        (x.node a).status = (p.drop 6).take 40 ∧ (n % 2 = 0 → (x.node a).heardA = some u.beat) ∧
        (n % 2 = 1 → (x.node a).heardB = some u.beat) ∧ (x.model a).sense = some (signed 16 (beAt ((p.drop 6).take 40) 30 2), u.beat) ∧
        ((u.map a).committed = none → (x.map a).unseen = false) ∧
        x.get (Reg.NODEa_STATE_node_state a) = leAt ((p.drop 6).take 40) 0 1 % 8 ∧ u.get Reg.TALLY_MAX_H ≤ x.get Reg.TALLY_MAX_H ∧ x.out = u.out) ∧
      (pkType p = 9 → leAt p 6 1 = 1 → beAt p 10 2 ≤ 128 → u.rxItem n false (.packet p) = (v.measured a (leAt p 7 1)
        (beAt p 8 2) (beAt p 12 2) ((List.range (beAt p 10 2)).map fun i => beAt p (14 + 2 * i) 2)).wakeReroute (n / 2)) ∧
      (pkType p = 10 → u.get (Reg.NODEa_STATE_state a) = 1 → (u.node a).step = 2 → (u.node a).memory.length = leAt p 8 1 →
        leAt p 8 1 + leAt p 9 1 < 256 → u.rxItem n false (.packet p) =
          (v.onNode a fun n => { n with memory := n.memory ++ slice p 10 (leAt p 9 1) }).wakeReroute (n / 2)) ∧
      (pkType p = 11 → ([1, 5, 8, 9, 13] : List Nat).contains (leAt p 6 1) = false → u.rxItem n false (.packet p) =
        (v.post 0x0516 [.b a, .b (leAt p 6 1), .li (beAt p 8 6), .n (beAt p 14 2), .n (beAt p 16 4)]).wakeReroute (n / 2)) ∧
      (∀ t1, pkType p = 5 → leAt p 6 1 = 1 → u.dev = stCold → (u.node a).syncReq = some (beAt p 12 2, t1) → leAt p 7 1 % 2 = 1 →
        ∃ x : State, u.rxItem n false (.packet p) = x.wakeReroute (n / 2) ∧ (x.node a).syncReq = none ∧ (x.str (n / 2)).offsetSet = true ∧
          x.get (Reg.NODEa_SYNC a) = 0)))

/-- Identification of a node, its loss, SYNC requests, and the hops of a ring. 09_phied_link_protocol.md R230, 09_phied_link_protocol.md R243, 09_phied_link_protocol.md R245, 09_phied_link_protocol.md R246, 09_phied_link_protocol.md R247 -/
def Obligations.NodesAndHops : Prop :=
  (∀ dt (a : Fin 256) (s : State), s.powered 7 = true →
    ((s.held_ = true ∧ s.served a = true) ∨ (s.dev = stCold ∧ a.val % 8 < s.nodeCount (a.val / 8) ∧ s.inPair = true)) → Gives (exec (.syncRequestSend dt a) s) fun t =>
    (t.node a).syncReq = some ((s.node a).syncSeq, s.linkTime (a.val / 8) (s.advance dt).now) ∧
    (t.node a).syncSeq = ((s.node a).syncSeq + 1) % 65536 ∧ t.regs = s.regs ∧ t.sched = s.sched) ∧
  (∀ dt (a : Fin 256) (s : State), s.powered 7 = true → a.val % 8 < s.nodeCount (a.val / 8) →
    bit (s.get (Reg.LINKs_STATUS_reachable (a.val / 8))) (a.val % 8) = true →
    (s.held_ = true ∨ (s.dev = stSetup ∧ s.locked = true ∧ s.config ≠ 3)) →
    (s.get (Reg.NODEa_STATE_state a) = 0 ∨ ((s.get (Reg.NODEa_STATE_state a) = 3 ∨ s.get (Reg.NODEa_STATE_state a) = 5) ∧ (s.node a).retry = true)) →
    ((s.tally.running ++ s.tally.waiting).any fun c => c.resource == a.val / 8) = false →
    (s.deputyHalted = true → exec (.nodeIdentify dt a) s = .next (s.advance dt).deputyFault) ∧
    (s.deputyHalted = false → Gives (exec (.nodeIdentify dt a) s) fun t =>
      t.get (Reg.NODEa_STATE_state a) = 1 ∧ (t.node a).step = 1 ∧ (t.node a).tries = 1 ∧ (t.node a).stepAt = s.beat + dt ∧
      (t.node a).cmds = [⟨(s.node a).tag, 1⟩] ∧ (t.model a).starts = true ∧ s.sameRegsBut t [(Reg.NODEa_STATE_state a).off])) ∧
  (∀ dt (a : Fin 256) (s : State), s.powered 7 = true → s.get (Reg.NODEa_STATE_state a) = 1 → (s.node a).step ≠ 0 →
    (s.node a).stepAt + 1000000 ≤ s.beat + dt →
    ((s.node a).tries < 3 → Gives (exec (.identifyStepTimeout dt a) s) fun t =>
      (t.node a).tries = (s.node a).tries + 1 ∧ (t.node a).step = (s.node a).step ∧ (t.node a).stepAt = s.beat + dt ∧ t.regs = s.regs) ∧
    (3 ≤ (s.node a).tries → ∀ r, r = (if (s.node a).step = 6 then 8 else 1) → ∃ u : State, exec (.identifyStepTimeout dt a) s =
        .next ((u.post 0x0511 [.b a, .b r]).wakeReroute (a.val / 8)) ∧
      u.get (Reg.NODEa_STATE_state a) = 3 ∧ u.get (Reg.NODEa_STATE_reason a) = r ∧ (u.node a).step = 0 ∧ u.out = s.out)) ∧
  (∀ dt (a : Fin 256) (s : State), s.powered 7 = true → bit (s.get (Reg.LINKs_STATUS_reachable (a.val / 8))) (a.val % 8) = true →
    (s.get (Reg.NODEa_STATE_state a) = 1 ∨ s.get (Reg.NODEa_STATE_state a) = 2 ∨ s.get (Reg.NODEa_STATE_state a) = 3) →
    (s.node a).reachAt + 300000 ≤ s.beat + dt →
    (∀ h, (s.node a).heardA = some h → h + 300000 ≤ s.beat + dt) → (∀ h, (s.node a).heardB = some h → h + 300000 ≤ s.beat + dt) →
    ∃ u : State, exec (.nodeLost dt a) s = .next (
        let v := (u.post 0x0512 [.b a]).scanLost a
        (if (s.node a).rerouting then (v.dropMoved (a.val / 8) (a.val % 8)).endReroute (a.val / 8) else v).wakeReroute (a.val / 8)) ∧
      u.get (Reg.NODEa_STATE_state a) = 5 ∧ (u.node a).step = 0 ∧ u.out = s.out) ∧
  (∀ dt (str : Fin 32) (j : Fin 9) (s : State), s.powered 7 = true → j.val ≤ s.nodeCount str →
    (s.hopUp str j = false → exec (.ringBreak dt str j) s = .next (s.advance dt)) ∧
    (s.hopUp str j = true → s.deputyHalted = false → ∃ u : State, exec (.ringBreak dt str j) s = .next (
        let v := u.post 0x0513 [.b str, .b j]
        let x := v.beginRecovery ⟨0x0513, str, 8 * str⟩
        let y := (x.onStr str fun x => { x with stale := true }).settleReach str
        if s.tally.running.any (·.resource == str) then y.endReroute str else if v.resourceBusy str then y.wakeReroute str else x.reroute str) ∧
      bit (u.str str).broken j = true ∧ u.hopUp str j = false ∧ u.on (Reg.LINKs_STATUS_break_seen str) = true ∧ (∀ i, i < 9 → i ≠ j.val → u.hopUp str i = s.hopUp str i) ∧ u.out = s.out) ∧
    (s.hopUp str j = true → s.deputyHalted = true → ∃ u : State, exec (.ringBreak dt str j) s =
        .next ((u.post 0x0513 [.b str, .b j]).settleReach str).deputyFault ∧ u.hopUp str j = false ∧ u.on (Reg.LINKs_STATUS_break_seen str) = true) ∧
    (s.hopUp str j = true → exec (.ringRestored dt str j) s = .next (s.advance dt)) ∧
    (s.nodeCount str ≠ 0 → s.hopUp str j = false → ∃ u : State, exec (.ringRestored dt str j) s =
        .next (((if bit (s.str str).broken j then u.post 0x0515 [.b str, .b j] else u).settleRelay str).settleHops str) ∧
      u.hopUp str j = true ∧ (bit (s.str str).broken j = true → bit (u.str str).broken j = false) ∧
      (∀ i, i < 9 → i ≠ j.val → u.hopUp str i = s.hopUp str i) ∧ u.out = s.out))

/-- An event: sequence number, log 4, GLB_CAUSE and the event ring, and nothing else. 14_host_interface_and_rings.md R373, 14_host_interface_and_rings.md R380, 14_host_interface_and_rings.md R387, 15_operation_catalogue.md R407, 15_operation_catalogue.md R410, 20_register_map.md R518 -/
def Obligations.EventPost : Prop :=
  ∀ dt code args ok (s : State), 1 ≤ code.toNat / 256 → code.toNat / 256 ≤ 13 → Gives (exec (.eventPost dt code args ok) s) fun t =>
    t.rings.evtSeq = (s.rings.evtSeq + 1) % 65536 ∧ t.rings.log.getLast? = some ⟨code.toNat, s.rings.evtSeq, args.take 27⟩ ∧
    t.on ⟨Reg.GLB_CAUSE_classes.off, code.toNat / 256 - 1, 1⟩ = true ∧
    t = { s.advance dt with regs := t.regs, rings := t.rings, out := t.out, fresh := t.fresh } ∧ t.rings.flight = s.rings.flight ∧
    (bit (s.get Reg.HR_EVT_MASK_mask) (code.toNat / 256 - 1) = true → ok = true → s.ringLive 16 = true → s.ringUsed 16 < (s.ringSize 16 : Int) →
      t.get (ringProd 16) = (s.get (ringProd 16) + 1) % 2 ^ 32 ∧ t.get Reg.HR_EVT_LOST = s.get Reg.HR_EVT_LOST ∧
      ∃ bs, Output.dmaWrite (s.ringAddr 16 + 32 * (s.get (ringProd 16) % s.ringSize 16)) bs ∈ t.out ∧ bs.length = 32 ∧
        slice bs 0 31 = slice (eventBytes ⟨code.toNat, s.rings.evtSeq, args.take 27⟩) 0 31 ∧
        (bs.getD 31 0#8).toNat / 128 = phaseOf (s.get (ringProd 16)) (s.ringSize 16)) ∧
    (bit (s.get Reg.HR_EVT_MASK_mask) (code.toNat / 256 - 1) = true →
      (s.ringLive 16 = false ∨ (s.ringSize 16 : Int) ≤ s.ringUsed 16 ∨ ok = false) →
      (s.ringLive 16 = true → ok = false → t.on (ringErr 16) = true ∧ t.get (ringCause 16) = 5 ∧ t.ringLive 16 = false) ∧
      t.get (ringProd 16) = s.get (ringProd 16) ∧ t.get Reg.HR_EVT_LOST = min (2 ^ 32 - 1) (s.get Reg.HR_EVT_LOST + 1) ∧
      t.on Reg.HR_STATUS_evt_lost = true ∧ t.on ⟨Reg.GLB_CAUSE_classes.off, 16, 1⟩ = true) ∧
    (bit (s.get Reg.HR_EVT_MASK_mask) (code.toNat / 256 - 1) = false →
      s.sameRegsBut t [Reg.GLB_CAUSE_classes.off] ∧ (∀ k, t.waiting k = s.waiting k))

/-- Doorbells: the counts they move, the checks that stop a ring, bad writes, and enabling a ring. 14_host_interface_and_rings.md R374, 14_host_interface_and_rings.md R375, 14_host_interface_and_rings.md R376, 14_host_interface_and_rings.md R384, 14_host_interface_and_rings.md R385, 14_host_interface_and_rings.md R386 -/
def Obligations.RingDoorbells : Prop :=
  (∀ dt (g : Fin 16) v (s : State), (s.on (Reg.HR_ISQi_STATUS_enabled g) = false → Gives (exec (.issueDoorbell dt g v) s) fun t =>
      t.get Reg.HR_DB_ERRORS = min (2 ^ 32 - 1) (s.get Reg.HR_DB_ERRORS + 1) ∧ s.sameRegsBut t [Reg.HR_DB_ERRORS.off] ∧
      t.rings = s.rings ∧ t.out = s.out) ∧
    (s.on (Reg.HR_ISQi_STATUS_enabled g) = true → ∀ ahead, ahead = countDiff (v.toNat % 2 ^ 32) (s.get (Reg.HR_ISQi_CONS g)) →
      ∀ back, back = countDiff (v.toNat % 2 ^ 32) (s.get (Reg.HR_ISQi_PROD g)) →
      (0 ≤ ahead → ahead ≤ s.issueSize g → 0 ≤ back → v.toNat / 2 ^ 32 = 0 → Gives (exec (.issueDoorbell dt g v) s) fun t =>
        t.get (Reg.HR_ISQi_PROD g) = v.toNat % 2 ^ 32 ∧ s.sameRegsBut t [(Reg.HR_ISQi_PROD g).off] ∧ t.rings = s.rings ∧ t.out = s.out) ∧
      (∀ cause, (ahead < 0 ∨ (s.issueSize g : Int) < ahead ∨ back < 0) ∧ cause = 1 ∨
          0 ≤ ahead ∧ ahead ≤ s.issueSize g ∧ 0 ≤ back ∧ v.toNat / 2 ^ 32 ≠ 0 ∧ cause = 3 →
        Gives (exec (.issueDoorbell dt g v) s) fun t =>
          t.on (Reg.HR_ISQi_STATUS_error g) = true ∧ t.get (Reg.HR_ISQi_STATUS_cause g) = cause ∧ t.issueLive g = false ∧
          t.on Reg.HR_STATUS_ring_error = true ∧ s.sameRegsBut t [(Reg.HR_ISQi_STATUS_error g).off, Reg.HR_STATUS_ring_error.off]))) ∧
  (∀ dt v c (k : Nat) (s : State), (∃ g : Fin 16, c = Instr.completionDoorbell dt g v ∧ k = g) ∨ c = (.eventDoorbell dt v) ∧ k = 16 ∨
      c = (.statsDoorbell dt v) ∧ k = 17 →
    (s.on (ringEnabled k) = false → Gives (exec c s) fun t => t.get Reg.HR_DB_ERRORS = min (2 ^ 32 - 1) (s.get Reg.HR_DB_ERRORS + 1) ∧
      s.sameRegsBut t [Reg.HR_DB_ERRORS.off] ∧ t.rings = s.rings ∧ t.out = s.out) ∧
    (s.on (ringEnabled k) = true → ∀ moved, moved = countDiff (v.toNat % 2 ^ 32) (s.get (ringCons k)) →
      ∀ left, left = countDiff (s.get (ringProd k)) (v.toNat % 2 ^ 32) →
      (0 ≤ moved → 0 ≤ left → v.toNat / 2 ^ 32 = 0 → Gives (exec c s) fun t => t.get (ringCons k) = v.toNat % 2 ^ 32 ∧
        t.waiting k = consume moved.toNat (s.waiting k) ∧ s.sameRegsBut t [(ringCons k).off] ∧ t.out = s.out) ∧
      (0 ≤ moved → 0 ≤ left → v.toNat / 2 ^ 32 = 2 ^ 31 → consume moved.toNat (s.waiting k) = [] → Gives (exec c s) fun t =>
        t.get (ringCons k) = v.toNat % 2 ^ 32 ∧ t.on (ringArmed k) = true ∧ t.waiting k = [] ∧ t.out = s.out) ∧
      (moved < 0 ∨ left < 0 → Gives (exec c s) fun t => t.on (ringErr k) = true ∧ t.get (ringCause k) = 2 ∧ t.ringLive k = false ∧
        t.get (ringCons k) = s.get (ringCons k)) ∧
      (0 ≤ moved → 0 ≤ left → v.toNat / 2 ^ 32 % 2 ^ 31 ≠ 0 → Gives (exec c s) fun t => t.on (ringErr k) = true ∧ t.get (ringCause k) = 3 ∧
        t.ringLive k = false ∧ t.get (ringCons k) = s.get (ringCons k)))) ∧
  (∀ dt (g : Fin 16) v (s : State), Gives (exec (.completionDoorbell dt g v) s) fun t =>
    t = { s.advance dt with regs := t.regs, rings := t.rings, out := t.out, fresh := t.fresh } ∧ t.rings.flight = s.rings.flight) ∧
  (∀ dt off bytes (s : State), isDoorbell off.toNat bytes = true → exec (.bar2BadWrite dt off bytes) s = .next (s.advance dt)) ∧
  (∀ dt off bytes (s : State), isDoorbell off.toNat bytes = false → Gives (exec (.bar2BadWrite dt off bytes) s) fun t =>
    t.get Reg.HR_DB_ERRORS = min (2 ^ 32 - 1) (s.get Reg.HR_DB_ERRORS + 1) ∧ s.sameRegsBut t [Reg.HR_DB_ERRORS.off] ∧ t.rings = s.rings ∧
    t.out = s.out) ∧
  (∀ dt r v (s : State), s.dev ≠ stBoot → s.domainOff (ringCfg r) = false →
    (s.on (ringOn r) = false → (s.writeWord (ringCfg r) v).on ⟨ringCfg r, 0, 1⟩ = true → Gives (exec (.ringEnable dt r v) s) fun t =>
      t.on (ringOn r) = true ∧ stopNo r ∉ t.rings.stopped ∧ t.get (ringSizeField r) = (s.writeWord (ringCfg r) v).get (ringSizeField r) ∧
      (∀ i : Fin 16, r = .issue i → t.get (Reg.HR_ISQi_PROD i) = 0 ∧ t.get (Reg.HR_ISQi_CONS i) = 0) ∧
      (∀ c, r = .consumer c → t.get (ringProd (ringNo c)) = 0 ∧ t.get (ringCons (ringNo c)) = 0 ∧ t.on (ringArmed (ringNo c)) = true ∧
        t.waiting (ringNo c) = [])) ∧
    (s.on (ringOn r) = true → Gives (exec (.ringEnable dt r v) s) fun t => t.get (ringSizeField r) = s.get (ringSizeField r) ∧
      ((s.writeWord (ringCfg r) v).get (ringSizeField r) ≠ s.get (ringSizeField r) → t.on Reg.HR_STATUS_cfg_ignored = true) ∧
      t.on (ringOn r) = (s.writeWord (ringCfg r) v).on ⟨ringCfg r, 0, 1⟩ ∧ t.rings = s.rings))

/-- Descriptors, completions, statistics records, interrupts and the end of an operation without its data. 14_host_interface_and_rings.md R376, 14_host_interface_and_rings.md R379, 14_host_interface_and_rings.md R380, 14_host_interface_and_rings.md R382, 14_host_interface_and_rings.md R383, 14_host_interface_and_rings.md R385, 14_host_interface_and_rings.md R386, 14_host_interface_and_rings.md R388, 14_host_interface_and_rings.md R389 -/
def Obligations.RingTransfers : Prop :=
  (∀ dt desc (s : State), s.powered 3 = true → s.power.pcieUp = true → ∀ i, (s.chooseIssue).map (·.1) = some i →
    (∀ dma, dma ≠ .readBad → Gives (exec (.descriptorFetch dt desc dma) s) fun t =>
      t.rings.fetches = s.rings.fetches + 1 ∧ t.get (Reg.HR_ISQi_CONS i) = (s.get (Reg.HR_ISQi_CONS i) + 1) % 2 ^ 32 ∧
      t = { s.advance dt with regs := t.regs, rings := t.rings, out := t.out, fresh := t.fresh } ∧
      (opcodes.contains (leAt (slice desc 0 64) 0 1) = true → t.rings.flight = s.rings.flight ++
        [⟨i, s.rings.fetches, s.get (Reg.HR_ISQi_CFG_cq i), slice desc 0 64, false, false, none⟩]) ∧
      (opcodes.contains (leAt (slice desc 0 64) 0 1) = false → s.flight i s.rings.fetches = none →
        ∃ f, t.flight i s.rings.fetches = some f ∧ f.ended = some (stBad, resBytes []))) ∧
    (Gives (exec (.descriptorFetch dt desc .readBad) s) fun t => t.on (Reg.HR_ISQi_STATUS_error i) = true ∧
      t.get (Reg.HR_ISQi_STATUS_cause i) = 4 ∧ t.issueLive i = false ∧ t.rings.flight = s.rings.flight ∧
      t.get (Reg.HR_ISQi_CONS i) = s.get (Reg.HR_ISQi_CONS i))) ∧
  (∀ dt r f st res (s : State), s.powered 3 = true → s.flight r.ring r.n = some f → f.ended = some (st, res) → f.cq < 16 →
    (s.ringLive f.cq = true → Gives (exec (.completionWrite dt r true) s) fun t => t.flight r.ring r.n = none ∧
      t.get (ringProd f.cq) = (s.get (ringProd f.cq) + 1) % 2 ^ 32 ∧ t.rings.evtSeq = s.rings.evtSeq ∧
      t = { s.advance dt with regs := t.regs, rings := t.rings, out := t.out, fresh := t.fresh } ∧
      ∃ bs, Output.dmaWrite (s.ringAddr f.cq + 32 * (s.get (ringProd f.cq) % s.ringSize f.cq)) bs ∈ t.out ∧ bs.length = 32 ∧
        slice bs 0 31 = slice (completionBytes f st res) 0 31 ∧
        (bs.getD 31 0#8).toNat / 128 = phaseOf (s.get (ringProd f.cq)) (s.ringSize f.cq)) ∧
    (s.ringLive f.cq = false → ∀ ok, Gives (exec (.completionWrite dt r ok) s) fun t => t.flight r.ring r.n = none ∧
      t.get Reg.HR_CPL_LOST = min (2 ^ 32 - 1) (s.get Reg.HR_CPL_LOST + 1) ∧ t.on Reg.HR_STATUS_cpl_lost = true ∧ t.out = s.out) ∧
    (s.ringLive f.cq = true → Gives (exec (.completionWrite dt r false) s) fun t => t.flight r.ring r.n = none ∧ t.on (ringErr f.cq) = true ∧
      t.get (ringCause f.cq) = 5 ∧ t.ringLive f.cq = false ∧ t.get Reg.HR_CPL_LOST = min (2 ^ 32 - 1) (s.get Reg.HR_CPL_LOST + 1))) ∧
  (∀ dt r t0 n l (s : State), s.waiting (ringNo r) = (t0, n) :: l →
    (s.on (ringArmed (ringNo r)) = true → t0 + 1000 * s.get (onRing (ringNo r) (Reg.HR_CQj_CFG_mod_time_us 0)) ≤ s.beat + dt →
      Gives (exec (.ringInterrupt dt r) s) fun t => t.on (ringArmed (ringNo r)) = false ∧ t.waiting (ringNo r) = s.waiting (ringNo r) ∧
        s.sameRegsBut t [(ringArmed (ringNo r)).off] ∧
        ∃ sent, Output.msix (s.get (onRing (ringNo r) (Reg.HR_CQj_CFG_vector 0))) sent ∈ t.out) ∧
    (s.on (ringArmed (ringNo r)) = false → exec (.ringInterrupt dt r) s = .next (s.advance dt))) ∧
  (∀ dt rec_ l (s : State), s.powered 3 = true → s.rings.statQ = rec_ :: l →
    (s.ringLive 17 = true → s.ringUsed 17 + rec_.length ≤ (s.ringSize 17 : Int) → Gives (exec (.statsRecordWrite dt true) s) fun t =>
      t.rings.statQ = l ∧ t.get (ringProd 17) = (s.get (ringProd 17) + rec_.length) % 2 ^ 32 ∧
      t.get Reg.HR_STAT_DROPPED = s.get Reg.HR_STAT_DROPPED ∧
      (∀ o, o ∈ wrapWrite (s.ringAddr 17) (s.get (ringProd 17) % s.ringSize 17) (s.ringSize 17) rec_ → o ∈ t.out) ∧
      Output.dmaWrite (8 * s.get Reg.HR_STAT_WB_LO_wb + 2 ^ 32 * s.get Reg.HR_STAT_WB_HI_wb) (leBytes 8 (t.get (ringProd 17))) ∈ t.out) ∧
    ((s.ringLive 17 = false ∨ (s.ringSize 17 : Int) < s.ringUsed 17 + rec_.length) → ∀ ok,
      Gives (exec (.statsRecordWrite dt ok) s) fun t => t.rings.statQ = l ∧ t.on Reg.HR_STATUS_stat_dropped = true ∧ t.out = s.out ∧
        t.get Reg.HR_STAT_DROPPED = min (2 ^ 32 - 1) (s.get Reg.HR_STAT_DROPPED + 1)) ∧
    (s.ringLive 17 = true → s.ringUsed 17 + rec_.length ≤ (s.ringSize 17 : Int) → Gives (exec (.statsRecordWrite dt false) s) fun t =>
      t.rings.statQ = l ∧ t.on (ringErr 17) = true ∧ t.get (ringCause 17) = 5 ∧ t.ringLive 17 = false ∧ t.get (ringProd 17) = s.get (ringProd 17))) ∧
  (∀ dt r f (s : State), s.opRuns r f 0x01 [(16, 9), (28, 16)] false → s.holdsTally → ingestBad f = false →
    Gives (exec (.dmaTimeout dt r) s) fun t => t.opEnds r stTimeout [] ∧ t.store = s.store ∧ t.mem = s.mem ∧ t.regs = s.regs)

/-- An operation with a reserved flag, before SETUP_LOCK, or without the tally ends without effect. 00_scope.md R6, 14_host_interface_and_rings.md R377, 15_operation_catalogue.md R390, 15_operation_catalogue.md R391, 19_power_reset_and_security.md R489 -/
def Obligations.OperationsRefused : Prop :=
  (∀ dt r f (s : State) c op, s.flight r.ring r.n = some f → f.opcode = op → s.mayBegin f.ring f.n = true → s.opWaits op = false → f.cq ≠ 16 →
    (4 ≤ f.fld 1 1 ∨ s.locked = false ∧ earlyOp op = false) →
    (∃ d, c = (.ingest dt r d) ∧ op = 0x01) ∨ (∃ d, c = (.storePrecompressed dt r d) ∧ op = 0x02) ∨ c = (.blockFree dt r) ∧ op = 0x03 ∨
    (∃ d, c = (.tableLoad dt r d) ∧ op = 0x08) ∨ (∃ l hs, c = (.jobQueue dt r l hs) ∧ op = 0x10) ∨ c = (.jobStop dt r) ∧ op = 0x11 ∨
    c = (.headQuery dt r) ∧ op = 0x18 ∨ c = (.resistScan dt r) ∧ op = 0x19 ∨ c = (.dropCheck dt r) ∧ op = 0x1A ∨
    c = (.spitPlan dt r) ∧ op = 0x1B ∨ c = (.motionMove dt r) ∧ op = 0x20 ∨
    c = (.capture dt r) ∧ op = 0x28 ∧ (∀ p, p < 4 → ∀ x ∈ (s.cam p).captures, s.beat + dt < max x.lastAt (s.cam p).lastRef + 1000000000) ∨
    (∃ d, c = (.keyLoad dt r d) ∧ op = 0x30) ∨ c = (.retire dt r) ∧ op = 0x38 ∨ c = (.spareBank dt r) ∧ op = 0x39 ∨
    c = (.logRead dt r) ∧ op = 0x40 ∨ c = (.tallyCtrl dt r) ∧ op = 0x48 ∨ c = (.powerState dt r) ∧ op = 0x50 →
    Gives (exec c s) fun t => (∃ res, t.opEnds r stBad res) ∧ t = { s.advance dt with rings := t.rings, free := t.free } ∧
      t.rings.log = s.rings.log ∧ t.rings.fetches = s.rings.fetches) ∧
  (∀ dt r f (s : State), s.opRuns r f 0x11 [] false → s.held_ = false → Gives (exec (.jobStop dt r) s) fun t =>
    t.opEnds r stAborted [] ∧ t = { s.advance dt with rings := t.rings })

/-- JOB_QUEUE, JOB_STOP, TABLE_LOAD and SPARE_BANK. 05_line_schedule.md R124, 05_line_schedule.md R125, 07_seam_buffer_and_skew.md R188, 15_operation_catalogue.md R396, 15_operation_catalogue.md R397, 15_operation_catalogue.md R398, 15_operation_catalogue.md R399, 15_operation_catalogue.md R401 -/
def Obligations.JobOperations : Prop :=
  (∀ dt r f list handles (s : State), s.opRuns r f 0x10 [(16, 10), (28, 20)] false → s.holdsTally → s.jobFieldsBad f = false → s.streaming = false →
    ∀ ps, ps = readPanels list (List.range (f.fld 24 2)) handles → s.jobFault (f.fld 19 1) list (0, 0) 0 ps = none →
    (s.sched.jobs.length < 64 → s.jobTables + panelsSize ps ≤ 268435456 → Gives (exec (.jobQueue dt r list handles) s) fun t =>
      t.sched.jobs = s.sched.jobs ++ [⟨f.fld 16 2, f.fld 18 1, f.fld 19 1, f.fld 20 4, f.fld 28 4, signed 64 (f.fld 32 8), ps, 0⟩] ∧
      t.sched.spans = s.sched.spans ∧ t.store = s.store ∧
      ∃ x, t.opEnds r stOk (jobResult f (2 ^ 48 - 1) (ps.map fun p => (p.chains.map (·.handles.length)).sum).sum x)) ∧
    (64 ≤ s.sched.jobs.length → Gives (exec (.jobQueue dt r list handles) s) fun t => t.sched = s.sched ∧ t.regs = s.regs ∧
      ∃ x, t.opEnds r stNoSpace (jobResult f (2 ^ 48 - 1) 0 x))) ∧
  (∀ dt r f (s : State), s.opRuns r f 0x11 [] false → s.holdsTally →
    (s.streaming = false → Gives (exec (.jobStop dt r) s) fun t => t.sched = { s.sched with jobs := [], edge := none } ∧
      t.opEnds r stOk [(4, leBytes 6 (2 ^ 48 - 1))] ∧ t.seam = s.seam ∧ t.link = s.link) ∧
    (∀ l, s.streaming = true → s.sched.last = some l → Gives (exec (.jobStop dt r) s) fun t => t.sched = s.sched ∧
      t.opEnds r stOk [(4, leBytes 6 (wrap 48 l))]) ∧
    (s.streaming = true → s.sched.last = none → s.dev ≠ stDraining → Gives (exec (.jobStop dt r) s) fun t =>
      t.sched.stopping = true ∧ t.sched.spans = s.sched.spans.filter (fun p => (p.start : Int) ≤ s.committedI) ∧
      ∃ l, t.sched.last = some l ∧ t.opEnds r stOk [(4, leBytes 6 (wrap 48 l))] ∧ (s.sheetMode = true → s.committedI ≤ l) ∧
        (s.sheetMode = false → ∀ p, s.sched.spans.find? (fun p => s.committedI < (p.start : Int)) = some p → l = (p.start : Int) - 1))) ∧
  (∀ dt r f data (s : State), s.opRuns r f 0x08 [(16, 3), (20, 12)] true → (s.holdsTally ∨ s.dev = stSetup) → s.tableFieldsBad f = false →
    (f.fld 16 1 = tMask → s.streaming = false → Gives (exec (.tableLoad dt r data) s) fun t =>
      t.tableNow tMask (f.fld 17 1) 0 = some (slice data 0 (f.fld 20 4)) ∧ t.regs = s.regs ∧ t.fm = s.fm ∧ t.sched.staged = s.sched.staged ∧
      t.opEnds r stOk [(4, leBytes 6 (2 ^ 48 - 1)), (10, leBytes 1 tMask), (11, leBytes 1 (f.fld 17 1)), (12, leBytes 4 0xFFFFFFFF)]) ∧
    (∀ e, s.tableBad (f.fld 16 1) (f.fld 17 1) (slice data 0 (f.fld 20 4)) = some e → e.seam = none →
      Gives (exec (.tableLoad dt r data) s) fun t => t.opEnds r stBad (tableResult e.off f) ∧ t.sched = s.sched ∧ t.regs = s.regs)) ∧
  (∀ dt r f (s : State), s.opRuns r f 0x39 [(16, 2)] false → s.holdsTally → f.fld 16 1 ≤ 9 → f.fld 17 1 ≤ 15 →
    (s.on (Reg.SEAM_PLANEq_spare_in_use (f.fld 16 1)) = true ∨ s.seam.copying.any (·.1 == f.fld 16 1) = true →
      Gives (exec (.spareBank dt r) s) fun t => t.opEnds r stNoSpace [] ∧ t.seam = s.seam ∧ t.regs = s.regs) ∧
    (s.on (Reg.SEAM_PLANEq_spare_in_use (f.fld 16 1)) = false → s.seam.copying = [] → s.streaming = false → s.deputyHalted = false →
      Gives (exec (.spareBank dt r) s) fun t => t.opEnds r stOk [(4, leBytes 6 (2 ^ 48 - 1))] ∧ t.seam.copying = [] ∧
        t.on (Reg.SEAM_PLANEq_spare_in_use (f.fld 16 1)) = true ∧ t.get (Reg.SEAM_PLANEq_spared_bank (f.fld 16 1)) = f.fld 17 1) ∧
    (s.on (Reg.SEAM_PLANEq_spare_in_use (f.fld 16 1)) = false → s.seam.copying.any (·.1 == f.fld 16 1) = false → s.streaming = true →
      Gives (exec (.spareBank dt r) s) fun t =>
        t.seam = { s.seam with copying := s.seam.copying ++ [(f.fld 16 1, f.fld 17 1, none, f.ring, f.n)] } ∧
        t.on (Reg.SEAM_PLANEq_copying (f.fld 16 1)) = true ∧ t.on (Reg.SEAM_PLANEq_spare_in_use (f.fld 16 1)) = false ∧
        (t.flight r.ring r.n).map (·.ended) = some none))

/-- Storing, freeing and releasing blocks, and retiring pages. 13_crusher_and_tardamet_format.md R357, 13_crusher_and_tardamet_format.md R358, 13_crusher_and_tardamet_format.md R360, 13_crusher_and_tardamet_format.md R364, 13_crusher_and_tardamet_format.md R367, 15_operation_catalogue.md R395, 16_memory_and_ecc.md R429, 16_memory_and_ecc.md R430 -/
def Obligations.StoreOperations : Prop :=
  (∀ dt r f data (s : State), s.opRuns r f 0x01 [(16, 9), (28, 16)] false → s.holdsTally → ingestBad f = false →
    (s.keyUsable (f.fld 18 1) = false → Gives (exec (.ingest dt r data) s) fun t => t.opEnds r stKeyUnavailable [] ∧ t.store = s.store ∧ t.mem = s.mem) ∧
    (s.keyUsable (f.fld 18 1) = true → s.freePages < blockPages f.rawLen → Gives (exec (.ingest dt r data) s) fun t =>
      t.opEnds r stNoSpace [] ∧ t.store.blocks = s.store.blocks ∧ t.mem = s.mem) ∧
    (∀ i, s.keyUsable (f.fld 18 1) = true → blockPages f.rawLen ≤ s.freePages → s.freeIndex.1 = some i →
      (bit (f.fld 19 1) 0 = true → crc32c (slice data 0 f.rawLen) ≠ f.fld 28 4 → Gives (exec (.ingest dt r data) s) fun t =>
        t.opEnds r stCheckFail [] ∧ t.store = s.store ∧ t.mem = s.mem) ∧
      ((bit (f.fld 19 1) 0 = true → crc32c (slice data 0 f.rawLen) = f.fld 28 4) → Gives (exec (.ingest dt r data) s) fun t =>
        (∃ b, t.store.blocks = s.store.blocks ++ [(i, b)] ∧ b.handle = s.nextHandle i ∧ b.slot = f.fld 18 1 ∧ b.freeing = false) ∧
        (s.mirrors = false → ∃ block reason, t.opEnds r stOk (storeResult (s.nextHandle i) block reason))))) ∧
  (∀ dt r f data (s : State), s.opRuns r f 0x02 [(18, 1), (20, 4), (32, 8)] false → s.holdsTally → f.fld 18 1 ≤ 15 → 33 ≤ f.fld 20 4 →
    f.fld 20 4 ≤ 1048608 → hostHeaderBad data f = false → ∀ b, b = slice data 0 (f.fld 20 4) → ∀ i, s.keyUsable (f.fld 18 1) = true →
    blockPages (tbPayLen b) ≤ s.freePages → s.freeIndex.1 = some i →
    (unblock b true = none → Gives (exec (.storePrecompressed dt r data) s) fun t => t.opEnds r stVerifyFail [] ∧ t.store = s.store) ∧
    (∀ raw, unblock b true = some raw → blockCheckOk b raw = false → Gives (exec (.storePrecompressed dt r data) s) fun t =>
      t.opEnds r stCheckFail [] ∧ t.store = s.store) ∧
    (∀ raw, unblock b true = some raw → blockCheckOk b raw = true → Gives (exec (.storePrecompressed dt r data) s) fun t =>
      (∃ x, t.store.blocks = s.store.blocks ++ [(i, x)] ∧ x.handle = s.nextHandle i ∧ x.slot = f.fld 18 1 ∧ x.freeing = false) ∧
      (s.mirrors = false → ∃ block, t.opEnds r stOk (storeResult (s.nextHandle i) block 0)))) ∧
  (∀ dt r f (s : State), s.opRuns r f 0x03 [(16, 1), (20, 44)] false → s.holdsTally → freeBad f = false →
    ((∀ i, i < f.fld 16 1 → (s.liveBlock (f.freeHandle i)).map (·.freeing) = some false) → Gives (exec (.blockFree dt r) s) fun t =>
      t.opEnds r stOk (freeResult f 0xFF) ∧ t.store.blocks = s.store.blocks.map fun e =>
        if ((List.range (f.fld 16 1)).map f.freeHandle).contains e.2.handle then (e.1, { e.2 with freeing := true }) else e) ∧
    (∀ i, i < f.fld 16 1 → (s.liveBlock (f.freeHandle i)).map (·.freeing) ≠ some false →
      (∀ j, j < i → (s.liveBlock (f.freeHandle j)).map (·.freeing) = some false) → Gives (exec (.blockFree dt r) s) fun t =>
      t.opEnds r stBad (freeResult f i) ∧ t.store = s.store ∧ t.regs = s.regs)) ∧
  (∀ dt h b (s : State), s.liveBlock h.toNat = some b →
    ((s.advance dt).mayRelease b = true → Gives (exec (.blockRelease dt h) s) fun t =>
      t.store.blocks = s.store.blocks.filter (fun e => e.2.handle != b.handle) ∧ t.mem = s.mem ∧ t.sched = s.sched) ∧
    ((s.advance dt).mayRelease b = false → exec (.blockRelease dt h) s = .next (s.advance dt))) ∧
  (∀ dt r f (s : State), s.opRuns r f 0x38 [(16, 4)] false → f.fld 16 4 < s.storePages →
    ∀ ends, ends = retireResult (f.fld 16 4) 0 0 0 →
    (s.mem.retired.contains (f.fld 16 4) = true → Gives (exec (.retire dt r) s) fun t => t.opEnds r stOk ends ∧ t.mem = s.mem ∧ t.regs = s.regs) ∧
    (s.mem.retired.contains (f.fld 16 4) = false → s.mem.retired.length < 4096 →
      (s.pageFree (f.fld 16 4) = true → Gives (exec (.retire dt r) s) fun t => t.opEnds r stOk ends ∧
        t.mem = { s.mem with retired := f.fld 16 4 :: s.mem.retired } ∧
        t.get Reg.MEM_RETIRED = (s.mem.retired.length + 1) % 2 ^ Reg.MEM_RETIRED.w) ∧
      (∀ new, s.pageFree (f.fld 16 4) = false → (s.pickPage [] (fun x => x % s.memChannels == f.fld 16 4 % s.memChannels)).1 = some new →
        Gives (exec (.retire dt r) s) fun t =>
          t.mem = { s.mem with migrations := s.mem.migrations ++ [⟨f.ring, f.n, f.fld 16 4, new, 0, 0⟩] } ∧
          (t.flight r.ring r.n).map (·.ended) = some none))) ∧
  (∀ dt page errors (s : State), (s.advance dt).migrating page = none → exec (.pageRetired dt page errors) s = .next (s.advance dt)) ∧
  (∀ dt page errors g (s : State), (s.advance dt).migrating page = some g → Gives (exec (.pageRetired dt page errors) s) fun t =>
    t.mem.retired = page :: s.mem.retired ∧ t.mem.migrations = s.mem.migrations.filter (fun x => x.page != page) ∧
    (∀ b ∈ t.store.blocks, g.new ≠ page → page ∉ b.2.pages))

/-- HEAD_QUERY, LOG_READ, KEY_LOAD, TALLY_CTRL and POWER_STATE. 15_operation_catalogue.md R402, 15_operation_catalogue.md R406, 15_operation_catalogue.md R407, 15_operation_catalogue.md R408, 16_memory_and_ecc.md R428, 19_power_reset_and_security.md R493, 19_power_reset_and_security.md R499 -/
def Obligations.QueryOperations : Prop :=
  (∀ dt r f (s : State), s.opRuns r f 0x18 [(16, 2), (24, 8), (32, 4)] false → f.fld 17 1 ≤ 3 →
    (s.served (f.fld 16 1) = false → Gives (exec (.headQuery dt r) s) fun t => t.opEnds r stUnreachable (s.headResult (f.fld 16 1) 0) ∧
      t = { s.advance dt with rings := t.rings }) ∧
    (s.served (f.fld 16 1) = true → ∀ d, d = s.headData (f.fld 16 1) (classColumns (s.get (Reg.NODEa_STATE_class_code (f.fld 16 1)))) (f.fld 17 1) →
      d.length ≤ f.fld 32 4 → Gives (exec (.headQuery dt r) s) fun t => t.opEnds r stOk (s.headResult (f.fld 16 1) d.length) ∧
        t.out = s.out ++ (if d = [] then [] else [.dmaWrite (f.fld 24 8) d]) ∧ t = { s.advance dt with rings := t.rings, out := t.out })) ∧
  (∀ dt r f (s : State), s.opRuns r f 0x40 [(16, 2), (20, 4), (24, 8), (32, 4)] false → 1 ≤ f.fld 16 1 → f.fld 16 1 ≤ 3 → f.fld 17 1 ≤ 1 →
    ∀ put, put = fitting (f.fld 32 4) (s.logPart 0 (f.fld 16 1) (f.fld 20 4)) → Gives (exec (.logRead dt r) s) fun t =>
      t.opEnds r stOk [(4, leBytes 2 put.length), (6, leBytes 2 (s.logEntries 0 (f.fld 16 1)).length),
        (8, leBytes 1 (b2n (s.logOver (f.fld 16 1))))] ∧
      t.out = s.out ++ (if put = [] then [] else [.dmaWrite (f.fld 24 8) put.flatten]) ∧ t.fm = s.fm ∧ t.rings.log = s.rings.log ∧
      t.mem.dtt = (if f.fld 16 1 = 1 ∧ f.fld 17 1 = 1 then [] else s.mem.dtt) ∧
      t.mem.stt = (if f.fld 16 1 = 2 ∧ f.fld 17 1 = 1 then [] else s.mem.stt)) ∧
  (∀ dt r f data (s : State), s.opRuns r f 0x30 [(16, 2), (24, 8)] false → f.fld 16 1 ≤ 15 → (f.fld 17 1 = 1 ∨ f.fld 17 1 = 2) →
    (s.keyNamed (f.fld 16 1) = true → Gives (exec (.keyLoad dt r data) s) fun t => t.opEnds r stBad [] ∧ t.power = s.power ∧ t.regs = s.regs) ∧
    (s.keyNamed (f.fld 16 1) = false → f.fld 17 1 = 2 →
      ((List.range 16).any (fun j => s.keyState j == 2) = true → Gives (exec (.keyLoad dt r data) s) fun t =>
        t.opEnds r stKeyUnavailable [] ∧ t.power = s.power ∧ t.regs = s.regs) ∧
      ((List.range 16).any (fun j => s.keyState j == 2) = false → Gives (exec (.keyLoad dt r data) s) fun t =>
        t.keyOf (f.fld 16 1) = ⟨[], 0⟩ ∧ t.keyState (f.fld 16 1) = 0 ∧ (∀ j, j ≠ f.fld 16 1 → t.keyOf j = s.keyOf j) ∧
        ∃ v, t.opEnds r stOk [(4, leBytes 3 v)])) ∧
    (s.keyNamed (f.fld 16 1) = false → f.fld 17 1 = 1 → ((List.range 16).any (fun j => s.keyState j == 2) = true ∨ s.power.fuseOk = false) →
      (∀ k, keyUnwrap chipKek (toNats (slice data 0 72)) = some k → (k.take 32 == k.drop 32) = false) →
      Gives (exec (.keyLoad dt r data) s) fun t => t.opEnds r stKeyUnavailable [] ∧ t.power = s.power ∧ t.regs = s.regs) ∧
    (s.keyNamed (f.fld 16 1) = false → f.fld 17 1 = 1 → (List.range 16).any (fun j => s.keyState j == 2) = false → s.power.fuseOk = true →
      Gives (exec (.keyLoad dt r data) s) fun t => match keyUnwrap chipKek (toNats (slice data 0 72)) with
        | none => t.opEnds r stCheckFail [] ∧ t.power = s.power
        | some k => if k.take 32 == k.drop 32 then t.opEnds r stBad [] ∧ t.power = s.power
          else t.opEnds r stOk [(4, (keyCheck (ofNats k)).take 3)] ∧ t.keyOf (f.fld 16 1) = ⟨ofNats k, s.power.keySerial + 1⟩ ∧
            t.keyState (f.fld 16 1) = 1)) ∧
  (∀ dt r f (s : State), s.opRuns r f 0x48 [(16, 1)] false →
    (f.fld 16 1 = 2 → Gives (exec (.tallyCtrl dt r) s) fun t => t = { s.advance dt with rings := t.rings } ∧ ∃ h, h ≤ 2 ∧ (h = 0 ↔ s.held_ = true) ∧
      t.opEnds r stOk [(4, leBytes 4 s.epoch), (8, leBytes 1 (s.get Reg.TALLY_STATUS_role)), (9, leBytes 1 h)]) ∧
    (f.fld 16 1 = 1 → s.inPair = true → s.tally.handover = none → Gives (exec (.tallyCtrl dt r) s) fun t =>
      t.tally = { s.tally with handover := some (f.ring, f.n, s.beat + dt), handed := false } ∧ t.regs = s.regs ∧ t.out = s.out ∧
      (t.flight r.ring r.n).map (·.ended) = some none)) ∧
  (∀ dt r f (s : State), s.opRuns r f 0x50 [(16, 1)] false → f.fld 16 1 = 1 → (s.dev = stReady ∨ s.dev = stCold) →
    Gives (exec (.powerState dt r) s) fun t => t.dev = stDeep ∧ t.get Reg.PWR_STATE_deep_cause = 1 ∧ t.opEnds r stOk [] ∧
      (∀ d, 6 ≤ d → d ≤ 10 → t.powered d = false))

/-- RESIST_SCAN, DROP_CHECK, SPIT_PLAN, MOTION_MOVE and CAPTURE. 10_head_care_and_canary.md R256, 10_head_care_and_canary.md R261, 10_head_care_and_canary.md R264, 10_head_care_and_canary.md R268, 10_head_care_and_canary.md R269, 10_head_care_and_canary.md R283, 15_operation_catalogue.md R403, 15_operation_catalogue.md R404, 15_operation_catalogue.md R405, 18_winder_axes.md R464 -/
def Obligations.CareOperations : Prop :=
  (∀ dt r f (s : State), s.opRuns r f 0x19 [(16, 32), (48, 1), (49, 1), (52, 4)] false → s.holdsTally → rowsOk (f.fld 48 1) = true →
    f.fld 49 1 ≤ 1 → 1 ≤ f.fld 52 4 → f.fld 52 4 ≤ 10000000 →
    ((f.heads 16).any (fun a => s.served a) = false → Gives (exec (.resistScan dt r) s) fun t => t.opEnds r stUnreachable [] ∧ t.care = s.care ∧
      t.out = s.out) ∧
    ((f.heads 16).any (fun a => s.served a) = true → ∃ u : State, exec (.resistScan dt r) s = .next u.careNext ∧
      u.care = { s.care with scans := s.care.scans ++ [⟨f.ring, f.n, (f.heads 16).flatMap fun a => (rowList (f.fld 48 1)).map fun x => (a, x), none,
        bit (f.fld 49 1) 0, f.fld 52 4, 0, 0, 0, 0, 0, 0, 0, 0, 0, s.care.count, false⟩], count := s.care.count + 1 } ∧ u.regs = s.regs ∧ u.out = s.out)) ∧
  (∀ dt r f (s : State), s.opRuns r f 0x1A [(16, 32), (48, 1), (49, 1), (50, 1)] false → s.holdsTally → f.fld 48 1 ≤ 9 →
    rowsOk (f.fld 49 1) = true → 1 ≤ f.fld 50 1 → f.fld 50 1 ≤ 4 →
    (f.heads 16).any (fun a => plEn s.placementNow a && plPlane s.placementNow a != f.fld 48 1) = false →
    s.get (Reg.DGq_WINDOW_tof_slow (f.fld 48 1)) ≤ s.get (Reg.DGq_WINDOW_tof_min (f.fld 48 1)) + s.gatePace (f.fld 48 1) →
    (s.dev = stPrinting → plPlaneEn s.placementNow (f.fld 48 1) = false) →
    ((f.heads 16).any (fun a => s.served a) = false → Gives (exec (.dropCheck dt r) s) fun t => t.opEnds r stUnreachable [] ∧ t.care = s.care) ∧
    ((f.heads 16).any (fun a => s.served a) = true → ∃ (u : State) (g : GateOp), exec (.dropCheck dt r) s =
        .next (
          let v := u.gatesNext.endWet fun a => plEn s.placementNow a && plPlane s.placementNow a == f.fld 48 1
          match v.gate (f.fld 48 1) with
          | some h => if h.order = g.order && h.begun && v.beamReady (f.fld 48 1) then v.gateNext { h with waitFrom := none } 0 g.fuel else v
          | none => v) ∧
      (s.on (Reg.DGq_CFG_enable (f.fld 48 1)) = false ∨ (s.gateBall (f.fld 48 1)).level = s.on (Reg.DGq_STATUS_level (f.fld 48 1)) →
        u.care = { s.care with gates := s.care.gates ++ [g], count := s.care.count + 1 }) ∧ u.on (Reg.DGq_STATUS_busy (f.fld 48 1)) = true ∧
      g.order = s.care.count ∧ g.part = (f.heads 16).any (fun a => !s.served a) ∧ g.waitFrom = none ∧ g.windows = [] ∧
      g.plane = f.fld 48 1 ∧ g.drops = f.fld 50 1 ∧ (g.ring, g.n) = (f.ring, f.n) ∧
      g.todo = (((f.heads 16).filter fun a => s.served a).flatMap fun a => (rowList (f.fld 49 1)).map fun x => (a, x)) ∧
      u.out = s.out)) ∧
  (∀ dt r f (s : State), s.opRuns r f 0x1B [(16, 1), (17, 1), (18, 1), (19, 1), (20, 2), (22, 2), (24, 1), (25, 1), (28, 4)] false → s.holdsTally →
    f.fld 17 1 ≤ 9 → 1 ≤ f.fld 19 1 → f.fld 19 1 ≤ 3 → 1 ≤ f.fld 24 1 → rowsOk (f.fld 25 1) = true → minSpit ≤ f.fld 28 4 →
    (f.fld 16 1 = 1 → f.fld 18 1 = 1 → 1 ≤ f.fld 20 2 → 1 ≤ f.fld 22 2 → Gives (exec (.spitPlan dt r) s) fun t => t.opEnds r stOk [] ∧
      t.wetPlan (f.fld 17 1) = ⟨true, f.fld 20 2, f.fld 22 2, f.fld 24 1, f.fld 19 1, f.fld 25 1, f.fld 28 4⟩ ∧
      (∀ q, q ≠ f.fld 17 1 → t.wetPlan q = s.wetPlan q) ∧ t.regs = s.regs ∧ t.out = s.out) ∧
    (f.fld 16 1 = 2 → (s.dev = stPrinting → plPlaneEn s.placementNow (f.fld 17 1) = false) → Gives (exec (.spitPlan dt r) s) fun t =>
      t.opEnds r stOk [] ∧ (∀ q, t.wetPlan q = s.wetPlan q) ∧
      ∀ a, a ∈ plHeads s.placementNow (f.fld 17 1) → s.served a = true → (s.model a).fired ≤ (t.model a).fired ∧
        (t.node a).service = ((s.node a).service + f.fld 24 1) % 16)) ∧
  (∀ dt r f (s : State), s.opRuns r f 0x20 [(16, 2), (20, 20)] false → s.motionBad f = false →
    ∀ m : WinderMove, m = ⟨f.ring, f.n, f.fld 17 1, signed 32 (f.fld 20 4), f.fld 24 4, f.fld 28 4, f.fld 32 4, f.fld 36 4, none, false, none, 0, false⟩ →
    s.limitAhead (f.fld 16 1) m = none → Gives (exec (.motionMove dt r) s) fun t =>
      (t.winder (f.fld 16 1)).next = some m ∧ (t.winder (f.fld 16 1)).move = (s.winder (f.fld 16 1)).move ∧
      (∀ n, n ≠ f.fld 16 1 → t.winder n = s.winder n) ∧ (t.flight r.ring r.n).map (·.begun) = some true) ∧
  (∀ dt r f (s : State), s.opRuns r f 0x28 [(16, 4), (24, 12)] true → s.holdsTally → f.fld 16 1 ≤ 3 → f.fld 17 1 ≤ 2 → 1 ≤ f.fld 18 2 →
    f.fld 18 2 * s.captureLine (f.fld 16 1) ≤ f.fld 32 4 →
    (∀ p, p < 4 → ∀ x ∈ (s.cam p).captures, s.beat + dt < max x.lastAt (s.cam p).lastRef + 1000000000) →
    (s.get (Reg.CAMp_STATUS_state (f.fld 16 1)) = 0 → Gives (exec (.capture dt r) s) fun t => t.opEnds r stBad [] ∧ t.assay = s.assay) ∧
    (s.get (Reg.CAMp_STATUS_state (f.fld 16 1)) ≠ 0 → Gives (exec (.capture dt r) s) fun t =>
      t.cam (f.fld 16 1) = { s.cam (f.fld 16 1) with captures := (s.cam (f.fld 16 1)).captures ++
        [⟨f.ring, f.n, f.fld 17 1, f.fld 18 2, f.fld 24 8, f.fld 32 4, f.effLi, none, 0, [], 0, s.beat + dt⟩] } ∧
      (t.flight r.ring r.n).map (·.ended) = some none ∧ t.regs = s.regs ∧ t.out = s.out))

/-- The drop gate: edges, the end of windows, a blocked gate, and keep-wet spits. 10_head_care_and_canary.md R260, 10_head_care_and_canary.md R262, 10_head_care_and_canary.md R263, 10_head_care_and_canary.md R264, 10_head_care_and_canary.md R268 -/
def Obligations.DropGate : Prop :=
  (∀ dt (q : Fin 10) l (s : State), s.powered 7 = true → s.on (Reg.DGq_CFG_enable q) = true → (s.gateBall q).level = s.on (Reg.DGq_STATUS_level q) →
    ((s.gateBall q).level = l → exec (.dropGateEdge dt q l) s = .next (s.advance dt)) ∧
    ((s.gateBall q).level ≠ l → s.get (Reg.DGq_CFG_filter_n q) ≠ 0 → Gives (exec (.dropGateEdge dt q l) s) fun t =>
      t.gateBall q = ⟨l, s.beat + dt, (s.advance dt).tb3⟩ ∧ t.regs = s.regs ∧ t.care.gates = s.care.gates ∧ t.out = s.out) ∧
    ((s.gateBall q).level ≠ l → s.get (Reg.DGq_CFG_filter_n q) = 0 → ∃ u : State,
      exec (.dropGateEdge dt q l) s = .next (u.gateAccept q l (s.advance dt).tb3 (s.beat + dt)) ∧ u.regs = s.regs ∧ u.care.gates = s.care.gates)) ∧
  (∀ (q : Fin 10) (s : State), s.on (Reg.DGq_CFG_enable q) = true → (s.gateBall q).level ≠ s.on (Reg.DGq_STATUS_level q) →
    ((s.gateBall q).since + s.get (Reg.DGq_CFG_filter_n q) ≤ s.beat → s.gateSettle q = s.gateAccept q (s.gateBall q).level (s.gateBall q).stamp
      ((s.gateBall q).since + s.get (Reg.DGq_CFG_filter_n q))) ∧
    (s.beat < (s.gateBall q).since + s.get (Reg.DGq_CFG_filter_n q) → s.gateSettle q = s)) ∧
  (∀ (q : Fin 10) l stamp at_ (s t : State), t = s.gateAccept q l stamp at_ → t.on (Reg.DGq_STATUS_level q) = l ∧ t.out = s.out ∧
    s.sameRegsBut t [(Reg.DGq_STATUS_level q).off] ∧
    (l = s.on (Reg.DGq_CFG_polarity q) → Tab.get (fun _ => 0) t.care.beamClear q = at_ ∧ t.care.gates = s.care.gates) ∧
    (l ≠ s.on (Reg.DGq_CFG_polarity q) → s.gate q = none → t.care = s.care ∧
      t.get (Reg.DGq_STATUS_unassigned q) = min (2 ^ (Reg.DGq_STATUS_unassigned q).w - 1) (s.get (Reg.DGq_STATUS_unassigned q) + 1)) ∧
    (∀ g, l ≠ s.on (Reg.DGq_CFG_polarity q) → s.gate q = some g → ∀ into : DropWindow → Int,
      into = (fun w => signed 80 (wrap 80 (((stamp * 65536 : Nat) : Int) - w.start))) →
      ∀ hit : DropWindow → Bool, hit = (fun w => decide (0 ≤ into w ∧ into w < ((s.gatePace q * tenNs : Nat) : Int))) →
      (g.windows.any hit = true → t.get (Reg.DGq_STATUS_unassigned q) = s.get (Reg.DGq_STATUS_unassigned q) ∧
        ∃ x, t.gate q = some x ∧ x.windows.map (·.edges) = g.windows.map fun w => w.edges + b2n (hit w)) ∧
      (g.windows.any hit = false → t.care = s.care ∧
        t.get (Reg.DGq_STATUS_unassigned q) = min (2 ^ (Reg.DGq_STATUS_unassigned q).w - 1) (s.get (Reg.DGq_STATUS_unassigned q) + 1)))) ∧
  (∀ dt (q : Fin 10) (s v : State), s.powered 7 = true → v = (s.advance dt).gateSettle q →
    (v.gate q = none → exec (.dropWindowEnd dt q) s = .next v ∧ exec (.gateBlocked dt q) s = .next v) ∧
    (∀ g t0, v.gate q = some g → g.waitFrom = some t0 →
      (v.beamReady q = false → exec (.dropWindowEnd dt q) s = .next v) ∧
      (v.beamReady q = true → exec (.dropWindowEnd dt q) s = .next (v.gateNext { g with waitFrom := none } 0 g.fuel) ∧
        exec (.gateBlocked dt q) s = .next v) ∧
      (t0 + 10000000 ≤ s.beat + dt → v.beamReady q = false → ∃ u : State, exec (.gateBlocked dt q) s =
        .next ((u.post 0x0605 [.b q]).endGate g true) ∧ u.on (Reg.DGq_STATUS_blocked q) = true ∧ u.on Reg.HC_STATUS_gate_blocked = true ∧
        u.care = v.care ∧ u.out = s.out)) ∧
    (∀ g a row l past, v.gate q = some g → g.waitFrom = none → g.todo = (a, row) :: l → g.windows ≠ [] →
      past = (g.windows.all fun w => !before v.now (wrap 80 (w.start + ((v.gatePace q * tenNs : Nat) : Int)))) →
      (past = false → exec (.dropWindowEnd dt q) s = .next v) ∧
      (past = true → ∃ (u : State) (x : GateOp), exec (.dropWindowEnd dt q) s = .next (u.gateNext x (g.group + 16) x.fuel) ∧ x.windows = [] ∧
        x.todo = g.todo ∧ (x.ring, x.n, x.plane) = (g.ring, g.n, g.plane) ∧ u.regs = v.regs ∧ u.out = s.out))) ∧
  (∀ dt (a : Fin 256) (s : State), s.powered 7 = true → ∀ u, u = (s.advance dt).retireHead a → ∀ p, p = u.wetPlan (plPlane u.placementNow a) →
    ∀ due, due = (match (u.model a).spat with
      | some t => if t < (u.model a).fired then (u.model a).fired + p.idleMs * 1000000 else t + p.intervalMs * 1000000
      | none => (u.model a).fired + p.idleMs * 1000000) →
    (p.enable = false ∨ plEn u.placementNow a = false ∨ u.eligible a = false ∨ u.beat < due → exec (.keepWetSpit dt a) s = .next u) ∧
    (plEn u.placementNow a = true → p.enable = true → u.eligible a = true → due ≤ u.beat →
      Gives (exec (.keepWetSpit dt a) s) fun t => (t.model a).spat = some (s.beat + dt) ∧ (t.model a).fired = (u.model a).fired ∧
        (t.node a).service = ((u.node a).service + p.drops) % 16 ∧ (∀ b, b ≠ a.val → t.model b = u.model b) ∧ t.care.plans = u.care.plans))

/-- Warming, the heat models of heads and chip, their corrections, throttling and release. 10_head_care_and_canary.md R270, 10_head_care_and_canary.md R272, 10_head_care_and_canary.md R273, 10_head_care_and_canary.md R274, 10_head_care_and_canary.md R276, 10_head_care_and_canary.md R277, 10_head_care_and_canary.md R278, 10_head_care_and_canary.md R281, 17_tally_and_failover.md R445 -/
def Obligations.HeadHeat : Prop :=
  (∀ dt (a : Fin 256) (s : State), s.powered 7 = true →
    (s.served a = true → s.held_ = true → s.get (Reg.HC_HEADa_STATE_warm_level a) ≠ s.warmLevel a →
      Gives (exec (.warmLevelUpdate dt a) s) fun t => t.get (Reg.HC_HEADa_STATE_warm_level a) = s.warmLevel a ∧ t.care = s.care ∧
        s.sameRegsBut t [(Reg.HC_HEADa_STATE_warm_level a).off]) ∧
    (s.get (Reg.HC_HEADa_STATE_warm_level a) = s.warmLevel a ∨ s.served a = false ∨ s.held_ = false → exec (.warmLevelUpdate dt a) s = .next (s.advance dt))) ∧
  (∀ dt (a : Fin 256) c (s : State), s.powered 7 = true → ∀ v, v = (s.advance dt).retireHead a → v.headClassOf a = some c → v.served a = true →
    v.dev ≠ stCold → ∀ m, m = v.model a → ∀ e, e = m.energy + ((m.pulses.filter fun p => !before v.now p.1).map (·.2)).sum + v.warmEnergy a (v.idleWarm a).1 →
    ∀ (num : Int) (den : Nat), num = (e * 2 ^ 32 * c.rdb : Nat) - (m.td - m.tb) * 10 ^ 9 → den = 10 ^ 8 * c.rdb * c.cd →
    ∃ (u : State) (dd : Int) (k : Nat), exec (.headModelUpdate dt a) s = .next (u.checkHead a k) ∧ num / den ≤ dd ∧ dd ≤ num / den + 1 ∧
      (u.model a).td = m.td + dd ∧ (u.model a).energy = 0 ∧ (u.model a).pulses = m.pulses.filter (fun p => before v.now p.1) ∧ u.out = v.out) ∧
  (∀ dt (a : Fin 256) (s : State), s.powered 7 = true → s.served a = true →
    (∀ x at_, s.dev = stCold → (s.model a).sense = some (x, at_) → Gives (exec (.headSenseCorrection dt a) s) fun t =>
      (t.model a).td = x * 2 ^ 26 ∧ t.rings = s.rings ∧ t.fm = s.fm) ∧
    (s.dev ≠ stCold → (s.advance dt).senseNow a = none → Gives (exec (.headSenseCorrection dt a) s) fun t =>
      (t.model a).td = (s.model a).td ∧ (t.model a).staleRun = min 10 ((s.model a).staleRun + 1) ∧ (t.model a).divergeRun = 0) ∧
    (∀ x c, s.dev ≠ stCold → (s.advance dt).senseNow a = some x → c = clampI (-(2 ^ 33)) (2 ^ 33) (x * 2 ^ 26 - (s.model a).td) →
      Gives (exec (.headSenseCorrection dt a) s) fun t => c - 1 ≤ 2 * ((t.model a).td - (s.model a).td) ∧
        2 * ((t.model a).td - (s.model a).td) ≤ c + 1 ∧ (t.model a).staleRun = 0 ∧ t.on (Reg.HC_HEADa_STATE_sense_stale a) = false)) ∧
  (∀ dt ps (s : State), s.powered 7 = false → Gives (exec (.chipModelUpdate dt ps) s) fun t => t.care = s.care ∧ t.rings = s.rings) ∧
  (∀ dt ps (s : State), s.powered 7 = true → s.dev ≠ stBoot → ∃ u : State, exec (.chipModelUpdate dt ps) s = .next u.chipCheck ∧ u.care.chip.length = 6 ∧ u.out = s.out ∧
    ∀ i, i < 6 → ∀ x : Nat → Int, x = (fun j => s.care.chip.getD j 0) → ∀ num : Int, num =
        (((chipNode i).2.2.map fun d => ps.getD (d - 1) 0).sum * 2 ^ 32 : Nat) + 10 * (((chipNode i).2.1 : Int) *
          (s.getI Reg.HC_CHIP_AMB_amb * 2 ^ 26 - x i) + ((List.range 6).map fun j => (chipCouple i j : Int) * (x j - x i)).sum) →
      num / (1000000 * (chipNode i).1 : Nat) ≤ u.care.chip.getD i 0 - x i ∧ u.care.chip.getD i 0 - x i ≤ num / (1000000 * (chipNode i).1 : Nat) + 1) ∧
  (∀ dt xs (s : State), s.powered 7 = false → exec (.chipSensorCorrection dt xs) s = .next ((s.advance dt).modCare fun c => { c with
    sensors := (List.range 6).map fun i => signed 16 (xs.getD i 0#16).toNat })) ∧
  (∀ dt xs (s : State), s.powered 7 = true → s.dev ≠ stBoot → ∃ u : State, exec (.chipSensorCorrection dt xs) s = .next u.chipCheck ∧ u.care.chip.length = 6 ∧ u.out = s.out ∧
    ∀ i, i < 6 → ∀ c, c = clampI (-(2 ^ 33)) (2 ^ 33) (signed 16 (xs.getD i 0#16).toNat * 2 ^ 26 - s.care.chip.getD i 0) →
      c / 4 ≤ u.care.chip.getD i 0 - s.care.chip.getD i 0 ∧ u.care.chip.getD i 0 - s.care.chip.getD i 0 ≤ c / 4 + 1) ∧
  (∀ dt (s : State), s.powered 7 = true → Gives (exec (.throttleUpdate dt) s) fun t =>
    t.sched.chipLimit = throttleOf (125 * 2 ^ 32 - s.chipTemp.1) (clampN 5 40 (s.get Reg.HC_THERMAL_CFG_chip_margin)) ∧
    t.sched.headLimit.1 ≤ 125000 ∧ (∀ a c, a < 256 → s.served a = true → s.holding a = false → s.headClassOf a = some c → t.sched.headLimit.1 ≤
      throttleOf (c.tShut * 2 ^ 26 - (s.advance dt).headTemp a) (clampN 2 40 (s.get Reg.HC_THERMAL_CFG_head_margin)))) ∧
  (∀ dt (a : Fin 256) c (s : State), s.powered 7 = true → (s.node a).recoveryHold = none → s.headClassOf a = some c →
    (s.on Reg.HC_CFG_auto_release = false → exec (.headAutoRelease dt a) s = .next (s.advance dt)) ∧
    (s.on Reg.HC_CFG_auto_release = true → s.held_ = true → s.holding a = true → s.streaming = false →
      (s.advance dt).headTemp a ≤ c.tShut * 2 ^ 26 - (clampN 2 40 (s.get Reg.HC_THERMAL_CFG_head_margin) : Int) * 2 ^ 32 →
      Gives (exec (.headAutoRelease dt a) s) fun t => t.holding a = false ∧ (t.node a).held = false ∧ t.on (Reg.HC_HEADa_STATE_held a) = false)) ∧
  (∀ dt (a : Fin 256) x (s : State), s.powered 7 = true → (s.node a).recoveryHold = some x →
    (s.resourceBusy x = true → exec (.headAutoRelease dt a) s = .next (s.advance dt)) ∧
    (s.resourceBusy x = false → s.waitingOn x = none → s.on (Reg.HC_HEADa_STATE_held a) = false → s.held_ = true → s.holding a = true →
      s.streaming = false → Gives (exec (.headAutoRelease dt a) s) fun t => t.holding a = false ∧ (t.node a).recoveryHold = none)) ∧
  (∀ dt (v : BitVec 32) (s : State), s.dev ≠ stBoot → s.domainOff Reg.HC_HEAD_RELEASE_head.off = false →
    (v.getLsbD 8 = false → exec (.headRelease dt v) s = .next (s.advance dt)) ∧
    (v.getLsbD 8 = true → s.held_ = true → s.holding (v.toNat % 256) = true → s.streaming = false → Gives (exec (.headRelease dt v) s) fun t =>
      t.holding (v.toNat % 256) = false ∧ t.on (Reg.HC_HEADa_STATE_held (v.toNat % 256)) = false) ∧
    (v.getLsbD 8 = true → s.held_ = true → s.holding (v.toNat % 256) = true → s.streaming = true → s.nextParting = none →
      exec (.headRelease dt v) s = .next ((s.advance dt).onNode (v.toNat % 256) fun n => { n with releaseDue := true })) ∧
    (∀ k, v.getLsbD 8 = true → s.held_ = true → s.holding (v.toNat % 256) = true → s.streaming = true → s.nextParting = some k →
      Gives (exec (.headRelease dt v) s) fun t => (t.node (v.toNat % 256)).releaseAt = some k ∧ (t.head (v.toNat % 256)).asm = k ∧
        t.on (Reg.HC_HEADa_STATE_held (v.toNat % 256)) = false))

/-- Camera ports: frames, lines and their stamps, silence, shadow registers, the pipeline and regions. 11_assay_inspection.md R289, 11_assay_inspection.md R290, 11_assay_inspection.md R291, 11_assay_inspection.md R293, 11_assay_inspection.md R294, 11_assay_inspection.md R295, 11_assay_inspection.md R296, 11_assay_inspection.md R307, 11_assay_inspection.md R312 -/
def Obligations.CameraFrames : Prop :=
  (∀ dt (p : Fin 4) (vc : Fin 16) k (s : State), s.camOn p = true → (s.cam p).captures = [] →
    (4 ≤ vc.val → Gives (exec (.csiFrameStart dt p vc k) s) fun t => t.get (Reg.CAMp_ERRCNT_A_discarded p) =
      min (2 ^ (Reg.CAMp_ERRCNT_A_discarded p).w - 1) (s.get (Reg.CAMp_ERRCNT_A_discarded p) + 1) ∧ (t.cam p).frames = (s.cam p).frames) ∧
    (vc.val < 4 → vc.val < s.camChannels p → (s.cam p).open_ = none → Gives (exec (.csiFrameStart dt p vc k) s) fun t =>
      t.get (Reg.CAMp_FRAME_NO p) = (s.get (Reg.CAMp_FRAME_NO p) + 1) % 2 ^ 32 ∧
      ∃ f, (t.cam p).open_ = some f ∧ f.no = t.get (Reg.CAMp_FRAME_NO p) ∧ f.started = (List.range (s.camChannels p)).map (· == vc.val)) ∧
    (∀ f e, vc.val < 4 → vc.val < s.camChannels p → (s.cam p).open_ = some f → e = f.ended.set vc true →
      (e.all id = false → Gives (exec (.csiFrameEnd dt p vc k) s) fun t =>
        (t.cam p).frames = (s.cam p).frames.map fun x => if x.no = f.no then { x with ended := e } else x) ∧
      (e.all id = true → ∃ u : State, exec (.csiFrameEnd dt p vc k) s = .next (u.closeFrame p false) ∧ u.out = s.out ∧
        (u.cam p).frames = (s.cam p).frames.map fun x => if x.no = f.no then { x with ended := e } else x))) ∧
  (∀ dt (p : Fin 4) h d ok (s u : State), s.camOn p = true → u = (s.advance dt).firePort p → (u.cam p).captures = [] → h.ecc = .ok →
    ((u.cam p).open_ = none → (h.dataType = 0x12#6 → 4 ≤ h.vc.val) → Gives (exec (.csiLongPacket dt p h d ok) s) fun t =>
      t.get (Reg.CAMp_ERRCNT_A_discarded p) = min (2 ^ (Reg.CAMp_ERRCNT_A_discarded p).w - 1) (u.get (Reg.CAMp_ERRCNT_A_discarded p) + 1) ∧
      (t.cam p).buffer = (u.cam p).buffer ∧ (t.cam p).fifo = (u.cam p).fifo) ∧
    (∀ f, (u.cam p).open_ = some f → h.vc = 0 → f.counts.getD 0 0 < prmLines f.params → f.cut = false → ok = true →
      h.dataType.toNat = (if u.on (Reg.CAMp_CFG_data_type p) then 0x2C else 0x2B) →
      h.wordCount.toNat = (if u.on (Reg.CAMp_CFG_data_type p) then u.get (Reg.CAMp_CFG_pixels p) * 12 / 8 else u.get (Reg.CAMp_CFG_pixels p) * 10 / 8) →
      (u.cam p).level + 2 * u.get (Reg.CAMp_CFG_pixels p) ≤ 2097152 →
      (∀ e ∈ (u.cam p).fifo, signed 64 (wrap 64 ((u.tb3 : Int) - e.t)) ≤ 1000 * prmLatency f.params) →
      (∀ e rest, (u.cam p).fifo = e :: rest → Gives (exec (.csiLongPacket dt p h d ok) s) fun t => (t.cam p).fifo = rest ∧
        (t.cam p).lastRef = s.beat + dt ∧ (t.cam p).seq = (u.cam p).seq + 1 ∧ ∃ l more, (t.cam p).buffer = (u.cam p).buffer ++ l :: more ∧
        (l.chan, l.frame, l.x, l.t, l.seq) = (0, f.no, e.x, e.t, (u.cam p).seq) ∧
        ∀ x ∈ more, (x.frame, x.n, x.x, x.t, x.seq) = (f.no, f.counts.getD 0 0, e.x, e.t, (u.cam p).seq)) ∧
      ((u.cam p).fifo = [] → (∀ g ∈ (u.cam p).frames, ∀ r ∈ g.refs, r.1 ≠ f.counts.getD 0 0) → Gives (exec (.csiLongPacket dt p h d ok) s) fun t => (t.cam p).buffer = (u.cam p).buffer ∧
        t.get (Reg.CAMp_ERRCNT_B_untriggered p) =
          min (2 ^ (Reg.CAMp_ERRCNT_B_untriggered p).w - 1) (u.get (Reg.CAMp_ERRCNT_B_untriggered p) + 1)))) ∧
  (∀ dt (p : Fin 4) f (s : State), s.camOn p = true → (s.cam p).open_ = some f →
    ((s.cam p).lastPacket + 1000000 * prmTimeout f.params ≤ s.beat + dt → exec (.frameTimeout dt p) s =
      .next (((s.advance dt).closeFrame p true).lateCaptures p)) ∧
    (s.beat + dt < (s.cam p).lastPacket + 1000000 * prmTimeout f.params → exec (.frameTimeout dt p) s = .next (s.advance dt))) ∧
  (∀ dt (p : Fin 4) (s : State), s.camOn p = true → s.on (Reg.CAMp_STATUS_silent p) = false →
    (s.cam p).lastRef + 1000000 * prmSilent (s.cam p).live ≤ s.beat + dt →
    (s.cam p).stampsFrom + 1000000 * prmSilent (s.cam p).live ≤ s.beat + dt →
    s.beat + dt < (s.cam p).lastStamp + 1000000 * prmSilent (s.cam p).live → Gives (exec (.cameraSilent dt p) s) fun t =>
      t.on (Reg.CAMp_STATUS_silent p) = true ∧ (t.cam p).captures = [] ∧ (t.cam p).frames = (s.cam p).frames) ∧
  (∀ dt (p : Fin 4) (s : State), s.dev ≠ stBoot → s.domainOff (Reg.CAMp_CTRL_flush_stamps p).off = false →
    Gives (exec (.flushStamps dt p) s) fun t => t.cam p = { s.cam p with fifo := [] } ∧ t.regs = s.regs ∧ t.out = s.out) ∧
  (∀ dt (p : Fin 4) (s : State), s.dev ≠ stBoot → s.domainOff (Reg.CAMp_CTRL_commit p).off = false → Gives (exec (.camCommit dt p) s) fun t =>
    t.cam p = { s.cam p with commit := some (s.shadowRegs p), commitAt := s.beat + dt } ∧ t.regs = s.regs ∧ t.out = s.out) ∧
  (∀ dt (s : State), ∀ first : Option Nat, first = ((List.range 4).map fun i => (s.assay.next + i) % 4).find?
      (fun p => s.camOn p && !(s.cam p).buffer.isEmpty) →
    (first = none → exec (.pipelineTile dt) s = .next (s.advance dt)) ∧
    (∀ p l rest, first = some p → (s.cam p).buffer = l :: rest →
      (l.served + 256 < l.data.length → Gives (exec (.pipelineTile dt) s) fun t => t.assay.next = (p + 1) % 4 ∧
        (t.cam p).buffer = { l with served := l.served + 256 } :: rest ∧ t.out = s.out) ∧
      (l.data.length ≤ l.served + 256 → ∃ u : State, exec (.pipelineTile dt) s = .next (u.processLine p l) ∧ u.assay.next = (p + 1) % 4 ∧
        (u.cam p).buffer = rest ∧ u.out = s.out))) ∧
  (∀ dt (p : Fin 4) (s : State), s.powered 8 = true → ∀ i : Option Nat, i = (s.cam p).occ.findIdx? (·.closed) →
    (i = none → exec (.regionClose dt p) s = .next (s.advance dt)) ∧
    (∀ k o, i = some k → (s.cam p).occ[k]? = some o → ∃ u : State, exec (.regionClose dt p) s = .next (u.issueRegion p o) ∧
      (u.cam p).occ = (s.cam p).occ.eraseIdx k ∧ u.regs = s.regs ∧ u.out = s.out))

/-- The Foreman: records taken, feed-forward, holds, and clearing findings. 12_foreman_adaptation.md R326, 12_foreman_adaptation.md R328, 12_foreman_adaptation.md R339, 12_foreman_adaptation.md R342, 12_foreman_adaptation.md R347 -/
def Obligations.ForemanLoops : Prop :=
  (∀ dt (s : State), s.powered 10 = true → (s.fm.queue = [] → exec (.foremanRecord dt) s = .next (s.advance dt)) ∧
    (∀ b l, s.fm.queue = b :: l →
      ((s.fmWorks = false ∨ recUsable b = false) → Gives (exec (.foremanRecord dt) s) fun t => t = { s.advance dt with fm := t.fm } ∧
        t.fm = { s.fm with queue := l }) ∧
      (s.fmWorks = true → recUsable b = true → ∃ u : State, u.fm.queue = l ∧ exec (.foremanRecord dt) s = .next (
        if recKind b = 2 then u.nozzleLoop b else if recKind b = 3 then u.densityLoop b else if recKind b = 4 then u.registrationLoop b else u)))) ∧
  (∀ dt (s : State), s.powered 10 = true → (s.fmMode 4 = 0 → exec (.feedForwardUpdate dt) s = .next (s.advance dt)) ∧
    (∀ l, s.fm.ffAt = some l → (s.advance dt).refLine < l + s.fmFfLines → exec (.feedForwardUpdate dt) s = .next (s.advance dt)) ∧
    (s.fmMode 4 ≠ 0 → s.fmWorks = true → (s.fm.ffAt = none ∨ ∃ l, s.fm.ffAt = some l ∧ l + s.fmFfLines ≤ (s.advance dt).refLine) →
      Gives (exec (.feedForwardUpdate dt) s) fun t => t.fm.ffAt = some (s.advance dt).refLine ∧ t.fm.ffSum = [])) ∧
  (∀ dt (loop : Fin 4) (q : Fin 10) (s : State), s.powered 10 = true →
    (s.fm.held.contains (loop.val * 16 + q.val) = true → exec (.fmHold dt loop q) s = .next (s.advance dt)) ∧
    (∀ p, s.fmWorks = true → loop ≠ 0 → s.fmMode loop ≠ 0 → s.fm.held.contains (loop.val * 16 + q.val) = false →
      p ∈ (s.advance dt).loopPorts loop q → s.on (Reg.CAMp_STATUS_silent p) = true → Gives (exec (.fmHold dt loop q) s) fun t =>
        t.fm = { s.fm with held := (loop.val * 16 + q.val) :: s.fm.held } ∧ t.on Reg.FM_STATUS_held = true ∧
        t.rings.evtSeq = (s.rings.evtSeq + 1) % 65536)) ∧
  (∀ dt (v : BitVec 32) (s : State), s.dev ≠ stBoot → s.domainOff Reg.FM_NOZ_CLEAR_go.off = false →
    (bit v.toNat 23 = false → exec (.fmNozClear dt v) s = .next (s.advance dt)) ∧
    (bit v.toNat 23 = true → bit v.toNat 22 = false → Gives (exec (.fmNozClear dt v) s) fun t =>
      (∀ a row col, row < 2 → col < 8192 → t.noz a row col = if (a, row, col) = (bits v.toNat 7 0, bits v.toNat 8 8, bits v.toNat 21 9) then
        { s.noz a row col with print := 0, printReading := 0, printRun := 0 } else s.noz a row col) ∧ t.fm = s.fm ∧ t.sched = s.sched))

/-- Codewords and SRAM words: clean, corrected, uncorrectable and address errors, scrubbing, partial writes. 16_memory_and_ecc.md R418, 16_memory_and_ecc.md R420, 16_memory_and_ecc.md R421, 16_memory_and_ecc.md R422, 16_memory_and_ecc.md R424, 16_memory_and_ecc.md R425 -/
def Obligations.MemoryReads : Prop :=
  (∀ dt w (b : BurstErrors) (s : State), ∀ e, e = b.symbols (w % 4) → (s.inStore w = false → exec (.codewordRead dt (.dram w b)) s = .next (s.advance dt)) ∧
    (s.inStore w = true →
      (errorSymbols e = [] → s.mem.poison.contains w = false → Gives (exec (.codewordRead dt (.dram w b)) s) fun t =>
        t.regs = s.regs ∧ t.out = s.out ∧ t.mem = { s.mem with bad := s.mem.bad.filter (· != w) }) ∧
      (∀ p, errorSymbols e = [p] → p < 36 → s.mem.poison.contains w = false → Gives (exec (.codewordRead dt (.dram w b)) s) fun t => t.mem.dram = s.mem.dram ∧
        t.mem.bad = s.mem.bad.filter (· != w) ∧ t.get (Reg.MEM_CHc_CE (s.channelOf w)) =
          min (2 ^ (Reg.MEM_CHc_CE (s.channelOf w)).w - 1) (s.get (Reg.MEM_CHc_CE (s.channelOf w)) + 1)) ∧
      (s.mem.poison.contains w = true → Gives (exec (.codewordRead dt (.dram w b)) s) fun t => t.mem.dram = s.mem.dram ∧ t.wordBad w = true) ∧
      (((errorSymbols e).length = 2 ∨ (errorSymbols e).length = 3 ∨ ∃ p, errorSymbols e = [p] ∧ 36 ≤ p) → s.mem.poison.contains w = false →
        Gives (exec (.codewordRead dt (.dram w b)) s) fun t => t.mem.dram = s.mem.dram ∧ t.wordBad w = true ∧
          t.get (Reg.MEM_CHc_UE (s.channelOf w)) =
            min (2 ^ (Reg.MEM_CHc_UE (s.channelOf w)).w - 1) (s.get (Reg.MEM_CHc_UE (s.channelOf w)) + 1)))) ∧
  (∀ dt (a : BitVec 24) e h (s : State), ∀ errs : List Nat, errs = (e.filter (· < 290)).eraseDups →
    (s.memRuns = false → exec (.codewordRead dt (.sram a e h)) s = .next (s.advance dt)) ∧
    (errs = [] → s.sramPoisoned a.toNat h = false → s.mem.sramBad.contains a.toNat = false →
      exec (.codewordRead dt (.sram a e h)) s = .next (s.advance dt)) ∧
    (∀ p, s.memRuns = true → errs = [p] → p < 266 → s.sramPoisoned a.toNat h = false → Gives (exec (.codewordRead dt (.sram a e h)) s) fun t =>
      t.mem.sramBad = s.mem.sramBad.filter (· != a.toNat) ∧ t.get Reg.MEM_SRAM_CE = min (2 ^ Reg.MEM_SRAM_CE.w - 1) (s.get Reg.MEM_SRAM_CE + 1)) ∧
    (s.memRuns = true → errs.length = 2 → s.sramPoisoned a.toNat h = false → Gives (exec (.codewordRead dt (.sram a e h)) s) fun t =>
      t.mem.sramBad.contains a.toNat = true ∧ t.get Reg.MEM_SRAM_UE = min (2 ^ Reg.MEM_SRAM_UE.w - 1) (s.get Reg.MEM_SRAM_UE + 1))) ∧
  (∀ dt addr data e (s : State), s.inStore (4 * (addr / 128)) = true →
    (addr % 128 = 0 → data.length = 128 → Gives (exec (.partialWrite dt (.dram addr data e) none) s) fun t =>
      getBytes t.mem.dram addr 128 = data ∧ (∀ i, i < 4 → t.wordBad (4 * (addr / 128) + i) = false) ∧
      (∀ a, (a < addr ∨ addr + 128 ≤ a) → Tab.get (fun _ => 0#8) t.mem.dram a = Tab.get (fun _ => 0#8) s.mem.dram a) ∧ t.regs = s.regs) ∧
    (addr % 128 + data.length < 128 → (∀ i, i < 4 → s.mem.poison.contains (4 * (addr / 128) + i) = false) →
      Gives (exec (.partialWrite dt (.dram addr data ⟨[], []⟩) none) s) fun t => t.mem.dram = putBytes s.mem.dram addr data ∧
        t.mem.poison = s.mem.poison ∧ t.regs = s.regs ∧ t.out = s.out) ∧
    (∀ r f, addr % 128 + data.length < 128 → (∃ i, i < 4 ∧ s.mem.poison.contains (4 * (addr / 128) + i) = true) →
      s.flight r.ring r.n = some f → f.ended = none → f.cq ≠ 16 → Gives (exec (.partialWrite dt (.dram addr data ⟨[], []⟩) (some r)) s) fun t =>
        (∃ k, t.opEnds r stUncorrectable (f.alwaysResult k)) ∧ t.mem.poison = s.mem.poison)) ∧
  (∀ dt wait (s : State), (s.on Reg.MEM_SCRUB_dram_en = false → ∀ e, exec (.dramScrub dt e wait) s = .next (s.advance dt)) ∧
    (s.memRuns = true → s.on Reg.MEM_SCRUB_dram_en = true → s.on Reg.MEM_STATUS_ready = true →
      (Gives (exec (.dramScrub dt [] wait) s) fun t => t.mem = { s.mem with bad := [], arb := t.mem.arb } ∧ t.rings.evtSeq = (s.rings.evtSeq + 1) % 65536) ∧
      (∀ u b k, k < 4 → s.inStore (4 * u + k) = true → (∀ j, j < 4 → j ≠ k → errorSymbols (b.symbols j) = []) →
        ((errorSymbols (b.symbols k)).length = 2 ∨ (errorSymbols (b.symbols k)).length = 3) → s.mem.poison.contains (4 * u + k) = false →
        Gives (exec (.dramScrub dt [(u, b)] wait) s) fun t => t.mem.poison.contains (4 * u + k) = true ∧ t.mem.bad = [] ∧
          t.mem.dram = (s.flipData (4 * u + k) (b.symbols k)).mem.dram ∧ t.on Reg.MEM_STATUS_poison_written = true)) ∧
    (s.on Reg.MEM_SCRUB_sram_en = false → ∀ e, exec (.sramScrub dt e) s = .next (s.advance dt)) ∧
    (s.memRuns = true → s.on Reg.MEM_SCRUB_sram_en = true → Gives (exec (.sramScrub dt []) s) fun t => t.mem = s.mem ∧ t.seam = s.seam ∧
      t.rings.evtSeq = (s.rings.evtSeq + 1) % 65536))

/-- The image store keeps its canonical form under every command, and has it at reset. 16_memory_and_ecc.md R412, 16_memory_and_ecc.md R414 -/
def Obligations.MemoryForm : Prop :=
  Memory.wf State.reset.mem.dram = true ∧ (∀ c (s t : State), Memory.wf s.mem.dram = true → exec c s = .next t → Memory.wf t.mem.dram = true) ∧
  (∀ a b, Memory.wf a = true → Memory.wf b = true → (∀ k, Tab.get (fun _ => 0#8) a k = Tab.get (fun _ => 0#8) b k) → a = b)

/-- Renewal, lease messages, losing and taking the tally, the arbiter, and handover. 17_tally_and_failover.md R437, 17_tally_and_failover.md R438, 17_tally_and_failover.md R439, 17_tally_and_failover.md R440, 17_tally_and_failover.md R442, 17_tally_and_failover.md R443, 17_tally_and_failover.md R444, 17_tally_and_failover.md R445, 15_operation_catalogue.md R408 -/
def Obligations.TallyCommands : Prop :=
  (∀ dt (s : State), s.powered 10 = true → s.inPair = true →
    (s.held_ = true → s.deputyHalted = false → (s.config = 1 → (s.advance dt).callsRelease = false) → Gives (exec (.renewSend dt) s) fun t =>
      t.tally = { s.tally with seq := (s.tally.seq + 1) % 65536, renewed := if s.config = 1 then some (s.beat + dt) else s.tally.renewed } ∧
      t.get Reg.TALLY_EPOCH = s.get Reg.TALLY_EPOCH ∧ t.dev = s.dev) ∧
    (s.held_ = false → exec (.renewSend dt) s = .next (s.advance dt)) ∧
    (s.held_ = false → (s.dev = stReady ∨ s.dev = stCold) → Gives (exec (.healthSend dt) s) fun t =>
      t.tally = { s.tally with seq := (s.tally.seq + 1) % 65536 } ∧ t.dev = s.dev) ∧
    (s.held_ = true → s.config = 1 → exec (.healthSend dt) s = .next (s.advance dt))) ∧
  (∀ dt net data (s : State), s.powered 10 = true →
    (leAt (data.take 44) 0 1 ≠ 3 ∨ beAt (data.take 44) 40 4 ≠ crc32c ((data.take 44).take 40) ∨
        (s.tally.heard.any fun h => h.1 == beAt (data.take 44) 34 2 && h.2 == beAt (data.take 44) 4 2) = true →
      exec (.leaseMessageRx dt net data) s = .next (s.advance dt)) ∧
    (∀ m, m = data.take 44 → s.leaseOk net m → s.inPair = true → beAt m 2 2 = s.get Reg.PAIR_CFG_pair_id →
      (leAt m 1 1 = opRenew → leAt m 6 1 % 2 ≠ s.get Reg.PAIR_CFG_end → bits (leAt m 6 1) 2 1 ≠ 3 → s.tally.handover = none → s.held_ = false →
        s.dev = stReady → Gives (exec (.leaseMessageRx dt net data) s) fun t => t.dev = stCold ∧ t.get Reg.TALLY_STATUS_role = 2 ∧
          t.tally.renewed = some (s.beat + dt) ∧ t.tally.started = true ∧ t.tally.peerEpoch = beAt m 8 4 ∧ t.held_ = false) ∧
      (leAt m 1 1 = opGrant → s.config = 2 → bits (leAt m 6 1) 2 1 = 3 → beAt m 34 2 = s.get Reg.PAIR_ARB_ID_arbiter_id →
        beAt m 32 2 = s.get Reg.PAIR_CFG_end → s.held_ = true → Gives (exec (.leaseMessageRx dt net data) s) fun t =>
          t.tally = { s.tally with
            renewed := some (s.beat + dt)
            heard := (beAt m 34 2, beAt m 4 2) :: s.tally.heard.filter fun h => h.1 != beAt m 34 2 } ∧ t.regs = s.regs ∧ t.out = s.out))) ∧
  (∀ dt (s : State), s.inPair = true → s.held_ = true →
    ((s.advance dt).leaseOld 250000 = true → Gives (exec (.tallyFence dt) s) fun t => t.held_ = false ∧ t.dev = stCold ∧
      t.get Reg.TALLY_STATUS_role = 2 ∧ t.on Reg.TALLY_STATUS_lost_seen = true ∧ t.tally.unacked = [] ∧ t.care.scans = [] ∧ t.care.gates = [] ∧
      t.get Reg.TALLY_EPOCH = s.get Reg.TALLY_EPOCH) ∧
    ((s.advance dt).leaseOld 250000 = false → exec (.tallyFence dt) s = .next (s.advance dt))) ∧
  (∀ dt (s : State), s.inPair = true → s.dev = stCold → s.held_ = false → (s.advance dt).leaseOld 150000 = true →
    (s.tally.latePosted = false → Gives (exec (.leaseLate dt) s) fun t => t.tally.latePosted = true ∧ t.on Reg.TALLY_STATUS_late_seen = true ∧
      t.on Reg.TALLY_STATUS_warming = true ∧ t.held_ = false ∧ t.dev = stCold) ∧
    (s.tally.latePosted = true → exec (.leaseLate dt) s = .next (s.advance dt))) ∧
  (∀ dt (s : State), s.powered 10 = true → ∀ u, u = (s.advance dt).refresh → u.config = 1 → u.dev = stCold → u.held_ = false →
    u.leaseOld 300000 = true →
    (u.fit = true → u.nextEpoch none < 0xFFFFFFFF → Gives (exec (.tallyLapseTake dt) s) fun t => t.held_ = true ∧
      t.get Reg.TALLY_EPOCH = u.nextEpoch none ∧ t.get Reg.TALLY_STATUS_role = 1 ∧ t.dev ≠ stCold ∧ t.tally.renewed = some (s.beat + dt)) ∧
    (u.fit = false → u.tally.unfitPosted = false → Gives (exec (.tallyLapseTake dt) s) fun t => t.held_ = false ∧ t.dev = stCold ∧
      t.tally = { u.tally with unfitPosted := true } ∧ t.on Reg.TALLY_STATUS_lost_seen = true)) ∧
  (∀ dt (s : State), s.powered 10 = true → s.config = 1 → s.get Reg.PAIR_CFG_end = 1 → s.dev = stReady → s.held_ = false → s.tally.started = false →
    (s.tally.readyAt + 1000000000 ≤ s.beat + dt → s.nextEpoch none < 0xFFFFFFFF → Gives (exec (.pairStartTimeout dt) s) fun t => t.held_ = true ∧
      t.get Reg.TALLY_EPOCH = s.nextEpoch none ∧ t.get Reg.TALLY_STATUS_role = 1 ∧ t.dev = stReady ∧ t.tally.started = true) ∧
    (s.beat + dt < s.tally.readyAt + 1000000000 → exec (.pairStartTimeout dt) s = .next (s.advance dt))) ∧
  (∀ dt (k : Fin 8) (s : State), s.powered 10 = true → (s.config ≠ 3 → exec (.arbiterTick dt k) s = .next (s.advance dt)) ∧
    (s.config = 3 → bit (s.arbReg k) 16 = true → s.dev = stReady → ∀ p, p = Tab.get (fun _ => ({} : ArbPair)) s.tally.arb k.val → p.released = false →
      ∀ (x y : Option LeaseInfo), (x, y) = (if p.holder = 0 then (p.a, p.b) else (p.b, p.a)) →
      (∀ i, x = some i → s.beat + dt ≤ i.at_ + 200000 → bit i.flags 0 = true → Gives (exec (.arbiterTick dt k) s) fun t =>
        Tab.get (fun _ => ({} : ArbPair)) t.tally.arb k.val = { p with lastGrant := some (s.beat + dt) } ∧ t.tally.seq = (s.tally.seq + 1) % 65536) ∧
      (∀ j, x = none → y = some j → s.beat + dt ≤ j.at_ + 200000 → bit j.flags 1 = true → (∃ g, p.lastGrant = some g ∧ g + 350000 ≤ s.beat + dt) →
        Gives (exec (.arbiterTick dt k) s) fun t => Tab.get (fun _ => ({} : ArbPair)) t.tally.arb k.val =
          { p with holder := 1 - p.holder, epoch := max p.epoch j.maxH + 1, lastGrant := some (s.beat + dt), released := false }))) ∧
  (∀ dt ring n t0 (s : State), s.tally.handover = some (ring, n, t0) →
    (s.held_ = true → s.tally.handed = false → t0 + 1000000 ≤ s.beat + dt → Gives (exec (.handoverTimeout dt) s) fun t =>
      t.held_ = false ∧ t.dev = stCold ∧ t.tally.handed = true) ∧
    (t0 + 10000000 ≤ s.beat + dt → Gives (exec (.tallyCtrlTimeout dt) s) fun t => t.tally = { s.tally with
      handover := s.tally.more.head?, handed := s.tally.handed && !s.tally.more.isEmpty, more := s.tally.more.drop 1 }) ∧
    (∀ f, t0 + 10000000 ≤ s.beat + dt → s.flight ring n = some f → f.ended = none → f.cq ≠ 16 → Gives (exec (.tallyCtrlTimeout dt) s) fun t =>
      (t.flight ring n).map (fun x => x.ended.map (·.1)) = some (some stTimeout)) ∧
    (s.beat + dt < t0 + 1000000 → exec (.handoverTimeout dt) s = .next (s.advance dt) ∧ exec (.tallyCtrlTimeout dt) s = .next (s.advance dt)))

/-- Mirroring, its loss and return, relayed packets, the Deputy's halt and double faults. 17_tally_and_failover.md R447, 17_tally_and_failover.md R448, 17_tally_and_failover.md R451, 17_tally_and_failover.md R452, 17_tally_and_failover.md R453 -/
def Obligations.MirrorAndDeputy : Prop :=
  (∀ dt full (s : State), s.powered 10 = true → (s.mirrors = false → exec (.mirrorSend dt full) s = .next (s.advance dt)) ∧
    (s.mirrors = true → Gives (exec (.mirrorSend dt full) s) fun t => t.tally = { s.tally with
        mirrorSeq := s.tally.mirrorSeq + 1, unacked := s.tally.unacked ++ [(s.tally.mirrorSeq, s.beat + dt)]
        fullItem := if full then some s.tally.mirrorSeq else s.tally.fullItem } ∧ t.regs = s.regs ∧ t.store = s.store)) ∧
  (∀ dt (lane : Fin 68) n item (s : State), s.powered 10 = true →
    ((lane.val < 64 ∨ s.laneUp lane = false) → exec (.mirrorRx dt lane n item) s = .next (s.advance dt)) ∧
    (64 ≤ lane.val → s.laneUp lane = true → s.inPair = true →
      (s.held_ = true → Gives (exec (.mirrorRx dt lane n .ack) s) fun t => t.tally.unacked = s.tally.unacked.filter (fun u => u.1 != n) ∧
        (∀ w ∈ t.store.await, w ∈ s.store.await)) ∧
      (∀ a row col res gate print base, s.dev = stCold → s.held_ = false → row < 2 → col < 8192 →
        Gives (exec (.mirrorRx dt lane n (.nozzle a row col res gate print base)) s) fun t =>
          t.noz a row col = { s.noz a row col with res := res, gate := gate, print := print, base := base } ∧
          (∀ b r c, r < 2 → c < 8192 → (b, r, c) ≠ (a, row, col) → t.noz b r c = s.noz b r c) ∧
          (s.txAsleep lane = false → ∃ bs line, Output.lanePacket lane bs line ∈ t.out)))) ∧
  (∀ dt (cause : Fin 3) (s : State), s.inPair = true → s.held_ = true → (cause.val = 2 ∨ cause.val = 1 ∧ s.pairLane = none) → s.tally.mirrorLost = none →
    Gives (exec (.mirrorLost dt cause) s) fun t => t.tally = { s.tally with mirrorLost := some (cause.val, 0), unacked := [] } ∧
      t.store.await = [] ∧ t.store.blocks = s.store.blocks ∧ t.on Reg.TALLY_STATUS_mirror_current = false) ∧
  (∀ dt (s : State), s.powered 10 = true → s.mirrors = true →
    (s.tally.mirrorLost = none → exec (.mirrorSynced dt) s = .next (s.advance dt)) ∧
    (s.tally.mirrorLost.isSome = true → Gives (exec (.mirrorSynced dt) s) fun t => t.tally.mirrorLost = none ∧
      (∀ b ∈ t.store.blocks, b.2.mirrored = true) ∧ t.store.blocks.map (·.1) = s.store.blocks.map (·.1))) ∧
  (∀ dt (s : State), s.powered 10 = true → s.held_ = true →
    ((∃ u ∈ s.tally.unacked, u.2 + 1000000 ≤ s.beat + dt) → Gives (exec (.mirrorAckTimeout dt) s) fun t =>
      t.on Reg.TALLY_STATUS_mirror_current = false ∧ t.tally = s.tally) ∧
    ((∀ u ∈ s.tally.unacked, s.beat + dt < u.2 + 1000000) → exec (.mirrorAckTimeout dt) s = .next (s.advance dt))) ∧
  (∀ dt (n : Fin 68) (rx : LaneRx) (c : Instr) (s : State), (c = .relayDownRx dt n rx ∨ c = .relayUpRx dt n rx) →
    (rx.blocks.isEmpty = true ∨ (s.advance dt).listens n = false → exec c s = .next (s.advance dt)) ∧
    ∀ its, (s.advance dt).brings n rx its →
      exec c s = .next (its.foldl (fun (v : State) it => v.rxItem n false it) ((s.advance dt).takenIn n rx))) ∧
  (∀ (n : Nat) (data : List Byte) (u v : State), 64 ≤ n → u.on (Reg.LANEn_STATUS_block_lock n) = true → u.laneUp n = true → u.inPair = true →
    Machine.packetOk data = true → v = (u.onLane n fun l => { l with notices := 0 }) →
    (pkType data = 0xE → u.dev = stCold → u.laneUp (laneOf (pkString data) (u.get Reg.PAIR_CFG_end)) = true →
      u.txAsleep (laneOf (pkString data) (u.get Reg.PAIR_CFG_end)) = false → ∃ (t : State) (p : List Byte) (line : List LaneBlock),
        u.rxItem n false (.packet data) = t ∧ t.out = u.out ++ [.lanePacket (laneOf (pkString data) (u.get Reg.PAIR_CFG_end)) p line] ∧
        t.tally = { u.tally with relays := (pkString data, n) :: u.tally.relays.filter fun r => r.1 != pkString data }) ∧
    (pkType data = 0xE → u.dev ≠ stCold → u.rxItem n false (.packet data) = v) ∧
    (pkType data = 0xF → u.held_ = true → u.rxItem n false (.packet data) =
      v.receive (pkString data) (1 - u.get Reg.PAIR_CFG_end) n ((data.drop 6).take (data.length - 10))) ∧
    (pkType data = 0xF → u.held_ = false → u.rxItem n false (.packet data) = v)) ∧
  (∀ dt (s : State), (s.deputyHalted = true → exec (.deputyHalt dt) s = .next (s.advance dt)) ∧
    (s.deputyHalted = false → s.dev ≠ stBoot → s.dev ≠ stDeep → Gives (exec (.deputyHalt dt) s) fun t => t.deputyHalted = true ∧
      t.rings.evtSeq = (s.rings.evtSeq + 1) % 65536 ∧
      t.tally = { s.tally with haltLine := if s.config = 0 then some (if s.streaming then (s.advance dt).refLine + 1 else 0) else s.tally.haltLine })) ∧
  (∀ dt (a : Fin 256) w r (s : State), s.powered 10 = true →
    [a.val / 8, planeResource (plPlane s.placementNow a)].findSome? s.waitingOn = some w → s.runningOn w.resource = some r →
    (s.holding a = true → exec (.doubleFault dt a) s = .next (s.advance dt)) ∧
    (s.holding a = false → s.served a = true → Gives (exec (.doubleFault dt a) s) fun t => (t.node a).held = true ∧
      (t.node a).recoveryHold = some w.resource ∧ t.on Reg.TALLY_STATUS_double_seen = true ∧ t.rings.evtSeq = (s.rings.evtSeq + 2) % 65536 ∧
      t.tally = s.tally))

/-- Winder channels: ticks, enable, ramps, choppers, faults, standstill, switches, and SSI scales. 18_winder_axes.md R458, 18_winder_axes.md R459, 18_winder_axes.md R468, 18_winder_axes.md R469, 18_winder_axes.md R470, 18_winder_axes.md R471, 18_winder_axes.md R472, 18_winder_axes.md R478, 18_winder_axes.md R479 -/
def Obligations.WinderChannels : Prop :=
  (∀ dt (s : State), (s.windWorks = false → exec (.winderTick dt) s = .next (s.advance dt)) ∧
    (s.windWorks = true → Gives (exec (.winderTick dt) s) fun t => ∀ n, n < 32 →
      ((s.windDriven n = false ∨ s.get (Reg.WCn_STATUS_state n) = 0 ∨ s.get (Reg.WCn_STATUS_state n) = 4) → (s.winder n).move = none → t.winder n = s.winder n) ∧
      (s.windDriven n = true → s.get (Reg.WCn_STATUS_state n) ≠ 0 → s.get (Reg.WCn_STATUS_state n) ≠ 4 → (s.winder n).move = none →
        (s.winder n).next = none → (t.winder n).pos = (s.winder n).pos ∧ (t.winder n).vel = 0 ∧ (t.winder n).move = none))) ∧
  (∀ dt (n : Fin 32) v (s : State), s.dev ≠ stBoot → s.domainOff (Reg.WCn_CFG_enable n).off = false →
    (s.on (Reg.WCn_CFG_enable n) = false → (s.writeWord (Reg.WCn_CFG_enable n).off v).on (Reg.WCn_CFG_enable n) = true →
      Gives (exec (.winderEnable dt n v) s) fun t => t.winder n = {} ∧ t.get (Reg.WCn_STATUS_state n) = 1 ∧ t.getI (Reg.WCn_POS n) = 0 ∧
        t.on (Reg.WCn_STATUS_homed n) = false ∧ (∀ m, m ≠ n.val → t.winder m = s.winder m)) ∧
    (s.on (Reg.WCn_CFG_enable n) = true → (s.writeWord (Reg.WCn_CFG_enable n).off v).on (Reg.WCn_CFG_enable n) = false →
      Gives (exec (.winderEnable dt n v) s) fun t => t.winder n = {} ∧ t.get (Reg.WCn_STATUS_state n) = 0)) ∧
  (∀ dt (n : Fin 32) decel v (s : State), ∀ off, off = (if decel then Reg.WCn_DECEL n else Reg.WCn_ACCEL n).off → s.dev ≠ stBoot → s.domainOff off = false →
    (∀ m, (s.winder n).move = some m → m.brake.isSome = true → decel = true → m.decel ≠ 0) → Gives (exec (.rampRegisterWrite dt n decel v) s) fun t =>
      t.reg off = (s.writeWord off v).reg off ∧ s.sameRegsBut t [off] ∧ t.wind = s.wind ∧ t.out = s.out) ∧
  (∀ dt (n : Fin 32) b (s : State), s.windWorks = true → s.chops n b = true →
    (exec (.chopperTrip dt n b (s.on (Reg.WCn_CHOP_trip_pol n))) s = .next (s.advance dt)) ∧
    (∀ l, l ≠ s.on (Reg.WCn_CHOP_trip_pol n) → ((s.winder n).phase b).off = false →
      (s.beat + dt < ((s.winder n).phase b).since + s.chopBlank n → exec (.chopperTrip dt n b l) s = .next (s.advance dt)) ∧
      (((s.winder n).phase b).since + s.chopBlank n < s.beat + dt → Gives (exec (.chopperTrip dt n b l) s) fun t =>
        ((t.winder n).phase b).off = true ∧ ((t.winder n).phase b).since = s.beat + dt ∧
        ((t.winder n).phase b).ocRun = 0 ∧ (t.winder n).phase (!b) = (s.winder n).phase (!b) ∧ t.regs = s.regs ∧ t.out = s.out) ∧
      (((s.winder n).phase b).since + s.chopBlank n = s.beat + dt → s.get (Reg.WCn_CFG_oc_cycles n) ≠ 0 →
        s.get (Reg.WCn_CFG_oc_cycles n) ≤ ((s.winder n).phase b).ocRun + 1 → Gives (exec (.chopperTrip dt n b l) s) fun t =>
          t.get (Reg.WCn_STATUS_state n) = 4 ∧ t.on (Reg.WCn_STATUS_overcurrent n) = true ∧
          (t.winder n).move = none ∧ (t.winder n).next = none ∧ (t.winder n).vel = 0)) ∧
    (((s.winder n).phase b).off = true → (∀ l, exec (.chopperTrip dt n b l) s = .next (s.advance dt)) ∧
      (((s.winder n).phase b).since + s.chopOff n ≤ s.beat + dt → Gives (exec (.chopperOffEnd dt n b) s) fun t =>
        ((t.winder n).phase b).off = false ∧ ((t.winder n).phase b).since = s.beat + dt ∧ t.regs = s.regs ∧ t.out = s.out))) ∧
  (∀ dt (n : Fin 32) (v : BitVec 32) (s : State), s.dev ≠ stBoot → s.domainOff (Reg.WCn_CTRL_clear_fault n).off = false →
    (v.getLsbD 0 = false → exec (.clearFault dt n v) s = .next (s.advance dt)) ∧
    (v.getLsbD 0 = true → s.get (Reg.WCn_STATUS_state n) = 4 → Gives (exec (.clearFault dt n v) s) fun t => t.get (Reg.WCn_STATUS_state n) = 1 ∧
      t.on (Reg.WCn_STATUS_homed n) = false ∧ (t.winder n).settled = true ∧ s.sameRegsBut t [(Reg.WCn_STATUS_state n).off])) ∧
  (∀ dt (n : Fin 32) (s : State), s.windWorks = true → ((s.winder n).endedAt = none → exec (.holdDelayExpire dt n) s = .next (s.advance dt)) ∧
    (∀ t0, (s.winder n).endedAt = some t0 → t0 + 1000000 * s.get (Reg.WCn_CURRENT_hold_delay_ms n) ≤ s.beat + dt →
      Gives (exec (.holdDelayExpire dt n) s) fun t => t.winder n = { s.winder n with endedAt := none, settled := true } ∧ t.regs = s.regs)) ∧
  (∀ dt (n : Fin 32) (sw : Fin 3) l (s : State), Gives (exec (.switchEdge dt n sw l) s) fun t => t.windSwitch n sw = { s.windSwitch n sw with level := l } ∧
    (∀ m k, k < 3 → (m, k) ≠ (n.val, sw.val) → t.windSwitch m k = s.windSwitch m k) ∧ t.wind.ch = s.wind.ch ∧ t.regs = s.regs ∧ t.out = s.out) ∧
  (∀ n sw (s : State) (x : WindSwitch), n < 32 → sw < 3 → x = s.windSwitch n sw → (s.winder n).move = none →
    (x.level = x.acc → (s.sampleSwitch n sw).windSwitch n sw = { x with run := 0 } ∧ (s.sampleSwitch n sw).regs = s.regs) ∧
    (x.level ≠ x.acc → s.get (Reg.WCn_SW_filter_us n) ≤ x.run → ((s.sampleSwitch n sw).windSwitch n sw).acc = x.level ∧
      (s.sampleSwitch n sw).on (switchFlag n sw) = (x.level != s.switchPol n sw) ∧
      s.sameRegsBut (s.sampleSwitch n sw) [(switchFlag n sw).off] ∧ (s.sampleSwitch n sw).wind.ch = s.wind.ch) ∧
    (x.level ≠ x.acc → x.run < s.get (Reg.WCn_SW_filter_us n) → ((s.sampleSwitch n sw).windSwitch n sw).run = x.run + 1 ∧
      ((s.sampleSwitch n sw).windSwitch n sw).acc = x.acc ∧ (s.sampleSwitch n sw).regs = s.regs ∧ (s.sampleSwitch n sw).wind.ch = s.wind.ch)) ∧
  (∀ dt (k : Fin 8) data low (s : State), s.windWorks = true →
    (s.on (Reg.SSIk_CFG_enable k) = false → ∀ ready, exec (.ssiRead dt k ready data low) s = .next (s.advance dt)) ∧
    ((s.advance dt).ssiDue k = false → ∀ ready, exec (.ssiRead dt k ready data low) s = .next (s.advance dt)) ∧
    (s.on (Reg.SSIk_CFG_enable k) = true → s.get (Reg.SSIk_CFG_clk k) ≤ 4 → (s.advance dt).ssiDue k = true →
      (Gives (exec (.ssiRead dt k false data low) s) fun t => (t.ssi k).failRun = min 3 ((s.ssi k).failRun + 1) ∧
        t.on (Reg.SSIk_STATUS_error_seen k) = true ∧ t.get (Reg.SSIk_RAW k) = s.get (Reg.SSIk_RAW k)) ∧
      (s.on (Reg.SSIk_CFG_err_bit k) = false → s.on (Reg.SSIk_CFG_check_en k) = false → ∀ v, v = ((List.range (s.ssiBits k)).map fun i => data.getD i false) →
        Gives (exec (.ssiRead dt k true data true) s) fun t => (t.ssi k).failRun = 0 ∧ t.on (Reg.SSIk_STATUS_valid k) = true ∧
          t.get (Reg.SSIk_RAW k) = ofBits (if s.on (Reg.SSIk_CFG_gray k) then grayBits v else v) % 2 ^ 32 ∧
          t.out = s.out ++ [.ssiBurst k (s.ssiBits k)])))
end

