-- ==== Sys2Proof/Laws/State.lean ====
section
/-! SUPPORT. What each updater of State changes and what it leaves: one lemma per field per updater. -/

namespace Sys2Proof.Machine

@[simp] theorem State.modPending_pending (s : State) (f : (List Instr) → (List Instr)) : (s.modPending f).pending = f s.pending := rfl
@[simp] theorem State.modPending_beat (s : State) (f : (List Instr) → (List Instr)) : (s.modPending f).beat = s.beat := rfl
@[simp] theorem State.modPending_regs (s : State) (f : (List Instr) → (List Instr)) : (s.modPending f).regs = s.regs := rfl
@[simp] theorem State.modPending_fresh (s : State) (f : (List Instr) → (List Instr)) : (s.modPending f).fresh = s.fresh := rfl
@[simp] theorem State.modPending_shadow (s : State) (f : (List Instr) → (List Instr)) : (s.modPending f).shadow = s.shadow := rfl
@[simp] theorem State.modPending_held (s : State) (f : (List Instr) → (List Instr)) : (s.modPending f).held = s.held := rfl
@[simp] theorem State.modPending_out (s : State) (f : (List Instr) → (List Instr)) : (s.modPending f).out = s.out := rfl
@[simp] theorem State.modPending_free (s : State) (f : (List Instr) → (List Instr)) : (s.modPending f).free = s.free := rfl
@[simp] theorem State.modPending_rings (s : State) (f : (List Instr) → (List Instr)) : (s.modPending f).rings = s.rings := rfl
@[simp] theorem State.modPending_power (s : State) (f : (List Instr) → (List Instr)) : (s.modPending f).power = s.power := rfl
@[simp] theorem State.modPending_time (s : State) (f : (List Instr) → (List Instr)) : (s.modPending f).time = s.time := rfl
@[simp] theorem State.modPending_inputs (s : State) (f : (List Instr) → (List Instr)) : (s.modPending f).inputs = s.inputs := rfl
@[simp] theorem State.modPending_obs (s : State) (f : (List Instr) → (List Instr)) : (s.modPending f).obs = s.obs := rfl
@[simp] theorem State.modPending_sched (s : State) (f : (List Instr) → (List Instr)) : (s.modPending f).sched = s.sched := rfl
@[simp] theorem State.modPending_raster (s : State) (f : (List Instr) → (List Instr)) : (s.modPending f).raster = s.raster := rfl
@[simp] theorem State.modPending_seam (s : State) (f : (List Instr) → (List Instr)) : (s.modPending f).seam = s.seam := rfl
@[simp] theorem State.modPending_link (s : State) (f : (List Instr) → (List Instr)) : (s.modPending f).link = s.link := rfl
@[simp] theorem State.modPending_care (s : State) (f : (List Instr) → (List Instr)) : (s.modPending f).care = s.care := rfl
@[simp] theorem State.modPending_assay (s : State) (f : (List Instr) → (List Instr)) : (s.modPending f).assay = s.assay := rfl
@[simp] theorem State.modPending_fm (s : State) (f : (List Instr) → (List Instr)) : (s.modPending f).fm = s.fm := rfl
@[simp] theorem State.modPending_store (s : State) (f : (List Instr) → (List Instr)) : (s.modPending f).store = s.store := rfl
@[simp] theorem State.modPending_mem (s : State) (f : (List Instr) → (List Instr)) : (s.modPending f).mem = s.mem := rfl
@[simp] theorem State.modPending_tally (s : State) (f : (List Instr) → (List Instr)) : (s.modPending f).tally = s.tally := rfl
@[simp] theorem State.modPending_wind (s : State) (f : (List Instr) → (List Instr)) : (s.modPending f).wind = s.wind := rfl
@[simp] theorem State.modBeat_pending (s : State) (f : Nat → Nat) : (s.modBeat f).pending = s.pending := rfl
@[simp] theorem State.modBeat_beat (s : State) (f : Nat → Nat) : (s.modBeat f).beat = f s.beat := rfl
@[simp] theorem State.modBeat_regs (s : State) (f : Nat → Nat) : (s.modBeat f).regs = s.regs := rfl
@[simp] theorem State.modBeat_fresh (s : State) (f : Nat → Nat) : (s.modBeat f).fresh = s.fresh := rfl
@[simp] theorem State.modBeat_shadow (s : State) (f : Nat → Nat) : (s.modBeat f).shadow = s.shadow := rfl
@[simp] theorem State.modBeat_held (s : State) (f : Nat → Nat) : (s.modBeat f).held = s.held := rfl
@[simp] theorem State.modBeat_out (s : State) (f : Nat → Nat) : (s.modBeat f).out = s.out := rfl
@[simp] theorem State.modBeat_free (s : State) (f : Nat → Nat) : (s.modBeat f).free = s.free := rfl
@[simp] theorem State.modBeat_rings (s : State) (f : Nat → Nat) : (s.modBeat f).rings = s.rings := rfl
@[simp] theorem State.modBeat_power (s : State) (f : Nat → Nat) : (s.modBeat f).power = s.power := rfl
@[simp] theorem State.modBeat_time (s : State) (f : Nat → Nat) : (s.modBeat f).time = s.time := rfl
@[simp] theorem State.modBeat_inputs (s : State) (f : Nat → Nat) : (s.modBeat f).inputs = s.inputs := rfl
@[simp] theorem State.modBeat_obs (s : State) (f : Nat → Nat) : (s.modBeat f).obs = s.obs := rfl
@[simp] theorem State.modBeat_sched (s : State) (f : Nat → Nat) : (s.modBeat f).sched = s.sched := rfl
@[simp] theorem State.modBeat_raster (s : State) (f : Nat → Nat) : (s.modBeat f).raster = s.raster := rfl
@[simp] theorem State.modBeat_seam (s : State) (f : Nat → Nat) : (s.modBeat f).seam = s.seam := rfl
@[simp] theorem State.modBeat_link (s : State) (f : Nat → Nat) : (s.modBeat f).link = s.link := rfl
@[simp] theorem State.modBeat_care (s : State) (f : Nat → Nat) : (s.modBeat f).care = s.care := rfl
@[simp] theorem State.modBeat_assay (s : State) (f : Nat → Nat) : (s.modBeat f).assay = s.assay := rfl
@[simp] theorem State.modBeat_fm (s : State) (f : Nat → Nat) : (s.modBeat f).fm = s.fm := rfl
@[simp] theorem State.modBeat_store (s : State) (f : Nat → Nat) : (s.modBeat f).store = s.store := rfl
@[simp] theorem State.modBeat_mem (s : State) (f : Nat → Nat) : (s.modBeat f).mem = s.mem := rfl
@[simp] theorem State.modBeat_tally (s : State) (f : Nat → Nat) : (s.modBeat f).tally = s.tally := rfl
@[simp] theorem State.modBeat_wind (s : State) (f : Nat → Nat) : (s.modBeat f).wind = s.wind := rfl
@[simp] theorem State.modRegs_pending (s : State) (f : (List (Nat × BitVec 32)) → (List (Nat × BitVec 32))) : (s.modRegs f).pending = s.pending := rfl
@[simp] theorem State.modRegs_beat (s : State) (f : (List (Nat × BitVec 32)) → (List (Nat × BitVec 32))) : (s.modRegs f).beat = s.beat := rfl
@[simp] theorem State.modRegs_regs (s : State) (f : (List (Nat × BitVec 32)) → (List (Nat × BitVec 32))) : (s.modRegs f).regs = f s.regs := rfl
@[simp] theorem State.modRegs_fresh (s : State) (f : (List (Nat × BitVec 32)) → (List (Nat × BitVec 32))) : (s.modRegs f).fresh = s.fresh := rfl
@[simp] theorem State.modRegs_shadow (s : State) (f : (List (Nat × BitVec 32)) → (List (Nat × BitVec 32))) : (s.modRegs f).shadow = s.shadow := rfl
@[simp] theorem State.modRegs_held (s : State) (f : (List (Nat × BitVec 32)) → (List (Nat × BitVec 32))) : (s.modRegs f).held = s.held := rfl
@[simp] theorem State.modRegs_out (s : State) (f : (List (Nat × BitVec 32)) → (List (Nat × BitVec 32))) : (s.modRegs f).out = s.out := rfl
@[simp] theorem State.modRegs_free (s : State) (f : (List (Nat × BitVec 32)) → (List (Nat × BitVec 32))) : (s.modRegs f).free = s.free := rfl
@[simp] theorem State.modRegs_rings (s : State) (f : (List (Nat × BitVec 32)) → (List (Nat × BitVec 32))) : (s.modRegs f).rings = s.rings := rfl
@[simp] theorem State.modRegs_power (s : State) (f : (List (Nat × BitVec 32)) → (List (Nat × BitVec 32))) : (s.modRegs f).power = s.power := rfl
@[simp] theorem State.modRegs_time (s : State) (f : (List (Nat × BitVec 32)) → (List (Nat × BitVec 32))) : (s.modRegs f).time = s.time := rfl
@[simp] theorem State.modRegs_inputs (s : State) (f : (List (Nat × BitVec 32)) → (List (Nat × BitVec 32))) : (s.modRegs f).inputs = s.inputs := rfl
@[simp] theorem State.modRegs_obs (s : State) (f : (List (Nat × BitVec 32)) → (List (Nat × BitVec 32))) : (s.modRegs f).obs = s.obs := rfl
@[simp] theorem State.modRegs_sched (s : State) (f : (List (Nat × BitVec 32)) → (List (Nat × BitVec 32))) : (s.modRegs f).sched = s.sched := rfl
@[simp] theorem State.modRegs_raster (s : State) (f : (List (Nat × BitVec 32)) → (List (Nat × BitVec 32))) : (s.modRegs f).raster = s.raster := rfl
@[simp] theorem State.modRegs_seam (s : State) (f : (List (Nat × BitVec 32)) → (List (Nat × BitVec 32))) : (s.modRegs f).seam = s.seam := rfl
@[simp] theorem State.modRegs_link (s : State) (f : (List (Nat × BitVec 32)) → (List (Nat × BitVec 32))) : (s.modRegs f).link = s.link := rfl
@[simp] theorem State.modRegs_care (s : State) (f : (List (Nat × BitVec 32)) → (List (Nat × BitVec 32))) : (s.modRegs f).care = s.care := rfl
@[simp] theorem State.modRegs_assay (s : State) (f : (List (Nat × BitVec 32)) → (List (Nat × BitVec 32))) : (s.modRegs f).assay = s.assay := rfl
@[simp] theorem State.modRegs_fm (s : State) (f : (List (Nat × BitVec 32)) → (List (Nat × BitVec 32))) : (s.modRegs f).fm = s.fm := rfl
@[simp] theorem State.modRegs_store (s : State) (f : (List (Nat × BitVec 32)) → (List (Nat × BitVec 32))) : (s.modRegs f).store = s.store := rfl
@[simp] theorem State.modRegs_mem (s : State) (f : (List (Nat × BitVec 32)) → (List (Nat × BitVec 32))) : (s.modRegs f).mem = s.mem := rfl
@[simp] theorem State.modRegs_tally (s : State) (f : (List (Nat × BitVec 32)) → (List (Nat × BitVec 32))) : (s.modRegs f).tally = s.tally := rfl
@[simp] theorem State.modRegs_wind (s : State) (f : (List (Nat × BitVec 32)) → (List (Nat × BitVec 32))) : (s.modRegs f).wind = s.wind := rfl
@[simp] theorem State.modFresh_pending (s : State) (f : (List (Nat × Nat)) → (List (Nat × Nat))) : (s.modFresh f).pending = s.pending := rfl
@[simp] theorem State.modFresh_beat (s : State) (f : (List (Nat × Nat)) → (List (Nat × Nat))) : (s.modFresh f).beat = s.beat := rfl
@[simp] theorem State.modFresh_regs (s : State) (f : (List (Nat × Nat)) → (List (Nat × Nat))) : (s.modFresh f).regs = s.regs := rfl
@[simp] theorem State.modFresh_fresh (s : State) (f : (List (Nat × Nat)) → (List (Nat × Nat))) : (s.modFresh f).fresh = f s.fresh := rfl
@[simp] theorem State.modFresh_shadow (s : State) (f : (List (Nat × Nat)) → (List (Nat × Nat))) : (s.modFresh f).shadow = s.shadow := rfl
@[simp] theorem State.modFresh_held (s : State) (f : (List (Nat × Nat)) → (List (Nat × Nat))) : (s.modFresh f).held = s.held := rfl
@[simp] theorem State.modFresh_out (s : State) (f : (List (Nat × Nat)) → (List (Nat × Nat))) : (s.modFresh f).out = s.out := rfl
@[simp] theorem State.modFresh_free (s : State) (f : (List (Nat × Nat)) → (List (Nat × Nat))) : (s.modFresh f).free = s.free := rfl
@[simp] theorem State.modFresh_rings (s : State) (f : (List (Nat × Nat)) → (List (Nat × Nat))) : (s.modFresh f).rings = s.rings := rfl
@[simp] theorem State.modFresh_power (s : State) (f : (List (Nat × Nat)) → (List (Nat × Nat))) : (s.modFresh f).power = s.power := rfl
@[simp] theorem State.modFresh_time (s : State) (f : (List (Nat × Nat)) → (List (Nat × Nat))) : (s.modFresh f).time = s.time := rfl
@[simp] theorem State.modFresh_inputs (s : State) (f : (List (Nat × Nat)) → (List (Nat × Nat))) : (s.modFresh f).inputs = s.inputs := rfl
@[simp] theorem State.modFresh_obs (s : State) (f : (List (Nat × Nat)) → (List (Nat × Nat))) : (s.modFresh f).obs = s.obs := rfl
@[simp] theorem State.modFresh_sched (s : State) (f : (List (Nat × Nat)) → (List (Nat × Nat))) : (s.modFresh f).sched = s.sched := rfl
@[simp] theorem State.modFresh_raster (s : State) (f : (List (Nat × Nat)) → (List (Nat × Nat))) : (s.modFresh f).raster = s.raster := rfl
@[simp] theorem State.modFresh_seam (s : State) (f : (List (Nat × Nat)) → (List (Nat × Nat))) : (s.modFresh f).seam = s.seam := rfl
@[simp] theorem State.modFresh_link (s : State) (f : (List (Nat × Nat)) → (List (Nat × Nat))) : (s.modFresh f).link = s.link := rfl
@[simp] theorem State.modFresh_care (s : State) (f : (List (Nat × Nat)) → (List (Nat × Nat))) : (s.modFresh f).care = s.care := rfl
@[simp] theorem State.modFresh_assay (s : State) (f : (List (Nat × Nat)) → (List (Nat × Nat))) : (s.modFresh f).assay = s.assay := rfl
@[simp] theorem State.modFresh_fm (s : State) (f : (List (Nat × Nat)) → (List (Nat × Nat))) : (s.modFresh f).fm = s.fm := rfl
@[simp] theorem State.modFresh_store (s : State) (f : (List (Nat × Nat)) → (List (Nat × Nat))) : (s.modFresh f).store = s.store := rfl
@[simp] theorem State.modFresh_mem (s : State) (f : (List (Nat × Nat)) → (List (Nat × Nat))) : (s.modFresh f).mem = s.mem := rfl
@[simp] theorem State.modFresh_tally (s : State) (f : (List (Nat × Nat)) → (List (Nat × Nat))) : (s.modFresh f).tally = s.tally := rfl
@[simp] theorem State.modFresh_wind (s : State) (f : (List (Nat × Nat)) → (List (Nat × Nat))) : (s.modFresh f).wind = s.wind := rfl
@[simp] theorem State.modShadow_pending (s : State) (f : (List (Nat × BitVec 32)) → (List (Nat × BitVec 32))) : (s.modShadow f).pending = s.pending := rfl
@[simp] theorem State.modShadow_beat (s : State) (f : (List (Nat × BitVec 32)) → (List (Nat × BitVec 32))) : (s.modShadow f).beat = s.beat := rfl
@[simp] theorem State.modShadow_regs (s : State) (f : (List (Nat × BitVec 32)) → (List (Nat × BitVec 32))) : (s.modShadow f).regs = s.regs := rfl
@[simp] theorem State.modShadow_fresh (s : State) (f : (List (Nat × BitVec 32)) → (List (Nat × BitVec 32))) : (s.modShadow f).fresh = s.fresh := rfl
@[simp] theorem State.modShadow_shadow (s : State) (f : (List (Nat × BitVec 32)) → (List (Nat × BitVec 32))) : (s.modShadow f).shadow = f s.shadow := rfl
@[simp] theorem State.modShadow_held (s : State) (f : (List (Nat × BitVec 32)) → (List (Nat × BitVec 32))) : (s.modShadow f).held = s.held := rfl
@[simp] theorem State.modShadow_out (s : State) (f : (List (Nat × BitVec 32)) → (List (Nat × BitVec 32))) : (s.modShadow f).out = s.out := rfl
@[simp] theorem State.modShadow_free (s : State) (f : (List (Nat × BitVec 32)) → (List (Nat × BitVec 32))) : (s.modShadow f).free = s.free := rfl
@[simp] theorem State.modShadow_rings (s : State) (f : (List (Nat × BitVec 32)) → (List (Nat × BitVec 32))) : (s.modShadow f).rings = s.rings := rfl
@[simp] theorem State.modShadow_power (s : State) (f : (List (Nat × BitVec 32)) → (List (Nat × BitVec 32))) : (s.modShadow f).power = s.power := rfl
@[simp] theorem State.modShadow_time (s : State) (f : (List (Nat × BitVec 32)) → (List (Nat × BitVec 32))) : (s.modShadow f).time = s.time := rfl
@[simp] theorem State.modShadow_inputs (s : State) (f : (List (Nat × BitVec 32)) → (List (Nat × BitVec 32))) : (s.modShadow f).inputs = s.inputs := rfl
@[simp] theorem State.modShadow_obs (s : State) (f : (List (Nat × BitVec 32)) → (List (Nat × BitVec 32))) : (s.modShadow f).obs = s.obs := rfl
@[simp] theorem State.modShadow_sched (s : State) (f : (List (Nat × BitVec 32)) → (List (Nat × BitVec 32))) : (s.modShadow f).sched = s.sched := rfl
@[simp] theorem State.modShadow_raster (s : State) (f : (List (Nat × BitVec 32)) → (List (Nat × BitVec 32))) : (s.modShadow f).raster = s.raster := rfl
@[simp] theorem State.modShadow_seam (s : State) (f : (List (Nat × BitVec 32)) → (List (Nat × BitVec 32))) : (s.modShadow f).seam = s.seam := rfl
@[simp] theorem State.modShadow_link (s : State) (f : (List (Nat × BitVec 32)) → (List (Nat × BitVec 32))) : (s.modShadow f).link = s.link := rfl
@[simp] theorem State.modShadow_care (s : State) (f : (List (Nat × BitVec 32)) → (List (Nat × BitVec 32))) : (s.modShadow f).care = s.care := rfl
@[simp] theorem State.modShadow_assay (s : State) (f : (List (Nat × BitVec 32)) → (List (Nat × BitVec 32))) : (s.modShadow f).assay = s.assay := rfl
@[simp] theorem State.modShadow_fm (s : State) (f : (List (Nat × BitVec 32)) → (List (Nat × BitVec 32))) : (s.modShadow f).fm = s.fm := rfl
@[simp] theorem State.modShadow_store (s : State) (f : (List (Nat × BitVec 32)) → (List (Nat × BitVec 32))) : (s.modShadow f).store = s.store := rfl
@[simp] theorem State.modShadow_mem (s : State) (f : (List (Nat × BitVec 32)) → (List (Nat × BitVec 32))) : (s.modShadow f).mem = s.mem := rfl
@[simp] theorem State.modShadow_tally (s : State) (f : (List (Nat × BitVec 32)) → (List (Nat × BitVec 32))) : (s.modShadow f).tally = s.tally := rfl
@[simp] theorem State.modShadow_wind (s : State) (f : (List (Nat × BitVec 32)) → (List (Nat × BitVec 32))) : (s.modShadow f).wind = s.wind := rfl
@[simp] theorem State.modHeld_pending (s : State) (f : (List (Nat × BitVec 32)) → (List (Nat × BitVec 32))) : (s.modHeld f).pending = s.pending := rfl
@[simp] theorem State.modHeld_beat (s : State) (f : (List (Nat × BitVec 32)) → (List (Nat × BitVec 32))) : (s.modHeld f).beat = s.beat := rfl
@[simp] theorem State.modHeld_regs (s : State) (f : (List (Nat × BitVec 32)) → (List (Nat × BitVec 32))) : (s.modHeld f).regs = s.regs := rfl
@[simp] theorem State.modHeld_fresh (s : State) (f : (List (Nat × BitVec 32)) → (List (Nat × BitVec 32))) : (s.modHeld f).fresh = s.fresh := rfl
@[simp] theorem State.modHeld_shadow (s : State) (f : (List (Nat × BitVec 32)) → (List (Nat × BitVec 32))) : (s.modHeld f).shadow = s.shadow := rfl
@[simp] theorem State.modHeld_held (s : State) (f : (List (Nat × BitVec 32)) → (List (Nat × BitVec 32))) : (s.modHeld f).held = f s.held := rfl
@[simp] theorem State.modHeld_out (s : State) (f : (List (Nat × BitVec 32)) → (List (Nat × BitVec 32))) : (s.modHeld f).out = s.out := rfl
@[simp] theorem State.modHeld_free (s : State) (f : (List (Nat × BitVec 32)) → (List (Nat × BitVec 32))) : (s.modHeld f).free = s.free := rfl
@[simp] theorem State.modHeld_rings (s : State) (f : (List (Nat × BitVec 32)) → (List (Nat × BitVec 32))) : (s.modHeld f).rings = s.rings := rfl
@[simp] theorem State.modHeld_power (s : State) (f : (List (Nat × BitVec 32)) → (List (Nat × BitVec 32))) : (s.modHeld f).power = s.power := rfl
@[simp] theorem State.modHeld_time (s : State) (f : (List (Nat × BitVec 32)) → (List (Nat × BitVec 32))) : (s.modHeld f).time = s.time := rfl
@[simp] theorem State.modHeld_inputs (s : State) (f : (List (Nat × BitVec 32)) → (List (Nat × BitVec 32))) : (s.modHeld f).inputs = s.inputs := rfl
@[simp] theorem State.modHeld_obs (s : State) (f : (List (Nat × BitVec 32)) → (List (Nat × BitVec 32))) : (s.modHeld f).obs = s.obs := rfl
@[simp] theorem State.modHeld_sched (s : State) (f : (List (Nat × BitVec 32)) → (List (Nat × BitVec 32))) : (s.modHeld f).sched = s.sched := rfl
@[simp] theorem State.modHeld_raster (s : State) (f : (List (Nat × BitVec 32)) → (List (Nat × BitVec 32))) : (s.modHeld f).raster = s.raster := rfl
@[simp] theorem State.modHeld_seam (s : State) (f : (List (Nat × BitVec 32)) → (List (Nat × BitVec 32))) : (s.modHeld f).seam = s.seam := rfl
@[simp] theorem State.modHeld_link (s : State) (f : (List (Nat × BitVec 32)) → (List (Nat × BitVec 32))) : (s.modHeld f).link = s.link := rfl
@[simp] theorem State.modHeld_care (s : State) (f : (List (Nat × BitVec 32)) → (List (Nat × BitVec 32))) : (s.modHeld f).care = s.care := rfl
@[simp] theorem State.modHeld_assay (s : State) (f : (List (Nat × BitVec 32)) → (List (Nat × BitVec 32))) : (s.modHeld f).assay = s.assay := rfl
@[simp] theorem State.modHeld_fm (s : State) (f : (List (Nat × BitVec 32)) → (List (Nat × BitVec 32))) : (s.modHeld f).fm = s.fm := rfl
@[simp] theorem State.modHeld_store (s : State) (f : (List (Nat × BitVec 32)) → (List (Nat × BitVec 32))) : (s.modHeld f).store = s.store := rfl
@[simp] theorem State.modHeld_mem (s : State) (f : (List (Nat × BitVec 32)) → (List (Nat × BitVec 32))) : (s.modHeld f).mem = s.mem := rfl
@[simp] theorem State.modHeld_tally (s : State) (f : (List (Nat × BitVec 32)) → (List (Nat × BitVec 32))) : (s.modHeld f).tally = s.tally := rfl
@[simp] theorem State.modHeld_wind (s : State) (f : (List (Nat × BitVec 32)) → (List (Nat × BitVec 32))) : (s.modHeld f).wind = s.wind := rfl
@[simp] theorem State.modOut_pending (s : State) (f : (List Output) → (List Output)) : (s.modOut f).pending = s.pending := rfl
@[simp] theorem State.modOut_beat (s : State) (f : (List Output) → (List Output)) : (s.modOut f).beat = s.beat := rfl
@[simp] theorem State.modOut_regs (s : State) (f : (List Output) → (List Output)) : (s.modOut f).regs = s.regs := rfl
@[simp] theorem State.modOut_fresh (s : State) (f : (List Output) → (List Output)) : (s.modOut f).fresh = s.fresh := rfl
@[simp] theorem State.modOut_shadow (s : State) (f : (List Output) → (List Output)) : (s.modOut f).shadow = s.shadow := rfl
@[simp] theorem State.modOut_held (s : State) (f : (List Output) → (List Output)) : (s.modOut f).held = s.held := rfl
@[simp] theorem State.modOut_out (s : State) (f : (List Output) → (List Output)) : (s.modOut f).out = f s.out := rfl
@[simp] theorem State.modOut_free (s : State) (f : (List Output) → (List Output)) : (s.modOut f).free = s.free := rfl
@[simp] theorem State.modOut_rings (s : State) (f : (List Output) → (List Output)) : (s.modOut f).rings = s.rings := rfl
@[simp] theorem State.modOut_power (s : State) (f : (List Output) → (List Output)) : (s.modOut f).power = s.power := rfl
@[simp] theorem State.modOut_time (s : State) (f : (List Output) → (List Output)) : (s.modOut f).time = s.time := rfl
@[simp] theorem State.modOut_inputs (s : State) (f : (List Output) → (List Output)) : (s.modOut f).inputs = s.inputs := rfl
@[simp] theorem State.modOut_obs (s : State) (f : (List Output) → (List Output)) : (s.modOut f).obs = s.obs := rfl
@[simp] theorem State.modOut_sched (s : State) (f : (List Output) → (List Output)) : (s.modOut f).sched = s.sched := rfl
@[simp] theorem State.modOut_raster (s : State) (f : (List Output) → (List Output)) : (s.modOut f).raster = s.raster := rfl
@[simp] theorem State.modOut_seam (s : State) (f : (List Output) → (List Output)) : (s.modOut f).seam = s.seam := rfl
@[simp] theorem State.modOut_link (s : State) (f : (List Output) → (List Output)) : (s.modOut f).link = s.link := rfl
@[simp] theorem State.modOut_care (s : State) (f : (List Output) → (List Output)) : (s.modOut f).care = s.care := rfl
@[simp] theorem State.modOut_assay (s : State) (f : (List Output) → (List Output)) : (s.modOut f).assay = s.assay := rfl
@[simp] theorem State.modOut_fm (s : State) (f : (List Output) → (List Output)) : (s.modOut f).fm = s.fm := rfl
@[simp] theorem State.modOut_store (s : State) (f : (List Output) → (List Output)) : (s.modOut f).store = s.store := rfl
@[simp] theorem State.modOut_mem (s : State) (f : (List Output) → (List Output)) : (s.modOut f).mem = s.mem := rfl
@[simp] theorem State.modOut_tally (s : State) (f : (List Output) → (List Output)) : (s.modOut f).tally = s.tally := rfl
@[simp] theorem State.modOut_wind (s : State) (f : (List Output) → (List Output)) : (s.modOut f).wind = s.wind := rfl
@[simp] theorem State.modFree_pending (s : State) (f : Nat → Nat) : (s.modFree f).pending = s.pending := rfl
@[simp] theorem State.modFree_beat (s : State) (f : Nat → Nat) : (s.modFree f).beat = s.beat := rfl
@[simp] theorem State.modFree_regs (s : State) (f : Nat → Nat) : (s.modFree f).regs = s.regs := rfl
@[simp] theorem State.modFree_fresh (s : State) (f : Nat → Nat) : (s.modFree f).fresh = s.fresh := rfl
@[simp] theorem State.modFree_shadow (s : State) (f : Nat → Nat) : (s.modFree f).shadow = s.shadow := rfl
@[simp] theorem State.modFree_held (s : State) (f : Nat → Nat) : (s.modFree f).held = s.held := rfl
@[simp] theorem State.modFree_out (s : State) (f : Nat → Nat) : (s.modFree f).out = s.out := rfl
@[simp] theorem State.modFree_free (s : State) (f : Nat → Nat) : (s.modFree f).free = f s.free := rfl
@[simp] theorem State.modFree_rings (s : State) (f : Nat → Nat) : (s.modFree f).rings = s.rings := rfl
@[simp] theorem State.modFree_power (s : State) (f : Nat → Nat) : (s.modFree f).power = s.power := rfl
@[simp] theorem State.modFree_time (s : State) (f : Nat → Nat) : (s.modFree f).time = s.time := rfl
@[simp] theorem State.modFree_inputs (s : State) (f : Nat → Nat) : (s.modFree f).inputs = s.inputs := rfl
@[simp] theorem State.modFree_obs (s : State) (f : Nat → Nat) : (s.modFree f).obs = s.obs := rfl
@[simp] theorem State.modFree_sched (s : State) (f : Nat → Nat) : (s.modFree f).sched = s.sched := rfl
@[simp] theorem State.modFree_raster (s : State) (f : Nat → Nat) : (s.modFree f).raster = s.raster := rfl
@[simp] theorem State.modFree_seam (s : State) (f : Nat → Nat) : (s.modFree f).seam = s.seam := rfl
@[simp] theorem State.modFree_link (s : State) (f : Nat → Nat) : (s.modFree f).link = s.link := rfl
@[simp] theorem State.modFree_care (s : State) (f : Nat → Nat) : (s.modFree f).care = s.care := rfl
@[simp] theorem State.modFree_assay (s : State) (f : Nat → Nat) : (s.modFree f).assay = s.assay := rfl
@[simp] theorem State.modFree_fm (s : State) (f : Nat → Nat) : (s.modFree f).fm = s.fm := rfl
@[simp] theorem State.modFree_store (s : State) (f : Nat → Nat) : (s.modFree f).store = s.store := rfl
@[simp] theorem State.modFree_mem (s : State) (f : Nat → Nat) : (s.modFree f).mem = s.mem := rfl
@[simp] theorem State.modFree_tally (s : State) (f : Nat → Nat) : (s.modFree f).tally = s.tally := rfl
@[simp] theorem State.modFree_wind (s : State) (f : Nat → Nat) : (s.modFree f).wind = s.wind := rfl
@[simp] theorem State.modRings_pending (s : State) (f : Rings → Rings) : (s.modRings f).pending = s.pending := rfl
@[simp] theorem State.modRings_beat (s : State) (f : Rings → Rings) : (s.modRings f).beat = s.beat := rfl
@[simp] theorem State.modRings_regs (s : State) (f : Rings → Rings) : (s.modRings f).regs = s.regs := rfl
@[simp] theorem State.modRings_fresh (s : State) (f : Rings → Rings) : (s.modRings f).fresh = s.fresh := rfl
@[simp] theorem State.modRings_shadow (s : State) (f : Rings → Rings) : (s.modRings f).shadow = s.shadow := rfl
@[simp] theorem State.modRings_held (s : State) (f : Rings → Rings) : (s.modRings f).held = s.held := rfl
@[simp] theorem State.modRings_out (s : State) (f : Rings → Rings) : (s.modRings f).out = s.out := rfl
@[simp] theorem State.modRings_free (s : State) (f : Rings → Rings) : (s.modRings f).free = s.free := rfl
@[simp] theorem State.modRings_rings (s : State) (f : Rings → Rings) : (s.modRings f).rings = f s.rings := rfl
@[simp] theorem State.modRings_power (s : State) (f : Rings → Rings) : (s.modRings f).power = s.power := rfl
@[simp] theorem State.modRings_time (s : State) (f : Rings → Rings) : (s.modRings f).time = s.time := rfl
@[simp] theorem State.modRings_inputs (s : State) (f : Rings → Rings) : (s.modRings f).inputs = s.inputs := rfl
@[simp] theorem State.modRings_obs (s : State) (f : Rings → Rings) : (s.modRings f).obs = s.obs := rfl
@[simp] theorem State.modRings_sched (s : State) (f : Rings → Rings) : (s.modRings f).sched = s.sched := rfl
@[simp] theorem State.modRings_raster (s : State) (f : Rings → Rings) : (s.modRings f).raster = s.raster := rfl
@[simp] theorem State.modRings_seam (s : State) (f : Rings → Rings) : (s.modRings f).seam = s.seam := rfl
@[simp] theorem State.modRings_link (s : State) (f : Rings → Rings) : (s.modRings f).link = s.link := rfl
@[simp] theorem State.modRings_care (s : State) (f : Rings → Rings) : (s.modRings f).care = s.care := rfl
@[simp] theorem State.modRings_assay (s : State) (f : Rings → Rings) : (s.modRings f).assay = s.assay := rfl
@[simp] theorem State.modRings_fm (s : State) (f : Rings → Rings) : (s.modRings f).fm = s.fm := rfl
@[simp] theorem State.modRings_store (s : State) (f : Rings → Rings) : (s.modRings f).store = s.store := rfl
@[simp] theorem State.modRings_mem (s : State) (f : Rings → Rings) : (s.modRings f).mem = s.mem := rfl
@[simp] theorem State.modRings_tally (s : State) (f : Rings → Rings) : (s.modRings f).tally = s.tally := rfl
@[simp] theorem State.modRings_wind (s : State) (f : Rings → Rings) : (s.modRings f).wind = s.wind := rfl
@[simp] theorem State.modPower_pending (s : State) (f : Power → Power) : (s.modPower f).pending = s.pending := rfl
@[simp] theorem State.modPower_beat (s : State) (f : Power → Power) : (s.modPower f).beat = s.beat := rfl
@[simp] theorem State.modPower_regs (s : State) (f : Power → Power) : (s.modPower f).regs = s.regs := rfl
@[simp] theorem State.modPower_fresh (s : State) (f : Power → Power) : (s.modPower f).fresh = s.fresh := rfl
@[simp] theorem State.modPower_shadow (s : State) (f : Power → Power) : (s.modPower f).shadow = s.shadow := rfl
@[simp] theorem State.modPower_held (s : State) (f : Power → Power) : (s.modPower f).held = s.held := rfl
@[simp] theorem State.modPower_out (s : State) (f : Power → Power) : (s.modPower f).out = s.out := rfl
@[simp] theorem State.modPower_free (s : State) (f : Power → Power) : (s.modPower f).free = s.free := rfl
@[simp] theorem State.modPower_rings (s : State) (f : Power → Power) : (s.modPower f).rings = s.rings := rfl
@[simp] theorem State.modPower_power (s : State) (f : Power → Power) : (s.modPower f).power = f s.power := rfl
@[simp] theorem State.modPower_time (s : State) (f : Power → Power) : (s.modPower f).time = s.time := rfl
@[simp] theorem State.modPower_inputs (s : State) (f : Power → Power) : (s.modPower f).inputs = s.inputs := rfl
@[simp] theorem State.modPower_obs (s : State) (f : Power → Power) : (s.modPower f).obs = s.obs := rfl
@[simp] theorem State.modPower_sched (s : State) (f : Power → Power) : (s.modPower f).sched = s.sched := rfl
@[simp] theorem State.modPower_raster (s : State) (f : Power → Power) : (s.modPower f).raster = s.raster := rfl
@[simp] theorem State.modPower_seam (s : State) (f : Power → Power) : (s.modPower f).seam = s.seam := rfl
@[simp] theorem State.modPower_link (s : State) (f : Power → Power) : (s.modPower f).link = s.link := rfl
@[simp] theorem State.modPower_care (s : State) (f : Power → Power) : (s.modPower f).care = s.care := rfl
@[simp] theorem State.modPower_assay (s : State) (f : Power → Power) : (s.modPower f).assay = s.assay := rfl
@[simp] theorem State.modPower_fm (s : State) (f : Power → Power) : (s.modPower f).fm = s.fm := rfl
@[simp] theorem State.modPower_store (s : State) (f : Power → Power) : (s.modPower f).store = s.store := rfl
@[simp] theorem State.modPower_mem (s : State) (f : Power → Power) : (s.modPower f).mem = s.mem := rfl
@[simp] theorem State.modPower_tally (s : State) (f : Power → Power) : (s.modPower f).tally = s.tally := rfl
@[simp] theorem State.modPower_wind (s : State) (f : Power → Power) : (s.modPower f).wind = s.wind := rfl
@[simp] theorem State.modTime_pending (s : State) (f : Time → Time) : (s.modTime f).pending = s.pending := rfl
@[simp] theorem State.modTime_beat (s : State) (f : Time → Time) : (s.modTime f).beat = s.beat := rfl
@[simp] theorem State.modTime_regs (s : State) (f : Time → Time) : (s.modTime f).regs = s.regs := rfl
@[simp] theorem State.modTime_fresh (s : State) (f : Time → Time) : (s.modTime f).fresh = s.fresh := rfl
@[simp] theorem State.modTime_shadow (s : State) (f : Time → Time) : (s.modTime f).shadow = s.shadow := rfl
@[simp] theorem State.modTime_held (s : State) (f : Time → Time) : (s.modTime f).held = s.held := rfl
@[simp] theorem State.modTime_out (s : State) (f : Time → Time) : (s.modTime f).out = s.out := rfl
@[simp] theorem State.modTime_free (s : State) (f : Time → Time) : (s.modTime f).free = s.free := rfl
@[simp] theorem State.modTime_rings (s : State) (f : Time → Time) : (s.modTime f).rings = s.rings := rfl
@[simp] theorem State.modTime_power (s : State) (f : Time → Time) : (s.modTime f).power = s.power := rfl
@[simp] theorem State.modTime_time (s : State) (f : Time → Time) : (s.modTime f).time = f s.time := rfl
@[simp] theorem State.modTime_inputs (s : State) (f : Time → Time) : (s.modTime f).inputs = s.inputs := rfl
@[simp] theorem State.modTime_obs (s : State) (f : Time → Time) : (s.modTime f).obs = s.obs := rfl
@[simp] theorem State.modTime_sched (s : State) (f : Time → Time) : (s.modTime f).sched = s.sched := rfl
@[simp] theorem State.modTime_raster (s : State) (f : Time → Time) : (s.modTime f).raster = s.raster := rfl
@[simp] theorem State.modTime_seam (s : State) (f : Time → Time) : (s.modTime f).seam = s.seam := rfl
@[simp] theorem State.modTime_link (s : State) (f : Time → Time) : (s.modTime f).link = s.link := rfl
@[simp] theorem State.modTime_care (s : State) (f : Time → Time) : (s.modTime f).care = s.care := rfl
@[simp] theorem State.modTime_assay (s : State) (f : Time → Time) : (s.modTime f).assay = s.assay := rfl
@[simp] theorem State.modTime_fm (s : State) (f : Time → Time) : (s.modTime f).fm = s.fm := rfl
@[simp] theorem State.modTime_store (s : State) (f : Time → Time) : (s.modTime f).store = s.store := rfl
@[simp] theorem State.modTime_mem (s : State) (f : Time → Time) : (s.modTime f).mem = s.mem := rfl
@[simp] theorem State.modTime_tally (s : State) (f : Time → Time) : (s.modTime f).tally = s.tally := rfl
@[simp] theorem State.modTime_wind (s : State) (f : Time → Time) : (s.modTime f).wind = s.wind := rfl
@[simp] theorem State.modInputs_pending (s : State) (f : Inputs → Inputs) : (s.modInputs f).pending = s.pending := rfl
@[simp] theorem State.modInputs_beat (s : State) (f : Inputs → Inputs) : (s.modInputs f).beat = s.beat := rfl
@[simp] theorem State.modInputs_regs (s : State) (f : Inputs → Inputs) : (s.modInputs f).regs = s.regs := rfl
@[simp] theorem State.modInputs_fresh (s : State) (f : Inputs → Inputs) : (s.modInputs f).fresh = s.fresh := rfl
@[simp] theorem State.modInputs_shadow (s : State) (f : Inputs → Inputs) : (s.modInputs f).shadow = s.shadow := rfl
@[simp] theorem State.modInputs_held (s : State) (f : Inputs → Inputs) : (s.modInputs f).held = s.held := rfl
@[simp] theorem State.modInputs_out (s : State) (f : Inputs → Inputs) : (s.modInputs f).out = s.out := rfl
@[simp] theorem State.modInputs_free (s : State) (f : Inputs → Inputs) : (s.modInputs f).free = s.free := rfl
@[simp] theorem State.modInputs_rings (s : State) (f : Inputs → Inputs) : (s.modInputs f).rings = s.rings := rfl
@[simp] theorem State.modInputs_power (s : State) (f : Inputs → Inputs) : (s.modInputs f).power = s.power := rfl
@[simp] theorem State.modInputs_time (s : State) (f : Inputs → Inputs) : (s.modInputs f).time = s.time := rfl
@[simp] theorem State.modInputs_inputs (s : State) (f : Inputs → Inputs) : (s.modInputs f).inputs = f s.inputs := rfl
@[simp] theorem State.modInputs_obs (s : State) (f : Inputs → Inputs) : (s.modInputs f).obs = s.obs := rfl
@[simp] theorem State.modInputs_sched (s : State) (f : Inputs → Inputs) : (s.modInputs f).sched = s.sched := rfl
@[simp] theorem State.modInputs_raster (s : State) (f : Inputs → Inputs) : (s.modInputs f).raster = s.raster := rfl
@[simp] theorem State.modInputs_seam (s : State) (f : Inputs → Inputs) : (s.modInputs f).seam = s.seam := rfl
@[simp] theorem State.modInputs_link (s : State) (f : Inputs → Inputs) : (s.modInputs f).link = s.link := rfl
@[simp] theorem State.modInputs_care (s : State) (f : Inputs → Inputs) : (s.modInputs f).care = s.care := rfl
@[simp] theorem State.modInputs_assay (s : State) (f : Inputs → Inputs) : (s.modInputs f).assay = s.assay := rfl
@[simp] theorem State.modInputs_fm (s : State) (f : Inputs → Inputs) : (s.modInputs f).fm = s.fm := rfl
@[simp] theorem State.modInputs_store (s : State) (f : Inputs → Inputs) : (s.modInputs f).store = s.store := rfl
@[simp] theorem State.modInputs_mem (s : State) (f : Inputs → Inputs) : (s.modInputs f).mem = s.mem := rfl
@[simp] theorem State.modInputs_tally (s : State) (f : Inputs → Inputs) : (s.modInputs f).tally = s.tally := rfl
@[simp] theorem State.modInputs_wind (s : State) (f : Inputs → Inputs) : (s.modInputs f).wind = s.wind := rfl
@[simp] theorem State.modObs_pending (s : State) (f : Observer → Observer) : (s.modObs f).pending = s.pending := rfl
@[simp] theorem State.modObs_beat (s : State) (f : Observer → Observer) : (s.modObs f).beat = s.beat := rfl
@[simp] theorem State.modObs_regs (s : State) (f : Observer → Observer) : (s.modObs f).regs = s.regs := rfl
@[simp] theorem State.modObs_fresh (s : State) (f : Observer → Observer) : (s.modObs f).fresh = s.fresh := rfl
@[simp] theorem State.modObs_shadow (s : State) (f : Observer → Observer) : (s.modObs f).shadow = s.shadow := rfl
@[simp] theorem State.modObs_held (s : State) (f : Observer → Observer) : (s.modObs f).held = s.held := rfl
@[simp] theorem State.modObs_out (s : State) (f : Observer → Observer) : (s.modObs f).out = s.out := rfl
@[simp] theorem State.modObs_free (s : State) (f : Observer → Observer) : (s.modObs f).free = s.free := rfl
@[simp] theorem State.modObs_rings (s : State) (f : Observer → Observer) : (s.modObs f).rings = s.rings := rfl
@[simp] theorem State.modObs_power (s : State) (f : Observer → Observer) : (s.modObs f).power = s.power := rfl
@[simp] theorem State.modObs_time (s : State) (f : Observer → Observer) : (s.modObs f).time = s.time := rfl
@[simp] theorem State.modObs_inputs (s : State) (f : Observer → Observer) : (s.modObs f).inputs = s.inputs := rfl
@[simp] theorem State.modObs_obs (s : State) (f : Observer → Observer) : (s.modObs f).obs = f s.obs := rfl
@[simp] theorem State.modObs_sched (s : State) (f : Observer → Observer) : (s.modObs f).sched = s.sched := rfl
@[simp] theorem State.modObs_raster (s : State) (f : Observer → Observer) : (s.modObs f).raster = s.raster := rfl
@[simp] theorem State.modObs_seam (s : State) (f : Observer → Observer) : (s.modObs f).seam = s.seam := rfl
@[simp] theorem State.modObs_link (s : State) (f : Observer → Observer) : (s.modObs f).link = s.link := rfl
@[simp] theorem State.modObs_care (s : State) (f : Observer → Observer) : (s.modObs f).care = s.care := rfl
@[simp] theorem State.modObs_assay (s : State) (f : Observer → Observer) : (s.modObs f).assay = s.assay := rfl
@[simp] theorem State.modObs_fm (s : State) (f : Observer → Observer) : (s.modObs f).fm = s.fm := rfl
@[simp] theorem State.modObs_store (s : State) (f : Observer → Observer) : (s.modObs f).store = s.store := rfl
@[simp] theorem State.modObs_mem (s : State) (f : Observer → Observer) : (s.modObs f).mem = s.mem := rfl
@[simp] theorem State.modObs_tally (s : State) (f : Observer → Observer) : (s.modObs f).tally = s.tally := rfl
@[simp] theorem State.modObs_wind (s : State) (f : Observer → Observer) : (s.modObs f).wind = s.wind := rfl
@[simp] theorem State.modSched_pending (s : State) (f : Sched → Sched) : (s.modSched f).pending = s.pending := rfl
@[simp] theorem State.modSched_beat (s : State) (f : Sched → Sched) : (s.modSched f).beat = s.beat := rfl
@[simp] theorem State.modSched_regs (s : State) (f : Sched → Sched) : (s.modSched f).regs = s.regs := rfl
@[simp] theorem State.modSched_fresh (s : State) (f : Sched → Sched) : (s.modSched f).fresh = s.fresh := rfl
@[simp] theorem State.modSched_shadow (s : State) (f : Sched → Sched) : (s.modSched f).shadow = s.shadow := rfl
@[simp] theorem State.modSched_held (s : State) (f : Sched → Sched) : (s.modSched f).held = s.held := rfl
@[simp] theorem State.modSched_out (s : State) (f : Sched → Sched) : (s.modSched f).out = s.out := rfl
@[simp] theorem State.modSched_free (s : State) (f : Sched → Sched) : (s.modSched f).free = s.free := rfl
@[simp] theorem State.modSched_rings (s : State) (f : Sched → Sched) : (s.modSched f).rings = s.rings := rfl
@[simp] theorem State.modSched_power (s : State) (f : Sched → Sched) : (s.modSched f).power = s.power := rfl
@[simp] theorem State.modSched_time (s : State) (f : Sched → Sched) : (s.modSched f).time = s.time := rfl
@[simp] theorem State.modSched_inputs (s : State) (f : Sched → Sched) : (s.modSched f).inputs = s.inputs := rfl
@[simp] theorem State.modSched_obs (s : State) (f : Sched → Sched) : (s.modSched f).obs = s.obs := rfl
@[simp] theorem State.modSched_sched (s : State) (f : Sched → Sched) : (s.modSched f).sched = f s.sched := rfl
@[simp] theorem State.modSched_raster (s : State) (f : Sched → Sched) : (s.modSched f).raster = s.raster := rfl
@[simp] theorem State.modSched_seam (s : State) (f : Sched → Sched) : (s.modSched f).seam = s.seam := rfl
@[simp] theorem State.modSched_link (s : State) (f : Sched → Sched) : (s.modSched f).link = s.link := rfl
@[simp] theorem State.modSched_care (s : State) (f : Sched → Sched) : (s.modSched f).care = s.care := rfl
@[simp] theorem State.modSched_assay (s : State) (f : Sched → Sched) : (s.modSched f).assay = s.assay := rfl
@[simp] theorem State.modSched_fm (s : State) (f : Sched → Sched) : (s.modSched f).fm = s.fm := rfl
@[simp] theorem State.modSched_store (s : State) (f : Sched → Sched) : (s.modSched f).store = s.store := rfl
@[simp] theorem State.modSched_mem (s : State) (f : Sched → Sched) : (s.modSched f).mem = s.mem := rfl
@[simp] theorem State.modSched_tally (s : State) (f : Sched → Sched) : (s.modSched f).tally = s.tally := rfl
@[simp] theorem State.modSched_wind (s : State) (f : Sched → Sched) : (s.modSched f).wind = s.wind := rfl
@[simp] theorem State.modRaster_pending (s : State) (f : Raster → Raster) : (s.modRaster f).pending = s.pending := rfl
@[simp] theorem State.modRaster_beat (s : State) (f : Raster → Raster) : (s.modRaster f).beat = s.beat := rfl
@[simp] theorem State.modRaster_regs (s : State) (f : Raster → Raster) : (s.modRaster f).regs = s.regs := rfl
@[simp] theorem State.modRaster_fresh (s : State) (f : Raster → Raster) : (s.modRaster f).fresh = s.fresh := rfl
@[simp] theorem State.modRaster_shadow (s : State) (f : Raster → Raster) : (s.modRaster f).shadow = s.shadow := rfl
@[simp] theorem State.modRaster_held (s : State) (f : Raster → Raster) : (s.modRaster f).held = s.held := rfl
@[simp] theorem State.modRaster_out (s : State) (f : Raster → Raster) : (s.modRaster f).out = s.out := rfl
@[simp] theorem State.modRaster_free (s : State) (f : Raster → Raster) : (s.modRaster f).free = s.free := rfl
@[simp] theorem State.modRaster_rings (s : State) (f : Raster → Raster) : (s.modRaster f).rings = s.rings := rfl
@[simp] theorem State.modRaster_power (s : State) (f : Raster → Raster) : (s.modRaster f).power = s.power := rfl
@[simp] theorem State.modRaster_time (s : State) (f : Raster → Raster) : (s.modRaster f).time = s.time := rfl
@[simp] theorem State.modRaster_inputs (s : State) (f : Raster → Raster) : (s.modRaster f).inputs = s.inputs := rfl
@[simp] theorem State.modRaster_obs (s : State) (f : Raster → Raster) : (s.modRaster f).obs = s.obs := rfl
@[simp] theorem State.modRaster_sched (s : State) (f : Raster → Raster) : (s.modRaster f).sched = s.sched := rfl
@[simp] theorem State.modRaster_raster (s : State) (f : Raster → Raster) : (s.modRaster f).raster = f s.raster := rfl
@[simp] theorem State.modRaster_seam (s : State) (f : Raster → Raster) : (s.modRaster f).seam = s.seam := rfl
@[simp] theorem State.modRaster_link (s : State) (f : Raster → Raster) : (s.modRaster f).link = s.link := rfl
@[simp] theorem State.modRaster_care (s : State) (f : Raster → Raster) : (s.modRaster f).care = s.care := rfl
@[simp] theorem State.modRaster_assay (s : State) (f : Raster → Raster) : (s.modRaster f).assay = s.assay := rfl
@[simp] theorem State.modRaster_fm (s : State) (f : Raster → Raster) : (s.modRaster f).fm = s.fm := rfl
@[simp] theorem State.modRaster_store (s : State) (f : Raster → Raster) : (s.modRaster f).store = s.store := rfl
@[simp] theorem State.modRaster_mem (s : State) (f : Raster → Raster) : (s.modRaster f).mem = s.mem := rfl
@[simp] theorem State.modRaster_tally (s : State) (f : Raster → Raster) : (s.modRaster f).tally = s.tally := rfl
@[simp] theorem State.modRaster_wind (s : State) (f : Raster → Raster) : (s.modRaster f).wind = s.wind := rfl
@[simp] theorem State.modSeam_pending (s : State) (f : Seam → Seam) : (s.modSeam f).pending = s.pending := rfl
@[simp] theorem State.modSeam_beat (s : State) (f : Seam → Seam) : (s.modSeam f).beat = s.beat := rfl
@[simp] theorem State.modSeam_regs (s : State) (f : Seam → Seam) : (s.modSeam f).regs = s.regs := rfl
@[simp] theorem State.modSeam_fresh (s : State) (f : Seam → Seam) : (s.modSeam f).fresh = s.fresh := rfl
@[simp] theorem State.modSeam_shadow (s : State) (f : Seam → Seam) : (s.modSeam f).shadow = s.shadow := rfl
@[simp] theorem State.modSeam_held (s : State) (f : Seam → Seam) : (s.modSeam f).held = s.held := rfl
@[simp] theorem State.modSeam_out (s : State) (f : Seam → Seam) : (s.modSeam f).out = s.out := rfl
@[simp] theorem State.modSeam_free (s : State) (f : Seam → Seam) : (s.modSeam f).free = s.free := rfl
@[simp] theorem State.modSeam_rings (s : State) (f : Seam → Seam) : (s.modSeam f).rings = s.rings := rfl
@[simp] theorem State.modSeam_power (s : State) (f : Seam → Seam) : (s.modSeam f).power = s.power := rfl
@[simp] theorem State.modSeam_time (s : State) (f : Seam → Seam) : (s.modSeam f).time = s.time := rfl
@[simp] theorem State.modSeam_inputs (s : State) (f : Seam → Seam) : (s.modSeam f).inputs = s.inputs := rfl
@[simp] theorem State.modSeam_obs (s : State) (f : Seam → Seam) : (s.modSeam f).obs = s.obs := rfl
@[simp] theorem State.modSeam_sched (s : State) (f : Seam → Seam) : (s.modSeam f).sched = s.sched := rfl
@[simp] theorem State.modSeam_raster (s : State) (f : Seam → Seam) : (s.modSeam f).raster = s.raster := rfl
@[simp] theorem State.modSeam_seam (s : State) (f : Seam → Seam) : (s.modSeam f).seam = f s.seam := rfl
@[simp] theorem State.modSeam_link (s : State) (f : Seam → Seam) : (s.modSeam f).link = s.link := rfl
@[simp] theorem State.modSeam_care (s : State) (f : Seam → Seam) : (s.modSeam f).care = s.care := rfl
@[simp] theorem State.modSeam_assay (s : State) (f : Seam → Seam) : (s.modSeam f).assay = s.assay := rfl
@[simp] theorem State.modSeam_fm (s : State) (f : Seam → Seam) : (s.modSeam f).fm = s.fm := rfl
@[simp] theorem State.modSeam_store (s : State) (f : Seam → Seam) : (s.modSeam f).store = s.store := rfl
@[simp] theorem State.modSeam_mem (s : State) (f : Seam → Seam) : (s.modSeam f).mem = s.mem := rfl
@[simp] theorem State.modSeam_tally (s : State) (f : Seam → Seam) : (s.modSeam f).tally = s.tally := rfl
@[simp] theorem State.modSeam_wind (s : State) (f : Seam → Seam) : (s.modSeam f).wind = s.wind := rfl
@[simp] theorem State.modLink_pending (s : State) (f : Link → Link) : (s.modLink f).pending = s.pending := rfl
@[simp] theorem State.modLink_beat (s : State) (f : Link → Link) : (s.modLink f).beat = s.beat := rfl
@[simp] theorem State.modLink_regs (s : State) (f : Link → Link) : (s.modLink f).regs = s.regs := rfl
@[simp] theorem State.modLink_fresh (s : State) (f : Link → Link) : (s.modLink f).fresh = s.fresh := rfl
@[simp] theorem State.modLink_shadow (s : State) (f : Link → Link) : (s.modLink f).shadow = s.shadow := rfl
@[simp] theorem State.modLink_held (s : State) (f : Link → Link) : (s.modLink f).held = s.held := rfl
@[simp] theorem State.modLink_out (s : State) (f : Link → Link) : (s.modLink f).out = s.out := rfl
@[simp] theorem State.modLink_free (s : State) (f : Link → Link) : (s.modLink f).free = s.free := rfl
@[simp] theorem State.modLink_rings (s : State) (f : Link → Link) : (s.modLink f).rings = s.rings := rfl
@[simp] theorem State.modLink_power (s : State) (f : Link → Link) : (s.modLink f).power = s.power := rfl
@[simp] theorem State.modLink_time (s : State) (f : Link → Link) : (s.modLink f).time = s.time := rfl
@[simp] theorem State.modLink_inputs (s : State) (f : Link → Link) : (s.modLink f).inputs = s.inputs := rfl
@[simp] theorem State.modLink_obs (s : State) (f : Link → Link) : (s.modLink f).obs = s.obs := rfl
@[simp] theorem State.modLink_sched (s : State) (f : Link → Link) : (s.modLink f).sched = s.sched := rfl
@[simp] theorem State.modLink_raster (s : State) (f : Link → Link) : (s.modLink f).raster = s.raster := rfl
@[simp] theorem State.modLink_seam (s : State) (f : Link → Link) : (s.modLink f).seam = s.seam := rfl
@[simp] theorem State.modLink_link (s : State) (f : Link → Link) : (s.modLink f).link = f s.link := rfl
@[simp] theorem State.modLink_care (s : State) (f : Link → Link) : (s.modLink f).care = s.care := rfl
@[simp] theorem State.modLink_assay (s : State) (f : Link → Link) : (s.modLink f).assay = s.assay := rfl
@[simp] theorem State.modLink_fm (s : State) (f : Link → Link) : (s.modLink f).fm = s.fm := rfl
@[simp] theorem State.modLink_store (s : State) (f : Link → Link) : (s.modLink f).store = s.store := rfl
@[simp] theorem State.modLink_mem (s : State) (f : Link → Link) : (s.modLink f).mem = s.mem := rfl
@[simp] theorem State.modLink_tally (s : State) (f : Link → Link) : (s.modLink f).tally = s.tally := rfl
@[simp] theorem State.modLink_wind (s : State) (f : Link → Link) : (s.modLink f).wind = s.wind := rfl
@[simp] theorem State.modCare_pending (s : State) (f : Care → Care) : (s.modCare f).pending = s.pending := rfl
@[simp] theorem State.modCare_beat (s : State) (f : Care → Care) : (s.modCare f).beat = s.beat := rfl
@[simp] theorem State.modCare_regs (s : State) (f : Care → Care) : (s.modCare f).regs = s.regs := rfl
@[simp] theorem State.modCare_fresh (s : State) (f : Care → Care) : (s.modCare f).fresh = s.fresh := rfl
@[simp] theorem State.modCare_shadow (s : State) (f : Care → Care) : (s.modCare f).shadow = s.shadow := rfl
@[simp] theorem State.modCare_held (s : State) (f : Care → Care) : (s.modCare f).held = s.held := rfl
@[simp] theorem State.modCare_out (s : State) (f : Care → Care) : (s.modCare f).out = s.out := rfl
@[simp] theorem State.modCare_free (s : State) (f : Care → Care) : (s.modCare f).free = s.free := rfl
@[simp] theorem State.modCare_rings (s : State) (f : Care → Care) : (s.modCare f).rings = s.rings := rfl
@[simp] theorem State.modCare_power (s : State) (f : Care → Care) : (s.modCare f).power = s.power := rfl
@[simp] theorem State.modCare_time (s : State) (f : Care → Care) : (s.modCare f).time = s.time := rfl
@[simp] theorem State.modCare_inputs (s : State) (f : Care → Care) : (s.modCare f).inputs = s.inputs := rfl
@[simp] theorem State.modCare_obs (s : State) (f : Care → Care) : (s.modCare f).obs = s.obs := rfl
@[simp] theorem State.modCare_sched (s : State) (f : Care → Care) : (s.modCare f).sched = s.sched := rfl
@[simp] theorem State.modCare_raster (s : State) (f : Care → Care) : (s.modCare f).raster = s.raster := rfl
@[simp] theorem State.modCare_seam (s : State) (f : Care → Care) : (s.modCare f).seam = s.seam := rfl
@[simp] theorem State.modCare_link (s : State) (f : Care → Care) : (s.modCare f).link = s.link := rfl
@[simp] theorem State.modCare_care (s : State) (f : Care → Care) : (s.modCare f).care = f s.care := rfl
@[simp] theorem State.modCare_assay (s : State) (f : Care → Care) : (s.modCare f).assay = s.assay := rfl
@[simp] theorem State.modCare_fm (s : State) (f : Care → Care) : (s.modCare f).fm = s.fm := rfl
@[simp] theorem State.modCare_store (s : State) (f : Care → Care) : (s.modCare f).store = s.store := rfl
@[simp] theorem State.modCare_mem (s : State) (f : Care → Care) : (s.modCare f).mem = s.mem := rfl
@[simp] theorem State.modCare_tally (s : State) (f : Care → Care) : (s.modCare f).tally = s.tally := rfl
@[simp] theorem State.modCare_wind (s : State) (f : Care → Care) : (s.modCare f).wind = s.wind := rfl
@[simp] theorem State.modAssay_pending (s : State) (f : Assay → Assay) : (s.modAssay f).pending = s.pending := rfl
@[simp] theorem State.modAssay_beat (s : State) (f : Assay → Assay) : (s.modAssay f).beat = s.beat := rfl
@[simp] theorem State.modAssay_regs (s : State) (f : Assay → Assay) : (s.modAssay f).regs = s.regs := rfl
@[simp] theorem State.modAssay_fresh (s : State) (f : Assay → Assay) : (s.modAssay f).fresh = s.fresh := rfl
@[simp] theorem State.modAssay_shadow (s : State) (f : Assay → Assay) : (s.modAssay f).shadow = s.shadow := rfl
@[simp] theorem State.modAssay_held (s : State) (f : Assay → Assay) : (s.modAssay f).held = s.held := rfl
@[simp] theorem State.modAssay_out (s : State) (f : Assay → Assay) : (s.modAssay f).out = s.out := rfl
@[simp] theorem State.modAssay_free (s : State) (f : Assay → Assay) : (s.modAssay f).free = s.free := rfl
@[simp] theorem State.modAssay_rings (s : State) (f : Assay → Assay) : (s.modAssay f).rings = s.rings := rfl
@[simp] theorem State.modAssay_power (s : State) (f : Assay → Assay) : (s.modAssay f).power = s.power := rfl
@[simp] theorem State.modAssay_time (s : State) (f : Assay → Assay) : (s.modAssay f).time = s.time := rfl
@[simp] theorem State.modAssay_inputs (s : State) (f : Assay → Assay) : (s.modAssay f).inputs = s.inputs := rfl
@[simp] theorem State.modAssay_obs (s : State) (f : Assay → Assay) : (s.modAssay f).obs = s.obs := rfl
@[simp] theorem State.modAssay_sched (s : State) (f : Assay → Assay) : (s.modAssay f).sched = s.sched := rfl
@[simp] theorem State.modAssay_raster (s : State) (f : Assay → Assay) : (s.modAssay f).raster = s.raster := rfl
@[simp] theorem State.modAssay_seam (s : State) (f : Assay → Assay) : (s.modAssay f).seam = s.seam := rfl
@[simp] theorem State.modAssay_link (s : State) (f : Assay → Assay) : (s.modAssay f).link = s.link := rfl
@[simp] theorem State.modAssay_care (s : State) (f : Assay → Assay) : (s.modAssay f).care = s.care := rfl
@[simp] theorem State.modAssay_assay (s : State) (f : Assay → Assay) : (s.modAssay f).assay = f s.assay := rfl
@[simp] theorem State.modAssay_fm (s : State) (f : Assay → Assay) : (s.modAssay f).fm = s.fm := rfl
@[simp] theorem State.modAssay_store (s : State) (f : Assay → Assay) : (s.modAssay f).store = s.store := rfl
@[simp] theorem State.modAssay_mem (s : State) (f : Assay → Assay) : (s.modAssay f).mem = s.mem := rfl
@[simp] theorem State.modAssay_tally (s : State) (f : Assay → Assay) : (s.modAssay f).tally = s.tally := rfl
@[simp] theorem State.modAssay_wind (s : State) (f : Assay → Assay) : (s.modAssay f).wind = s.wind := rfl
@[simp] theorem State.modFm_pending (s : State) (f : Foreman → Foreman) : (s.modFm f).pending = s.pending := rfl
@[simp] theorem State.modFm_beat (s : State) (f : Foreman → Foreman) : (s.modFm f).beat = s.beat := rfl
@[simp] theorem State.modFm_regs (s : State) (f : Foreman → Foreman) : (s.modFm f).regs = s.regs := rfl
@[simp] theorem State.modFm_fresh (s : State) (f : Foreman → Foreman) : (s.modFm f).fresh = s.fresh := rfl
@[simp] theorem State.modFm_shadow (s : State) (f : Foreman → Foreman) : (s.modFm f).shadow = s.shadow := rfl
@[simp] theorem State.modFm_held (s : State) (f : Foreman → Foreman) : (s.modFm f).held = s.held := rfl
@[simp] theorem State.modFm_out (s : State) (f : Foreman → Foreman) : (s.modFm f).out = s.out := rfl
@[simp] theorem State.modFm_free (s : State) (f : Foreman → Foreman) : (s.modFm f).free = s.free := rfl
@[simp] theorem State.modFm_rings (s : State) (f : Foreman → Foreman) : (s.modFm f).rings = s.rings := rfl
@[simp] theorem State.modFm_power (s : State) (f : Foreman → Foreman) : (s.modFm f).power = s.power := rfl
@[simp] theorem State.modFm_time (s : State) (f : Foreman → Foreman) : (s.modFm f).time = s.time := rfl
@[simp] theorem State.modFm_inputs (s : State) (f : Foreman → Foreman) : (s.modFm f).inputs = s.inputs := rfl
@[simp] theorem State.modFm_obs (s : State) (f : Foreman → Foreman) : (s.modFm f).obs = s.obs := rfl
@[simp] theorem State.modFm_sched (s : State) (f : Foreman → Foreman) : (s.modFm f).sched = s.sched := rfl
@[simp] theorem State.modFm_raster (s : State) (f : Foreman → Foreman) : (s.modFm f).raster = s.raster := rfl
@[simp] theorem State.modFm_seam (s : State) (f : Foreman → Foreman) : (s.modFm f).seam = s.seam := rfl
@[simp] theorem State.modFm_link (s : State) (f : Foreman → Foreman) : (s.modFm f).link = s.link := rfl
@[simp] theorem State.modFm_care (s : State) (f : Foreman → Foreman) : (s.modFm f).care = s.care := rfl
@[simp] theorem State.modFm_assay (s : State) (f : Foreman → Foreman) : (s.modFm f).assay = s.assay := rfl
@[simp] theorem State.modFm_fm (s : State) (f : Foreman → Foreman) : (s.modFm f).fm = f s.fm := rfl
@[simp] theorem State.modFm_store (s : State) (f : Foreman → Foreman) : (s.modFm f).store = s.store := rfl
@[simp] theorem State.modFm_mem (s : State) (f : Foreman → Foreman) : (s.modFm f).mem = s.mem := rfl
@[simp] theorem State.modFm_tally (s : State) (f : Foreman → Foreman) : (s.modFm f).tally = s.tally := rfl
@[simp] theorem State.modFm_wind (s : State) (f : Foreman → Foreman) : (s.modFm f).wind = s.wind := rfl
@[simp] theorem State.modStore_pending (s : State) (f : Store → Store) : (s.modStore f).pending = s.pending := rfl
@[simp] theorem State.modStore_beat (s : State) (f : Store → Store) : (s.modStore f).beat = s.beat := rfl
@[simp] theorem State.modStore_regs (s : State) (f : Store → Store) : (s.modStore f).regs = s.regs := rfl
@[simp] theorem State.modStore_fresh (s : State) (f : Store → Store) : (s.modStore f).fresh = s.fresh := rfl
@[simp] theorem State.modStore_shadow (s : State) (f : Store → Store) : (s.modStore f).shadow = s.shadow := rfl
@[simp] theorem State.modStore_held (s : State) (f : Store → Store) : (s.modStore f).held = s.held := rfl
@[simp] theorem State.modStore_out (s : State) (f : Store → Store) : (s.modStore f).out = s.out := rfl
@[simp] theorem State.modStore_free (s : State) (f : Store → Store) : (s.modStore f).free = s.free := rfl
@[simp] theorem State.modStore_rings (s : State) (f : Store → Store) : (s.modStore f).rings = s.rings := rfl
@[simp] theorem State.modStore_power (s : State) (f : Store → Store) : (s.modStore f).power = s.power := rfl
@[simp] theorem State.modStore_time (s : State) (f : Store → Store) : (s.modStore f).time = s.time := rfl
@[simp] theorem State.modStore_inputs (s : State) (f : Store → Store) : (s.modStore f).inputs = s.inputs := rfl
@[simp] theorem State.modStore_obs (s : State) (f : Store → Store) : (s.modStore f).obs = s.obs := rfl
@[simp] theorem State.modStore_sched (s : State) (f : Store → Store) : (s.modStore f).sched = s.sched := rfl
@[simp] theorem State.modStore_raster (s : State) (f : Store → Store) : (s.modStore f).raster = s.raster := rfl
@[simp] theorem State.modStore_seam (s : State) (f : Store → Store) : (s.modStore f).seam = s.seam := rfl
@[simp] theorem State.modStore_link (s : State) (f : Store → Store) : (s.modStore f).link = s.link := rfl
@[simp] theorem State.modStore_care (s : State) (f : Store → Store) : (s.modStore f).care = s.care := rfl
@[simp] theorem State.modStore_assay (s : State) (f : Store → Store) : (s.modStore f).assay = s.assay := rfl
@[simp] theorem State.modStore_fm (s : State) (f : Store → Store) : (s.modStore f).fm = s.fm := rfl
@[simp] theorem State.modStore_store (s : State) (f : Store → Store) : (s.modStore f).store = f s.store := rfl
@[simp] theorem State.modStore_mem (s : State) (f : Store → Store) : (s.modStore f).mem = s.mem := rfl
@[simp] theorem State.modStore_tally (s : State) (f : Store → Store) : (s.modStore f).tally = s.tally := rfl
@[simp] theorem State.modStore_wind (s : State) (f : Store → Store) : (s.modStore f).wind = s.wind := rfl
@[simp] theorem State.modMem_pending (s : State) (f : Mem → Mem) : (s.modMem f).pending = s.pending := rfl
@[simp] theorem State.modMem_beat (s : State) (f : Mem → Mem) : (s.modMem f).beat = s.beat := rfl
@[simp] theorem State.modMem_regs (s : State) (f : Mem → Mem) : (s.modMem f).regs = s.regs := rfl
@[simp] theorem State.modMem_fresh (s : State) (f : Mem → Mem) : (s.modMem f).fresh = s.fresh := rfl
@[simp] theorem State.modMem_shadow (s : State) (f : Mem → Mem) : (s.modMem f).shadow = s.shadow := rfl
@[simp] theorem State.modMem_held (s : State) (f : Mem → Mem) : (s.modMem f).held = s.held := rfl
@[simp] theorem State.modMem_out (s : State) (f : Mem → Mem) : (s.modMem f).out = s.out := rfl
@[simp] theorem State.modMem_free (s : State) (f : Mem → Mem) : (s.modMem f).free = s.free := rfl
@[simp] theorem State.modMem_rings (s : State) (f : Mem → Mem) : (s.modMem f).rings = s.rings := rfl
@[simp] theorem State.modMem_power (s : State) (f : Mem → Mem) : (s.modMem f).power = s.power := rfl
@[simp] theorem State.modMem_time (s : State) (f : Mem → Mem) : (s.modMem f).time = s.time := rfl
@[simp] theorem State.modMem_inputs (s : State) (f : Mem → Mem) : (s.modMem f).inputs = s.inputs := rfl
@[simp] theorem State.modMem_obs (s : State) (f : Mem → Mem) : (s.modMem f).obs = s.obs := rfl
@[simp] theorem State.modMem_sched (s : State) (f : Mem → Mem) : (s.modMem f).sched = s.sched := rfl
@[simp] theorem State.modMem_raster (s : State) (f : Mem → Mem) : (s.modMem f).raster = s.raster := rfl
@[simp] theorem State.modMem_seam (s : State) (f : Mem → Mem) : (s.modMem f).seam = s.seam := rfl
@[simp] theorem State.modMem_link (s : State) (f : Mem → Mem) : (s.modMem f).link = s.link := rfl
@[simp] theorem State.modMem_care (s : State) (f : Mem → Mem) : (s.modMem f).care = s.care := rfl
@[simp] theorem State.modMem_assay (s : State) (f : Mem → Mem) : (s.modMem f).assay = s.assay := rfl
@[simp] theorem State.modMem_fm (s : State) (f : Mem → Mem) : (s.modMem f).fm = s.fm := rfl
@[simp] theorem State.modMem_store (s : State) (f : Mem → Mem) : (s.modMem f).store = s.store := rfl
@[simp] theorem State.modMem_mem (s : State) (f : Mem → Mem) : (s.modMem f).mem = f s.mem := rfl
@[simp] theorem State.modMem_tally (s : State) (f : Mem → Mem) : (s.modMem f).tally = s.tally := rfl
@[simp] theorem State.modMem_wind (s : State) (f : Mem → Mem) : (s.modMem f).wind = s.wind := rfl
@[simp] theorem State.modTally_pending (s : State) (f : Tally → Tally) : (s.modTally f).pending = s.pending := rfl
@[simp] theorem State.modTally_beat (s : State) (f : Tally → Tally) : (s.modTally f).beat = s.beat := rfl
@[simp] theorem State.modTally_regs (s : State) (f : Tally → Tally) : (s.modTally f).regs = s.regs := rfl
@[simp] theorem State.modTally_fresh (s : State) (f : Tally → Tally) : (s.modTally f).fresh = s.fresh := rfl
@[simp] theorem State.modTally_shadow (s : State) (f : Tally → Tally) : (s.modTally f).shadow = s.shadow := rfl
@[simp] theorem State.modTally_held (s : State) (f : Tally → Tally) : (s.modTally f).held = s.held := rfl
@[simp] theorem State.modTally_out (s : State) (f : Tally → Tally) : (s.modTally f).out = s.out := rfl
@[simp] theorem State.modTally_free (s : State) (f : Tally → Tally) : (s.modTally f).free = s.free := rfl
@[simp] theorem State.modTally_rings (s : State) (f : Tally → Tally) : (s.modTally f).rings = s.rings := rfl
@[simp] theorem State.modTally_power (s : State) (f : Tally → Tally) : (s.modTally f).power = s.power := rfl
@[simp] theorem State.modTally_time (s : State) (f : Tally → Tally) : (s.modTally f).time = s.time := rfl
@[simp] theorem State.modTally_inputs (s : State) (f : Tally → Tally) : (s.modTally f).inputs = s.inputs := rfl
@[simp] theorem State.modTally_obs (s : State) (f : Tally → Tally) : (s.modTally f).obs = s.obs := rfl
@[simp] theorem State.modTally_sched (s : State) (f : Tally → Tally) : (s.modTally f).sched = s.sched := rfl
@[simp] theorem State.modTally_raster (s : State) (f : Tally → Tally) : (s.modTally f).raster = s.raster := rfl
@[simp] theorem State.modTally_seam (s : State) (f : Tally → Tally) : (s.modTally f).seam = s.seam := rfl
@[simp] theorem State.modTally_link (s : State) (f : Tally → Tally) : (s.modTally f).link = s.link := rfl
@[simp] theorem State.modTally_care (s : State) (f : Tally → Tally) : (s.modTally f).care = s.care := rfl
@[simp] theorem State.modTally_assay (s : State) (f : Tally → Tally) : (s.modTally f).assay = s.assay := rfl
@[simp] theorem State.modTally_fm (s : State) (f : Tally → Tally) : (s.modTally f).fm = s.fm := rfl
@[simp] theorem State.modTally_store (s : State) (f : Tally → Tally) : (s.modTally f).store = s.store := rfl
@[simp] theorem State.modTally_mem (s : State) (f : Tally → Tally) : (s.modTally f).mem = s.mem := rfl
@[simp] theorem State.modTally_tally (s : State) (f : Tally → Tally) : (s.modTally f).tally = f s.tally := rfl
@[simp] theorem State.modTally_wind (s : State) (f : Tally → Tally) : (s.modTally f).wind = s.wind := rfl
@[simp] theorem State.modWind_pending (s : State) (f : Winders → Winders) : (s.modWind f).pending = s.pending := rfl
@[simp] theorem State.modWind_beat (s : State) (f : Winders → Winders) : (s.modWind f).beat = s.beat := rfl
@[simp] theorem State.modWind_regs (s : State) (f : Winders → Winders) : (s.modWind f).regs = s.regs := rfl
@[simp] theorem State.modWind_fresh (s : State) (f : Winders → Winders) : (s.modWind f).fresh = s.fresh := rfl
@[simp] theorem State.modWind_shadow (s : State) (f : Winders → Winders) : (s.modWind f).shadow = s.shadow := rfl
@[simp] theorem State.modWind_held (s : State) (f : Winders → Winders) : (s.modWind f).held = s.held := rfl
@[simp] theorem State.modWind_out (s : State) (f : Winders → Winders) : (s.modWind f).out = s.out := rfl
@[simp] theorem State.modWind_free (s : State) (f : Winders → Winders) : (s.modWind f).free = s.free := rfl
@[simp] theorem State.modWind_rings (s : State) (f : Winders → Winders) : (s.modWind f).rings = s.rings := rfl
@[simp] theorem State.modWind_power (s : State) (f : Winders → Winders) : (s.modWind f).power = s.power := rfl
@[simp] theorem State.modWind_time (s : State) (f : Winders → Winders) : (s.modWind f).time = s.time := rfl
@[simp] theorem State.modWind_inputs (s : State) (f : Winders → Winders) : (s.modWind f).inputs = s.inputs := rfl
@[simp] theorem State.modWind_obs (s : State) (f : Winders → Winders) : (s.modWind f).obs = s.obs := rfl
@[simp] theorem State.modWind_sched (s : State) (f : Winders → Winders) : (s.modWind f).sched = s.sched := rfl
@[simp] theorem State.modWind_raster (s : State) (f : Winders → Winders) : (s.modWind f).raster = s.raster := rfl
@[simp] theorem State.modWind_seam (s : State) (f : Winders → Winders) : (s.modWind f).seam = s.seam := rfl
@[simp] theorem State.modWind_link (s : State) (f : Winders → Winders) : (s.modWind f).link = s.link := rfl
@[simp] theorem State.modWind_care (s : State) (f : Winders → Winders) : (s.modWind f).care = s.care := rfl
@[simp] theorem State.modWind_assay (s : State) (f : Winders → Winders) : (s.modWind f).assay = s.assay := rfl
@[simp] theorem State.modWind_fm (s : State) (f : Winders → Winders) : (s.modWind f).fm = s.fm := rfl
@[simp] theorem State.modWind_store (s : State) (f : Winders → Winders) : (s.modWind f).store = s.store := rfl
@[simp] theorem State.modWind_mem (s : State) (f : Winders → Winders) : (s.modWind f).mem = s.mem := rfl
@[simp] theorem State.modWind_tally (s : State) (f : Winders → Winders) : (s.modWind f).tally = s.tally := rfl
@[simp] theorem State.modWind_wind (s : State) (f : Winders → Winders) : (s.modWind f).wind = f s.wind := rfl

end Sys2Proof.Machine
end

