-- ==== Sys2Proof/Laws/Tab.lean ====
section
/-! SUPPORT. The sparse tables (Machine/Tab.lean): reading what was written, and the canonical form. -/

namespace Sys2Proof.Machine

variable {α : Type}

theorem Tab.get_put_ne (d : Nat → α) (m : List (Nat × α)) (k k' : Nat) (v : α) (h : k' ≠ k) :
    Tab.get d (Tab.put m k v) k' = Tab.get d m k' := by
  induction m with
  | nil => simp [Tab.put, Tab.get, h]
  | cons e t ih =>
    obtain ⟨k0, v0⟩ := e
    simp only [Tab.put]
    split
    · simp [Tab.get, h]
    · split
      · subst_vars; simp [Tab.get, h]
      · simp [Tab.get, ih]

theorem Tab.get_put_self (d : Nat → α) (m : List (Nat × α)) (k : Nat) (v : α) : Tab.get d (Tab.put m k v) k = v := by
  induction m with
  | nil => simp [Tab.put, Tab.get]
  | cons e t ih =>
    obtain ⟨k0, v0⟩ := e
    simp only [Tab.put]
    split
    · simp [Tab.get]
    · split
      · simp [Tab.get]
      · rename_i h; simp [Tab.get, ih, h]

theorem Tab.get_del_ne (d : Nat → α) (m : List (Nat × α)) (k k' : Nat) (h : k' ≠ k) :
    Tab.get d (Tab.del m k) k' = Tab.get d m k' := by
  induction m with
  | nil => rfl
  | cons e t ih =>
    obtain ⟨k0, v0⟩ := e
    simp only [Tab.del, List.filter_cons] at *
    split
    · simp [Tab.get, ih]
    · have : k0 = k := by simp_all
      subst this
      simp [Tab.get, h, ih]

theorem Tab.get_del_self (d : Nat → α) (m : List (Nat × α)) (k : Nat) : Tab.get d (Tab.del m k) k = d k := by
  induction m with
  | nil => rfl
  | cons e t ih =>
    obtain ⟨k0, v0⟩ := e
    simp only [Tab.del, List.filter_cons] at *
    split
    · rename_i h
      have : k ≠ k0 := by intro e; subst e; simp at h
      simp [Tab.get, ih, this]
    · exact ih

variable [DecidableEq α]

/-- A read of the key just written gives the value written. -/
@[simp] theorem Tab.get_set_self (d : Nat → α) (m : List (Nat × α)) (k : Nat) (v : α) : Tab.get d (Tab.set d m k v) k = v := by
  unfold Tab.set
  split
  · rename_i h; rw [Tab.get_del_self, h]
  · exact Tab.get_put_self d m k v

/-- A write leaves every other key as it was. -/
theorem Tab.get_set_ne (d : Nat → α) (m : List (Nat × α)) (k k' : Nat) (v : α) (h : k' ≠ k) :
    Tab.get d (Tab.set d m k v) k' = Tab.get d m k' := by
  unfold Tab.set
  split
  · exact Tab.get_del_ne d m k k' h
  · exact Tab.get_put_ne d m k k' v h

/-! ### The canonical form -/

omit [DecidableEq α] in
theorem Tab.above_mono {b c : Nat} (m : List (Nat × α)) (h : b ≤ c) (w : Tab.above c m = true) : Tab.above b m = true := by
  cases m with
  | nil => rfl
  | cons e t =>
    obtain ⟨k, v⟩ := e
    simp only [Tab.above, Bool.and_eq_true, decide_eq_true_eq] at *
    exact ⟨Nat.le_trans h w.1, w.2⟩

omit [DecidableEq α] in
theorem Tab.above_put {b : Nat} (m : List (Nat × α)) (k : Nat) (v : α) (h : b ≤ k) (w : Tab.above b m = true) :
    Tab.above b (Tab.put m k v) = true := by
  induction m generalizing b with
  | nil => simp [Tab.put, Tab.above, h]
  | cons e t ih =>
    obtain ⟨k0, v0⟩ := e
    simp only [Tab.above, Bool.and_eq_true, decide_eq_true_eq] at w
    simp only [Tab.put]
    split
    · simp only [Tab.above, Bool.and_eq_true, decide_eq_true_eq]
      exact ⟨h, by omega, w.2⟩
    · split
      · subst_vars; simp only [Tab.above, Bool.and_eq_true, decide_eq_true_eq]; exact w
      · simp only [Tab.above, Bool.and_eq_true, decide_eq_true_eq]
        exact ⟨w.1, ih (by omega) w.2⟩

omit [DecidableEq α] in
theorem Tab.above_del {b : Nat} (m : List (Nat × α)) (k : Nat) (w : Tab.above b m = true) : Tab.above b (Tab.del m k) = true := by
  induction m generalizing b with
  | nil => rfl
  | cons e t ih =>
    obtain ⟨k0, v0⟩ := e
    simp only [Tab.above, Bool.and_eq_true, decide_eq_true_eq] at w
    simp only [Tab.del, List.filter_cons] at *
    split
    · simp only [Tab.above, Bool.and_eq_true, decide_eq_true_eq]
      exact ⟨w.1, ih w.2⟩
    · exact Tab.above_mono _ (by omega) (ih w.2)

omit [DecidableEq α] in
theorem Tab.mem_put {m : List (Nat × α)} {k : Nat} {v : α} {e : Nat × α} (h : e ∈ Tab.put m k v) : e = (k, v) ∨ e ∈ m := by
  induction m with
  | nil => simpa [Tab.put] using h
  | cons e0 t ih =>
    obtain ⟨k0, v0⟩ := e0
    simp only [Tab.put] at h
    split at h
    · simpa using h
    · split at h
      · simp only [List.mem_cons] at h ⊢
        rcases h with h | h <;> simp [h]
      · simp only [List.mem_cons] at h ⊢
        rcases h with h | h
        · exact .inr (.inl h)
        · rcases ih h with h | h
          · exact .inl h
          · exact .inr (.inr h)

/-- A write keeps the canonical form. -/
theorem Tab.wf_set (d : Nat → α) (m : List (Nat × α)) (k : Nat) (v : α) (h : Tab.wf d m = true) : Tab.wf d (Tab.set d m k v) = true := by
  simp only [Tab.wf, Bool.and_eq_true, List.all_eq_true, decide_eq_true_eq] at *
  unfold Tab.set
  split
  · exact ⟨Tab.above_del m k h.1, fun e he => h.2 e ((List.mem_filter.mp he).1)⟩
  · rename_i hv
    refine ⟨Tab.above_put m k v (Nat.zero_le _) h.1, fun e he => ?_⟩
    rcases Tab.mem_put he with rfl | he
    · exact hv
    · exact h.2 e he

end Sys2Proof.Machine
end

