-- ==== Sys2Proof/Laws/Kept.lean ====
section
/-! SUPPORT. What no command of the device changes: the queue, the moment, the identity words, SETUP_LOCK and the scratch word. The lemmas
`*_kept`, one per operation, say that it leaves them alone. -/

namespace Sys2Proof.Machine

/-- The queue, the beat, and the words of IDREV, CAPS, SETUP_LOCK and GLB_SCRATCH. -/
def State.kept (s : State) : List Instr × Nat × BitVec 32 × BitVec 32 × BitVec 32 × BitVec 32 :=
  (s.pending, s.beat, s.reg 0x0, s.reg 0x4, s.reg 0x8, s.reg 0x1C)

/-- The same with a beat of its own. -/
def State.keptAt (s : State) (b : Nat) : List Instr × Nat × BitVec 32 × BitVec 32 × BitVec 32 × BitVec 32 := (s.kept.1, b, s.kept.2.2)

theorem State.kept_eq (s : State) : s.kept = s.keptAt s.beat := rfl

theorem State.keptAt_of_kept {s t : State} (h : s.kept = t.kept) (b : Nat) : s.keptAt b = t.keptAt b := by
  unfold State.keptAt; rw [h]

theorem State.beat_of_kept {s t : State} (h : s.kept = t.kept) : s.beat = t.beat := congrArg (·.2.1) h

/-- Time moves nothing of it but the beat. -/
theorem State.advance_keptAt (s : State) (n b : Nat) : (s.advance n).keptAt b = s.keptAt b := rfl

/-- An offset whose word may change without that: none of the four. -/
def away (off : Nat) : Prop := off ≠ 0x0 ∧ off ≠ 0x4 ∧ off ≠ 0x8 ∧ off ≠ 0x1C

theorem away_of_le {off : Nat} (h : 0x20 ≤ off) : away off := by unfold away; omega

theorem State.reg_setReg_ne (s : State) (off off' : Nat) (v : BitVec 32) (h : off' ≠ off) : (s.setReg off v).reg off' = s.reg off' :=
  Tab.get_set_ne _ _ _ _ _ h

@[simp] theorem State.reg_setReg_self (s : State) (off : Nat) (v : BitVec 32) : (s.setReg off v).reg off = v := Tab.get_set_self _ _ _ _

@[simp] theorem State.setReg_kept (s : State) (off : Nat) (v : BitVec 32) (h : away off) : (s.setReg off v).kept = s.kept := by
  obtain ⟨h0, h4, h8, hc⟩ := h
  simp only [State.kept, s.reg_setReg_ne off _ v h0.symm, s.reg_setReg_ne off _ v h4.symm, s.reg_setReg_ne off _ v h8.symm,
    s.reg_setReg_ne off _ v hc.symm]
  rfl

@[simp] theorem State.set_kept (s : State) (f : Fld) (v : Nat) (h : away f.off) : (s.set f v).kept = s.kept := s.setReg_kept _ _ h
@[simp] theorem State.raise_kept (s : State) (f : Fld) (h : away f.off) : (s.raise f).kept = s.kept := s.setReg_kept _ _ h
@[simp] theorem State.clear_kept (s : State) (f : Fld) (h : away f.off) : (s.clear f).kept = s.kept := s.setReg_kept _ _ h
@[simp] theorem State.setOn_kept (s : State) (f : Fld) (b : Bool) (h : away f.off) : (s.setOn f b).kept = s.kept := s.setReg_kept _ _ h
@[simp] theorem State.bump_kept (s : State) (f : Fld) (n : Nat) (h : away f.off) : (s.bump f n).kept = s.kept := s.setReg_kept _ _ h
@[simp] theorem State.setI_kept (s : State) (f : Fld) (v : Int) (h : away f.off) : (s.setI f v).kept = s.kept := s.setReg_kept _ _ h
@[simp] theorem State.setSat_kept (s : State) (f : Fld) (v : Int) (h : away f.off) : (s.setSat f v).kept = s.kept := s.setReg_kept _ _ h
@[simp] theorem State.set2_kept (s : State) (lo hi : Fld) (v : Nat) (h : away lo.off) (h' : away hi.off) : (s.set2 lo hi v).kept = s.kept := by
  unfold State.set2; rw [State.set_kept _ _ _ h', State.set_kept _ _ _ h]
@[simp] theorem State.setI2_kept (s : State) (lo hi : Fld) (v : Int) (h : away lo.off) (h' : away hi.off) : (s.setI2 lo hi v).kept = s.kept :=
  s.set2_kept _ _ _ h h'

@[simp] theorem State.modShadow_kept (s : State) (f : (List (Nat × BitVec 32)) → (List (Nat × BitVec 32))) : (s.modShadow f).kept = s.kept := Eq.trans rfl rfl
@[simp] theorem State.modFresh_kept (s : State) (f : (List (Nat × Nat)) → (List (Nat × Nat))) : (s.modFresh f).kept = s.kept := Eq.trans rfl rfl
@[simp] theorem State.modHeld_kept (s : State) (f : (List (Nat × BitVec 32)) → (List (Nat × BitVec 32))) : (s.modHeld f).kept = s.kept := Eq.trans rfl rfl
@[simp] theorem State.modOut_kept (s : State) (f : (List Output) → (List Output)) : (s.modOut f).kept = s.kept := Eq.trans rfl rfl
@[simp] theorem State.modFree_kept (s : State) (f : Nat → Nat) : (s.modFree f).kept = s.kept := Eq.trans rfl rfl
@[simp] theorem State.modRings_kept (s : State) (f : Rings → Rings) : (s.modRings f).kept = s.kept := Eq.trans rfl rfl
@[simp] theorem State.modPower_kept (s : State) (f : Power → Power) : (s.modPower f).kept = s.kept := Eq.trans rfl rfl
@[simp] theorem State.modTime_kept (s : State) (f : Time → Time) : (s.modTime f).kept = s.kept := Eq.trans rfl rfl
@[simp] theorem State.modInputs_kept (s : State) (f : Inputs → Inputs) : (s.modInputs f).kept = s.kept := Eq.trans rfl rfl
@[simp] theorem State.modObs_kept (s : State) (f : Observer → Observer) : (s.modObs f).kept = s.kept := Eq.trans rfl rfl
@[simp] theorem State.modSched_kept (s : State) (f : Sched → Sched) : (s.modSched f).kept = s.kept := Eq.trans rfl rfl
@[simp] theorem State.modRaster_kept (s : State) (f : Raster → Raster) : (s.modRaster f).kept = s.kept := Eq.trans rfl rfl
@[simp] theorem State.modSeam_kept (s : State) (f : Seam → Seam) : (s.modSeam f).kept = s.kept := Eq.trans rfl rfl
@[simp] theorem State.modLink_kept (s : State) (f : Link → Link) : (s.modLink f).kept = s.kept := Eq.trans rfl rfl
@[simp] theorem State.modCare_kept (s : State) (f : Care → Care) : (s.modCare f).kept = s.kept := Eq.trans rfl rfl
@[simp] theorem State.modAssay_kept (s : State) (f : Assay → Assay) : (s.modAssay f).kept = s.kept := Eq.trans rfl rfl
@[simp] theorem State.modFm_kept (s : State) (f : Foreman → Foreman) : (s.modFm f).kept = s.kept := Eq.trans rfl rfl
@[simp] theorem State.modStore_kept (s : State) (f : Store → Store) : (s.modStore f).kept = s.kept := Eq.trans rfl rfl
@[simp] theorem State.modMem_kept (s : State) (f : Mem → Mem) : (s.modMem f).kept = s.kept := Eq.trans rfl rfl
@[simp] theorem State.modTally_kept (s : State) (f : Tally → Tally) : (s.modTally f).kept = s.kept := Eq.trans rfl rfl
@[simp] theorem State.modWind_kept (s : State) (f : Winders → Winders) : (s.modWind f).kept = s.kept := Eq.trans rfl rfl

/-- The registers of the rings the host consumes lie elsewhere. -/
@[simp] theorem onRing_away (k : Nat) (f : Fld) : away (onRing k f).off := by
  refine away_of_le ?_
  simp only [onRing, ringBase]
  split
  · omega
  · split <;> omega

@[simp] theorem ringEnabled_away (k : Nat) : away (ringEnabled k).off := onRing_away _ _
@[simp] theorem ringErr_away (k : Nat) : away (ringErr k).off := onRing_away _ _
@[simp] theorem ringCause_away (k : Nat) : away (ringCause k).off := onRing_away _ _
@[simp] theorem ringArmed_away (k : Nat) : away (ringArmed k).off := onRing_away _ _
@[simp] theorem ringProd_away (k : Nat) : away (ringProd k).off := onRing_away _ _
@[simp] theorem ringCons_away (k : Nat) : away (ringCons k).off := onRing_away _ _

/-- A choice between two states. -/
@[simp] theorem State.ite_kept (c : Prop) [Decidable c] (a b : State) : (if c then a else b).kept = if c then a.kept else b.kept :=
  apply_ite State.kept c a b

/-- A fold of steps that leave it alone leaves it alone. -/
theorem foldl_kept {β : Type} (f : State → β → State) (h : ∀ s x, (f s x).kept = s.kept) (l : List β) (s : State) :
    (l.foldl f s).kept = s.kept := by
  induction l generalizing s with
  | nil => rfl
  | cons x t ih => simp only [List.foldl_cons]; rw [ih, h]

/-- The same for a fold that carries a value beside the state. -/
theorem foldl_kept_snd {α β : Type} (f : α × State → β → α × State) (h : ∀ p x, (f p x).2.kept = p.2.kept) (l : List β) (p : α × State) :
    (l.foldl f p).2.kept = p.2.kept := by
  induction l generalizing p with
  | nil => rfl
  | cons x t ih => simp only [List.foldl_cons]; rw [ih, h]

theorem foldl_kept_of {β : Type} {f : State → β → State} {l : List β} {s t : State} (h : ∀ s x, (f s x).kept = s.kept)
    (h' : s.kept = t.kept) : (l.foldl f s).kept = t.kept := (foldl_kept f h l s).trans h'

theorem foldl_kept_snd_of {α β : Type} {f : α × State → β → α × State} {l : List β} {p : α × State} {t : State}
    (h : ∀ p x, (f p x).2.kept = p.2.kept) (h' : p.2.kept = t.kept) : (l.foldl f p).2.kept = t.kept := (foldl_kept_snd f h l p).trans h'

theorem foldl_kept_fst_of {α β : Type} {f : State × α → β → State × α} {l : List β} {p : State × α} {t : State}
    (h : ∀ p x, (f p x).1.kept = p.1.kept) (h' : p.1.kept = t.kept) : (l.foldl f p).1.kept = t.kept := by
  induction l generalizing p with
  | nil => exact h'
  | cons x l ih => exact ih (by rw [h, h'])

end Sys2Proof.Machine
end

