-- ==== Sys2Proof/Laws/KeptOps.lean ====
section
/-! SUPPORT. The operations of Machine/Ops.lean leave the kept words alone. -/

set_option linter.all false

namespace Sys2Proof.Machine

@[simp] theorem State.setTb_kept (s : State) (k v : Nat) : (State.setTb s k v).kept = s.kept := by
  unfold State.setTb
  simp (disch := first | assumption | (simp only [away]; omega) | simp only [onRing_away, ringEnabled_away, ringErr_away, ringCause_away, ringArmed_away, ringProd_away, ringCons_away]) only [State.ite_kept, ite_self, State.modTime_kept, State.set_kept]

@[simp] theorem State.setRate_kept (s : State) (k : Nat) (r : Int) : (State.setRate s k r).kept = s.kept := by
  unfold State.setRate
  simp (disch := first | assumption | (simp only [away]; omega) | simp only [onRing_away, ringEnabled_away, ringErr_away, ringCause_away, ringArmed_away, ringProd_away, ringCons_away]) only [State.ite_kept, ite_self, State.modTime_kept, State.set_kept]

theorem State.reg_resetRegs (s : State) (classes : Nat) (sel : Nat → Bool) (off : Nat)
    (h : ∀ f ∈ fieldsAt off, f.cls &&& classes = 0) : (s.resetRegs classes sel).reg off = s.reg off := by
  have hw : ∀ x, resetWord classes off x = x := by
    intro x
    unfold resetWord
    generalize fieldsAt off = l at h
    induction l with
    | nil => rfl
    | cons f t ih =>
      simp only [List.foldl_cons, h f (by simp), if_true]
      exact ih fun g hg => h g (by simp [hg])
  have key : ∀ (l m : List (Nat × BitVec 32)), Tab.get resetVal m off = s.reg off →
      Tab.get resetVal (l.foldl (fun m e =>
        if sel e.1 then Tab.set resetVal m e.1 (resetWord classes e.1 (Tab.get resetVal s.regs e.1)) else m) m) off = s.reg off := by
    intro l
    induction l with
    | nil => intro m hm; exact hm
    | cons e t ih =>
      intro m hm
      simp only [List.foldl_cons]
      refine ih _ ?_
      split
      · by_cases he : off = e.1
        · rw [← he, Tab.get_set_self, hw]; rfl
        · rw [Tab.get_set_ne _ _ _ _ _ he]; exact hm
      · exact hm
  exact key _ _ rfl

theorem State.resetRegs_kept (s : State) (classes : Nat) (sel : Nat → Bool) (h : classes = 4 ∨ classes = 8 ∨ classes = 16) :
    (State.resetRegs s classes sel).kept = s.kept := by
  have hr : ∀ off, (∀ c, c = 4 ∨ c = 8 ∨ c = 16 → (fieldsAt off).all (fun f => f.cls &&& c == 0) = true) →
      (s.resetRegs classes sel).reg off = s.reg off := by
    intro off ha
    refine s.reg_resetRegs classes sel off fun f hf => ?_
    have := List.all_eq_true.mp (ha classes h) f hf
    simpa using this
  simp only [State.kept]
  rw [hr 0x0 (by rintro c (rfl | rfl | rfl) <;> decide), hr 0x4 (by rintro c (rfl | rfl | rfl) <;> decide),
    hr 0x8 (by rintro c (rfl | rfl | rfl) <;> decide), hr 0x1C (by rintro c (rfl | rfl | rfl) <;> decide)]
  rfl

@[simp] theorem State.resetRegs_kept4 (s : State) (sel : Nat → Bool) : (State.resetRegs s 4 sel).kept = s.kept :=
  s.resetRegs_kept 4 sel (.inl rfl)
@[simp] theorem State.resetRegs_kept8 (s : State) (sel : Nat → Bool) : (State.resetRegs s 8 sel).kept = s.kept :=
  s.resetRegs_kept 8 sel (.inr (.inl rfl))
@[simp] theorem State.resetRegs_kept16 (s : State) (sel : Nat → Bool) : (State.resetRegs s 16 sel).kept = s.kept :=
  s.resetRegs_kept 16 sel (.inr (.inr rfl))

@[simp] theorem State.emit_kept (s : State) (o : Output) : (State.emit s o).kept = s.kept := by
  unfold State.emit
  (repeat' (first | with_reducible rfl | (simp (disch := first | assumption | (simp only [away]; omega) | simp); done) | split | apply foldl_kept_of | apply foldl_kept_snd_of | apply foldl_kept_fst_of | intro _ _ | simp (disch := first | assumption | (simp only [away]; omega) | simp) | dsimp only | rfl))

@[simp] theorem State.emits_kept (s : State) (os : List Output) : (State.emits s os).kept = s.kept := by
  unfold State.emits
  (repeat' (first | with_reducible rfl | (simp (disch := first | assumption | (simp only [away]; omega) | simp); done) | split | apply foldl_kept_of | apply foldl_kept_snd_of | apply foldl_kept_fst_of | intro _ _ | simp (disch := first | assumption | (simp only [away]; omega) | simp) | dsimp only | rfl))

@[simp] theorem State.drawNat_kept (s : State) : (State.drawNat s).2.kept = s.kept := by
  unfold State.drawNat
  (repeat' (first | with_reducible rfl | (simp (disch := first | assumption | (simp only [away]; omega) | simp); done) | split | apply foldl_kept_of | apply foldl_kept_snd_of | apply foldl_kept_fst_of | intro _ _ | simp (disch := first | assumption | (simp only [away]; omega) | simp) | dsimp only | rfl))

@[simp] theorem State.drawBlock_kept (s : State) (n : Nat) : (State.drawBlock s n).2.kept = s.kept := by
  unfold State.drawBlock
  (repeat' (first | with_reducible rfl | (simp (disch := first | assumption | (simp only [away]; omega) | simp); done) | split | apply foldl_kept_of | apply foldl_kept_snd_of | apply foldl_kept_fst_of | intro _ _ | simp (disch := first | assumption | (simp only [away]; omega) | simp) | dsimp only | rfl))

@[simp] theorem State.drawInt_kept (s : State) : (State.drawInt s).2.kept = s.kept := by
  unfold State.drawInt
  (repeat' (first | with_reducible rfl | (simp (disch := first | assumption | (simp only [away]; omega) | simp); done) | split | apply foldl_kept_of | apply foldl_kept_snd_of | apply foldl_kept_fst_of | intro _ _ | simp (disch := first | assumption | (simp only [away]; omega) | simp) | dsimp only | rfl))

@[simp] theorem State.drawBytes_kept (s : State) : (State.drawBytes s).2.kept = s.kept := by
  unfold State.drawBytes
  (repeat' (first | with_reducible rfl | (simp (disch := first | assumption | (simp only [away]; omega) | simp); done) | split | apply foldl_kept_of | apply foldl_kept_snd_of | apply foldl_kept_fst_of | intro _ _ | simp (disch := first | assumption | (simp only [away]; omega) | simp) | dsimp only | rfl))

@[simp] theorem State.drawQuot_kept (s : State) (num : Int) (den : Nat) : (State.drawQuot s num den).2.kept = s.kept := by
  unfold State.drawQuot
  split <;> rfl

@[simp] theorem State.sendVector_kept (s : State) (v : Nat) : (State.sendVector s v).kept = s.kept := by
  unfold State.sendVector
  simp (disch := first | assumption | (simp only [away]; omega) | simp only [onRing_away, ringEnabled_away, ringErr_away, ringCause_away, ringArmed_away, ringProd_away, ringCons_away]) only [State.ite_kept, ite_self, State.emit_kept, State.modRings_kept]

@[simp] theorem State.raiseCause_kept (s : State) (i : Nat) : (State.raiseCause s i).kept = s.kept := by
  unfold State.raiseCause
  simp (disch := first | assumption | (simp only [away, Reg.GLB_CAUSE_classes, Reg.GLB_INT_CFG_vector, Reg.GLB_INT_EN_classes]; omega) | simp only [onRing_away, ringEnabled_away, ringErr_away, ringCause_away, ringArmed_away, ringProd_away, ringCons_away]) only [State.ite_kept, ite_self, State.raise_kept, State.sendVector_kept]

@[simp] theorem State.setWaiting_kept (s : State) (k : Nat) (l : List (Nat × Nat)) : (State.setWaiting s k l).kept = s.kept := by
  unfold State.setWaiting
  simp (disch := first | assumption | (simp only [away]; omega) | simp only [onRing_away, ringEnabled_away, ringErr_away, ringCause_away, ringArmed_away, ringProd_away, ringCons_away]) only [State.ite_kept, ite_self, State.modRings_kept, State.set_kept]

theorem State.stopRing_kept (s : State) (stop : Nat) (err cause : Fld) (code : Nat) (h : away err.off) (h' : away cause.off) :
    (State.stopRing s stop err cause code).kept = s.kept := by
  unfold State.stopRing
  rw [State.sendVector_kept, State.raise_kept _ _ (by simp [away, Reg.HR_STATUS_ring_error]), State.set_kept _ _ _ h',
    State.raise_kept _ _ h, State.modRings_kept]

@[simp] theorem State.moderate_kept (s : State) (k : Nat) (urgent : Bool) : (State.moderate s k urgent).kept = s.kept := by
  unfold State.moderate ringArmed
  (repeat' split) <;> simp

@[simp] theorem State.writeEntry_kept (s : State) (k : Nat) (entry : List (BitVec 8)) (urgent : Bool) : (State.writeEntry s k entry urgent).kept = s.kept := by
  unfold State.writeEntry ringProd
  simp

@[simp] theorem State.logEvent_kept (s : State) (e : EventRec) : (State.logEvent s e).kept = s.kept := by
  unfold State.logEvent
  simp (disch := first | assumption | (simp only [away]; omega) | simp only [onRing_away, ringEnabled_away, ringErr_away, ringCause_away, ringArmed_away, ringProd_away, ringCons_away]) only [State.ite_kept, ite_self, State.modRings_kept]

@[simp] theorem State.loseEvent_kept (s : State) : (State.loseEvent s).kept = s.kept := by
  unfold State.loseEvent
  simp (disch := first | assumption | (simp only [away, Reg.HR_EVT_LOST, Reg.HR_STATUS_evt_lost]; omega) | simp only [onRing_away, ringEnabled_away, ringErr_away, ringCause_away, ringArmed_away, ringProd_away, ringCons_away]) only [State.ite_kept, ite_self, State.bump_kept, State.raise_kept, State.raiseCause_kept]

@[simp] theorem State.ringEvent_kept (s : State) (e : EventRec) : (State.ringEvent s e).kept = s.kept := by
  unfold State.ringEvent
  simp (disch := first | assumption | (simp only [away, Reg.HR_EVT_MASK_mask]; omega) | simp only [onRing_away, ringEnabled_away, ringErr_away, ringCause_away, ringArmed_away, ringProd_away, ringCons_away]) only [State.ite_kept, ite_self, State.loseEvent_kept, State.writeEntry_kept]

@[simp] theorem State.post_kept (s : State) (code : Nat) (args : List EArg) : (State.post s code args).kept = s.kept := by
  unfold State.post
  simp (disch := first | assumption | (simp only [away]; omega) | simp only [onRing_away, ringEnabled_away, ringErr_away, ringCause_away, ringArmed_away, ringProd_away, ringCons_away]) only [State.ite_kept, ite_self, State.logEvent_kept, State.raiseCause_kept, State.ringEvent_kept]

@[simp] theorem State.setFlight_kept (s : State) (f : Flight) : (State.setFlight s f).kept = s.kept := by
  unfold State.setFlight
  simp (disch := first | assumption | (simp only [away]; omega) | simp only [onRing_away, ringEnabled_away, ringErr_away, ringCause_away, ringArmed_away, ringProd_away, ringCons_away]) only [State.ite_kept, ite_self, State.modRings_kept]

@[simp] theorem State.dropFlight_kept (s : State) (ring n : Nat) : (State.dropFlight s ring n).kept = s.kept := by
  unfold State.dropFlight
  simp (disch := first | assumption | (simp only [away, Reg.HR_INFLIGHT]; omega) | simp only [onRing_away, ringEnabled_away, ringErr_away, ringCause_away, ringArmed_away, ringProd_away, ringCons_away]) only [State.ite_kept, ite_self, State.modRings_kept, State.set_kept]

@[simp] theorem State.endOp_kept (s : State) (ring n status : Nat) (result : List (Nat × List (BitVec 8))) : (State.endOp s ring n status result).kept = s.kept := by
  unfold State.endOp
  (try dsimp only)
  (repeat' split) <;> simp (disch := first | assumption | (simp only [away]; omega) | simp only [onRing_away, ringEnabled_away, ringErr_away, ringCause_away, ringArmed_away, ringProd_away, ringCons_away]) only [State.ite_kept, ite_self, State.dropFlight_kept, State.setFlight_kept]

@[simp] theorem State.beginOp_kept (s : State) (ring n : Nat) : (State.beginOp s ring n).kept = s.kept := by
  unfold State.beginOp
  (try dsimp only)
  (repeat' split) <;> simp (disch := first | assumption | (simp only [away]; omega) | simp only [onRing_away, ringEnabled_away, ringErr_away, ringCause_away, ringArmed_away, ringProd_away, ringCons_away]) only [State.ite_kept, ite_self, State.setFlight_kept]

end Sys2Proof.Machine
end

