-- ==== Sys2Proof/Laws/KeptFilter.lean ====
section
/-! SUPPORT. The operations of Machine/Filter.lean leave the kept words alone. -/

set_option linter.all false

namespace Sys2Proof.Machine

@[simp] theorem State.setBall_kept (s : State) (i : Nat) (b : Ball) : (State.setBall s i b).kept = s.kept := by
  unfold State.setBall
  simp (disch := first | assumption | (simp only [away]; omega) | simp only [onRing_away, ringEnabled_away, ringErr_away, ringCause_away, ringArmed_away, ringProd_away, ringCons_away]) only [State.ite_kept, ite_self, State.modInputs_kept, State.set_kept]

@[simp] theorem State.onEnc_kept (s : State) (n : Nat) (f : Encoder → Encoder) : (State.onEnc s n f).kept = s.kept := by
  unfold State.onEnc
  simp (disch := first | assumption | (simp only [away]; omega) | simp only [onRing_away, ringEnabled_away, ringErr_away, ringCause_away, ringArmed_away, ringProd_away, ringCons_away]) only [State.ite_kept, ite_self, State.modInputs_kept, State.set_kept]

@[simp] theorem State.onTrig_kept (s : State) (n : Nat) (f : Trigger → Trigger) : (State.onTrig s n f).kept = s.kept := by
  unfold State.onTrig
  simp (disch := first | assumption | (simp only [away]; omega) | simp only [onRing_away, ringEnabled_away, ringErr_away, ringCause_away, ringArmed_away, ringProd_away, ringCons_away]) only [State.ite_kept, ite_self, State.modInputs_kept, State.set_kept]

@[simp] theorem State.restartBalls_kept (s : State) (l : List Nat) : (State.restartBalls s l).kept = s.kept := by
  unfold State.restartBalls
  (repeat' (first | with_reducible rfl | (simp (disch := first | assumption | (simp only [away]; omega) | simp only [onRing_away, ringEnabled_away, ringErr_away, ringCause_away, ringArmed_away, ringProd_away, ringCons_away]) only [State.ite_kept, ite_self, State.setBall_kept]; done) | split | apply foldl_kept_of | apply foldl_kept_snd_of | apply foldl_kept_fst_of | intro _ _ | simp (disch := first | assumption | (simp only [away]; omega) | simp only [onRing_away, ringEnabled_away, ringErr_away, ringCause_away, ringArmed_away, ringProd_away, ringCons_away]) only [State.ite_kept, ite_self, State.setBall_kept] | dsimp only))

end Sys2Proof.Machine
end

