-- ==== Sys2Proof/Laws/KeptNet.lean ====
section
/-! SUPPORT. The operations of Machine/Net.lean leave the kept words alone. -/

set_option linter.all false

namespace Sys2Proof.Machine

@[simp] theorem State.sendNet_kept (s : State) (p : Nat) (dest : Nat) (carrier : FrameCarrier) (body : List (BitVec 8)) : (State.sendNet s p dest carrier body).kept = s.kept := by
  unfold State.sendNet
  simp (disch := first | assumption | (simp only [away, Reg.ETHp_CFG_enable, Reg.ETHp_TX_FRAMES]; omega) | simp only [onRing_away, ringEnabled_away, ringErr_away, ringCause_away, ringArmed_away, ringProd_away, ringCons_away]) only [State.ite_kept, ite_self, State.bump_kept, State.emit_kept]

@[simp] theorem State.sendWc_kept (s : State) (p : Nat) (m : List (BitVec 8)) : (State.sendWc s p m).kept = s.kept := by
  unfold State.sendWc
  simp (disch := first | assumption | (simp only [away, Reg.WC_NET_CFG_encap]; omega) | simp only [onRing_away, ringEnabled_away, ringErr_away, ringCause_away, ringArmed_away, ringProd_away, ringCons_away]) only [State.ite_kept, ite_self, State.sendNet_kept]

end Sys2Proof.Machine
end

