-- ==== Sys2Proof/Laws/KeptPcs.lean ====
section
/-! SUPPORT. The operations of Machine/Pcs.lean leave the kept words alone. -/

set_option linter.all false

namespace Sys2Proof.Machine

@[simp] theorem State.setLane_kept (s : State) (n : Nat) (l : Lane) : (State.setLane s n l).kept = s.kept := by
  unfold State.setLane
  simp (disch := first | assumption | (simp only [away]; omega) | simp only [onRing_away, ringEnabled_away, ringErr_away, ringCause_away, ringArmed_away, ringProd_away, ringCons_away]) only [State.ite_kept, ite_self, State.modLink_kept, State.set_kept]

@[simp] theorem State.onLane_kept (s : State) (n : Nat) (f : Lane → Lane) : (State.onLane s n f).kept = s.kept := by
  unfold State.onLane
  simp (disch := first | assumption | (simp only [away]; omega) | simp only [onRing_away, ringEnabled_away, ringErr_away, ringCause_away, ringArmed_away, ringProd_away, ringCons_away]) only [State.ite_kept, ite_self, State.setLane_kept]

@[simp] theorem State.laneSend_kept (s : State) (n : Nat) (blocks : List LaneBlock) (o : List LaneBlock → Output) : (State.laneSend s n blocks o).kept = s.kept := by
  unfold State.laneSend
  simp (disch := first | assumption | (simp only [away, Reg.LANEn_CFG_tx_invert]; omega) | simp only [onRing_away, ringEnabled_away, ringErr_away, ringCause_away, ringArmed_away, ringProd_away, ringCons_away]) only [State.ite_kept, ite_self, State.drawNat_kept, State.emit_kept, State.modLink_kept, State.set_kept]

@[simp] theorem State.sendPacket_kept (s : State) (n : Nat) (p : List (BitVec 8)) : (State.sendPacket s n p).kept = s.kept := by
  unfold State.sendPacket
  simp (disch := first | assumption | (simp only [away]; omega) | simp only [onRing_away, ringEnabled_away, ringErr_away, ringCause_away, ringArmed_away, ringProd_away, ringCons_away]) only [State.ite_kept, ite_self, State.laneSend_kept]

end Sys2Proof.Machine
end

