-- ==== Sys2Proof/Laws/KeptStatus.lean ====
section
/-! SUPPORT. The operations of Machine/Status.lean leave the kept words alone. -/

set_option linter.all false

namespace Sys2Proof.Machine

@[simp] theorem State.setKeyState_kept (s : State) (j v : Nat) : (State.setKeyState s j v).kept = s.kept := by
  unfold State.setKeyState
  simp (disch := first | assumption | (simp only [away, Reg.SEC_KEY_STATE_state]; omega) | simp only [onRing_away, ringEnabled_away, ringErr_away, ringCause_away, ringArmed_away, ringProd_away, ringCons_away]) only [State.ite_kept, ite_self, State.set_kept]

@[simp] theorem State.ceilingLow_kept (s : State) : (State.ceilingLow s).kept = s.kept := by
  unfold State.ceilingLow
  simp (disch := first | assumption | (simp only [away, Reg.LS_CEILING_ceiling, Reg.LS_CEILING_code, Reg.LS_CEIL_DETAIL_detail]; omega) | simp only [onRing_away, ringEnabled_away, ringErr_away, ringCause_away, ringArmed_away, ringProd_away, ringCons_away]) only [State.ite_kept, ite_self, State.modSched_kept, State.set_kept]

@[simp] theorem State.refresh_kept (s : State) : (State.refresh s).kept = s.kept := by
  unfold State.refresh
  simp (disch := first | assumption | (simp only [away, Reg.GLB_STATUS_low_cause, Reg.LS_CEILING_code, Reg.TALLY_STATUS_self_fit]; omega) | simp only [onRing_away, ringEnabled_away, ringErr_away, ringCause_away, ringArmed_away, ringProd_away, ringCons_away]) only [State.ite_kept, ite_self, State.ceilingLow_kept, State.modPower_kept, State.post_kept, State.raiseCause_kept, State.set_kept, State.setOn_kept]

@[simp] theorem State.showPort_kept (s : State) (p : Nat) : (State.showPort s p).kept = s.kept := by
  unfold State.showPort
  simp (disch := first | assumption | (simp only [away, Reg.CAMp_STATUS_state]; omega) | simp only [onRing_away, ringEnabled_away, ringErr_away, ringCause_away, ringArmed_away, ringProd_away, ringCons_away]) only [State.ite_kept, ite_self, State.set_kept]

@[simp] theorem State.showPorts_kept (s : State) : (State.showPorts s).kept = s.kept := by
  unfold State.showPorts
  simp (disch := first | assumption | (simp only [away]; omega) | simp only [onRing_away, ringEnabled_away, ringErr_away, ringCause_away, ringArmed_away, ringProd_away, ringCons_away]) only [State.ite_kept, ite_self, State.showPort_kept]

@[simp] theorem State.enter_kept (s : State) (st : Nat) : (State.enter s st).kept = s.kept := by
  unfold State.enter
  simp (disch := first | assumption | (simp only [away, Reg.PWR_STATE_state]; omega) | simp only [onRing_away, ringEnabled_away, ringErr_away, ringCause_away, ringArmed_away, ringProd_away, ringCons_away]) only [State.ite_kept, ite_self, State.refresh_kept, State.set_kept, State.showPorts_kept]

@[simp] theorem State.setBanks_kept (s : State) (kind index sub : Nat) (l : List Bank) : (State.setBanks s kind index sub l).kept = s.kept := by
  unfold State.setBanks
  simp (disch := first | assumption | (simp only [away]; omega) | simp only [onRing_away, ringEnabled_away, ringErr_away, ringCause_away, ringArmed_away, ringProd_away, ringCons_away]) only [State.ite_kept, ite_self, State.modSched_kept, State.set_kept]

@[simp] theorem State.onBad_kept (s : State) (kind index sub : Nat) (standby : Bool) (f : List Nat → List Nat) : (State.onBad s kind index sub standby f).kept = s.kept := by
  unfold State.onBad
  (try dsimp only)
  (repeat' split) <;> simp (disch := first | assumption | (simp only [away]; omega) | simp only [onRing_away, ringEnabled_away, ringErr_away, ringCause_away, ringArmed_away, ringProd_away, ringCons_away]) only [State.ite_kept, ite_self, State.modSched_kept, State.setBanks_kept]

@[simp] theorem State.setNode_kept (s : State) (a : Nat) (n : Node) : (State.setNode s a n).kept = s.kept := by
  unfold State.setNode
  simp (disch := first | assumption | (simp only [away]; omega) | simp only [onRing_away, ringEnabled_away, ringErr_away, ringCause_away, ringArmed_away, ringProd_away, ringCons_away]) only [State.ite_kept, ite_self, State.modLink_kept, State.set_kept]

@[simp] theorem State.onNode_kept (s : State) (a : Nat) (f : Node → Node) : (State.onNode s a f).kept = s.kept := by
  unfold State.onNode
  simp (disch := first | assumption | (simp only [away]; omega) | simp only [onRing_away, ringEnabled_away, ringErr_away, ringCause_away, ringArmed_away, ringProd_away, ringCons_away]) only [State.ite_kept, ite_self, State.setNode_kept]

@[simp] theorem State.setHead_kept (s : State) (a : Nat) (h : HeadSched) : (State.setHead s a h).kept = s.kept := by
  unfold State.setHead
  simp (disch := first | assumption | (simp only [away]; omega) | simp only [onRing_away, ringEnabled_away, ringErr_away, ringCause_away, ringArmed_away, ringProd_away, ringCons_away]) only [State.ite_kept, ite_self, State.modSched_kept, State.set_kept]

@[simp] theorem State.onHead_kept (s : State) (a : Nat) (f : HeadSched → HeadSched) : (State.onHead s a f).kept = s.kept := by
  unfold State.onHead
  simp (disch := first | assumption | (simp only [away]; omega) | simp only [onRing_away, ringEnabled_away, ringErr_away, ringCause_away, ringArmed_away, ringProd_away, ringCons_away]) only [State.ite_kept, ite_self, State.setHead_kept]

end Sys2Proof.Machine
end

