-- ==== Sys2Proof/Laws/KeptObsMath.lean ====
section
/-! SUPPORT. The operations of Machine/ObsMath.lean leave the kept words alone. -/

set_option linter.all false

namespace Sys2Proof.Machine

@[simp] theorem State.setInst_kept (s : State) (k : Nat) (i : Instance) : (State.setInst s k i).kept = s.kept := by
  unfold State.setInst
  simp (disch := first | assumption | (simp only [away]; omega) | simp only [onRing_away, ringEnabled_away, ringErr_away, ringCause_away, ringArmed_away, ringProd_away, ringCons_away]) only [State.ite_kept, ite_self, State.modObs_kept, State.set_kept]

end Sys2Proof.Machine
end

