-- ==== Sys2Proof/Laws/KeptStream.lean ====
section
/-! SUPPORT. The operations of Machine/Stream.lean leave the kept words alone. -/

set_option linter.all false

namespace Sys2Proof.Machine

@[simp] theorem State.placePanel_kept (s : State) (b : Job) (start : Nat) : (State.placePanel s b start).kept = s.kept := by
  unfold State.placePanel
  (try dsimp only)
  (repeat' split) <;> simp (disch := first | assumption | (simp only [away]; omega) | simp only [onRing_away, ringEnabled_away, ringErr_away, ringCause_away, ringArmed_away, ringProd_away, ringCons_away]) only [State.ite_kept, ite_self, State.modSched_kept]

@[simp] theorem State.setReturns_kept (s : State) (f : Option Nat → Option Nat) : (State.setReturns s f).kept = s.kept := by
  unfold State.setReturns
  simp (disch := first | assumption | (simp only [away]; omega) | simp only [onRing_away, ringEnabled_away, ringErr_away, ringCause_away, ringArmed_away, ringProd_away, ringCons_away]) only [State.ite_kept, ite_self, State.modLink_kept]

@[simp] theorem State.showParting_kept (s : State) : (State.showParting s).kept = s.kept := by
  unfold State.showParting
  simp (disch := first | assumption | (simp only [away, Reg.LS_NEXT_PARTING_HI, Reg.LS_NEXT_PARTING_LO]; omega) | simp only [onRing_away, ringEnabled_away, ringErr_away, ringCause_away, ringArmed_away, ringProd_away, ringCons_away]) only [State.ite_kept, ite_self, State.set2_kept, State.setReturns_kept]

@[simp] theorem State.extend_kept (s : State) : (State.extend s).kept = s.kept := by
  unfold State.extend
  (try dsimp only)
  (repeat' split) <;> simp (disch := first | assumption | (simp only [away]; omega) | simp only [onRing_away, ringEnabled_away, ringErr_away, ringCause_away, ringArmed_away, ringProd_away, ringCons_away]) only [State.ite_kept, ite_self, State.placePanel_kept, State.showParting_kept]

@[simp] theorem State.retireJobs_kept (s : State) : (State.retireJobs s).kept = s.kept := by
  unfold State.retireJobs
  simp (disch := first | assumption | (simp only [away]; omega) | simp only [onRing_away, ringEnabled_away, ringErr_away, ringCause_away, ringArmed_away, ringProd_away, ringCons_away]) only [State.ite_kept, ite_self, State.modSched_kept]

@[simp] theorem State.haltParting_kept (s : State) (starts : List Nat) : (State.haltParting s starts).kept = s.kept := by
  unfold State.haltParting
  (try dsimp only)
  (repeat' split) <;> simp (disch := first | assumption | (simp only [away]; omega) | simp only [onRing_away, ringEnabled_away, ringErr_away, ringCause_away, ringArmed_away, ringProd_away, ringCons_away]) only [State.ite_kept, ite_self, State.modPower_kept, State.modTally_kept, State.refresh_kept]

@[simp] theorem State.partings_kept (s : State) : (State.partings s).kept = s.kept := by
  unfold State.partings
  (repeat' (first | with_reducible rfl | (simp (disch := first | assumption | (simp only [away, Reg.LS_EVENT_CFG_parting_events]; omega) | simp only [onRing_away, ringEnabled_away, ringErr_away, ringCause_away, ringArmed_away, ringProd_away, ringCons_away]) only [State.ite_kept, ite_self, State.haltParting_kept, State.modSched_kept, State.post_kept, State.retireJobs_kept]; done) | split | apply foldl_kept_of | apply foldl_kept_snd_of | apply foldl_kept_fst_of | intro _ _ | simp (disch := first | assumption | (simp only [away, Reg.LS_EVENT_CFG_parting_events]; omega) | simp only [onRing_away, ringEnabled_away, ringErr_away, ringCause_away, ringArmed_away, ringProd_away, ringCons_away]) only [State.ite_kept, ite_self, State.haltParting_kept, State.modSched_kept, State.post_kept, State.retireJobs_kept] | dsimp only))

@[simp] theorem State.closeRun_kept (s : State) (r : Nat × Int × Nat) : (State.closeRun s r).kept = s.kept := by
  unfold State.closeRun
  (try dsimp only)
  (repeat' split) <;> simp (disch := first | assumption | (simp only [away, Reg.LS_STATUS_skipped]; omega) | simp only [onRing_away, ringEnabled_away, ringErr_away, ringCause_away, ringArmed_away, ringProd_away, ringCons_away]) only [State.ite_kept, ite_self, State.modSched_kept, State.post_kept, State.raise_kept]

@[simp] theorem State.noteSkip_kept (s : State) (reason : Nat) (l : Int) : (State.noteSkip s reason l).kept = s.kept := by
  unfold State.noteSkip
  (try dsimp only)
  (repeat' split) <;> simp (disch := first | assumption | (simp only [away, Reg.LS_SKIP_COUNT]; omega) | simp only [onRing_away, ringEnabled_away, ringErr_away, ringCause_away, ringArmed_away, ringProd_away, ringCons_away]) only [State.ite_kept, ite_self, State.bump_kept, State.modSched_kept]

end Sys2Proof.Machine
end

