-- ==== Sys2Proof/Laws/KeptRegAccess.lean ====
section
/-! SUPPORT. The operations of Machine/RegAccess.lean leave the kept words alone. -/

set_option linter.all false

namespace Sys2Proof.Machine

@[simp] theorem State.writeWord_kept (s : State) (off : Nat) (v : BitVec 32) (h : away off) :
    (State.writeWord s off v).kept = s.kept := by
  unfold State.writeWord; exact s.setReg_kept _ _ h

theorem State.hostWrite_kept (s : State) (off : Nat) (f : State → State) (h : (f s).kept = s.kept) :
    (State.hostWrite s off f).kept = s.kept := by
  unfold State.hostWrite
  split
  · rfl
  · split
    · simp (disch := first | assumption | (simp only [away, Reg.GLB_STATUS_off_access]; omega))
    · exact h

end Sys2Proof.Machine
end

