-- ==== Sys2Proof/Laws/KeptInhibit.lean ====
section
/-! SUPPORT. The operations of Machine/Inhibit.lean leave the kept words alone. -/

set_option linter.all false

namespace Sys2Proof.Machine

@[simp] theorem State.sendInhibit_kept (s : State) (assert : Bool) (lane : Nat) : (State.sendInhibit s assert lane).kept = s.kept := by
  unfold State.sendInhibit
  simp (disch := first | assumption | (simp only [away]; omega) | simp only [onRing_away, ringEnabled_away, ringErr_away, ringCause_away, ringArmed_away, ringProd_away, ringCons_away]) only [State.ite_kept, ite_self, State.laneSend_kept, State.modLink_kept, State.set_kept]

@[simp] theorem State.inhibitAll_kept (s : State) (assert : Bool) : (State.inhibitAll s assert).kept = s.kept := by
  unfold State.inhibitAll
  (repeat' (first | with_reducible rfl | (simp (disch := first | assumption | (simp only [away]; omega) | simp only [onRing_away, ringEnabled_away, ringErr_away, ringCause_away, ringArmed_away, ringProd_away, ringCons_away]) only [State.ite_kept, ite_self, State.sendInhibit_kept]; done) | split | apply foldl_kept_of | apply foldl_kept_snd_of | apply foldl_kept_fst_of | intro _ _ | simp (disch := first | assumption | (simp only [away]; omega) | simp only [onRing_away, ringEnabled_away, ringErr_away, ringCause_away, ringArmed_away, ringProd_away, ringCons_away]) only [State.ite_kept, ite_self, State.sendInhibit_kept] | dsimp only))

@[simp] theorem State.onModel_kept (s : State) (a : Nat) (f : HeadModel → HeadModel) : (State.onModel s a f).kept = s.kept := by
  unfold State.onModel
  simp (disch := first | assumption | (simp only [away]; omega) | simp only [onRing_away, ringEnabled_away, ringErr_away, ringCause_away, ringArmed_away, ringProd_away, ringCons_away]) only [State.ite_kept, ite_self, State.modCare_kept, State.set_kept]

@[simp] theorem State.heatLine_kept (s : State) (a : Nat) (b : Bound) : (State.heatLine s a b).kept = s.kept := by
  unfold State.heatLine
  simp (disch := first | assumption | (simp only [away, Reg.HC_HEADa_STATE_warm_level]; omega) | simp only [onRing_away, ringEnabled_away, ringErr_away, ringCause_away, ringArmed_away, ringProd_away, ringCons_away]) only [State.ite_kept, ite_self, State.onModel_kept]

@[simp] theorem State.retireHead_kept (s : State) (h : Nat) : (State.retireHead s h).kept = s.kept := by
  unfold State.retireHead
  (repeat' (first | with_reducible rfl | (simp (disch := first | assumption | (simp only [away]; omega) | simp only [onRing_away, ringEnabled_away, ringErr_away, ringCause_away, ringArmed_away, ringProd_away, ringCons_away]) only [State.ite_kept, ite_self, State.heatLine_kept, State.noteSkip_kept, State.onHead_kept]; done) | split | apply foldl_kept_of | apply foldl_kept_snd_of | apply foldl_kept_fst_of | intro _ _ | simp (disch := first | assumption | (simp only [away]; omega) | simp only [onRing_away, ringEnabled_away, ringErr_away, ringCause_away, ringArmed_away, ringProd_away, ringCons_away]) only [State.ite_kept, ite_self, State.heatLine_kept, State.noteSkip_kept, State.onHead_kept] | dsimp only))

@[simp] theorem State.retireBound_kept (s : State) : (State.retireBound s).kept = s.kept := by
  unfold State.retireBound
  (repeat' (first | with_reducible rfl | (simp (disch := first | assumption | (simp only [away]; omega) | simp only [onRing_away, ringEnabled_away, ringErr_away, ringCause_away, ringArmed_away, ringProd_away, ringCons_away]) only [State.ite_kept, ite_self, State.retireHead_kept]; done) | split | apply foldl_kept_of | apply foldl_kept_snd_of | apply foldl_kept_fst_of | intro _ _ | simp (disch := first | assumption | (simp only [away]; omega) | simp only [onRing_away, ringEnabled_away, ringErr_away, ringCause_away, ringArmed_away, ringProd_away, ringCons_away]) only [State.ite_kept, ite_self, State.retireHead_kept] | dsimp only))

@[simp] theorem State.startInhibit_kept (s : State) (set : Link → Link) : (State.startInhibit s set).kept = s.kept := by
  unfold State.startInhibit
  simp (disch := first | assumption | (simp only [away, Reg.LINK_INHIBIT_sending]; omega) | simp only [onRing_away, ringEnabled_away, ringErr_away, ringCause_away, ringArmed_away, ringProd_away, ringCons_away]) only [State.ite_kept, ite_self, State.inhibitAll_kept, State.modLink_kept, State.modSched_kept, State.raise_kept, State.retireBound_kept]

@[simp] theorem State.endInhibit_kept (s : State) (set : Link → Link) : (State.endInhibit s set).kept = s.kept := by
  unfold State.endInhibit
  (repeat' (first | with_reducible rfl | (simp (disch := first | assumption | (simp only [away, Reg.LINK_INHIBIT_sending]; omega) | simp only [onRing_away, ringEnabled_away, ringErr_away, ringCause_away, ringArmed_away, ringProd_away, ringCons_away]) only [State.ite_kept, ite_self, State.clear_kept, State.inhibitAll_kept, State.modLink_kept, State.modSched_kept, State.retireBound_kept]; done) | split | apply foldl_kept_of | apply foldl_kept_snd_of | apply foldl_kept_fst_of | intro _ _ | simp (disch := first | assumption | (simp only [away, Reg.LINK_INHIBIT_sending]; omega) | simp only [onRing_away, ringEnabled_away, ringErr_away, ringCause_away, ringArmed_away, ringProd_away, ringCons_away]) only [State.ite_kept, ite_self, State.clear_kept, State.inhibitAll_kept, State.modLink_kept, State.modSched_kept, State.retireBound_kept] | dsimp only))

@[simp] theorem State.setCam_kept (s : State) (p : Nat) (c : CamPort) : (State.setCam s p c).kept = s.kept := by
  unfold State.setCam
  simp (disch := first | assumption | (simp only [away]; omega) | simp only [onRing_away, ringEnabled_away, ringErr_away, ringCause_away, ringArmed_away, ringProd_away, ringCons_away]) only [State.ite_kept, ite_self, State.modAssay_kept, State.set_kept]

@[simp] theorem State.onCam_kept (s : State) (p : Nat) (f : CamPort → CamPort) : (State.onCam s p f).kept = s.kept := by
  unfold State.onCam
  simp (disch := first | assumption | (simp only [away]; omega) | simp only [onRing_away, ringEnabled_away, ringErr_away, ringCause_away, ringArmed_away, ringProd_away, ringCons_away]) only [State.ite_kept, ite_self, State.setCam_kept]

theorem State.postCam_kept (s : State) (p code : Nat) (limited : Bool) (flag : Option Fld) (args : List EArg)
    (h : ∀ f, flag = some f → away f.off) : (State.postCam s p code limited flag args).kept = s.kept := by
  unfold State.postCam
  cases flag with
  | none => (try dsimp only); (repeat' split) <;> simp (disch := first | assumption | (simp only [away, Reg.ASSAY_STATUS_ports]; omega))
  | some f =>
    have hf := h f rfl
    (try dsimp only); (repeat' split) <;> simp (disch := first | assumption | (simp only [away, Reg.ASSAY_STATUS_ports]; omega))

@[simp] theorem State.postCam_some_kept (s : State) (p code : Nat) (limited : Bool) (f : Fld) (args : List EArg) (h : away f.off) :
    (State.postCam s p code limited (some f) args).kept = s.kept :=
  s.postCam_kept _ _ _ _ _ (by intro g hg; injection hg with hg; exact hg ▸ h)

@[simp] theorem State.postCam_none_kept (s : State) (p code : Nat) (limited : Bool) (args : List EArg) :
    (State.postCam s p code limited none args).kept = s.kept := s.postCam_kept _ _ _ _ _ (by simp)

@[simp] theorem State.pushStamp_kept (s : State) (p : Nat) (x : Int) (t unit : Nat) : (State.pushStamp s p x t unit).kept = s.kept := by
  unfold State.pushStamp
  simp (disch := first | assumption | (simp only [away, Reg.CAMp_ERRCNT_B_stamps_lost, Reg.CAMp_STATUS_lost_seen]; omega) | simp)

end Sys2Proof.Machine
end

