-- ==== Sys2Proof/Laws/KeptCompare.lean ====
section
/-! SUPPORT. The operations of Machine/Compare.lean leave the kept words alone. -/

set_option linter.all false

namespace Sys2Proof.Machine

@[simp] theorem State.setCmp_kept (s : State) (n : Nat) (c : Compare) : (State.setCmp s n c).kept = s.kept := by
  unfold State.setCmp
  simp (disch := first | assumption | (simp only [away]; omega) | simp only [onRing_away, ringEnabled_away, ringErr_away, ringCause_away, ringArmed_away, ringProd_away, ringCons_away]) only [State.ite_kept, ite_self, State.modObs_kept, State.set_kept]

@[simp] theorem State.onCmp_kept (s : State) (n : Nat) (f : Compare → Compare) : (State.onCmp s n f).kept = s.kept := by
  unfold State.onCmp
  simp (disch := first | assumption | (simp only [away]; omega) | simp only [onRing_away, ringEnabled_away, ringErr_away, ringCause_away, ringArmed_away, ringProd_away, ringCons_away]) only [State.ite_kept, ite_self, State.setCmp_kept]

@[simp] theorem State.postMissed_kept (s : State) (n : Nat) (c : Compare) : (State.postMissed s n c).kept = s.kept := by
  unfold State.postMissed
  simp (disch := first | assumption | (simp only [away]; omega) | simp only [onRing_away, ringEnabled_away, ringErr_away, ringCause_away, ringArmed_away, ringProd_away, ringCons_away]) only [State.ite_kept, ite_self, State.onCmp_kept, State.post_kept]

@[simp] theorem State.afterPulse_kept (s : State) (n : Nat) (back : Bool) : (State.afterPulse s n back).kept = s.kept := by
  unfold State.afterPulse
  simp (disch := first | assumption | (simp only [away, Reg.CMPn_CFG_periodic, Reg.CMPn_STATUS_skip_count, Reg.CMPn_STATUS_state, Reg.CMPn_WIDTH_repeat]; omega) | simp only [onRing_away, ringEnabled_away, ringErr_away, ringCause_away, ringArmed_away, ringProd_away, ringCons_away]) only [State.ite_kept, ite_self, State.bump_kept, State.postMissed_kept, State.set_kept, State.setCmp_kept]

@[simp] theorem State.pulse_kept (s : State) (n t : Nat) (back : Bool) : (State.pulse s n t back).kept = s.kept := by
  unfold State.pulse
  simp (disch := first | assumption | (simp only [away, Reg.CMPn_CFG_cam, Reg.CMPn_LAST_POS_HI, Reg.CMPn_LAST_POS_LO, Reg.CMPn_LAST_TIME_HI, Reg.CMPn_LAST_TIME_LO, Reg.CMPn_STATUS_overlap, Reg.CMPn_WIDTH_width]; omega) | simp only [onRing_away, ringEnabled_away, ringErr_away, ringCause_away, ringArmed_away, ringProd_away, ringCons_away]) only [State.ite_kept, ite_self, State.afterPulse_kept, State.pushStamp_kept, State.raise_kept, State.set2_kept, State.setCmp_kept, State.setI2_kept]

@[simp] theorem State.settleMissed_kept (s : State) (n : Nat) : (State.settleMissed s n).kept = s.kept := by
  unfold State.settleMissed
  simp (disch := first | assumption | (simp only [away, Reg.CMPn_CFG_late_ok, Reg.CMPn_STATUS_late_pulse, Reg.CMPn_STATUS_state]; omega) | simp only [onRing_away, ringEnabled_away, ringErr_away, ringCause_away, ringArmed_away, ringProd_away, ringCons_away]) only [State.ite_kept, ite_self, State.onCmp_kept, State.post_kept, State.postMissed_kept, State.pulse_kept, State.raise_kept, State.set_kept]

@[simp] theorem State.settle_kept (s : State) (n : Nat) : (State.settle s n).kept = s.kept := by
  unfold State.settle
  simp (disch := first | assumption | (simp only [away, Reg.CMPn_CFG_periodic, Reg.CMPn_STATUS_skip_count]; omega) | simp only [onRing_away, ringEnabled_away, ringErr_away, ringCause_away, ringArmed_away, ringProd_away, ringCons_away]) only [State.ite_kept, ite_self, State.bump_kept, State.postMissed_kept, State.setCmp_kept, State.settleMissed_kept]

@[simp] theorem State.plan_kept (s : State) (n : Nat) : (State.plan s n).kept = s.kept := by
  unfold State.plan
  simp (disch := first | assumption | (simp only [away]; omega) | simp only [onRing_away, ringEnabled_away, ringErr_away, ringCause_away, ringArmed_away, ringProd_away, ringCons_away]) only [State.ite_kept, ite_self, State.setCmp_kept]

@[simp] theorem State.unpredicted_kept (s : State) (n : Nat) (back : Bool) : (State.unpredicted s n back).kept = s.kept := by
  unfold State.unpredicted
  simp (disch := first | assumption | (simp only [away, Reg.CMPn_STATUS_unpredicted]; omega) | simp only [onRing_away, ringEnabled_away, ringErr_away, ringCause_away, ringArmed_away, ringProd_away, ringCons_away]) only [State.ite_kept, ite_self, State.onCmp_kept, State.post_kept, State.pulse_kept, State.raise_kept]

@[simp] theorem State.cmpUpdate_kept (s : State) (n : Nat) : (State.cmpUpdate s n).kept = s.kept := by
  unfold State.cmpUpdate
  simp (disch := first | assumption | (simp only [away, Reg.OBS_STATUS_pos_valid]; omega) | simp only [onRing_away, ringEnabled_away, ringErr_away, ringCause_away, ringArmed_away, ringProd_away, ringCons_away]) only [State.ite_kept, ite_self, State.onCmp_kept, State.plan_kept, State.setCmp_kept, State.settle_kept, State.unpredicted_kept]

@[simp] theorem State.cmpWeb_kept (s : State) : (State.cmpWeb s).kept = s.kept := by
  unfold State.cmpWeb
  (repeat' (first | with_reducible rfl | (simp (disch := first | assumption | (simp only [away]; omega) | simp only [onRing_away, ringEnabled_away, ringErr_away, ringCause_away, ringArmed_away, ringProd_away, ringCons_away]) only [State.ite_kept, ite_self, State.cmpUpdate_kept]; done) | split | apply foldl_kept_of | apply foldl_kept_snd_of | apply foldl_kept_fst_of | intro _ _ | simp (disch := first | assumption | (simp only [away]; omega) | simp only [onRing_away, ringEnabled_away, ringErr_away, ringCause_away, ringArmed_away, ringProd_away, ringCons_away]) only [State.ite_kept, ite_self, State.cmpUpdate_kept] | dsimp only))

@[simp] theorem State.cmpCount_kept (s : State) (k : Nat) : (State.cmpCount s k).kept = s.kept := by
  unfold State.cmpCount
  (repeat' (first | with_reducible rfl | (simp (disch := first | assumption | (simp only [away]; omega) | simp only [onRing_away, ringEnabled_away, ringErr_away, ringCause_away, ringArmed_away, ringProd_away, ringCons_away]) only [State.ite_kept, ite_self, State.cmpUpdate_kept]; done) | split | apply foldl_kept_of | apply foldl_kept_snd_of | apply foldl_kept_fst_of | intro _ _ | simp (disch := first | assumption | (simp only [away]; omega) | simp only [onRing_away, ringEnabled_away, ringErr_away, ringCause_away, ringArmed_away, ringProd_away, ringCons_away]) only [State.ite_kept, ite_self, State.cmpUpdate_kept] | dsimp only))

@[simp] theorem State.cmpResume_kept (s : State) : (State.cmpResume s).kept = s.kept := by
  unfold State.cmpResume
  (repeat' (first | with_reducible rfl | (simp (disch := first | assumption | (simp only [away, Reg.CMPn_CFG_hold_on_reversal, Reg.OBS_STATUS_pos_valid]; omega) | simp only [onRing_away, ringEnabled_away, ringErr_away, ringCause_away, ringArmed_away, ringProd_away, ringCons_away]) only [State.ite_kept, ite_self, State.onCmp_kept, State.settle_kept]; done) | split | apply foldl_kept_of | apply foldl_kept_snd_of | apply foldl_kept_fst_of | intro _ _ | simp (disch := first | assumption | (simp only [away, Reg.CMPn_CFG_hold_on_reversal, Reg.OBS_STATUS_pos_valid]; omega) | simp only [onRing_away, ringEnabled_away, ringErr_away, ringCause_away, ringArmed_away, ringProd_away, ringCons_away]) only [State.ite_kept, ite_self, State.onCmp_kept, State.settle_kept] | dsimp only))

@[simp] theorem State.cmpStepped_kept (s : State) : (State.cmpStepped s).kept = s.kept := by
  unfold State.cmpStepped
  (repeat' (first | with_reducible rfl | (simp (disch := first | assumption | (simp only [away]; omega) | simp only [onRing_away, ringEnabled_away, ringErr_away, ringCause_away, ringArmed_away, ringProd_away, ringCons_away]) only [State.ite_kept, ite_self, State.settle_kept]; done) | split | apply foldl_kept_of | apply foldl_kept_snd_of | apply foldl_kept_fst_of | intro _ _ | simp (disch := first | assumption | (simp only [away]; omega) | simp only [onRing_away, ringEnabled_away, ringErr_away, ringCause_away, ringArmed_away, ringProd_away, ringCons_away]) only [State.ite_kept, ite_self, State.settle_kept] | dsimp only))

@[simp] theorem State.dropPosition_kept (s : State) : (State.dropPosition s).kept = s.kept := by
  unfold State.dropPosition
  (repeat' (first | with_reducible rfl | (simp (disch := first | assumption | (simp only [away, Reg.OBS_STATUS_pos_valid]; omega) | simp only [onRing_away, ringEnabled_away, ringErr_away, ringCause_away, ringArmed_away, ringProd_away, ringCons_away]) only [State.ite_kept, ite_self, State.clear_kept, State.onCmp_kept]; done) | split | apply foldl_kept_of | apply foldl_kept_snd_of | apply foldl_kept_fst_of | intro _ _ | simp (disch := first | assumption | (simp only [away, Reg.OBS_STATUS_pos_valid]; omega) | simp only [onRing_away, ringEnabled_away, ringErr_away, ringCause_away, ringArmed_away, ringProd_away, ringCons_away]) only [State.ite_kept, ite_self, State.clear_kept, State.onCmp_kept] | dsimp only))

@[simp] theorem State.arm_kept (s : State) (n : Nat) : (State.arm s n).kept = s.kept := by
  unfold State.arm
  simp (disch := first | assumption | (simp only [away, Reg.CMPn_CFG_dir, Reg.CMPn_CFG_late_ok, Reg.CMPn_CFG_mode, Reg.CMPn_CFG_plane, Reg.CMPn_CFG_src, Reg.CMPn_CFG_target_kind, Reg.CMPn_STATUS_bad_target, Reg.CMPn_STATUS_skip_count, Reg.CMPn_STATUS_state, Reg.CMPn_TARGET_HI, Reg.CMPn_TARGET_LO, Reg.OBS_STATUS_pos_valid]; omega) | simp only [onRing_away, ringEnabled_away, ringErr_away, ringCause_away, ringArmed_away, ringProd_away, ringCons_away]) only [State.ite_kept, ite_self, State.clear_kept, State.plan_kept, State.postMissed_kept, State.raise_kept, State.set_kept, State.setCmp_kept, State.settleMissed_kept]

@[simp] theorem State.disarm_kept (s : State) (n : Nat) : (State.disarm s n).kept = s.kept := by
  unfold State.disarm
  simp (disch := first | assumption | (simp only [away, Reg.CMPn_STATUS_state]; omega) | simp only [onRing_away, ringEnabled_away, ringErr_away, ringCause_away, ringArmed_away, ringProd_away, ringCons_away]) only [State.ite_kept, ite_self, State.clear_kept, State.onCmp_kept]

@[simp] theorem State.fireCrossing_kept (s : State) (n : Nat) : (State.fireCrossing s n).kept = s.kept := by
  unfold State.fireCrossing
  (try dsimp only)
  (repeat' split) <;> simp (disch := first | assumption | (simp only [away, Reg.OBS_STATUS_pos_valid]; omega) | simp only [onRing_away, ringEnabled_away, ringErr_away, ringCause_away, ringArmed_away, ringProd_away, ringCons_away]) only [State.ite_kept, ite_self, State.cmpUpdate_kept, State.pulse_kept]

@[simp] theorem State.fireTime_kept (s : State) (n : Nat) : (State.fireTime s n).kept = s.kept := by
  unfold State.fireTime
  simp (disch := first | assumption | (simp only [away]; omega) | simp only [onRing_away, ringEnabled_away, ringErr_away, ringCause_away, ringArmed_away, ringProd_away, ringCons_away]) only [State.ite_kept, ite_self, State.pulse_kept]

@[simp] theorem State.firePort_kept (s : State) (p : Nat) : (State.firePort s p).kept = s.kept := by
  unfold State.firePort
  (repeat' (first | with_reducible rfl | (simp (disch := first | assumption | (simp only [away, Reg.CMPn_CFG_cam]; omega) | simp only [onRing_away, ringEnabled_away, ringErr_away, ringCause_away, ringArmed_away, ringProd_away, ringCons_away]) only [State.ite_kept, ite_self, State.fireCrossing_kept, State.fireTime_kept]; done) | split | apply foldl_kept_of | apply foldl_kept_snd_of | apply foldl_kept_fst_of | intro _ _ | simp (disch := first | assumption | (simp only [away, Reg.CMPn_CFG_cam]; omega) | simp only [onRing_away, ringEnabled_away, ringErr_away, ringCause_away, ringArmed_away, ringProd_away, ringCons_away]) only [State.ite_kept, ite_self, State.fireCrossing_kept, State.fireTime_kept] | dsimp only))

end Sys2Proof.Machine
end

