-- ==== Sys2Proof/Laws/KeptObserver.lean ====
section
/-! SUPPORT. The operations of Machine/Observer.lean leave the kept words alone. -/

set_option linter.all false

namespace Sys2Proof.Machine

@[simp] theorem State.updateInst_kept (s : State) (k t : Nat) (err : Int → Int) : (State.updateInst s k t err).kept = s.kept := by
  unfold State.updateInst
  simp (disch := first | assumption | (simp only [away]; omega) | simp only [onRing_away, ringEnabled_away, ringErr_away, ringCause_away, ringArmed_away, ringProd_away, ringCons_away]) only [State.ite_kept, ite_self, State.drawQuot_kept, State.setInst_kept]

@[simp] theorem State.setRemoved_kept (s : State) (k : Nat) (b : Bool) : (State.setRemoved s k b).kept = s.kept := by
  unfold State.setRemoved
  simp (disch := first | assumption | (simp only [away, Reg.OBS_STATUS_enc_removed, Reg.OBS_STATUS_remote_removed]; omega) | simp only [onRing_away, ringEnabled_away, ringErr_away, ringCause_away, ringArmed_away, ringProd_away, ringCons_away]) only [State.ite_kept, ite_self, State.setOn_kept]

@[simp] theorem State.startSlew_kept (s : State) (d : Int) : (State.startSlew s d).kept = s.kept := by
  unfold State.startSlew
  simp (disch := first | assumption | (simp only [away]; omega) | simp only [onRing_away, ringEnabled_away, ringErr_away, ringCause_away, ringArmed_away, ringProd_away, ringCons_away]) only [State.ite_kept, ite_self, State.modObs_kept]

@[simp] theorem State.postSwitch_kept (s : State) (old new : Nat) (d : Int) : (State.postSwitch s old new d).kept = s.kept := by
  unfold State.postSwitch
  simp (disch := first | assumption | (simp only [away, Reg.OBS_STATUS_switched]; omega) | simp only [onRing_away, ringEnabled_away, ringErr_away, ringCause_away, ringArmed_away, ringProd_away, ringCons_away]) only [State.ite_kept, ite_self, State.post_kept, State.raise_kept]

@[simp] theorem State.losePosition_kept (s : State) (pos : Int) : (State.losePosition s pos).kept = s.kept := by
  unfold State.losePosition
  simp (disch := first | assumption | (simp only [away, Reg.OBS_STATUS_active, Reg.OBS_STATUS_lost]; omega) | simp only [onRing_away, ringEnabled_away, ringErr_away, ringCause_away, ringArmed_away, ringProd_away, ringCons_away]) only [State.ite_kept, ite_self, State.dropPosition_kept, State.modObs_kept, State.modSched_kept, State.post_kept, State.raise_kept, State.refresh_kept, State.set_kept]

@[simp] theorem State.moveOn_kept (s : State) (old : Nat) (pos : Int) : (State.moveOn s old pos).kept = s.kept := by
  unfold State.moveOn
  (repeat' (first | with_reducible rfl | (simp (disch := first | assumption | (simp only [away, Reg.OBS_STATUS_active]; omega) | simp only [onRing_away, ringEnabled_away, ringErr_away, ringCause_away, ringArmed_away, ringProd_away, ringCons_away]) only [State.ite_kept, ite_self, State.losePosition_kept, State.postSwitch_kept, State.set_kept, State.setInst_kept, State.startSlew_kept]; done) | split | apply foldl_kept_of | apply foldl_kept_snd_of | apply foldl_kept_fst_of | intro _ _ | simp (disch := first | assumption | (simp only [away, Reg.OBS_STATUS_active]; omega) | simp only [onRing_away, ringEnabled_away, ringErr_away, ringCause_away, ringArmed_away, ringProd_away, ringCons_away]) only [State.ite_kept, ite_self, State.losePosition_kept, State.postSwitch_kept, State.set_kept, State.setInst_kept, State.startSlew_kept] | dsimp only))

@[simp] theorem State.stopSource_kept (s : State) (k : Nat) (failed : Bool) : (State.stopSource s k failed).kept = s.kept := by
  unfold State.stopSource
  simp (disch := first | assumption | (simp only [away]; omega) | simp only [onRing_away, ringEnabled_away, ringErr_away, ringCause_away, ringArmed_away, ringProd_away, ringCons_away]) only [State.ite_kept, ite_self, State.moveOn_kept, State.setInst_kept, State.setRemoved_kept]

@[simp] theorem State.formBlend_kept (s : State) (tell : Bool) : (State.formBlend s tell).kept = s.kept := by
  unfold State.formBlend
  simp (disch := first | assumption | (simp only [away, Reg.OBS_SRC_secondary, Reg.OBS_STATUS_active]; omega) | simp only [onRing_away, ringEnabled_away, ringErr_away, ringCause_away, ringArmed_away, ringProd_away, ringCons_away]) only [State.ite_kept, ite_self, State.modObs_kept, State.postSwitch_kept, State.set_kept, State.startSlew_kept]

@[simp] theorem State.startSource_kept (s : State) (k : Nat) (p : Int) : (State.startSource s k p).kept = s.kept := by
  unfold State.startSource
  simp (disch := first | assumption | (simp only [away, Reg.OBS_STATUS_active]; omega) | simp only [onRing_away, ringEnabled_away, ringErr_away, ringCause_away, ringArmed_away, ringProd_away, ringCons_away]) only [State.ite_kept, ite_self, State.formBlend_kept, State.set_kept, State.setInst_kept]

@[simp] theorem State.followMode_kept (s : State) : (State.followMode s).kept = s.kept := by
  unfold State.followMode
  simp (disch := first | assumption | (simp only [away]; omega) | simp only [onRing_away, ringEnabled_away, ringErr_away, ringCause_away, ringArmed_away, ringProd_away, ringCons_away]) only [State.ite_kept, ite_self, State.formBlend_kept, State.moveOn_kept]

@[simp] theorem State.sources_kept (s : State) : (State.sources s).kept = s.kept := by
  unfold State.sources
  (repeat' (first | with_reducible rfl | (simp (disch := first | assumption | (simp only [away]; omega) | simp only [onRing_away, ringEnabled_away, ringErr_away, ringCause_away, ringArmed_away, ringProd_away, ringCons_away]) only [State.ite_kept, ite_self, State.dropPosition_kept, State.followMode_kept, State.refresh_kept, State.startSource_kept, State.stopSource_kept]; done) | split | apply foldl_kept_of | apply foldl_kept_snd_of | apply foldl_kept_fst_of | intro _ _ | simp (disch := first | assumption | (simp only [away]; omega) | simp only [onRing_away, ringEnabled_away, ringErr_away, ringCause_away, ringArmed_away, ringProd_away, ringCons_away]) only [State.ite_kept, ite_self, State.dropPosition_kept, State.followMode_kept, State.refresh_kept, State.startSource_kept, State.stopSource_kept] | dsimp only))

@[simp] theorem State.checkSource_kept (s : State) (k : Nat) : (State.checkSource s k).kept = s.kept := by
  unfold State.checkSource
  (try dsimp only)
  (repeat' split) <;> simp (disch := first | assumption | (simp only [away, Reg.OBS_SLIP_CFG_tau_ms, Reg.OBS_SLIP_CFG_threshold, Reg.OBS_STATUS_slip]; omega) | simp only [onRing_away, ringEnabled_away, ringErr_away, ringCause_away, ringArmed_away, ringProd_away, ringCons_away]) only [State.ite_kept, ite_self, State.drawInt_kept, State.post_kept, State.raise_kept, State.setInst_kept, State.stopSource_kept]

@[simp] theorem State.settleSlew_kept (s : State) : (State.settleSlew s).kept = s.kept := by
  unfold State.settleSlew
  simp (disch := first | assumption | (simp only [away]; omega) | simp only [onRing_away, ringEnabled_away, ringErr_away, ringCause_away, ringArmed_away, ringProd_away, ringCons_away]) only [State.ite_kept, ite_self, State.startSlew_kept]

@[simp] theorem State.reversal_kept (s : State) : (State.reversal s).kept = s.kept := by
  unfold State.reversal
  simp (disch := first | assumption | (simp only [away, Reg.OBS_STATUS_reversal, Reg.OBS_STATUS_reversal_count, Reg.OBS_STATUS_reversal_seen]; omega) | simp only [onRing_away, ringEnabled_away, ringErr_away, ringCause_away, ringArmed_away, ringProd_away, ringCons_away]) only [State.ite_kept, ite_self, State.bump_kept, State.clear_kept, State.cmpResume_kept, State.endInhibit_kept, State.modObs_kept, State.post_kept, State.raise_kept, State.startInhibit_kept]

@[simp] theorem State.noteUpdate_kept (s : State) (u : Nat) : (State.noteUpdate s u).kept = s.kept := by
  unfold State.noteUpdate
  simp (disch := first | assumption | (simp only [away]; omega) | simp only [onRing_away, ringEnabled_away, ringErr_away, ringCause_away, ringArmed_away, ringProd_away, ringCons_away]) only [State.ite_kept, ite_self, State.modObs_kept]

@[simp] theorem State.updated_kept (s : State) (u : Nat) : (State.updated s u).kept = s.kept := by
  unfold State.updated
  (repeat' (first | with_reducible rfl | (simp (disch := first | assumption | (simp only [away]; omega) | simp only [onRing_away, ringEnabled_away, ringErr_away, ringCause_away, ringArmed_away, ringProd_away, ringCons_away]) only [State.ite_kept, ite_self, State.checkSource_kept, State.cmpWeb_kept, State.noteUpdate_kept, State.partings_kept, State.reversal_kept, State.settleSlew_kept]; done) | split | apply foldl_kept_of | apply foldl_kept_snd_of | apply foldl_kept_fst_of | intro _ _ | simp (disch := first | assumption | (simp only [away]; omega) | simp only [onRing_away, ringEnabled_away, ringErr_away, ringCause_away, ringArmed_away, ringProd_away, ringCons_away]) only [State.ite_kept, ite_self, State.checkSource_kept, State.cmpWeb_kept, State.noteUpdate_kept, State.partings_kept, State.reversal_kept, State.settleSlew_kept] | dsimp only))

@[simp] theorem State.obsEdge_kept (s : State) (k : Nat) (old step : Int) (t : Nat) : (State.obsEdge s k old step t).kept = s.kept := by
  unfold State.obsEdge
  simp (disch := first | assumption | (simp only [away]; omega) | simp only [onRing_away, ringEnabled_away, ringErr_away, ringCause_away, ringArmed_away, ringProd_away, ringCons_away]) only [State.ite_kept, ite_self, State.updateInst_kept, State.updated_kept]

@[simp] theorem State.obsSnapshot_kept (s : State) : (State.obsSnapshot s).kept = s.kept := by
  unfold State.obsSnapshot
  simp (disch := first | assumption | (simp only [away, Reg.OBS_SNAP_ACC_HI, Reg.OBS_SNAP_ACC_LO, Reg.OBS_SNAP_HW_HI, Reg.OBS_SNAP_HW_LO, Reg.OBS_SNAP_POS_HI, Reg.OBS_SNAP_POS_LO, Reg.OBS_SNAP_TIME_HI, Reg.OBS_SNAP_TIME_LO, Reg.OBS_SNAP_VEL_HI, Reg.OBS_SNAP_VEL_LO]; omega) | simp only [onRing_away, ringEnabled_away, ringErr_away, ringCause_away, ringArmed_away, ringProd_away, ringCons_away]) only [State.ite_kept, ite_self, State.set2_kept, State.setI2_kept]

@[simp] theorem State.readmit_kept (s : State) : (State.readmit s).kept = s.kept := by
  unfold State.readmit
  (repeat' (first | with_reducible rfl | (simp (disch := first | assumption | (simp only [away, Reg.OBS_STATUS_enc_removed, Reg.OBS_STATUS_remote_removed]; omega) | simp only [onRing_away, ringEnabled_away, ringErr_away, ringCause_away, ringArmed_away, ringProd_away, ringCons_away]) only [State.ite_kept, ite_self, State.clear_kept, State.modTime_kept, State.set_kept, State.setInst_kept, State.sources_kept]; done) | split | apply foldl_kept_of | apply foldl_kept_snd_of | apply foldl_kept_fst_of | intro _ _ | simp (disch := first | assumption | (simp only [away, Reg.OBS_STATUS_enc_removed, Reg.OBS_STATUS_remote_removed]; omega) | simp only [onRing_away, ringEnabled_away, ringErr_away, ringCause_away, ringArmed_away, ringProd_away, ringCons_away]) only [State.ite_kept, ite_self, State.clear_kept, State.modTime_kept, State.set_kept, State.setInst_kept, State.sources_kept] | dsimp only))

@[simp] theorem State.resync_kept (s : State) : (State.resync s).kept = s.kept := by
  unfold State.resync
  split
  · split
    · rfl
    · dsimp only
      rw [State.set_kept _ _ _ (by simp only [away, Reg.OBS_STATUS_active]; omega), State.modObs_kept]
      refine foldl_kept _ (fun s j => ?_) _ _
      split <;> simp
  · rfl

end Sys2Proof.Machine
end

