-- ==== Sys2Proof/Laws/KeptSheet.lean ====
section
/-! SUPPORT. The operations of Machine/Sheet.lean leave the kept words alone. -/

set_option linter.all false

namespace Sys2Proof.Machine

@[simp] theorem State.ignoreEdge_kept (s : State) : (State.ignoreEdge s).kept = s.kept := by
  unfold State.ignoreEdge
  simp (disch := first | assumption | (simp only [away, Reg.LS_STATUS_edges_ignored]; omega) | simp only [onRing_away, ringEnabled_away, ringErr_away, ringCause_away, ringArmed_away, ringProd_away, ringCons_away]) only [State.ite_kept, ite_self, State.bump_kept]

@[simp] theorem State.placeAt_kept (s : State) (p : Nat) : (State.placeAt s p).kept = s.kept := by
  unfold State.placeAt
  (try dsimp only)
  (repeat' split) <;> simp (disch := first | assumption | (simp only [away, Reg.LS_STATUS_sheet_wait]; omega) | simp only [onRing_away, ringEnabled_away, ringErr_away, ringCause_away, ringArmed_away, ringProd_away, ringCons_away]) only [State.ite_kept, ite_self, State.clear_kept, State.modSched_kept, State.placePanel_kept]

@[simp] theorem State.cutPanel_kept (s : State) (sp : Span) (p : Nat) : (State.cutPanel s sp p).kept = s.kept := by
  unfold State.cutPanel
  simp (disch := first | assumption | (simp only [away]; omega) | simp only [onRing_away, ringEnabled_away, ringErr_away, ringCause_away, ringArmed_away, ringProd_away, ringCons_away]) only [State.ite_kept, ite_self, State.modSched_kept, State.post_kept]

@[simp] theorem State.streamEdge_kept (s : State) (x : Int) : (State.streamEdge s x).kept = s.kept := by
  unfold State.streamEdge
  (try dsimp only)
  (repeat' split) <;> simp (disch := first | assumption | (simp only [away, Reg.LS_STATUS_sheet_late]; omega) | simp only [onRing_away, ringEnabled_away, ringErr_away, ringCause_away, ringArmed_away, ringProd_away, ringCons_away]) only [State.ite_kept, ite_self, State.cutPanel_kept, State.ignoreEdge_kept, State.placeAt_kept, State.post_kept, State.raise_kept]

@[simp] theorem State.sheetEdge_kept (s : State) (n e : Nat) (count : Int) : (State.sheetEdge s n e count).kept = s.kept := by
  unfold State.sheetEdge
  (try dsimp only)
  (repeat' split) <;> simp (disch := first | assumption | (simp only [away, Reg.LS_STREAM_CFG_sheet_mode, Reg.LS_STREAM_CFG_sheet_trig]; omega) | simp only [onRing_away, ringEnabled_away, ringErr_away, ringCause_away, ringArmed_away, ringProd_away, ringCons_away]) only [State.ite_kept, ite_self, State.ignoreEdge_kept, State.modSched_kept, State.showParting_kept, State.streamEdge_kept]

end Sys2Proof.Machine
end

