-- ==== Sys2Proof/Laws/KeptEncoder.lean ====
section
/-! SUPPORT. The operations of Machine/Encoder.lean leave the kept words alone. -/

set_option linter.all false

namespace Sys2Proof.Machine

@[simp] theorem State.setLevels_kept (s : State) (n : Nat) (a b : Bool) : (State.setLevels s n a b).kept = s.kept := by
  unfold State.setLevels
  simp (disch := first | assumption | (simp only [away, Reg.ENCn_STATUS_level_a, Reg.ENCn_STATUS_level_b]; omega) | simp only [onRing_away, ringEnabled_away, ringErr_away, ringCause_away, ringArmed_away, ringProd_away, ringCons_away]) only [State.ite_kept, ite_self, State.setOn_kept]

@[simp] theorem State.encCfg_kept (s : State) (n : Nat) (v : BitVec 32) : (State.encCfg s n v).kept = s.kept := by
  unfold State.encCfg
  simp (disch := first | assumption | (simp only [away, Reg.ENCn_CFG_enable, Reg.ENCn_STATUS_index_valid]; omega) | simp only [onRing_away, ringEnabled_away, ringErr_away, ringCause_away, ringArmed_away, ringProd_away, ringCons_away]) only [State.ite_kept, ite_self, State.clear_kept, State.onEnc_kept, State.restartBalls_kept, State.sources_kept, State.writeWord_kept]

@[simp] theorem State.encGlitch_kept (s : State) (n : Nat) : (State.encGlitch s n).kept = s.kept := by
  unfold State.encGlitch
  simp (disch := first | assumption | (simp only [away, Reg.ENCn_ERRCNT_glitch_count]; omega) | simp only [onRing_away, ringEnabled_away, ringErr_away, ringCause_away, ringArmed_away, ringProd_away, ringCons_away]) only [State.ite_kept, ite_self, State.bump_kept, State.onEnc_kept]

@[simp] theorem State.quadError_kept (s : State) (n stamp : Nat) : (State.quadError s n stamp).kept = s.kept := by
  unfold State.quadError
  simp (disch := first | assumption | (simp only [away, Reg.ENCn_ERRCNT_quad_error_count, Reg.ENCn_STATUS_quad_error]; omega) | simp only [onRing_away, ringEnabled_away, ringErr_away, ringCause_away, ringArmed_away, ringProd_away, ringCons_away]) only [State.ite_kept, ite_self, State.bump_kept, State.onEnc_kept, State.post_kept, State.raise_kept]

@[simp] theorem State.overspeed_kept (s : State) (n stamp at_ : Nat) : (State.overspeed s n stamp at_).kept = s.kept := by
  unfold State.overspeed
  (try dsimp only)
  (repeat' split) <;> simp (disch := first | assumption | (simp only [away, Reg.ENCn_CFG_filter_n, Reg.ENCn_STATUS_overspeed]; omega) | simp only [onRing_away, ringEnabled_away, ringErr_away, ringCause_away, ringArmed_away, ringProd_away, ringCons_away]) only [State.ite_kept, ite_self, State.onEnc_kept, State.post_kept, State.raise_kept]

@[simp] theorem State.lockout_kept (s : State) (n : Nat) : (State.lockout s n).kept = s.kept := by
  unfold State.lockout
  (try dsimp only)
  (repeat' split) <;> simp (disch := first | assumption | (simp only [away, Reg.TRIGn_CFG_enc_src, Reg.TRIGn_CFG_lockout_counts]; omega) | simp only [onRing_away, ringEnabled_away, ringErr_away, ringCause_away, ringArmed_away, ringProd_away, ringCons_away]) only [State.ite_kept, ite_self, State.onTrig_kept]

@[simp] theorem State.lockouts_kept (s : State) (k : Nat) : (State.lockouts s k).kept = s.kept := by
  unfold State.lockouts
  (repeat' (first | with_reducible rfl | (simp (disch := first | assumption | (simp only [away, Reg.TRIGn_CFG_enc_src]; omega) | simp only [onRing_away, ringEnabled_away, ringErr_away, ringCause_away, ringArmed_away, ringProd_away, ringCons_away]) only [State.ite_kept, ite_self, State.lockout_kept]; done) | split | apply foldl_kept_of | apply foldl_kept_snd_of | apply foldl_kept_fst_of | intro _ _ | simp (disch := first | assumption | (simp only [away, Reg.TRIGn_CFG_enc_src]; omega) | simp only [onRing_away, ringEnabled_away, ringErr_away, ringCause_away, ringArmed_away, ringProd_away, ringCons_away]) only [State.ite_kept, ite_self, State.lockout_kept] | dsimp only))

@[simp] theorem State.setCount_kept (s : State) (n : Nat) (c : Int) : (State.setCount s n c).kept = s.kept := by
  unfold State.setCount
  simp (disch := first | assumption | (simp only [away, Reg.ENCn_COUNT_HI, Reg.ENCn_COUNT_LO]; omega) | simp only [onRing_away, ringEnabled_away, ringErr_away, ringCause_away, ringArmed_away, ringProd_away, ringCons_away]) only [State.ite_kept, ite_self, State.setI2_kept]

@[simp] theorem State.encStep_kept (s : State) (n stamp at_ : Nat) (step : Int) : (State.encStep s n stamp at_ step).kept = s.kept := by
  unfold State.encStep
  simp (disch := first | assumption | (simp only [away, Reg.ENCn_EDGE_TIME_HI, Reg.ENCn_EDGE_TIME_LO, Reg.ENCn_STATUS_dir]; omega) | simp only [onRing_away, ringEnabled_away, ringErr_away, ringCause_away, ringArmed_away, ringProd_away, ringCons_away]) only [State.ite_kept, ite_self, State.cmpCount_kept, State.lockouts_kept, State.obsEdge_kept, State.onEnc_kept, State.overspeed_kept, State.set2_kept, State.setCount_kept, State.setOn_kept]

@[simp] theorem State.acceptAB_kept (s : State) (n : Nat) (ha hb : Bool) (at_ : Nat) : (State.acceptAB s n ha hb at_).kept = s.kept := by
  unfold State.acceptAB
  (try dsimp only)
  (repeat' split) <;> simp (disch := first | assumption | (simp only [away, Reg.ENCn_CFG_invert_dir, Reg.ENCn_STATUS_level_a, Reg.ENCn_STATUS_level_b]; omega) | simp only [onRing_away, ringEnabled_away, ringErr_away, ringCause_away, ringArmed_away, ringProd_away, ringCons_away]) only [State.ite_kept, ite_self, State.encStep_kept, State.onEnc_kept, State.quadError_kept, State.setLevels_kept]

@[simp] theorem State.addDrift_kept (s : State) (n : Nat) (d : Int) : (State.addDrift s n d).kept = s.kept := by
  unfold State.addDrift
  simp (disch := first | assumption | (simp only [away, Reg.ENCn_INDEX_DRIFT_drift, Reg.ENCn_INDEX_TOL_drift_warn, Reg.ENCn_STATUS_drift_sat, Reg.ENCn_STATUS_drift_warn]; omega) | simp only [onRing_away, ringEnabled_away, ringErr_away, ringCause_away, ringArmed_away, ringProd_away, ringCons_away]) only [State.ite_kept, ite_self, State.onEnc_kept, State.post_kept, State.raise_kept, State.setI_kept]

@[simp] theorem State.indexLatch_kept (s : State) (n stamp : Nat) : (State.indexLatch s n stamp).kept = s.kept := by
  unfold State.indexLatch
  simp (disch := first | assumption | (simp only [away, Reg.ENCn_CPR_cpr, Reg.ENCn_INDEX_COUNT_HI, Reg.ENCn_INDEX_COUNT_LO, Reg.ENCn_INDEX_TIME_HI, Reg.ENCn_INDEX_TIME_LO, Reg.ENCn_INDEX_TOL_tolerance, Reg.ENCn_STATUS_dir, Reg.ENCn_STATUS_index_slip, Reg.ENCn_STATUS_index_valid, Reg.ENCn_STATUS_slip_count]; omega) | simp only [onRing_away, ringEnabled_away, ringErr_away, ringCause_away, ringArmed_away, ringProd_away, ringCons_away]) only [State.ite_kept, ite_self, State.addDrift_kept, State.bump_kept, State.onEnc_kept, State.post_kept, State.raise_kept, State.set2_kept, State.setI2_kept]

@[simp] theorem State.acceptZ_kept (s : State) (n : Nat) : (State.acceptZ s n).kept = s.kept := by
  unfold State.acceptZ
  simp (disch := first | assumption | (simp only [away, Reg.ENCn_CFG_z_polarity, Reg.ENCn_STATUS_level_z]; omega) | simp only [onRing_away, ringEnabled_away, ringErr_away, ringCause_away, ringArmed_away, ringProd_away, ringCons_away]) only [State.ite_kept, ite_self, State.indexLatch_kept, State.onEnc_kept, State.setOn_kept]

@[simp] theorem State.driftWrite_kept (s : State) (n : Nat) (v : BitVec 32) : (State.driftWrite s n v).kept = s.kept := by
  unfold State.driftWrite
  (try dsimp only)
  (repeat' split) <;> simp (disch := first | assumption | (simp only [away, Reg.ENCn_INDEX_DRIFT_drift]; omega) | simp only [onRing_away, ringEnabled_away, ringErr_away, ringCause_away, ringArmed_away, ringProd_away, ringCons_away]) only [State.ite_kept, ite_self, State.addDrift_kept, State.writeWord_kept]

@[simp] theorem State.showFifo_kept (s : State) (n : Nat) : (State.showFifo s n).kept = s.kept := by
  unfold State.showFifo
  (try dsimp only)
  (repeat' split) <;> simp (disch := first | assumption | (simp only [away, Reg.TRIGn_CAP_COUNT_HI, Reg.TRIGn_CAP_COUNT_LO, Reg.TRIGn_CAP_INFO_edge_level, Reg.TRIGn_CAP_INFO_valid, Reg.TRIGn_CAP_TIME_HI, Reg.TRIGn_CAP_TIME_LO, Reg.TRIGn_FIFO_STATUS_level]; omega) | simp only [onRing_away, ringEnabled_away, ringErr_away, ringCause_away, ringArmed_away, ringProd_away, ringCons_away]) only [State.ite_kept, ite_self, State.clear_kept, State.raise_kept, State.set_kept, State.set2_kept, State.setI2_kept, State.setOn_kept]

@[simp] theorem State.trigCfg_kept (s : State) (n : Nat) (v : BitVec 32) : (State.trigCfg s n v).kept = s.kept := by
  unfold State.trigCfg
  simp (disch := first | assumption | (simp only [away, Reg.TRIGn_CFG_enable]; omega) | simp only [onRing_away, ringEnabled_away, ringErr_away, ringCause_away, ringArmed_away, ringProd_away, ringCons_away]) only [State.ite_kept, ite_self, State.lockout_kept, State.onTrig_kept, State.restartBalls_kept, State.writeWord_kept]

@[simp] theorem State.capture_kept (s : State) (n stamp : Nat) (rising : Bool) : (State.capture s n stamp rising).kept = s.kept := by
  unfold State.capture
  simp (disch := first | assumption | (simp only [away, Reg.TRIGn_CFG_enc_src, Reg.TRIGn_CFG_lockout_counts, Reg.TRIGn_CFG_post_event, Reg.TRIGn_FIFO_STATUS_overflow, Reg.TRIGn_FIFO_STATUS_overflow_count]; omega) | simp only [onRing_away, ringEnabled_away, ringErr_away, ringCause_away, ringArmed_away, ringProd_away, ringCons_away]) only [State.ite_kept, ite_self, State.bump_kept, State.onTrig_kept, State.post_kept, State.raise_kept, State.sheetEdge_kept, State.showFifo_kept]

@[simp] theorem State.acceptTrig_kept (s : State) (n : Nat) : (State.acceptTrig s n).kept = s.kept := by
  unfold State.acceptTrig
  simp (disch := first | assumption | (simp only [away, Reg.ENCn_CFG_enable, Reg.TRIGn_CFG_edge, Reg.TRIGn_CFG_enc_src]; omega) | simp only [onRing_away, ringEnabled_away, ringErr_away, ringCause_away, ringArmed_away, ringProd_away, ringCons_away]) only [State.ite_kept, ite_self, State.capture_kept, State.lockout_kept, State.onTrig_kept]

@[simp] theorem State.popCapture_kept (s : State) (n : Nat) : (State.popCapture s n).kept = s.kept := by
  unfold State.popCapture
  simp (disch := first | assumption | (simp only [away, Reg.TRIGn_CAP_COUNT_HI, Reg.TRIGn_CAP_TIME_HI]; omega) | simp only [onRing_away, ringEnabled_away, ringErr_away, ringCause_away, ringArmed_away, ringProd_away, ringCons_away]) only [State.ite_kept, ite_self, State.modShadow_kept, State.onTrig_kept, State.set_kept, State.showFifo_kept]

@[simp] theorem State.showBall_kept (s : State) (first i : Nat) (level : Bool) : (State.showBall s first i level).kept = s.kept := by
  unfold State.showBall
  simp (disch := first | assumption | (simp only [away]; omega) | simp only [onRing_away, ringEnabled_away, ringErr_away, ringCause_away, ringArmed_away, ringProd_away, ringCons_away]) only [State.ite_kept, ite_self, State.encGlitch_kept, State.setBall_kept]

theorem State.acceptAt_kept (s : State) (d : Nat) : (s.acceptAt d).kept = (s.advance (d - s.beat)).kept := by
  unfold State.acceptAt
  dsimp only
  refine foldl_kept_of (fun s n => ?_) (foldl_kept_of (fun s n => ?_) (foldl_kept_of (fun s n => ?_) rfl))
  · split <;> simp
  · split <;> simp
  · simp

/-- A waiting level is accepted no later than the limit. -/
theorem State.nextAccept_le {s : State} {limit d : Nat} (h : s.nextAccept limit = some d) : d ≤ limit := by
  unfold State.nextAccept at h
  have key : ∀ (l : List Nat) (m : Option Nat), (∀ i ∈ l, s.acceptBeat i ≤ limit) → (∀ x, m = some x → x ≤ limit) →
      ∀ x, l.foldl (fun (m : Option Nat) i => match m with
        | none => some (s.acceptBeat i)
        | some d => some (min d (s.acceptBeat i))) m = some x → x ≤ limit := by
    intro l
    induction l with
    | nil => intro m _ hm; exact hm
    | cons i t ih =>
      intro m hl hm
      refine ih _ (fun j hj => hl j (by simp [hj])) ?_
      have hi := hl i (by simp)
      cases m with
      | none => intro x hx; simp at hx; omega
      | some y => intro x hx; simp at hx; omega
  refine key _ none (fun i hi => ?_) (fun x hx => by cases hx) d h
  simp [upto] at hi
  omega

/-- Accepting levels up to a limit changes no kept word and takes the beat no further than the limit. -/
theorem State.acceptTo_kept (k limit : Nat) (s : State) : (State.acceptTo k limit s).keptAt 0 = s.keptAt 0 ∧
    s.beat ≤ (State.acceptTo k limit s).beat ∧ (State.acceptTo k limit s).beat ≤ max s.beat limit := by
  induction k generalizing s with
  | zero => exact ⟨rfl, Nat.le_refl _, Nat.le_max_left _ _⟩
  | succ k ih =>
    unfold State.acceptTo
    split
    · exact ⟨rfl, Nat.le_refl _, Nat.le_max_left _ _⟩
    · rename_i d h
      obtain ⟨h1, h2, h3⟩ := ih (s.acceptAt d)
      have hk := s.acceptAt_kept d
      have hb : (s.acceptAt d).beat = s.beat + (d - s.beat) := State.beat_of_kept hk
      have hd := State.nextAccept_le h
      refine ⟨h1.trans ((State.keptAt_of_kept hk 0).trans (s.advance_keptAt _ 0)), by omega, by omega⟩

@[simp] theorem State.showBalls_kept (s : State) (levels : BitVec 20) : (State.showBalls s levels).kept = s.kept := by
  unfold State.showBalls
  dsimp only
  rw [State.modInputs_kept]
  exact foldl_kept _ (fun s i => by simp) _ _

theorem State.sampleBalls_kept (s : State) (dt : Nat) (levels : BitVec 20) : (s.sampleBalls dt levels).kept = (s.advance dt).kept := by
  unfold State.sampleBalls
  extract_lets t on s0 s1
  have h0 : s0.keptAt 0 = s.keptAt 0 ∧ s0.beat ≤ t := by
    unfold s0
    split
    · rename_i h
      have ht : 0 < t := by simp at h; exact h.2
      obtain ⟨h1, _, h3⟩ := State.acceptTo_kept 20 (t - 1) s
      exact ⟨h1, by unfold t at *; omega⟩
    · exact ⟨rfl, Nat.le_add_right _ _⟩
  have h1 : s1.kept = (s0.advance (t - s0.beat)).kept := State.showBalls_kept _ _
  have h3 : s1.keptAt 0 = s.keptAt 0 ∧ s1.beat = t := by
    refine ⟨(State.keptAt_of_kept h1 0).trans ((s0.advance_keptAt _ 0).trans h0.1), (State.beat_of_kept h1).trans ?_⟩
    show s0.beat + (t - s0.beat) = t
    omega
  clear_value s1
  have fin : ∀ u : State, u.keptAt 0 = s.keptAt 0 → u.beat = t → u.kept = (s.advance dt).kept := by
    intro u hu hb
    have hp : u.kept.1 = s.kept.1 := congrArg (·.1) hu
    have hr : u.kept.2.2 = s.kept.2.2 := congrArg (·.2.2) hu
    show (u.kept.1, u.beat, u.kept.2.2) = (s.kept.1, s.beat + dt, s.kept.2.2)
    rw [hp, hr, hb]
  split
  · have hk := s1.acceptAt_kept t
    refine fin _ ((State.keptAt_of_kept hk 0).trans ((s1.advance_keptAt _ 0).trans h3.1)) ((State.beat_of_kept hk).trans ?_)
    show s1.beat + (t - s1.beat) = t
    omega
  · exact fin _ h3.1 h3.2

end Sys2Proof.Machine
end

