-- ==== Sys2Proof/Laws/KeptFmCore.lean ====
section
/-! SUPPORT. The operations of Machine/FmCore.lean leave the kept words alone. -/

set_option linter.all false

namespace Sys2Proof.Machine

@[simp] theorem State.sendStat_kept (s : State) (rec : List (BitVec 8)) : (State.sendStat s rec).kept = s.kept := by
  unfold State.sendStat
  simp (disch := first | assumption | (simp only [away]; omega) | simp only [onRing_away, ringEnabled_away, ringErr_away, ringCause_away, ringArmed_away, ringProd_away, ringCons_away]) only [State.ite_kept, ite_self, State.modRings_kept]

@[simp] theorem State.issueFm_kept (s : State) (c : FmChange) (kind flags effLi : Nat) : (State.issueFm s c kind flags effLi).kept = s.kept := by
  unfold State.issueFm
  simp (disch := first | assumption | (simp only [away, Reg.FM_CFG_host_records]; omega) | simp only [onRing_away, ringEnabled_away, ringErr_away, ringCause_away, ringArmed_away, ringProd_away, ringCons_away]) only [State.ite_kept, ite_self, State.modFm_kept, State.sendStat_kept]

@[simp] theorem State.issueChange_kept (s : State) (c : FmChange) (kind effLi : Nat) : (State.issueChange s c kind effLi).2.kept = s.kept := by
  unfold State.issueChange
  (repeat' (first | with_reducible rfl | (simp (disch := first | assumption | (simp only [away, Reg.FM_SEQ]; omega) | simp only [onRing_away, ringEnabled_away, ringErr_away, ringCause_away, ringArmed_away, ringProd_away, ringCons_away]) only [State.ite_kept, ite_self, State.issueFm_kept, State.set_kept]; done) | split | apply foldl_kept_of | apply foldl_kept_snd_of | apply foldl_kept_fst_of | intro _ _ | simp (disch := first | assumption | (simp only [away, Reg.FM_SEQ]; omega) | simp only [onRing_away, ringEnabled_away, ringErr_away, ringCause_away, ringArmed_away, ringProd_away, ringCons_away]) only [State.ite_kept, ite_self, State.issueFm_kept, State.set_kept] | dsimp only))

@[simp] theorem State.setFmSince_kept (s : State) (loop who line : Nat) : (State.setFmSince s loop who line).kept = s.kept := by
  unfold State.setFmSince
  simp (disch := first | assumption | (simp only [away]; omega) | simp only [onRing_away, ringEnabled_away, ringErr_away, ringCause_away, ringArmed_away, ringProd_away, ringCons_away]) only [State.ite_kept, ite_self, State.modFm_kept, State.set_kept]

@[simp] theorem State.fmApply_kept (s : State) (c : FmChange) (i : FmItem) : (State.fmApply s c i).kept = s.kept := by
  unfold State.fmApply
  (try dsimp only)
  (repeat' split) <;> simp (disch := first | assumption | (simp only [away, Reg.FM_PDq_pd, Reg.FM_REGq_dt, Reg.FM_REGq_xoff]; omega) | simp only [onRing_away, ringEnabled_away, ringErr_away, ringCause_away, ringArmed_away, ringProd_away, ringCons_away]) only [State.ite_kept, ite_self, State.modFm_kept, State.set_kept, State.setI_kept]

@[simp] theorem State.fmEffect_kept (s : State) (load line : Nat) : (State.fmEffect s load line).kept = s.kept := by
  unfold State.fmEffect
  (repeat' (first | with_reducible rfl | (simp (disch := first | assumption | (simp only [away]; omega) | simp only [onRing_away, ringEnabled_away, ringErr_away, ringCause_away, ringArmed_away, ringProd_away, ringCons_away]) only [State.ite_kept, ite_self, State.fmApply_kept, State.issueFm_kept, State.modFm_kept, State.setFmSince_kept]; done) | split | apply foldl_kept_of | apply foldl_kept_snd_of | apply foldl_kept_fst_of | intro _ _ | simp (disch := first | assumption | (simp only [away]; omega) | simp only [onRing_away, ringEnabled_away, ringErr_away, ringCause_away, ringArmed_away, ringProd_away, ringCons_away]) only [State.ite_kept, ite_self, State.fmApply_kept, State.issueFm_kept, State.modFm_kept, State.setFmSince_kept] | dsimp only))

@[simp] theorem State.fmWithdraw_kept (s : State) (kind index : Nat) : (State.fmWithdraw s kind index).kept = s.kept := by
  unfold State.fmWithdraw
  (repeat' (first | with_reducible rfl | (simp (disch := first | assumption | (simp only [away]; omega) | simp only [onRing_away, ringEnabled_away, ringErr_away, ringCause_away, ringArmed_away, ringProd_away, ringCons_away]) only [State.ite_kept, ite_self, State.issueFm_kept, State.modFm_kept, State.modSched_kept]; done) | split | apply foldl_kept_of | apply foldl_kept_snd_of | apply foldl_kept_fst_of | intro _ _ | simp (disch := first | assumption | (simp only [away]; omega) | simp only [onRing_away, ringEnabled_away, ringErr_away, ringCause_away, ringArmed_away, ringProd_away, ringCons_away]) only [State.ite_kept, ite_self, State.issueFm_kept, State.modFm_kept, State.modSched_kept] | dsimp only))

@[simp] theorem State.fmRebase_kept (s : State) (kind index : Nat) (data : List (BitVec 8)) (heads : List Nat) (line : Nat) : (State.fmRebase s kind index data heads line).kept = s.kept := by
  unfold State.fmRebase
  (repeat' (first | with_reducible rfl | (simp (disch := first | assumption | (simp only [away, Reg.FM_PDq_pd, Reg.FM_REGq_dt, Reg.FM_STATUS_rebased]; omega) | simp only [onRing_away, ringEnabled_away, ringErr_away, ringCause_away, ringArmed_away, ringProd_away, ringCons_away]) only [State.ite_kept, ite_self, State.modFm_kept, State.post_kept, State.raise_kept, State.set_kept, State.setFmSince_kept, State.setI_kept]; done) | split | apply foldl_kept_of | apply foldl_kept_snd_of | apply foldl_kept_fst_of | intro _ _ | simp (disch := first | assumption | (simp only [away, Reg.FM_PDq_pd, Reg.FM_REGq_dt, Reg.FM_STATUS_rebased]; omega) | simp only [onRing_away, ringEnabled_away, ringErr_away, ringCause_away, ringArmed_away, ringProd_away, ringCons_away]) only [State.ite_kept, ite_self, State.modFm_kept, State.post_kept, State.raise_kept, State.set_kept, State.setFmSince_kept, State.setI_kept] | dsimp only))

end Sys2Proof.Machine
end

