-- ==== Sys2Proof/Laws/KeptTables.lean ====
section
/-! SUPPORT. The operations of Machine/Tables.lean leave the kept words alone. -/

set_option linter.all false

namespace Sys2Proof.Machine

@[simp] theorem State.setPlane_kept (s : State) (q : Nat) (p : PlaneRaster) : (State.setPlane s q p).kept = s.kept := by
  unfold State.setPlane
  simp (disch := first | assumption | (simp only [away]; omega) | simp only [onRing_away, ringEnabled_away, ringErr_away, ringCause_away, ringArmed_away, ringProd_away, ringCons_away]) only [State.ite_kept, ite_self, State.modRaster_kept, State.set_kept]

@[simp] theorem State.onPlane_kept (s : State) (q : Nat) (f : PlaneRaster → PlaneRaster) : (State.onPlane s q f).kept = s.kept := by
  unfold State.onPlane
  simp (disch := first | assumption | (simp only [away]; omega) | simp only [onRing_away, ringEnabled_away, ringErr_away, ringCause_away, ringArmed_away, ringProd_away, ringCons_away]) only [State.ite_kept, ite_self, State.setPlane_kept]

@[simp] theorem State.fixOne_kept (s : State) (g : Staged) (earlier : List Staged) : (State.fixOne s g earlier).2.kept = s.kept := by
  unfold State.fixOne
  (try dsimp only)
  (repeat' split) <;> simp (disch := first | assumption | (simp only [away, Reg.LS_STATUS_table_late]; omega) | simp only [onRing_away, ringEnabled_away, ringErr_away, ringCause_away, ringArmed_away, ringProd_away, ringCons_away]) only [State.ite_kept, ite_self, State.post_kept, State.raise_kept]

@[simp] theorem State.fixLines_kept (s : State) : (State.fixLines s).kept = s.kept := by
  unfold State.fixLines
  grind [away, State.fixOne_kept, State.modSched_kept, foldl_kept, foldl_kept_snd]

@[simp] theorem State.switchLoss_kept (s : State) (a line : Nat) (old new : List (BitVec 8)) : (State.switchLoss s a line old new).kept = s.kept := by
  unfold State.switchLoss
  simp (disch := first | assumption | (simp only [away, Reg.SEAM_STATUS_switch_loss, Reg.SEAM_SWITCH_LOSS]; omega) | simp only [onRing_away, ringEnabled_away, ringErr_away, ringCause_away, ringArmed_away, ringProd_away, ringCons_away]) only [State.ite_kept, ite_self, State.bump_kept, State.post_kept, State.raise_kept]

@[simp] theorem State.notServed_kept (s : State) (a reason : Nat) : (State.notServed s a reason).kept = s.kept := by
  unfold State.notServed
  simp (disch := first | assumption | (simp only [away, Reg.NODEa_STATE_reason, Reg.NODEa_STATE_state]; omega) | simp only [onRing_away, ringEnabled_away, ringErr_away, ringCause_away, ringArmed_away, ringProd_away, ringCons_away]) only [State.ite_kept, ite_self, State.onNode_kept, State.post_kept, State.set_kept]

@[simp] theorem State.takeEffect_kept (s : State) (g : Staged) (line first : Option Nat) : (State.takeEffect s g line first).kept = s.kept := by
  unfold State.takeEffect
  extract_lets old shown keep s1 heads t s2 s3
  have h1 : s1.kept = s.kept := State.setBanks_kept _ _ _ _ _
  clear_value s1 heads old
  have ht : t.kept = s.kept := by unfold t; rw [State.modFm_kept, State.modSeam_kept, h1]
  clear_value t
  have h2 : s2.kept = s.kept := by
    unfold s2
    split
    · split
      · exact (foldl_kept _ (fun s a => State.switchLoss_kept _ _ _ _ _) _ _).trans ht
      · exact ht
    · split
      · exact (foldl_kept _ (fun s a => by simp) _ _).trans h1
      · exact h1
  clear_value s2
  have h3 : s3.kept = s.kept := by
    unfold s3
    split
    · rw [State.fmEffect_kept, h2]
    · split
      · rw [State.fmRebase_kept, h2]
      · exact h2
  clear_value s3
  split
  · rw [State.endOp_kept, h3]
  · exact h3

@[simp] theorem State.unstage_kept (s : State) (g : Staged) : (State.unstage s g).kept = s.kept := by
  unfold State.unstage
  simp (disch := first | assumption | (simp only [away]; omega) | simp only [onRing_away, ringEnabled_away, ringErr_away, ringCause_away, ringArmed_away, ringProd_away, ringCons_away]) only [State.ite_kept, ite_self, State.modSched_kept]

@[simp] theorem State.switchTable_kept (s : State) (kind index line : Nat) : (State.switchTable s kind index line).kept = s.kept := by
  unfold State.switchTable
  (repeat' (first | with_reducible rfl | (simp (disch := first | assumption | (simp only [away]; omega) | simp only [onRing_away, ringEnabled_away, ringErr_away, ringCause_away, ringArmed_away, ringProd_away, ringCons_away]) only [State.ite_kept, ite_self, State.fixLines_kept, State.takeEffect_kept, State.unstage_kept]; done) | split | apply foldl_kept_of | apply foldl_kept_snd_of | apply foldl_kept_fst_of | intro _ _ | simp (disch := first | assumption | (simp only [away]; omega) | simp only [onRing_away, ringEnabled_away, ringErr_away, ringCause_away, ringArmed_away, ringProd_away, ringCons_away]) only [State.ite_kept, ite_self, State.fixLines_kept, State.takeEffect_kept, State.unstage_kept] | dsimp only))

@[simp] theorem State.stage_kept (s : State) (g : Staged) : (State.stage s g).kept = s.kept := by
  unfold State.stage
  simp (disch := first | assumption | (simp only [away]; omega) | simp only [onRing_away, ringEnabled_away, ringErr_away, ringCause_away, ringArmed_away, ringProd_away, ringCons_away]) only [State.ite_kept, ite_self, State.fixLines_kept, State.modSched_kept, State.takeEffect_kept]

@[simp] theorem State.endTables_kept (s : State) : (State.endTables s).kept = s.kept := by
  unfold State.endTables
  (repeat' (first | with_reducible rfl | (simp (disch := first | assumption | (simp only [away]; omega) | simp only [onRing_away, ringEnabled_away, ringErr_away, ringCause_away, ringArmed_away, ringProd_away, ringCons_away]) only [State.ite_kept, ite_self, State.modSched_kept, State.takeEffect_kept]; done) | split | apply foldl_kept_of | apply foldl_kept_snd_of | apply foldl_kept_fst_of | intro _ _ | simp (disch := first | assumption | (simp only [away]; omega) | simp only [onRing_away, ringEnabled_away, ringErr_away, ringCause_away, ringArmed_away, ringProd_away, ringCons_away]) only [State.ite_kept, ite_self, State.modSched_kept, State.takeEffect_kept] | dsimp only))

@[simp] theorem State.abortTables_kept (s : State) : (State.abortTables s).kept = s.kept := by
  unfold State.abortTables
  (repeat' (first | with_reducible rfl | (simp (disch := first | assumption | (simp only [away]; omega) | simp only [onRing_away, ringEnabled_away, ringErr_away, ringCause_away, ringArmed_away, ringProd_away, ringCons_away]) only [State.ite_kept, ite_self, State.endOp_kept, State.modFm_kept, State.modSched_kept]; done) | split | apply foldl_kept_of | apply foldl_kept_snd_of | apply foldl_kept_fst_of | intro _ _ | simp (disch := first | assumption | (simp only [away]; omega) | simp only [onRing_away, ringEnabled_away, ringErr_away, ringCause_away, ringArmed_away, ringProd_away, ringCons_away]) only [State.ite_kept, ite_self, State.endOp_kept, State.modFm_kept, State.modSched_kept] | dsimp only))

end Sys2Proof.Machine
end

