-- ==== Sys2Proof/Laws/KeptPhied.lean ====
section
/-! SUPPORT. The operations of Machine/Phied.lean leave the kept words alone. -/

set_option linter.all false

namespace Sys2Proof.Machine

@[simp] theorem State.sendBy_kept (s : State) (a e ty : Nat) (payload : List (BitVec 8)) : (State.sendBy s a e ty payload).kept = s.kept := by
  unfold State.sendBy
  (try dsimp only)
  (repeat' split) <;> simp (disch := first | assumption | (simp only [away]; omega) | simp only [onRing_away, ringEnabled_away, ringErr_away, ringCause_away, ringArmed_away, ringProd_away, ringCons_away]) only [State.ite_kept, ite_self, State.sendPacket_kept]

@[simp] theorem State.sendNode_kept (s : State) (a ty : Nat) (payload : List (BitVec 8)) : (State.sendNode s a ty payload).kept = s.kept := by
  unfold State.sendNode
  simp (disch := first | assumption | (simp only [away]; omega) | simp only [onRing_away, ringEnabled_away, ringErr_away, ringCause_away, ringArmed_away, ringProd_away, ringCons_away]) only [State.ite_kept, ite_self, State.sendBy_kept]

@[simp] theorem State.setStr_kept (s : State) (n : Nat) (v : LinkString) : (State.setStr s n v).kept = s.kept := by
  unfold State.setStr
  simp (disch := first | assumption | (simp only [away]; omega) | simp only [onRing_away, ringEnabled_away, ringErr_away, ringCause_away, ringArmed_away, ringProd_away, ringCons_away]) only [State.ite_kept, ite_self, State.modLink_kept, State.set_kept]

@[simp] theorem State.onStr_kept (s : State) (n : Nat) (f : LinkString → LinkString) : (State.onStr s n f).kept = s.kept := by
  unfold State.onStr
  simp (disch := first | assumption | (simp only [away]; omega) | simp only [onRing_away, ringEnabled_away, ringErr_away, ringCause_away, ringArmed_away, ringProd_away, ringCons_away]) only [State.ite_kept, ite_self, State.setStr_kept]

@[simp] theorem State.setOffset_kept (s : State) (str : Nat) (v : Int) : (State.setOffset s str v).kept = s.kept := by
  unfold State.setOffset
  simp (disch := first | assumption | (simp only [away, Reg.LINKs_OFFSET_HI, Reg.LINKs_OFFSET_LO]; omega) | simp only [onRing_away, ringEnabled_away, ringErr_away, ringCause_away, ringArmed_away, ringProd_away, ringCons_away]) only [State.ite_kept, ite_self, State.onStr_kept, State.setI2_kept]

@[simp] theorem State.stepOffsets_kept (s : State) (d : Int) : (State.stepOffsets s d).kept = s.kept := by
  unfold State.stepOffsets
  (repeat' (first | with_reducible rfl | (simp (disch := first | assumption | (simp only [away]; omega) | simp only [onRing_away, ringEnabled_away, ringErr_away, ringCause_away, ringArmed_away, ringProd_away, ringCons_away]) only [State.ite_kept, ite_self, State.onStr_kept, State.setOffset_kept]; done) | split | apply foldl_kept_of | apply foldl_kept_snd_of | apply foldl_kept_fst_of | intro _ _ | simp (disch := first | assumption | (simp only [away]; omega) | simp only [onRing_away, ringEnabled_away, ringErr_away, ringCause_away, ringArmed_away, ringProd_away, ringCons_away]) only [State.ite_kept, ite_self, State.onStr_kept, State.setOffset_kept] | dsimp only))

@[simp] theorem State.nodeCmd_kept (s : State) (a opcode : Nat) (params : List (BitVec 8)) : (State.nodeCmd s a opcode params).kept = s.kept := by
  unfold State.nodeCmd
  simp (disch := first | assumption | (simp only [away]; omega) | simp only [onRing_away, ringEnabled_away, ringErr_away, ringCause_away, ringArmed_away, ringProd_away, ringCons_away]) only [State.ite_kept, ite_self, State.sendNode_kept, State.setNode_kept]

@[simp] theorem State.sendHold_kept (s : State) (a mode k : Nat) : (State.sendHold s a mode k).kept = s.kept := by
  unfold State.sendHold
  simp (disch := first | assumption | (simp only [away]; omega) | simp only [onRing_away, ringEnabled_away, ringErr_away, ringCause_away, ringArmed_away, ringProd_away, ringCons_away]) only [State.ite_kept, ite_self, State.nodeCmd_kept]

@[simp] theorem State.sendStreamReset_kept (s : State) (a first : Nat) : (State.sendStreamReset s a first).kept = s.kept := by
  unfold State.sendStreamReset
  simp (disch := first | assumption | (simp only [away]; omega) | simp only [onRing_away, ringEnabled_away, ringErr_away, ringCause_away, ringArmed_away, ringProd_away, ringCons_away]) only [State.ite_kept, ite_self, State.nodeCmd_kept]

@[simp] theorem State.sendCareParam_kept (s : State) (a id v : Nat) : (State.sendCareParam s a id v).kept = s.kept := by
  unfold State.sendCareParam
  simp (disch := first | assumption | (simp only [away]; omega) | simp only [onRing_away, ringEnabled_away, ringErr_away, ringCause_away, ringArmed_away, ringProd_away, ringCons_away]) only [State.ite_kept, ite_self, State.nodeCmd_kept]

@[simp] theorem State.sendLine_kept (s : State) (a : Nat) (l : HeadLine) : (State.sendLine s a l).kept = s.kept := by
  unfold State.sendLine
  simp (disch := first | assumption | (simp only [away]; omega) | simp only [onRing_away, ringEnabled_away, ringErr_away, ringCause_away, ringArmed_away, ringProd_away, ringCons_away]) only [State.ite_kept, ite_self, State.sendNode_kept]

@[simp] theorem State.sendBind_kept (s : State) (a e source : Nat) (ls : List Bound) : (State.sendBind s a e source ls).kept = s.kept := by
  unfold State.sendBind
  (try dsimp only)
  (repeat' split) <;> simp (disch := first | assumption | (simp only [away]; omega) | simp only [onRing_away, ringEnabled_away, ringErr_away, ringCause_away, ringArmed_away, ringProd_away, ringCons_away]) only [State.ite_kept, ite_self, State.sendBy_kept]

@[simp] theorem State.sendSpit_kept (s : State) (a t period rows level first last stride repeats : Nat) : (State.sendSpit s a t period rows level first last stride repeats).kept = s.kept := by
  unfold State.sendSpit
  simp (disch := first | assumption | (simp only [away]; omega) | simp only [onRing_away, ringEnabled_away, ringErr_away, ringCause_away, ringArmed_away, ringProd_away, ringCons_away]) only [State.ite_kept, ite_self, State.sendNode_kept]

@[simp] theorem State.sendSync_kept (s : State) (a e subtype source seq epoch : Nat) (value rate : Int) (step : Nat) : (State.sendSync s a e subtype source seq epoch value rate step).kept = s.kept := by
  unfold State.sendSync
  simp (disch := first | assumption | (simp only [away]; omega) | simp only [onRing_away, ringEnabled_away, ringErr_away, ringCause_away, ringArmed_away, ringProd_away, ringCons_away]) only [State.ite_kept, ite_self, State.sendBy_kept]

@[simp] theorem State.setMap_kept (s : State) (a : Nat) (m : FireMap) : (State.setMap s a m).kept = s.kept := by
  unfold State.setMap
  simp (disch := first | assumption | (simp only [away]; omega) | simp only [onRing_away, ringEnabled_away, ringErr_away, ringCause_away, ringArmed_away, ringProd_away, ringCons_away]) only [State.ite_kept, ite_self, State.modSeam_kept, State.set_kept]

@[simp] theorem State.sendMapData_kept (s : State) (a bank : Nat) (m : List (BitVec 8)) : (State.sendMapData s a bank m).kept = s.kept := by
  unfold State.sendMapData
  (repeat' (first | with_reducible rfl | (simp (disch := first | assumption | (simp only [away]; omega) | simp only [onRing_away, ringEnabled_away, ringErr_away, ringCause_away, ringArmed_away, ringProd_away, ringCons_away]) only [State.ite_kept, ite_self, State.nodeCmd_kept]; done) | split | apply foldl_kept_of | apply foldl_kept_snd_of | apply foldl_kept_fst_of | intro _ _ | simp (disch := first | assumption | (simp only [away]; omega) | simp only [onRing_away, ringEnabled_away, ringErr_away, ringCause_away, ringArmed_away, ringProd_away, ringCons_away]) only [State.ite_kept, ite_self, State.nodeCmd_kept] | dsimp only))

@[simp] theorem State.sendMapCommit_kept (s : State) (a bank e : Nat) (m : List (BitVec 8)) : (State.sendMapCommit s a bank e m).kept = s.kept := by
  unfold State.sendMapCommit
  simp (disch := first | assumption | (simp only [away]; omega) | simp only [onRing_away, ringEnabled_away, ringErr_away, ringCause_away, ringArmed_away, ringProd_away, ringCons_away]) only [State.ite_kept, ite_self, State.nodeCmd_kept]

end Sys2Proof.Machine
end

