-- ==== Sys2Proof/Laws/KeptSched.lean ====
section
/-! SUPPORT. The operations of Machine/Sched.lean leave the kept words alone. -/

set_option linter.all false

namespace Sys2Proof.Machine

@[simp] theorem State.setOrigin_kept (s : State) (b : Job) (x0 : Int) (moved : Bool) : (State.setOrigin s b x0 moved).kept = s.kept := by
  unfold State.setOrigin
  extract_lets s1 s2 s3 s4 s5 s6
  have h2 : s2.kept = s.kept := by simp only [s2, s1, State.modFm_kept, State.modRaster_kept, State.modSched_kept]
  clear_value s2
  have h3 : s3.kept = s.kept := by rw [← h2]; simp (disch := first | assumption | (simp only [away, Reg.LS_COMMIT_LINE_HI, Reg.LS_COMMIT_LINE_LO, Reg.LS_LATE_COUNT, Reg.LS_LEAD_lead, Reg.LS_LEAD_lead_in_force, Reg.LS_ORIGIN_HI, Reg.LS_ORIGIN_LO, Reg.LS_REF_LINE_HI, Reg.LS_REF_LINE_LO, Reg.LS_SKIP_COUNT, Reg.LS_STATUS_draining, Reg.LS_STATUS_edges_ignored, Reg.LS_STATUS_origin_set, Reg.LS_STREAM_CFG_lpi, Reg.RS_PLANEq_CFG_prescreened]; omega)) [s3]
  clear_value s3
  have h4 : s4.kept = s.kept := by rw [← h3]; simp (disch := first | assumption | (simp only [away, Reg.LS_COMMIT_LINE_HI, Reg.LS_COMMIT_LINE_LO, Reg.LS_LATE_COUNT, Reg.LS_LEAD_lead, Reg.LS_LEAD_lead_in_force, Reg.LS_ORIGIN_HI, Reg.LS_ORIGIN_LO, Reg.LS_REF_LINE_HI, Reg.LS_REF_LINE_LO, Reg.LS_SKIP_COUNT, Reg.LS_STATUS_draining, Reg.LS_STATUS_edges_ignored, Reg.LS_STATUS_origin_set, Reg.LS_STREAM_CFG_lpi, Reg.RS_PLANEq_CFG_prescreened]; omega)) [s4]
  clear_value s4
  have h5 : s5.kept = s.kept := by rw [← h4]; simp (disch := first | assumption | (simp only [away, Reg.LS_COMMIT_LINE_HI, Reg.LS_COMMIT_LINE_LO, Reg.LS_LATE_COUNT, Reg.LS_LEAD_lead, Reg.LS_LEAD_lead_in_force, Reg.LS_ORIGIN_HI, Reg.LS_ORIGIN_LO, Reg.LS_REF_LINE_HI, Reg.LS_REF_LINE_LO, Reg.LS_SKIP_COUNT, Reg.LS_STATUS_draining, Reg.LS_STATUS_edges_ignored, Reg.LS_STATUS_origin_set, Reg.LS_STREAM_CFG_lpi, Reg.RS_PLANEq_CFG_prescreened]; omega)) [s5]
  clear_value s5
  have h6 : s6.kept = s.kept := by rw [← h5]; simp (disch := first | assumption | (simp only [away, Reg.LS_COMMIT_LINE_HI, Reg.LS_COMMIT_LINE_LO, Reg.LS_LATE_COUNT, Reg.LS_LEAD_lead, Reg.LS_LEAD_lead_in_force, Reg.LS_ORIGIN_HI, Reg.LS_ORIGIN_LO, Reg.LS_REF_LINE_HI, Reg.LS_REF_LINE_LO, Reg.LS_SKIP_COUNT, Reg.LS_STATUS_draining, Reg.LS_STATUS_edges_ignored, Reg.LS_STATUS_origin_set, Reg.LS_STREAM_CFG_lpi, Reg.RS_PLANEq_CFG_prescreened]; omega)) [s6]
  clear_value s6
  rw [← h6]; simp (disch := first | assumption | (simp only [away, Reg.LS_COMMIT_LINE_HI, Reg.LS_COMMIT_LINE_LO, Reg.LS_LATE_COUNT, Reg.LS_LEAD_lead, Reg.LS_LEAD_lead_in_force, Reg.LS_ORIGIN_HI, Reg.LS_ORIGIN_LO, Reg.LS_REF_LINE_HI, Reg.LS_REF_LINE_LO, Reg.LS_SKIP_COUNT, Reg.LS_STATUS_draining, Reg.LS_STATUS_edges_ignored, Reg.LS_STATUS_origin_set, Reg.LS_STREAM_CFG_lpi, Reg.RS_PLANEq_CFG_prescreened]; omega))

@[simp] theorem State.bindMore_kept (s : State) (h : Nat) (x0 : Nat) : (State.bindMore s h x0).kept = s.kept := by
  induction x0 generalizing s with
  | zero => rfl
  | succ n ih =>
    unfold State.bindMore
    dsimp only
    split
    · rfl
    · split
      · rfl
      · rw [ih]; simp
      · split
        · rw [ih]; simp
        · rfl

@[simp] theorem State.settleRuns_kept (s : State) : (State.settleRuns s).kept = s.kept := by
  unfold State.settleRuns
  (repeat' (first | with_reducible rfl | (simp (disch := first | assumption | (simp only [away]; omega) | simp only [onRing_away, ringEnabled_away, ringErr_away, ringCause_away, ringArmed_away, ringProd_away, ringCons_away]) only [State.ite_kept, ite_self, State.closeRun_kept]; done) | split | apply foldl_kept_of | apply foldl_kept_snd_of | apply foldl_kept_fst_of | intro _ _ | simp (disch := first | assumption | (simp only [away]; omega) | simp only [onRing_away, ringEnabled_away, ringErr_away, ringCause_away, ringArmed_away, ringProd_away, ringCons_away]) only [State.ite_kept, ite_self, State.closeRun_kept] | dsimp only))

@[simp] theorem State.releaseHead_kept (s : State) (a : Nat) : (State.releaseHead s a).kept = s.kept := by
  unfold State.releaseHead
  (try dsimp only)
  (repeat' split) <;> simp (disch := first | assumption | (simp only [away, Reg.HC_HEADa_STATE_held]; omega) | simp only [onRing_away, ringEnabled_away, ringErr_away, ringCause_away, ringArmed_away, ringProd_away, ringCons_away]) only [State.ite_kept, ite_self, State.clear_kept, State.onHead_kept, State.onNode_kept, State.post_kept, State.sendHold_kept, State.sendStreamReset_kept]

@[simp] theorem State.releaseDue_kept (s : State) : (State.releaseDue s).kept = s.kept := by
  unfold State.releaseDue
  (repeat' (first | with_reducible rfl | (simp (disch := first | assumption | (simp only [away]; omega) | simp only [onRing_away, ringEnabled_away, ringErr_away, ringCause_away, ringArmed_away, ringProd_away, ringCons_away]) only [State.ite_kept, ite_self, State.releaseHead_kept]; done) | split | apply foldl_kept_of | apply foldl_kept_snd_of | apply foldl_kept_fst_of | intro _ _ | simp (disch := first | assumption | (simp only [away]; omega) | simp only [onRing_away, ringEnabled_away, ringErr_away, ringCause_away, ringArmed_away, ringProd_away, ringCons_away]) only [State.ite_kept, ite_self, State.releaseHead_kept] | dsimp only))

@[simp] theorem State.closeLate_kept (s : State) (h : Nat) : (State.closeLate s h).kept = s.kept := by
  unfold State.closeLate
  (try dsimp only)
  (repeat' split) <;> simp (disch := first | assumption | (simp only [away, Reg.LS_STATUS_late]; omega) | simp only [onRing_away, ringEnabled_away, ringErr_away, ringCause_away, ringArmed_away, ringProd_away, ringCons_away]) only [State.ite_kept, ite_self, State.onHead_kept, State.post_kept, State.raise_kept]

@[simp] theorem State.discardLate_kept (s : State) (h k : Nat) (waiting : Option Nat) : (State.discardLate s h k waiting).kept = s.kept := by
  unfold State.discardLate
  (try dsimp only)
  (repeat' split) <;> simp (disch := first | assumption | (simp only [away, Reg.LS_LATE_COUNT, Reg.SEAM_STATUS_map_late]; omega) | simp only [onRing_away, ringEnabled_away, ringErr_away, ringCause_away, ringArmed_away, ringProd_away, ringCons_away]) only [State.ite_kept, ite_self, State.bump_kept, State.closeLate_kept, State.onHead_kept, State.post_kept, State.raise_kept]

@[simp] theorem State.lineSend_kept (s : State) (h : Nat) : (State.lineSend s h).kept = s.kept := by
  unfold State.lineSend
  (try dsimp only)
  (repeat' split) <;> simp (disch := first | assumption | (simp only [away]; omega) | simp only [onRing_away, ringEnabled_away, ringErr_away, ringCause_away, ringArmed_away, ringProd_away, ringCons_away]) only [State.ite_kept, ite_self, State.closeLate_kept, State.discardLate_kept, State.onHead_kept, State.sendLine_kept]

@[simp] theorem State.endCopies_kept (s : State) : (State.endCopies s).kept = s.kept := by
  unfold State.endCopies
  (repeat' (first | with_reducible rfl | (simp (disch := first | assumption | (simp only [away, Reg.SEAM_PLANEq_copying, Reg.SEAM_PLANEq_spare_in_use, Reg.SEAM_PLANEq_spared_bank, Reg.SEAM_STATUS_bank_spared]; omega) | simp only [onRing_away, ringEnabled_away, ringErr_away, ringCause_away, ringArmed_away, ringProd_away, ringCons_away]) only [State.ite_kept, ite_self, State.clear_kept, State.endOp_kept, State.modSeam_kept, State.post_kept, State.raise_kept, State.set_kept]; done) | split | apply foldl_kept_of | apply foldl_kept_snd_of | apply foldl_kept_fst_of | intro _ _ | simp (disch := first | assumption | (simp only [away, Reg.SEAM_PLANEq_copying, Reg.SEAM_PLANEq_spare_in_use, Reg.SEAM_PLANEq_spared_bank, Reg.SEAM_STATUS_bank_spared]; omega) | simp only [onRing_away, ringEnabled_away, ringErr_away, ringCause_away, ringArmed_away, ringProd_away, ringCons_away]) only [State.ite_kept, ite_self, State.clear_kept, State.endOp_kept, State.modSeam_kept, State.post_kept, State.raise_kept, State.set_kept] | dsimp only))

@[simp] theorem State.setSpare_kept (s : State) (st plane : Nat) : (State.setSpare s st plane).kept = s.kept := by
  unfold State.setSpare
  simp (disch := first | assumption | (simp only [away, Reg.RS_SPARE_STATUS_plane, Reg.RS_SPARE_STATUS_state]; omega) | simp only [onRing_away, ringEnabled_away, ringErr_away, ringCause_away, ringArmed_away, ringProd_away, ringCons_away]) only [State.ite_kept, ite_self, State.set_kept]

@[simp] theorem State.idleSlices_kept (s : State) : (State.idleSlices s).kept = s.kept := by
  unfold State.idleSlices
  (repeat' (first | with_reducible rfl | (simp (disch := first | assumption | (simp only [away, Reg.RS_SPARE_STATUS_state, Reg.RSn_STATUS_state]; omega) | simp only [onRing_away, ringEnabled_away, ringErr_away, ringCause_away, ringArmed_away, ringProd_away, ringCons_away]) only [State.ite_kept, ite_self, State.set_kept, State.setSpare_kept]; done) | split | apply foldl_kept_of | apply foldl_kept_snd_of | apply foldl_kept_fst_of | intro _ _ | simp (disch := first | assumption | (simp only [away, Reg.RS_SPARE_STATUS_state, Reg.RSn_STATUS_state]; omega) | simp only [onRing_away, ringEnabled_away, ringErr_away, ringCause_away, ringArmed_away, ringProd_away, ringCons_away]) only [State.ite_kept, ite_self, State.set_kept, State.setSpare_kept] | dsimp only))

@[simp] theorem State.closeBehind_kept (s : State) (q : Nat) : (State.closeBehind s q).kept = s.kept := by
  unfold State.closeBehind
  (try dsimp only)
  (repeat' split) <;> simp (disch := first | assumption | (simp only [away, Reg.RSn_STATUS_late_seen]; omega) | simp only [onRing_away, ringEnabled_away, ringErr_away, ringCause_away, ringArmed_away, ringProd_away, ringCons_away]) only [State.ite_kept, ite_self, State.onPlane_kept, State.post_kept, State.raise_kept]

@[simp] theorem State.endStream_kept (s : State) (st : Nat) : (State.endStream s st).kept = s.kept := by
  unfold State.endStream
  extract_lets r s1 s2 s3 s4 s5 s6
  have h1 : s1.kept = s.kept := by
    unfold s1
    exact (foldl_kept _ (fun s e => by simp) _ _).trans (by simp)
  clear_value s1
  have h2 : s2.kept = s.kept := by
    unfold s2
    exact (foldl_kept _ (fun s e => by simp) _ _).trans ((foldl_kept _ (fun s e => by simp) _ _).trans h1)
  clear_value s2
  have h3 : s3.kept = s.kept := by rw [← h2]; simp (disch := first | assumption | (simp only [away, Reg.LS_LEAD_lead, Reg.LS_LEAD_lead_in_force, Reg.LS_NEXT_PARTING_HI, Reg.LS_NEXT_PARTING_LO, Reg.LS_REF_LINE_HI, Reg.LS_REF_LINE_LO, Reg.LS_STATUS_draining, Reg.LS_STATUS_origin_set]; omega)) [s3]
  clear_value s3
  have h4 : s4.kept = s.kept := by rw [← h3]; simp (disch := first | assumption | (simp only [away, Reg.LS_LEAD_lead, Reg.LS_LEAD_lead_in_force, Reg.LS_NEXT_PARTING_HI, Reg.LS_NEXT_PARTING_LO, Reg.LS_REF_LINE_HI, Reg.LS_REF_LINE_LO, Reg.LS_STATUS_draining, Reg.LS_STATUS_origin_set]; omega)) [s4]
  clear_value s4
  have h5 : s5.kept = s.kept := by rw [← h4]; simp (disch := first | assumption | (simp only [away, Reg.LS_LEAD_lead, Reg.LS_LEAD_lead_in_force, Reg.LS_NEXT_PARTING_HI, Reg.LS_NEXT_PARTING_LO, Reg.LS_REF_LINE_HI, Reg.LS_REF_LINE_LO, Reg.LS_STATUS_draining, Reg.LS_STATUS_origin_set]; omega)) [s5]
  clear_value s5
  have h6 : s6.kept = s.kept := by
    unfold s6
    rw [State.idleSlices_kept, State.modRaster_kept, State.modAssay_kept, h5]
  clear_value s6
  rw [← h6]; simp (disch := first | assumption | (simp only [away, Reg.LS_LEAD_lead, Reg.LS_LEAD_lead_in_force, Reg.LS_NEXT_PARTING_HI, Reg.LS_NEXT_PARTING_LO, Reg.LS_REF_LINE_HI, Reg.LS_REF_LINE_LO, Reg.LS_STATUS_draining, Reg.LS_STATUS_origin_set]; omega))

@[simp] theorem State.stopStream_kept (s : State) : (State.stopStream s).kept = s.kept := by
  unfold State.stopStream
  (try dsimp only)
  (repeat' split) <;> simp (disch := first | assumption | (simp only [away]; omega) | simp only [onRing_away, ringEnabled_away, ringErr_away, ringCause_away, ringArmed_away, ringProd_away, ringCons_away]) only [State.ite_kept, ite_self, State.modSched_kept, State.showParting_kept]

@[simp] theorem State.leadWrite_kept (s : State) (v : Nat) : (State.leadWrite s v).kept = s.kept := by
  unfold State.leadWrite
  simp (disch := first | assumption | (simp only [away, Reg.LS_LEAD_lead, Reg.LS_LEAD_lead_in_force, Reg.LS_STATUS_lead_refused]; omega) | simp only [onRing_away, ringEnabled_away, ringErr_away, ringCause_away, ringArmed_away, ringProd_away, ringCons_away]) only [State.ite_kept, ite_self, State.post_kept, State.raise_kept, State.set_kept]

end Sys2Proof.Machine
end

