-- ==== Sys2Proof/Laws/KeptMemCore.lean ====
section
/-! SUPPORT. The operations of Machine/MemCore.lean leave the kept words alone. -/

set_option linter.all false

namespace Sys2Proof.Machine

@[simp] theorem State.writePage_kept (s : State) (p : Nat) (bs : List (BitVec 8)) : (State.writePage s p bs).kept = s.kept := by
  unfold State.writePage
  simp (disch := first | assumption | (simp only [away]; omega) | simp only [onRing_away, ringEnabled_away, ringErr_away, ringCause_away, ringArmed_away, ringProd_away, ringCons_away]) only [State.ite_kept, ite_self, State.modMem_kept]

@[simp] theorem State.pickPage_kept (s : State) (got : List Nat) (want : Nat → Bool) : (State.pickPage s got want).2.kept = s.kept := by
  unfold State.pickPage
  (try dsimp only)
  (repeat' split) <;> simp (disch := first | assumption | (simp only [away]; omega) | simp only [onRing_away, ringEnabled_away, ringErr_away, ringCause_away, ringArmed_away, ringProd_away, ringCons_away]) only [State.ite_kept, ite_self, State.drawNat_kept]

@[simp] theorem State.allocPages_kept (s : State) (x0 : Nat) (x1 : List Nat) : (State.allocPages s x0 x1).2.kept = s.kept := by
  induction x0 generalizing s x1 with
  | zero => rfl
  | succ n ih =>
    unfold State.allocPages
    dsimp only
    split
    · rename_i p s1 h
      rw [ih]
      have := congrArg (fun x => x.2.kept) h
      simpa using this.symm
    · rename_i s1 h
      have := congrArg (fun x => x.2.kept) h
      simpa using this.symm

@[simp] theorem State.countStore_kept (s : State) : (State.countStore s).kept = s.kept := by
  unfold State.countStore
  simp (disch := first | assumption | (simp only [away, Reg.CR_AREA_PAGES, Reg.CR_BLOCKS, Reg.CR_FREEING_PAGES, Reg.CR_FREE_PAGES, Reg.CR_STATUS_low, Reg.CR_STATUS_low_seen]; omega) | simp only [onRing_away, ringEnabled_away, ringErr_away, ringCause_away, ringArmed_away, ringProd_away, ringCons_away]) only [State.ite_kept, ite_self, State.modStore_kept, State.post_kept, State.raise_kept, State.set_kept, State.setOn_kept]

end Sys2Proof.Machine
end

