-- ==== Sys2Proof/Laws/KeptShare.lean ====
section
/-! SUPPORT. The operations of Machine/Share.lean leave the kept words alone. -/

set_option linter.all false

namespace Sys2Proof.Machine

@[simp] theorem State.serveStore_kept (s : State) (urgent : Nat → Bool) (stop : StoreWait → Bool) (w : StoreWait) : (State.serveStore s urgent stop w).kept = s.kept := by
  unfold State.serveStore
  simp (disch := first | assumption | (simp only [away]; omega) | simp only [onRing_away, ringEnabled_away, ringErr_away, ringCause_away, ringArmed_away, ringProd_away, ringCons_away]) only [State.ite_kept, ite_self, State.emit_kept, State.modMem_kept]

end Sys2Proof.Machine
end

