-- ==== Sys2Proof/Laws/KeptHealth.lean ====
section
/-! SUPPORT. The operations of Machine/Health.lean leave the kept words alone. -/

set_option linter.all false

namespace Sys2Proof.Machine

@[simp] theorem State.onNoz_kept (s : State) (a row col : Nat) (f : Nozzle → Nozzle) : (State.onNoz s a row col f).kept = s.kept := by
  unfold State.onNoz
  simp (disch := first | assumption | (simp only [away]; omega) | simp only [onRing_away, ringEnabled_away, ringErr_away, ringCause_away, ringArmed_away, ringProd_away, ringCons_away]) only [State.ite_kept, ite_self, State.modCare_kept, State.set_kept]

@[simp] theorem State.healthChanged_kept (s : State) (source a row : Nat) (before : List (Nat × Nat)) : (State.healthChanged s source a row before).kept = s.kept := by
  unfold State.healthChanged
  (try dsimp only)
  (repeat' split) <;> simp (disch := first | assumption | (simp only [away, Reg.HC_STATUS_health_change]; omega) | simp only [onRing_away, ringEnabled_away, ringErr_away, ringCause_away, ringArmed_away, ringProd_away, ringCons_away]) only [State.ite_kept, ite_self, State.post_kept, State.raise_kept]

@[simp] theorem State.showBaselines_kept (s : State) (a : Nat) : (State.showBaselines s a).kept = s.kept := by
  unfold State.showBaselines
  simp (disch := first | assumption | (simp only [away, Reg.HC_HEADa_STATE_baseline_valid, Reg.NODEa_STATE_class_code]; omega) | simp only [onRing_away, ringEnabled_away, ringErr_away, ringCause_away, ringArmed_away, ringProd_away, ringCons_away]) only [State.ite_kept, ite_self, State.setOn_kept]

@[simp] theorem State.scanNotes_kept (s : State) (c : ScanOp) (a row : Nat) : (State.scanNotes s c a row).kept = s.kept := by
  unfold State.scanNotes
  simp (disch := first | assumption | (simp only [away, Reg.HC_STATUS_health_change]; omega) | simp only [onRing_away, ringEnabled_away, ringErr_away, ringCause_away, ringArmed_away, ringProd_away, ringCons_away]) only [State.ite_kept, ite_self, State.post_kept, State.raise_kept, State.showBaselines_kept]

@[simp] theorem State.gateRowDone_kept (s : State) (g : GateOp) (a row : Nat) : (State.gateRowDone s g a row).kept = s.kept := by
  unfold State.gateRowDone
  simp (disch := first | assumption | (simp only [away, Reg.HC_STATUS_health_change]; omega) | simp only [onRing_away, ringEnabled_away, ringErr_away, ringCause_away, ringArmed_away, ringProd_away, ringCons_away]) only [State.ite_kept, ite_self, State.post_kept, State.raise_kept]

end Sys2Proof.Machine
end

