-- ==== Sys2Proof/Laws/KeptRaster.lean ====
section
/-! SUPPORT. The operations of Machine/Raster.lean leave the kept words alone. -/

set_option linter.all false

namespace Sys2Proof.Machine

@[simp] theorem State.setSlice_kept (s : State) (q n : Nat) : (State.setSlice s q n).kept = s.kept := by
  unfold State.setSlice
  simp (disch := first | assumption | (simp only [away, Reg.RS_MAP_HI_map, Reg.RS_MAP_LO_map]; omega) | simp only [onRing_away, ringEnabled_away, ringErr_away, ringCause_away, ringArmed_away, ringProd_away, ringCons_away]) only [State.ite_kept, ite_self, State.set_kept]

@[simp] theorem State.noteLost_kept (s : State) (q line : Nat) (lost : List (Nat × Nat)) : (State.noteLost s q line lost).kept = s.kept := by
  unfold State.noteLost
  simp (disch := first | assumption | (simp only [away]; omega) | simp only [onRing_away, ringEnabled_away, ringErr_away, ringCause_away, ringArmed_away, ringProd_away, ringCons_away]) only [State.ite_kept, ite_self, State.onPlane_kept]

end Sys2Proof.Machine
end

