-- ==== Sys2Proof/Laws/KeptSeam.lean ====
section
/-! SUPPORT. The operations of Machine/Seam.lean leave the kept words alone. -/

set_option linter.all false

namespace Sys2Proof.Machine

@[simp] theorem State.writeRing_kept (s : State) (q line : Nat) (l : SliceLine) : (State.writeRing s q line l).kept = s.kept := by
  unfold State.writeRing
  simp (disch := first | assumption | (simp only [away]; omega) | simp only [onRing_away, ringEnabled_away, ringErr_away, ringCause_away, ringArmed_away, ringProd_away, ringCons_away]) only [State.ite_kept, ite_self, State.modSeam_kept]

@[simp] theorem State.seamPoison_kept (s : State) (q : Nat) (bad : List (Nat × Nat)) : (State.seamPoison s q bad).kept = s.kept := by
  unfold State.seamPoison
  (repeat' (first | with_reducible rfl | (simp (disch := first | assumption | (simp only [away, Reg.SEAM_PLANEq_spared_bank, Reg.SEAM_POISON_COUNT, Reg.SEAM_STATUS_ring_poison]; omega) | simp only [onRing_away, ringEnabled_away, ringErr_away, ringCause_away, ringArmed_away, ringProd_away, ringCons_away]) only [State.ite_kept, ite_self, State.bump_kept, State.modSeam_kept, State.post_kept, State.raise_kept]; done) | split | apply foldl_kept_of | apply foldl_kept_snd_of | apply foldl_kept_fst_of | intro _ _ | simp (disch := first | assumption | (simp only [away, Reg.SEAM_PLANEq_spared_bank, Reg.SEAM_POISON_COUNT, Reg.SEAM_STATUS_ring_poison]; omega) | simp only [onRing_away, ringEnabled_away, ringErr_away, ringCause_away, ringArmed_away, ringProd_away, ringCons_away]) only [State.ite_kept, ite_self, State.bump_kept, State.modSeam_kept, State.post_kept, State.raise_kept] | dsimp only))

@[simp] theorem State.stageMap_kept (s : State) (a bank : Nat) : (State.stageMap s a bank).kept = s.kept := by
  unfold State.stageMap
  (try dsimp only)
  (repeat' split) <;> simp (disch := first | assumption | (simp only [away]; omega) | simp only [onRing_away, ringEnabled_away, ringErr_away, ringCause_away, ringArmed_away, ringProd_away, ringCons_away]) only [State.ite_kept, ite_self, State.sendMapData_kept, State.setMap_kept]

@[simp] theorem State.commitMap_kept (s : State) (a e : Nat) (m : List (BitVec 8)) : (State.commitMap s a e m).kept = s.kept := by
  unfold State.commitMap
  simp (disch := first | assumption | (simp only [away]; omega) | simp only [onRing_away, ringEnabled_away, ringErr_away, ringCause_away, ringArmed_away, ringProd_away, ringCons_away]) only [State.ite_kept, ite_self, State.sendMapCommit_kept, State.setMap_kept]

@[simp] theorem State.noteCopyStart_kept (s : State) (q line : Nat) : (State.noteCopyStart s q line).kept = s.kept := by
  unfold State.noteCopyStart
  simp (disch := first | assumption | (simp only [away]; omega) | simp only [onRing_away, ringEnabled_away, ringErr_away, ringCause_away, ringArmed_away, ringProd_away, ringCons_away]) only [State.ite_kept, ite_self, State.modSeam_kept]

end Sys2Proof.Machine
end

