-- ==== Sys2Proof/Laws/KeptHops.lean ====
section
/-! SUPPORT. The operations of Machine/Hops.lean leave the kept words alone. -/

set_option linter.all false

namespace Sys2Proof.Machine

@[simp] theorem State.beginRecovery_kept (s : State) (c : Recovery) : (State.beginRecovery s c).kept = s.kept := by
  unfold State.beginRecovery
  simp (disch := first | assumption | (simp only [away]; omega) | simp only [onRing_away, ringEnabled_away, ringErr_away, ringCause_away, ringArmed_away, ringProd_away, ringCons_away]) only [State.ite_kept, ite_self, State.modTally_kept]

@[simp] theorem State.finishRecovery_kept (s : State) (r : Nat) : (State.finishRecovery s r).kept = s.kept := by
  unfold State.finishRecovery
  (try dsimp only)
  (repeat' split) <;> simp (disch := first | assumption | (simp only [away]; omega) | simp only [onRing_away, ringEnabled_away, ringErr_away, ringCause_away, ringArmed_away, ringProd_away, ringCons_away]) only [State.ite_kept, ite_self, State.modTally_kept]

@[simp] theorem State.deputyFault_kept (s : State) : (State.deputyFault s).kept = s.kept := by
  unfold State.deputyFault
  simp (disch := first | assumption | (simp only [away, Reg.LINK_INHIBIT_sending]; omega) | simp only [onRing_away, ringEnabled_away, ringErr_away, ringCause_away, ringArmed_away, ringProd_away, ringCons_away]) only [State.ite_kept, ite_self, State.inhibitAll_kept, State.modSched_kept, State.modTally_kept, State.raise_kept, State.retireBound_kept]

@[simp] theorem State.serveFrom_kept (s : State) (str n e : Nat) : (State.serveFrom s str n e).kept = s.kept := by
  unfold State.serveFrom
  simp (disch := first | assumption | (simp only [away, Reg.LINKs_STATUS_served_b, Reg.NODEa_STATE_end]; omega) | simp only [onRing_away, ringEnabled_away, ringErr_away, ringCause_away, ringArmed_away, ringProd_away, ringCons_away]) only [State.ite_kept, ite_self, State.set_kept]

@[simp] theorem State.moveNode_kept (s : State) (str n e : Nat) : (State.moveNode s str n e).kept = s.kept := by
  unfold State.moveNode
  simp (disch := first | assumption | (simp only [away]; omega) | simp only [onRing_away, ringEnabled_away, ringErr_away, ringCause_away, ringArmed_away, ringProd_away, ringCons_away]) only [State.ite_kept, ite_self, State.onNode_kept, State.onStr_kept, State.serveFrom_kept]

@[simp] theorem State.dropMoved_kept (s : State) (str n : Nat) : (State.dropMoved s str n).kept = s.kept := by
  unfold State.dropMoved
  simp (disch := first | assumption | (simp only [away]; omega) | simp only [onRing_away, ringEnabled_away, ringErr_away, ringCause_away, ringArmed_away, ringProd_away, ringCons_away]) only [State.ite_kept, ite_self, State.onNode_kept, State.onStr_kept]

@[simp] theorem State.settleReach_kept (s : State) (str : Nat) : (State.settleReach s str).kept = s.kept := by
  unfold State.settleReach
  (repeat' (first | with_reducible rfl | (simp (disch := first | assumption | (simp only [away, Reg.LINKs_STATUS_reachable, Reg.NODEa_STATE_state]; omega) | simp only [onRing_away, ringEnabled_away, ringErr_away, ringCause_away, ringArmed_away, ringProd_away, ringCons_away]) only [State.ite_kept, ite_self, State.dropMoved_kept, State.onNode_kept, State.serveFrom_kept, State.set_kept]; done) | split | apply foldl_kept_of | apply foldl_kept_snd_of | apply foldl_kept_fst_of | intro _ _ | simp (disch := first | assumption | (simp only [away, Reg.LINKs_STATUS_reachable, Reg.NODEa_STATE_state]; omega) | simp only [onRing_away, ringEnabled_away, ringErr_away, ringCause_away, ringArmed_away, ringProd_away, ringCons_away]) only [State.ite_kept, ite_self, State.dropMoved_kept, State.onNode_kept, State.serveFrom_kept, State.set_kept] | dsimp only))

@[simp] theorem State.settleEnds_kept (s : State) (str : Nat) : (State.settleEnds s str).kept = s.kept := by
  unfold State.settleEnds
  (repeat' (first | with_reducible rfl | (simp (disch := first | assumption | (simp only [away, Reg.NODEa_STATE_state]; omega) | simp only [onRing_away, ringEnabled_away, ringErr_away, ringCause_away, ringArmed_away, ringProd_away, ringCons_away]) only [State.ite_kept, ite_self, State.moveNode_kept, State.onStr_kept, State.serveFrom_kept]; done) | split | apply foldl_kept_of | apply foldl_kept_snd_of | apply foldl_kept_fst_of | intro _ _ | simp (disch := first | assumption | (simp only [away, Reg.NODEa_STATE_state]; omega) | simp only [onRing_away, ringEnabled_away, ringErr_away, ringCause_away, ringArmed_away, ringProd_away, ringCons_away]) only [State.ite_kept, ite_self, State.moveNode_kept, State.onStr_kept, State.serveFrom_kept] | dsimp only))

@[simp] theorem State.settleHops_kept (s : State) (str : Nat) : (State.settleHops s str).kept = s.kept := by
  unfold State.settleHops
  (repeat' (first | with_reducible rfl | (simp (disch := first | assumption | (simp only [away]; omega) | simp only [onRing_away, ringEnabled_away, ringErr_away, ringCause_away, ringArmed_away, ringProd_away, ringCons_away]) only [State.ite_kept, ite_self, State.settleEnds_kept, State.settleReach_kept]; done) | split | apply foldl_kept_of | apply foldl_kept_snd_of | apply foldl_kept_fst_of | intro _ _ | simp (disch := first | assumption | (simp only [away]; omega) | simp only [onRing_away, ringEnabled_away, ringErr_away, ringCause_away, ringArmed_away, ringProd_away, ringCons_away]) only [State.ite_kept, ite_self, State.settleEnds_kept, State.settleReach_kept] | dsimp only))

@[simp] theorem State.returnNodes_kept (s : State) (str : Nat) : (State.returnNodes s str).kept = s.kept := by
  unfold State.returnNodes
  (repeat' (first | with_reducible rfl | (simp (disch := first | assumption | (simp only [away]; omega) | simp only [onRing_away, ringEnabled_away, ringErr_away, ringCause_away, ringArmed_away, ringProd_away, ringCons_away]) only [State.ite_kept, ite_self, State.onStr_kept, State.serveFrom_kept]; done) | split | apply foldl_kept_of | apply foldl_kept_snd_of | apply foldl_kept_fst_of | intro _ _ | simp (disch := first | assumption | (simp only [away]; omega) | simp only [onRing_away, ringEnabled_away, ringErr_away, ringCause_away, ringArmed_away, ringProd_away, ringCons_away]) only [State.ite_kept, ite_self, State.onStr_kept, State.serveFrom_kept] | dsimp only))

@[simp] theorem State.showRelays_kept (s : State) : (State.showRelays s).kept = s.kept := by
  unfold State.showRelays
  simp (disch := first | assumption | (simp only [away]; omega) | simp only [onRing_away, ringEnabled_away, ringErr_away, ringCause_away, ringArmed_away, ringProd_away, ringCons_away]) only [State.ite_kept, ite_self, State.setReg_kept]

@[simp] theorem State.assignRelay_kept (s : State) (str : Nat) : (State.assignRelay s str).kept = s.kept := by
  unfold State.assignRelay
  (try dsimp only)
  (repeat' split) <;> simp (disch := first | assumption | (simp only [away, Reg.PAIR_CFG_end, Reg.TALLY_STATUS_relay_overload]; omega) | simp only [onRing_away, ringEnabled_away, ringErr_away, ringCause_away, ringArmed_away, ringProd_away, ringCons_away]) only [State.ite_kept, ite_self, State.modTally_kept, State.post_kept, State.raise_kept, State.showRelays_kept]

@[simp] theorem State.settleRelay_kept (s : State) (str : Nat) : (State.settleRelay s str).kept = s.kept := by
  unfold State.settleRelay
  simp (disch := first | assumption | (simp only [away]; omega) | simp only [onRing_away, ringEnabled_away, ringErr_away, ringCause_away, ringArmed_away, ringProd_away, ringCons_away]) only [State.ite_kept, ite_self, State.assignRelay_kept, State.modTally_kept, State.showRelays_kept]

@[simp] theorem State.reassign_kept (s : State) (lane : Nat) : (State.reassign s lane).kept = s.kept := by
  unfold State.reassign
  (repeat' (first | with_reducible rfl | (simp (disch := first | assumption | (simp only [away]; omega) | simp only [onRing_away, ringEnabled_away, ringErr_away, ringCause_away, ringArmed_away, ringProd_away, ringCons_away]) only [State.ite_kept, ite_self, State.modTally_kept, State.settleHops_kept, State.settleRelay_kept, State.showRelays_kept]; done) | split | apply foldl_kept_of | apply foldl_kept_snd_of | apply foldl_kept_fst_of | intro _ _ | simp (disch := first | assumption | (simp only [away]; omega) | simp only [onRing_away, ringEnabled_away, ringErr_away, ringCause_away, ringArmed_away, ringProd_away, ringCons_away]) only [State.ite_kept, ite_self, State.modTally_kept, State.settleHops_kept, State.settleRelay_kept, State.showRelays_kept] | dsimp only))

@[simp] theorem State.reroute_kept (s : State) (str : Nat) : (State.reroute s str).kept = s.kept := by
  unfold State.reroute
  simp (disch := first | assumption | (simp only [away]; omega) | simp only [onRing_away, ringEnabled_away, ringErr_away, ringCause_away, ringArmed_away, ringProd_away, ringCons_away]) only [State.ite_kept, ite_self, State.finishRecovery_kept, State.modTally_kept, State.onStr_kept, State.settleHops_kept, State.settleRelay_kept]

@[simp] theorem State.endReroute_kept (s : State) (str : Nat) : (State.endReroute s str).kept = s.kept := by
  unfold State.endReroute
  simp (disch := first | assumption | (simp only [away, Reg.LINKs_STATUS_rerouted]; omega) | simp only [onRing_away, ringEnabled_away, ringErr_away, ringCause_away, ringArmed_away, ringProd_away, ringCons_away]) only [State.ite_kept, ite_self, State.finishRecovery_kept, State.onStr_kept, State.post_kept, State.raise_kept, State.reroute_kept]

@[simp] theorem State.wakeReroute_kept (s : State) (str : Nat) : (State.wakeReroute s str).kept = s.kept := by
  unfold State.wakeReroute
  simp (disch := first | assumption | (simp only [away]; omega) | simp only [onRing_away, ringEnabled_away, ringErr_away, ringCause_away, ringArmed_away, ringProd_away, ringCons_away]) only [State.ite_kept, ite_self, State.finishRecovery_kept, State.reroute_kept]

@[simp] theorem State.breakHop_kept (s : State) (str j : Nat) : (State.breakHop s str j).kept = s.kept := by
  unfold State.breakHop
  simp (disch := first | assumption | (simp only [away, Reg.LINKs_STATUS_break_seen, Reg.LINKs_STATUS_hop_up]; omega) | simp only [onRing_away, ringEnabled_away, ringErr_away, ringCause_away, ringArmed_away, ringProd_away, ringCons_away]) only [State.ite_kept, ite_self, State.beginRecovery_kept, State.deputyFault_kept, State.endReroute_kept, State.onStr_kept, State.post_kept, State.raise_kept, State.reroute_kept, State.set_kept, State.settleReach_kept, State.wakeReroute_kept]

@[simp] theorem State.restoreHop_kept (s : State) (str j : Nat) : (State.restoreHop s str j).kept = s.kept := by
  unfold State.restoreHop
  simp (disch := first | assumption | (simp only [away, Reg.LINKs_STATUS_hop_up]; omega) | simp only [onRing_away, ringEnabled_away, ringErr_away, ringCause_away, ringArmed_away, ringProd_away, ringCons_away]) only [State.ite_kept, ite_self, State.onStr_kept, State.post_kept, State.set_kept, State.settleHops_kept, State.settleRelay_kept]

end Sys2Proof.Machine
end

