-- ==== Sys2Proof/Laws/KeptSlice.lean ====
section
/-! SUPPORT. The operations of Machine/Slice.lean leave the kept words alone. -/

set_option linter.all false

namespace Sys2Proof.Machine

@[simp] theorem State.unserve_kept (s : State) (q : Nat) : (State.unserve s q).kept = s.kept := by
  unfold State.unserve
  simp (disch := first | assumption | (simp only [away]; omega) | simp only [onRing_away, ringEnabled_away, ringErr_away, ringCause_away, ringArmed_away, ringProd_away, ringCons_away]) only [State.ite_kept, ite_self, State.modRaster_kept, State.post_kept]

@[simp] theorem State.failSlice_kept (s : State) (n reason : Nat) : (State.failSlice s n reason).kept = s.kept := by
  unfold State.failSlice
  (try dsimp only)
  (repeat' split) <;> simp (disch := first | assumption | (simp only [away, Reg.RS_SPARE_CFG_auto_takeover, Reg.RSn_STATUS_plane, Reg.RSn_STATUS_state]; omega) | simp only [onRing_away, ringEnabled_away, ringErr_away, ringCause_away, ringArmed_away, ringProd_away, ringCons_away]) only [State.ite_kept, ite_self, State.closeBehind_kept, State.deputyFault_kept, State.modRaster_kept, State.onPlane_kept, State.post_kept, State.set_kept, State.setSlice_kept, State.setSpare_kept, State.unserve_kept]

@[simp] theorem State.tablePoison_kept (s : State) (kind q sub entry : Nat) : (State.tablePoison s kind q sub entry).kept = s.kept := by
  unfold State.tablePoison
  simp (disch := first | assumption | (simp only [away]; omega) | simp only [onRing_away, ringEnabled_away, ringErr_away, ringCause_away, ringArmed_away, ringProd_away, ringCons_away]) only [State.ite_kept, ite_self, State.modRaster_kept, State.post_kept]

@[simp] theorem State.auditFollow_kept (s : State) (q line : Nat) (l : SliceLine) : (State.auditFollow s q line l).kept = s.kept := by
  unfold State.auditFollow
  simp (disch := first | assumption | (simp only [away, Reg.RS_SPARE_CFG_audit_dwell, Reg.RS_SPARE_CFG_audit_en, Reg.RS_SPARE_STATUS_state]; omega) | simp only [onRing_away, ringEnabled_away, ringErr_away, ringCause_away, ringArmed_away, ringProd_away, ringCons_away]) only [State.ite_kept, ite_self, State.modRaster_kept, State.onPlane_kept, State.setSpare_kept]

@[simp] theorem State.noteFlags_kept (s : State) (q n : Nat) (l : SliceLine) : (State.noteFlags s q n l).kept = s.kept := by
  unfold State.noteFlags
  (repeat' (first | with_reducible rfl | (simp (disch := first | assumption | (simp only [away, Reg.RSn_STATUS_poison_seen]; omega) | simp only [onRing_away, ringEnabled_away, ringErr_away, ringCause_away, ringArmed_away, ringProd_away, ringCons_away]) only [State.ite_kept, ite_self, State.onPlane_kept, State.post_kept, State.raise_kept, State.tablePoison_kept]; done) | split | apply foldl_kept_of | apply foldl_kept_snd_of | apply foldl_kept_fst_of | intro _ _ | simp (disch := first | assumption | (simp only [away, Reg.RSn_STATUS_poison_seen]; omega) | simp only [onRing_away, ringEnabled_away, ringErr_away, ringCause_away, ringArmed_away, ringProd_away, ringCons_away]) only [State.ite_kept, ite_self, State.onPlane_kept, State.post_kept, State.raise_kept, State.tablePoison_kept] | dsimp only))

@[simp] theorem State.deliver_kept (s : State) (q line : Nat) (l : SliceLine) : (State.deliver s q line l).kept = s.kept := by
  unfold State.deliver
  (repeat' (first | with_reducible rfl | (simp (disch := first | assumption | (simp only [away, Reg.RSn_LINE_HI, Reg.RSn_LINE_LO]; omega) | simp only [onRing_away, ringEnabled_away, ringErr_away, ringCause_away, ringArmed_away, ringProd_away, ringCons_away]) only [State.ite_kept, ite_self, State.auditFollow_kept, State.noteFlags_kept, State.onPlane_kept, State.set2_kept, State.writeRing_kept]; done) | split | apply foldl_kept_of | apply foldl_kept_snd_of | apply foldl_kept_fst_of | intro _ _ | simp (disch := first | assumption | (simp only [away, Reg.RSn_LINE_HI, Reg.RSn_LINE_LO]; omega) | simp only [onRing_away, ringEnabled_away, ringErr_away, ringCause_away, ringArmed_away, ringProd_away, ringCons_away]) only [State.ite_kept, ite_self, State.auditFollow_kept, State.noteFlags_kept, State.onPlane_kept, State.set2_kept, State.writeRing_kept] | dsimp only))

@[simp] theorem State.blockEnds_kept (s : State) (q line : Nat) : (State.blockEnds s q line).kept = s.kept := by
  unfold State.blockEnds
  (repeat' (first | with_reducible rfl | (simp (disch := first | assumption | (simp only [away, Reg.RSn_STATUS_subst_seen]; omega) | simp only [onRing_away, ringEnabled_away, ringErr_away, ringCause_away, ringArmed_away, ringProd_away, ringCons_away]) only [State.ite_kept, ite_self, State.onPlane_kept, State.post_kept, State.raise_kept]; done) | split | apply foldl_kept_of | apply foldl_kept_snd_of | apply foldl_kept_fst_of | intro _ _ | simp (disch := first | assumption | (simp only [away, Reg.RSn_STATUS_subst_seen]; omega) | simp only [onRing_away, ringEnabled_away, ringErr_away, ringCause_away, ringArmed_away, ringProd_away, ringCons_away]) only [State.ite_kept, ite_self, State.onPlane_kept, State.post_kept, State.raise_kept] | dsimp only))

@[simp] theorem State.afterLine_kept (s : State) (q line : Nat) (p : Span) (b : BlockBuf) (reason : Nat) (good : Option (List Nat)) : (State.afterLine s q line p b reason good).kept = s.kept := by
  unfold State.afterLine
  simp (disch := first | assumption | (simp only [away, Reg.RSn_SUBST_COUNT]; omega) | simp only [onRing_away, ringEnabled_away, ringErr_away, ringCause_away, ringArmed_away, ringProd_away, ringCons_away]) only [State.ite_kept, ite_self, State.blockEnds_kept, State.bump_kept, State.onPlane_kept]

@[simp] theorem State.completeLine_kept (s : State) (q : Nat) : (State.completeLine s q).kept = s.kept := by
  unfold State.completeLine
  (try dsimp only)
  (repeat' split) <;> simp (disch := first | assumption | (simp only [away]; omega) | simp only [onRing_away, ringEnabled_away, ringErr_away, ringCause_away, ringArmed_away, ringProd_away, ringCons_away]) only [State.ite_kept, ite_self, State.afterLine_kept, State.blockEnds_kept, State.deliver_kept]

@[simp] theorem State.switchPlane_kept (s : State) (q line : Nat) : (State.switchPlane s q line).kept = s.kept := by
  unfold State.switchPlane
  (repeat' (first | with_reducible rfl | (simp (disch := first | assumption | (simp only [away]; omega) | simp only [onRing_away, ringEnabled_away, ringErr_away, ringCause_away, ringArmed_away, ringProd_away, ringCons_away]) only [State.ite_kept, ite_self, State.switchTable_kept]; done) | split | apply foldl_kept_of | apply foldl_kept_snd_of | apply foldl_kept_fst_of | intro _ _ | simp (disch := first | assumption | (simp only [away]; omega) | simp only [onRing_away, ringEnabled_away, ringErr_away, ringCause_away, ringArmed_away, ringProd_away, ringCons_away]) only [State.ite_kept, ite_self, State.switchTable_kept] | dsimp only))

@[simp] theorem State.formUsable_kept (s : State) (q line : Nat) : (State.formUsable s q line).kept = s.kept := by
  unfold State.formUsable
  simp (disch := first | assumption | (simp only [away, Reg.RS_REDIST_CFG_w1, Reg.RSn_UNCOVERED, Reg.RSn_UNUSABLE]; omega) | simp only [onRing_away, ringEnabled_away, ringErr_away, ringCause_away, ringArmed_away, ringProd_away, ringCons_away]) only [State.ite_kept, ite_self, State.noteLost_kept, State.onPlane_kept, State.post_kept, State.set_kept]

@[simp] theorem State.commit_kept (s : State) (line : Nat) : (State.commit s line).kept = s.kept := by
  unfold State.commit
  simp (disch := first | assumption | (simp only [away, Reg.LS_COMMIT_LINE_HI, Reg.LS_COMMIT_LINE_LO]; omega) | simp only [onRing_away, ringEnabled_away, ringErr_away, ringCause_away, ringArmed_away, ringProd_away, ringCons_away]) only [State.ite_kept, ite_self, State.extend_kept, State.modSched_kept, State.set2_kept]

@[simp] theorem State.noteKey_kept (s : State) (q n slot : Nat) : (State.noteKey s q n slot).kept = s.kept := by
  unfold State.noteKey
  simp (disch := first | assumption | (simp only [away, Reg.RSn_STATUS_key_unavail]; omega) | simp only [onRing_away, ringEnabled_away, ringErr_away, ringCause_away, ringArmed_away, ringProd_away, ringCons_away]) only [State.ite_kept, ite_self, State.modRaster_kept, State.post_kept, State.raise_kept]

@[simp] theorem State.spareTake_kept (s : State) (n : Nat) : (State.spareTake s n).kept = s.kept := by
  unfold State.spareTake
  simp (disch := first | assumption | (simp only [away]; omega) | simp only [onRing_away, ringEnabled_away, ringErr_away, ringCause_away, ringArmed_away, ringProd_away, ringCons_away]) only [State.ite_kept, ite_self, State.failSlice_kept]

@[simp] theorem State.spareRestore_kept (s : State) (n : Nat) : (State.spareRestore s n).kept = s.kept := by
  unfold State.spareRestore
  simp (disch := first | assumption | (simp only [away, Reg.RSn_BIST_done, Reg.RSn_BIST_pass]; omega) | simp only [onRing_away, ringEnabled_away, ringErr_away, ringCause_away, ringArmed_away, ringProd_away, ringCons_away]) only [State.ite_kept, ite_self, State.clear_kept, State.modRaster_kept]

@[simp] theorem State.askRecut_kept (s : State) (q first last lm le : Nat) : (State.askRecut s q first last lm le).kept = s.kept := by
  unfold State.askRecut
  simp (disch := first | assumption | (simp only [away]; omega) | simp only [onRing_away, ringEnabled_away, ringErr_away, ringCause_away, ringArmed_away, ringProd_away, ringCons_away]) only [State.ite_kept, ite_self, State.modRaster_kept]

@[simp] theorem State.noteRecut_kept (s : State) (q n : Nat) (lines : List (Nat × SliceLine)) : (State.noteRecut s q n lines).kept = s.kept := by
  unfold State.noteRecut
  (repeat' (first | with_reducible rfl | (simp (disch := first | assumption | (simp only [away, Reg.RSn_LATE_COUNT, Reg.RSn_STATUS_late_seen, Reg.RSn_STATUS_subst_seen, Reg.RSn_SUBST_COUNT]; omega) | simp only [onRing_away, ringEnabled_away, ringErr_away, ringCause_away, ringArmed_away, ringProd_away, ringCons_away]) only [State.ite_kept, ite_self, State.bump_kept, State.noteFlags_kept, State.noteKey_kept, State.post_kept, State.raise_kept]; done) | split | apply foldl_kept_of | apply foldl_kept_snd_of | apply foldl_kept_fst_of | intro _ _ | simp (disch := first | assumption | (simp only [away, Reg.RSn_LATE_COUNT, Reg.RSn_STATUS_late_seen, Reg.RSn_STATUS_subst_seen, Reg.RSn_SUBST_COUNT]; omega) | simp only [onRing_away, ringEnabled_away, ringErr_away, ringCause_away, ringArmed_away, ringProd_away, ringCons_away]) only [State.ite_kept, ite_self, State.bump_kept, State.noteFlags_kept, State.noteKey_kept, State.post_kept, State.raise_kept] | dsimp only))

end Sys2Proof.Machine
end

