-- ==== Sys2Proof/Laws/KeptLanes.lean ====
section
/-! SUPPORT. The operations of Machine/Lanes.lean leave the kept words alone. -/

set_option linter.all false

namespace Sys2Proof.Machine

@[simp] theorem State.setLaneState_kept (s : State) (n st : Nat) : (State.setLaneState s n st).kept = s.kept := by
  unfold State.setLaneState
  simp (disch := first | assumption | (simp only [away, Reg.LANE_UP_0_up, Reg.LANEn_STATUS_state]; omega) | simp only [onRing_away, ringEnabled_away, ringErr_away, ringCause_away, ringArmed_away, ringProd_away, ringCons_away]) only [State.ite_kept, ite_self, State.set_kept]

@[simp] theorem State.sendTraining_kept (s : State) (n : Nat) (ready : Bool) : (State.sendTraining s n ready).kept = s.kept := by
  unfold State.sendTraining
  simp (disch := first | assumption | (simp only [away]; omega) | simp only [onRing_away, ringEnabled_away, ringErr_away, ringCause_away, ringArmed_away, ringProd_away, ringCons_away]) only [State.ite_kept, ite_self, State.laneSend_kept, State.setLane_kept]

@[simp] theorem State.endEye_kept (s : State) (n : Nat) : (State.endEye s n).kept = s.kept := by
  unfold State.endEye
  simp (disch := first | assumption | (simp only [away, Reg.LANEn_EYE_BITS_HI, Reg.LANEn_EYE_BITS_LO, Reg.LANEn_EYE_ERR, Reg.LANEn_STATUS_eye_busy, Reg.LANEn_STATUS_eye_done]; omega) | simp only [onRing_away, ringEnabled_away, ringErr_away, ringCause_away, ringArmed_away, ringProd_away, ringCons_away]) only [State.ite_kept, ite_self, State.clear_kept, State.drawNat_kept, State.raise_kept, State.set_kept, State.set2_kept]

@[simp] theorem State.adapt_kept (s : State) (n : Nat) : (State.adapt s n).kept = s.kept := by
  unfold State.adapt
  simp (disch := first | assumption | (simp only [away, Reg.LANEn_CFG_adapt_freeze, Reg.LANEn_CTLE_ctle, Reg.LANEn_DFE_HI, Reg.LANEn_DFE_LO, Reg.LANEn_STATUS_rx_asleep]; omega) | simp only [onRing_away, ringEnabled_away, ringErr_away, ringCause_away, ringArmed_away, ringProd_away, ringCons_away]) only [State.ite_kept, ite_self, State.drawNat_kept, State.set_kept]

@[simp] theorem State.dropLock_kept (s : State) (n : Nat) : (State.dropLock s n).kept = s.kept := by
  unfold State.dropLock
  simp (disch := first | assumption | (simp only [away, Reg.LANEn_STATUS_block_lock]; omega) | simp only [onRing_away, ringEnabled_away, ringErr_away, ringCause_away, ringArmed_away, ringProd_away, ringCons_away]) only [State.ite_kept, ite_self, State.clear_kept, State.onLane_kept]

@[simp] theorem State.endSleeps_kept (s : State) (n : Nat) : (State.endSleeps s n).kept = s.kept := by
  unfold State.endSleeps
  simp (disch := first | assumption | (simp only [away, Reg.LANEn_STATUS_far_tx_asleep, Reg.LANEn_STATUS_rx_asleep, Reg.LANEn_STATUS_tx_asleep]; omega) | simp only [onRing_away, ringEnabled_away, ringErr_away, ringCause_away, ringArmed_away, ringProd_away, ringCons_away]) only [State.ite_kept, ite_self, State.clear_kept, State.onLane_kept]

@[simp] theorem State.startAttempt_kept (s : State) (n : Nat) : (State.startAttempt s n).kept = s.kept := by
  unfold State.startAttempt
  simp (disch := first | assumption | (simp only [away, Reg.LANEn_STATUS_signal]; omega) | simp only [onRing_away, ringEnabled_away, ringErr_away, ringCause_away, ringArmed_away, ringProd_away, ringCons_away]) only [State.ite_kept, ite_self, State.adapt_kept, State.dropLock_kept, State.endEye_kept, State.endSleeps_kept, State.onLane_kept, State.sendTraining_kept, State.setLaneState_kept]

@[simp] theorem State.startTraining_kept (s : State) (n : Nat) : (State.startTraining s n).kept = s.kept := by
  unfold State.startTraining
  simp (disch := first | assumption | (simp only [away, Reg.LANEn_ERRCNT_trainings, Reg.LANEn_STATUS_attempts]; omega) | simp only [onRing_away, ringEnabled_away, ringErr_away, ringCause_away, ringArmed_away, ringProd_away, ringCons_away]) only [State.ite_kept, ite_self, State.bump_kept, State.onLane_kept, State.set_kept, State.startAttempt_kept]

@[simp] theorem State.laneLost_kept (s : State) (n : Nat) : (State.laneLost s n).kept = s.kept := by
  unfold State.laneLost
  simp (disch := first | assumption | (simp only [away]; omega) | simp only [onRing_away, ringEnabled_away, ringErr_away, ringCause_away, ringArmed_away, ringProd_away, ringCons_away]) only [State.ite_kept, ite_self, State.breakHop_kept, State.reassign_kept]

@[simp] theorem State.setTaps_kept (s : State) (n pre main post : Nat) : (State.setTaps s n pre main post).kept = s.kept := by
  unfold State.setTaps
  simp (disch := first | assumption | (simp only [away, Reg.LANEn_TXFIR_main, Reg.LANEn_TXFIR_post, Reg.LANEn_TXFIR_pre]; omega) | simp only [onRing_away, ringEnabled_away, ringErr_away, ringCause_away, ringArmed_away, ringProd_away, ringCons_away]) only [State.ite_kept, ite_self, State.set_kept]

@[simp] theorem State.tapStep_kept (s : State) (n tap req : Nat) : (State.tapStep s n tap req).2.kept = s.kept := by
  unfold State.tapStep
  (try dsimp only)
  (repeat' split) <;> simp (disch := first | assumption | (simp only [away]; omega) | simp only [onRing_away, ringEnabled_away, ringErr_away, ringCause_away, ringArmed_away, ringProd_away, ringCons_away]) only [State.ite_kept, ite_self, State.setTaps_kept]

@[simp] theorem State.tapRequest_kept (s : State) (n tap req st : Nat) : (State.tapRequest s n tap req st).2.kept = s.kept := by
  unfold State.tapRequest
  (try dsimp only)
  (repeat' split) <;> simp (disch := first | assumption | (simp only [away]; omega) | simp only [onRing_away, ringEnabled_away, ringErr_away, ringCause_away, ringArmed_away, ringProd_away, ringCons_away]) only [State.ite_kept, ite_self, State.tapStep_kept]

@[simp] theorem State.serveRequests_kept (s : State) (n p : Nat) : (State.serveRequests s n p).kept = s.kept := by
  unfold State.serveRequests
  simp (disch := first | assumption | (simp only [away]; omega) | simp only [onRing_away, ringEnabled_away, ringErr_away, ringCause_away, ringArmed_away, ringProd_away, ringCons_away]) only [State.ite_kept, ite_self, State.onLane_kept, State.setTaps_kept, State.tapRequest_kept]

@[simp] theorem State.nextRequests_kept (s : State) (n p : Nat) (converged : Bool) : (State.nextRequests s n p converged).kept = s.kept := by
  unfold State.nextRequests
  simp (disch := first | assumption | (simp only [away]; omega) | simp only [onRing_away, ringEnabled_away, ringErr_away, ringCause_away, ringArmed_away, ringProd_away, ringCons_away]) only [State.ite_kept, ite_self, State.drawNat_kept, State.setLane_kept]

@[simp] theorem State.sendNotices_kept (s : State) (n : Nat) : (State.sendNotices s n).kept = s.kept := by
  unfold State.sendNotices
  simp (disch := first | assumption | (simp only [away]; omega) | simp only [onRing_away, ringEnabled_away, ringErr_away, ringCause_away, ringArmed_away, ringProd_away, ringCons_away]) only [State.ite_kept, ite_self, State.laneSend_kept, State.onLane_kept]

@[simp] theorem State.sleepTx_kept (s : State) (n : Nat) : (State.sleepTx s n).kept = s.kept := by
  unfold State.sleepTx
  simp (disch := first | assumption | (simp only [away, Reg.LANEn_STATUS_tx_asleep]; omega) | simp only [onRing_away, ringEnabled_away, ringErr_away, ringCause_away, ringArmed_away, ringProd_away, ringCons_away]) only [State.ite_kept, ite_self, State.post_kept, State.raise_kept, State.sendNotices_kept]

@[simp] theorem State.sleepRx_kept (s : State) (n why : Nat) : (State.sleepRx s n why).kept = s.kept := by
  unfold State.sleepRx
  simp (disch := first | assumption | (simp only [away, Reg.LANEn_STATUS_rx_asleep]; omega) | simp only [onRing_away, ringEnabled_away, ringErr_away, ringCause_away, ringArmed_away, ringProd_away, ringCons_away]) only [State.ite_kept, ite_self, State.adapt_kept, State.dropLock_kept, State.endEye_kept, State.post_kept, State.raise_kept]

@[simp] theorem State.refuseSleep_kept (s : State) (n dir : Nat) : (State.refuseSleep s n dir).kept = s.kept := by
  unfold State.refuseSleep
  simp (disch := first | assumption | (simp only [away, Reg.LANEn_STATUS_sleep_refused]; omega) | simp only [onRing_away, ringEnabled_away, ringErr_away, ringCause_away, ringArmed_away, ringProd_away, ringCons_away]) only [State.ite_kept, ite_self, State.post_kept, State.raise_kept]

@[simp] theorem State.askSleepTx_kept (s : State) (n : Nat) : (State.askSleepTx s n).kept = s.kept := by
  unfold State.askSleepTx
  simp (disch := first | assumption | (simp only [away, Reg.LANEn_STATUS_tx_asleep]; omega) | simp only [onRing_away, ringEnabled_away, ringErr_away, ringCause_away, ringArmed_away, ringProd_away, ringCons_away]) only [State.ite_kept, ite_self, State.onLane_kept, State.refuseSleep_kept, State.sleepTx_kept]

@[simp] theorem State.askSleepRx_kept (s : State) (n : Nat) : (State.askSleepRx s n).kept = s.kept := by
  unfold State.askSleepRx
  simp (disch := first | assumption | (simp only [away, Reg.LANEn_STATUS_rx_asleep]; omega) | simp only [onRing_away, ringEnabled_away, ringErr_away, ringCause_away, ringArmed_away, ringProd_away, ringCons_away]) only [State.ite_kept, ite_self, State.onLane_kept, State.refuseSleep_kept, State.sleepRx_kept]

@[simp] theorem State.askWakeTx_kept (s : State) (n : Nat) : (State.askWakeTx s n).kept = s.kept := by
  unfold State.askWakeTx
  simp (disch := first | assumption | (simp only [away, Reg.LANEn_STATUS_tx_asleep]; omega) | simp only [onRing_away, ringEnabled_away, ringErr_away, ringCause_away, ringArmed_away, ringProd_away, ringCons_away]) only [State.ite_kept, ite_self, State.clear_kept, State.drawNat_kept, State.onLane_kept, State.post_kept]

@[simp] theorem State.relock_kept (s : State) (n : Nat) : (State.relock s n).kept = s.kept := by
  unfold State.relock
  simp (disch := first | assumption | (simp only [away, Reg.LANEn_STATUS_rx_asleep]; omega) | simp only [onRing_away, ringEnabled_away, ringErr_away, ringCause_away, ringArmed_away, ringProd_away, ringCons_away]) only [State.ite_kept, ite_self, State.clear_kept, State.dropLock_kept, State.onLane_kept]

@[simp] theorem State.askWakeRx_kept (s : State) (n : Nat) : (State.askWakeRx s n).kept = s.kept := by
  unfold State.askWakeRx
  simp (disch := first | assumption | (simp only [away, Reg.LANEn_STATUS_far_tx_asleep, Reg.LANEn_STATUS_rx_asleep]; omega) | simp only [onRing_away, ringEnabled_away, ringErr_away, ringCause_away, ringArmed_away, ringProd_away, ringCons_away]) only [State.ite_kept, ite_self, State.clear_kept, State.onLane_kept, State.relock_kept]

@[simp] theorem State.retryNodes_kept (s : State) (str : Nat) : (State.retryNodes s str).kept = s.kept := by
  unfold State.retryNodes
  (repeat' (first | with_reducible rfl | (simp (disch := first | assumption | (simp only [away, Reg.NODEa_STATE_state]; omega) | simp only [onRing_away, ringEnabled_away, ringErr_away, ringCause_away, ringArmed_away, ringProd_away, ringCons_away]) only [State.ite_kept, ite_self, State.onNode_kept]; done) | split | apply foldl_kept_of | apply foldl_kept_snd_of | apply foldl_kept_fst_of | intro _ _ | simp (disch := first | assumption | (simp only [away, Reg.NODEa_STATE_state]; omega) | simp only [onRing_away, ringEnabled_away, ringErr_away, ringCause_away, ringArmed_away, ringProd_away, ringCons_away]) only [State.ite_kept, ite_self, State.onNode_kept] | dsimp only))

@[simp] theorem State.laneGoesUp_kept (s : State) (n : Nat) : (State.laneGoesUp s n).kept = s.kept := by
  unfold State.laneGoesUp
  simp (disch := first | assumption | (simp only [away, Reg.LANEn_CFG_rate, Reg.LANEn_STATUS_attempts, Reg.LANEn_STATUS_block_lock, Reg.LANEn_STATUS_signal, Reg.LANEn_TRAIN_TIME]; omega) | simp only [onRing_away, ringEnabled_away, ringErr_away, ringCause_away, ringArmed_away, ringProd_away, ringCons_away]) only [State.ite_kept, ite_self, State.adapt_kept, State.askSleepRx_kept, State.askSleepTx_kept, State.onLane_kept, State.post_kept, State.raise_kept, State.refresh_kept, State.restoreHop_kept, State.retryNodes_kept, State.set_kept, State.setLaneState_kept]

@[simp] theorem State.laneGoesDown_kept (s : State) (n cause : Nat) : (State.laneGoesDown s n cause).kept = s.kept := by
  unfold State.laneGoesDown
  simp (disch := first | assumption | (simp only [away, Reg.LANEn_CFG_auto_retrain, Reg.LANEn_ERRCNT_lock_losses, Reg.LANEn_STATUS_signal, Reg.LANEn_STATUS_went_down]; omega) | simp only [onRing_away, ringEnabled_away, ringErr_away, ringCause_away, ringArmed_away, ringProd_away, ringCons_away]) only [State.ite_kept, ite_self, State.adapt_kept, State.bump_kept, State.clear_kept, State.dropLock_kept, State.endEye_kept, State.endSleeps_kept, State.laneLost_kept, State.post_kept, State.raise_kept, State.refresh_kept, State.setLaneState_kept, State.startTraining_kept]

@[simp] theorem State.settleLane_kept (s : State) (n : Nat) : (State.settleLane s n).kept = s.kept := by
  unfold State.settleLane
  simp (disch := first | assumption | (simp only [away, Reg.LANEn_STATUS_signal]; omega) | simp only [onRing_away, ringEnabled_away, ringErr_away, ringCause_away, ringArmed_away, ringProd_away, ringCons_away]) only [State.ite_kept, ite_self, State.clear_kept, State.dropLock_kept, State.endEye_kept, State.endSleeps_kept, State.laneLost_kept, State.refresh_kept, State.setLaneState_kept]

@[simp] theorem State.trainingIn_kept (s : State) (n p : Nat) (converged : Bool) : (State.trainingIn s n p converged).kept = s.kept := by
  unfold State.trainingIn
  (repeat' (first | with_reducible rfl | (simp (disch := first | assumption | (simp only [away]; omega) | simp only [onRing_away, ringEnabled_away, ringErr_away, ringCause_away, ringArmed_away, ringProd_away, ringCons_away]) only [State.ite_kept, ite_self, State.laneGoesUp_kept, State.nextRequests_kept, State.onLane_kept, State.sendTraining_kept, State.serveRequests_kept]; done) | split | apply foldl_kept_of | apply foldl_kept_snd_of | apply foldl_kept_fst_of | intro _ _ | simp (disch := first | assumption | (simp only [away]; omega) | simp only [onRing_away, ringEnabled_away, ringErr_away, ringCause_away, ringArmed_away, ringProd_away, ringCons_away]) only [State.ite_kept, ite_self, State.laneGoesUp_kept, State.nextRequests_kept, State.onLane_kept, State.sendTraining_kept, State.serveRequests_kept] | dsimp only))

@[simp] theorem State.noticeIn_kept (s : State) (n : Nat) : (State.noticeIn s n).kept = s.kept := by
  unfold State.noticeIn
  simp (disch := first | assumption | (simp only [away, Reg.LANEn_STATUS_far_tx_asleep, Reg.LANEn_STATUS_signal]; omega) | simp only [onRing_away, ringEnabled_away, ringErr_away, ringCause_away, ringArmed_away, ringProd_away, ringCons_away]) only [State.ite_kept, ite_self, State.clear_kept, State.onLane_kept, State.raise_kept, State.sleepRx_kept]

@[simp] theorem State.lockIn_kept (s : State) (n : Nat) : (State.lockIn s n).kept = s.kept := by
  unfold State.lockIn
  (try dsimp only)
  (repeat' split) <;> simp (disch := first | assumption | (simp only [away, Reg.LANEn_STATUS_block_lock, Reg.LANEn_STATUS_signal]; omega) | simp only [onRing_away, ringEnabled_away, ringErr_away, ringCause_away, ringArmed_away, ringProd_away, ringCons_away]) only [State.ite_kept, ite_self, State.onLane_kept, State.post_kept, State.raise_kept]

@[simp] theorem State.lockOut_kept (s : State) (n : Nat) : (State.lockOut s n).kept = s.kept := by
  unfold State.lockOut
  simp (disch := first | assumption | (simp only [away, Reg.LANEn_ERRCNT_lock_losses]; omega) | simp only [onRing_away, ringEnabled_away, ringErr_away, ringCause_away, ringArmed_away, ringProd_away, ringCons_away]) only [State.ite_kept, ite_self, State.bump_kept, State.dropLock_kept, State.laneGoesDown_kept]

@[simp] theorem State.berHigh_kept (s : State) (n : Nat) : (State.berHigh s n).kept = s.kept := by
  unfold State.berHigh
  simp (disch := first | assumption | (simp only [away, Reg.LANEn_STATUS_hi_ber]; omega) | simp only [onRing_away, ringEnabled_away, ringErr_away, ringCause_away, ringArmed_away, ringProd_away, ringCons_away]) only [State.ite_kept, ite_self, State.onLane_kept, State.post_kept, State.raise_kept]

@[simp] theorem State.badHeader_kept (s : State) (n : Nat) : (State.badHeader s n).kept = s.kept := by
  unfold State.badHeader
  simp (disch := first | assumption | (simp only [away, Reg.LANEn_ERRCNT_invalid_headers]; omega) | simp only [onRing_away, ringEnabled_away, ringErr_away, ringCause_away, ringArmed_away, ringProd_away, ringCons_away]) only [State.ite_kept, ite_self, State.berHigh_kept, State.bump_kept, State.onLane_kept]

@[simp] theorem State.askRetrain_kept (s : State) (n : Nat) : (State.askRetrain s n).kept = s.kept := by
  unfold State.askRetrain
  simp (disch := first | assumption | (simp only [away]; omega) | simp only [onRing_away, ringEnabled_away, ringErr_away, ringCause_away, ringArmed_away, ringProd_away, ringCons_away]) only [State.ite_kept, ite_self, State.laneLost_kept, State.refresh_kept, State.startTraining_kept]

theorem State.laneCtrl_kept (s : State) (n : Nat) (f : State → State) (h : ∀ t : State, (f t).kept = t.kept) :
    (State.laneCtrl s n f).kept = s.kept := by
  unfold State.laneCtrl
  refine s.hostWrite_kept _ _ ?_
  (try split) <;> simp [h]

@[simp] theorem State.signalOut_kept (s : State) (n : Nat) : (State.signalOut s n).kept = s.kept := by
  unfold State.signalOut
  simp (disch := first | assumption | (simp only [away, Reg.LANEn_STATUS_far_tx_asleep, Reg.LANEn_STATUS_signal]; omega) | simp only [onRing_away, ringEnabled_away, ringErr_away, ringCause_away, ringArmed_away, ringProd_away, ringCons_away]) only [State.ite_kept, ite_self, State.clear_kept, State.dropLock_kept, State.laneGoesDown_kept]

@[simp] theorem State.eyeStart_kept (s : State) (n : Nat) : (State.eyeStart s n).kept = s.kept := by
  unfold State.eyeStart
  simp (disch := first | assumption | (simp only [away, Reg.LANEn_EYE_CTRL_phase, Reg.LANEn_EYE_CTRL_prescale, Reg.LANEn_EYE_CTRL_voffset, Reg.LANEn_STATUS_eye_busy, Reg.LANEn_STATUS_rx_asleep]; omega) | simp only [onRing_away, ringEnabled_away, ringErr_away, ringCause_away, ringArmed_away, ringProd_away, ringCons_away]) only [State.ite_kept, ite_self, State.onLane_kept, State.raise_kept]

@[simp] theorem State.eyeResult_kept (s : State) (n compared errors : Nat) : (State.eyeResult s n compared errors).kept = s.kept := by
  unfold State.eyeResult
  simp (disch := first | assumption | (simp only [away, Reg.LANEn_EYE_BITS_HI, Reg.LANEn_EYE_BITS_LO, Reg.LANEn_EYE_ERR, Reg.LANEn_STATUS_eye_busy, Reg.LANEn_STATUS_eye_done]; omega) | simp only [onRing_away, ringEnabled_away, ringErr_away, ringCause_away, ringArmed_away, ringProd_away, ringCons_away]) only [State.ite_kept, ite_self, State.clear_kept, State.raise_kept, State.set_kept, State.set2_kept]

end Sys2Proof.Machine
end

