-- ==== Sys2Proof/Laws/KeptTallyCore.lean ====
section
/-! SUPPORT. The operations of Machine/TallyCore.lean leave the kept words alone. -/

set_option linter.all false

namespace Sys2Proof.Machine

@[simp] theorem State.sendLeaseBytes_kept (s : State) (m : List (BitVec 8)) : (State.sendLeaseBytes s m).kept = s.kept := by
  unfold State.sendLeaseBytes
  (repeat' (first | with_reducible rfl | (simp (disch := first | assumption | (simp only [away, Reg.PAIR_CFG_net_ports]; omega) | simp only [onRing_away, ringEnabled_away, ringErr_away, ringCause_away, ringArmed_away, ringProd_away, ringCons_away]) only [State.ite_kept, ite_self, State.modTally_kept, State.sendPacket_kept, State.sendWc_kept]; done) | split | apply foldl_kept_of | apply foldl_kept_snd_of | apply foldl_kept_fst_of | intro _ _ | simp (disch := first | assumption | (simp only [away, Reg.PAIR_CFG_net_ports]; omega) | simp only [onRing_away, ringEnabled_away, ringErr_away, ringCause_away, ringArmed_away, ringProd_away, ringCons_away]) only [State.ite_kept, ite_self, State.modTally_kept, State.sendPacket_kept, State.sendWc_kept] | dsimp only))

@[simp] theorem State.sendLease_kept (s : State) (op : Nat) (b4 : Bool) : (State.sendLease s op b4).kept = s.kept := by
  unfold State.sendLease
  simp (disch := first | assumption | (simp only [away]; omega) | simp only [onRing_away, ringEnabled_away, ringErr_away, ringCause_away, ringArmed_away, ringProd_away, ringCons_away]) only [State.ite_kept, ite_self, State.sendLeaseBytes_kept]

@[simp] theorem State.endOps_kept (s : State) (l : List (Nat × Nat × Nat)) (status : Nat) (res : List (Nat × List (BitVec 8))) : (State.endOps s l status res).kept = s.kept := by
  unfold State.endOps
  (repeat' (first | with_reducible rfl | (simp (disch := first | assumption | (simp only [away]; omega) | simp only [onRing_away, ringEnabled_away, ringErr_away, ringCause_away, ringArmed_away, ringProd_away, ringCons_away]) only [State.ite_kept, ite_self, State.endOp_kept]; done) | split | apply foldl_kept_of | apply foldl_kept_snd_of | apply foldl_kept_fst_of | intro _ _ | simp (disch := first | assumption | (simp only [away]; omega) | simp only [onRing_away, ringEnabled_away, ringErr_away, ringCause_away, ringArmed_away, ringProd_away, ringCons_away]) only [State.ite_kept, ite_self, State.endOp_kept] | dsimp only))

@[simp] theorem State.endWet_kept (s : State) (p : Nat → Bool) : (State.endWet s p).kept = s.kept := by
  unfold State.endWet
  simp (disch := first | assumption | (simp only [away]; omega) | simp only [onRing_away, ringEnabled_away, ringErr_away, ringCause_away, ringArmed_away, ringProd_away, ringCons_away]) only [State.ite_kept, ite_self, State.modCare_kept]

@[simp] theorem State.abortCare_kept (s : State) : (State.abortCare s).kept = s.kept := by
  unfold State.abortCare
  (repeat' (first | with_reducible rfl | (simp (disch := first | assumption | (simp only [away, Reg.DGq_STATUS_busy]; omega) | simp only [onRing_away, ringEnabled_away, ringErr_away, ringCause_away, ringArmed_away, ringProd_away, ringCons_away]) only [State.ite_kept, ite_self, State.clear_kept, State.endOp_kept, State.endWet_kept, State.gateRowDone_kept, State.modCare_kept, State.scanNotes_kept]; done) | split | apply foldl_kept_of | apply foldl_kept_snd_of | apply foldl_kept_fst_of | intro _ _ | simp (disch := first | assumption | (simp only [away, Reg.DGq_STATUS_busy]; omega) | simp only [onRing_away, ringEnabled_away, ringErr_away, ringCause_away, ringArmed_away, ringProd_away, ringCons_away]) only [State.ite_kept, ite_self, State.clear_kept, State.endOp_kept, State.endWet_kept, State.gateRowDone_kept, State.modCare_kept, State.scanNotes_kept] | dsimp only))

@[simp] theorem State.abortOps_kept (s : State) : (State.abortOps s).kept = s.kept := by
  unfold State.abortOps
  (repeat' (first | with_reducible rfl | (simp (disch := first | assumption | (simp only [away]; omega) | simp only [onRing_away, ringEnabled_away, ringErr_away, ringCause_away, ringArmed_away, ringProd_away, ringCons_away]) only [State.ite_kept, ite_self, State.abortCare_kept, State.abortTables_kept, State.endOp_kept]; done) | split | apply foldl_kept_of | apply foldl_kept_snd_of | apply foldl_kept_fst_of | intro _ _ | simp (disch := first | assumption | (simp only [away]; omega) | simp only [onRing_away, ringEnabled_away, ringErr_away, ringCause_away, ringArmed_away, ringProd_away, ringCons_away]) only [State.ite_kept, ite_self, State.abortCare_kept, State.abortTables_kept, State.endOp_kept] | dsimp only))

@[simp] theorem State.stopSlices_kept (s : State) : (State.stopSlices s).kept = s.kept := by
  unfold State.stopSlices
  (repeat' (first | with_reducible rfl | (simp (disch := first | assumption | (simp only [away, Reg.RS_SPARE_STATUS_state]; omega) | simp only [onRing_away, ringEnabled_away, ringErr_away, ringCause_away, ringArmed_away, ringProd_away, ringCons_away]) only [State.ite_kept, ite_self, State.idleSlices_kept, State.modRaster_kept, State.modSched_kept, State.setSpare_kept]; done) | split | apply foldl_kept_of | apply foldl_kept_snd_of | apply foldl_kept_fst_of | intro _ _ | simp (disch := first | assumption | (simp only [away, Reg.RS_SPARE_STATUS_state]; omega) | simp only [onRing_away, ringEnabled_away, ringErr_away, ringCause_away, ringArmed_away, ringProd_away, ringCons_away]) only [State.ite_kept, ite_self, State.idleSlices_kept, State.modRaster_kept, State.modSched_kept, State.setSpare_kept] | dsimp only))

@[simp] theorem State.stopWork_kept (s : State) : (State.stopWork s).kept = s.kept := by
  unfold State.stopWork
  simp (disch := first | assumption | (simp only [away]; omega) | simp only [onRing_away, ringEnabled_away, ringErr_away, ringCause_away, ringArmed_away, ringProd_away, ringCons_away]) only [State.ite_kept, ite_self, State.modAssay_kept, State.modFm_kept]

@[simp] theorem State.fence_kept (s : State) (cause : Nat) : (State.fence s cause).kept = s.kept := by
  unfold State.fence
  simp (disch := first | assumption | (simp only [away, Reg.TALLY_STATUS_held, Reg.TALLY_STATUS_lost_seen, Reg.TALLY_STATUS_mirror_current, Reg.TALLY_STATUS_role]; omega) | simp only [onRing_away, ringEnabled_away, ringErr_away, ringCause_away, ringArmed_away, ringProd_away, ringCons_away]) only [State.ite_kept, ite_self, State.abortOps_kept, State.clear_kept, State.enter_kept, State.modTally_kept, State.post_kept, State.raise_kept, State.set_kept, State.showRelays_kept, State.stopSlices_kept, State.stopWork_kept]

@[simp] theorem State.beginWarm_kept (s : State) : (State.beginWarm s).kept = s.kept := by
  unfold State.beginWarm
  (repeat' (first | with_reducible rfl | (simp (disch := first | assumption | (simp only [away, Reg.TALLY_STATUS_warming]; omega) | simp only [onRing_away, ringEnabled_away, ringErr_away, ringCause_away, ringArmed_away, ringProd_away, ringCons_away]) only [State.ite_kept, ite_self, State.onHead_kept, State.onPlane_kept, State.raise_kept, State.stopSlices_kept]; done) | split | apply foldl_kept_of | apply foldl_kept_snd_of | apply foldl_kept_fst_of | intro _ _ | simp (disch := first | assumption | (simp only [away, Reg.TALLY_STATUS_warming]; omega) | simp only [onRing_away, ringEnabled_away, ringErr_away, ringCause_away, ringArmed_away, ringProd_away, ringCons_away]) only [State.ite_kept, ite_self, State.onHead_kept, State.onPlane_kept, State.raise_kept, State.stopSlices_kept] | dsimp only))

@[simp] theorem State.endWarm_kept (s : State) : (State.endWarm s).kept = s.kept := by
  unfold State.endWarm
  simp (disch := first | assumption | (simp only [away, Reg.TALLY_STATUS_warming]; omega) | simp only [onRing_away, ringEnabled_away, ringErr_away, ringCause_away, ringArmed_away, ringProd_away, ringCons_away]) only [State.ite_kept, ite_self, State.clear_kept, State.stopSlices_kept]

@[simp] theorem State.foremanTakeover_kept (s : State) : (State.foremanTakeover s).kept = s.kept := by
  unfold State.foremanTakeover
  extract_lets e keys s1 s2
  have h1 : s1.kept = s.kept := State.modFm_kept _ _
  clear_value s1
  have h2 : s2.kept = s.kept := by
    unfold s2
    exact (foldl_kept _ (fun s q => by simp (disch := first | assumption | (simp only [away, Reg.FM_PDq_pd, Reg.FM_REGq_dt, Reg.FM_REGq_xoff]; omega))) _ _).trans h1
  clear_value s2
  exact (foldl_kept _ (fun s q => by simp) _ _).trans ((State.modSched_kept _ _).trans h2)

@[simp] theorem State.startModel_kept (s : State) (a : Nat) : (State.startModel s a).kept = s.kept := by
  unfold State.startModel
  simp (disch := first | assumption | (simp only [away, Reg.HC_HEADa_TEMP_t_d]; omega) | simp only [onRing_away, ringEnabled_away, ringErr_away, ringCause_away, ringArmed_away, ringProd_away, ringCons_away]) only [State.ite_kept, ite_self, State.onModel_kept, State.setI_kept]

@[simp] theorem State.bindAll_kept (s : State) : (State.bindAll s).kept = s.kept := by
  unfold State.bindAll
  (repeat' (first | with_reducible rfl | (simp (disch := first | assumption | (simp only [away]; omega) | simp only [onRing_away, ringEnabled_away, ringErr_away, ringCause_away, ringArmed_away, ringProd_away, ringCons_away]) only [State.ite_kept, ite_self, State.sendBind_kept]; done) | split | apply foldl_kept_of | apply foldl_kept_snd_of | apply foldl_kept_fst_of | intro _ _ | simp (disch := first | assumption | (simp only [away]; omega) | simp only [onRing_away, ringEnabled_away, ringErr_away, ringCause_away, ringArmed_away, ringProd_away, ringCons_away]) only [State.ite_kept, ite_self, State.sendBind_kept] | dsimp only))

@[simp] theorem State.passSent_kept (s : State) : (State.passSent s).kept = s.kept := by
  unfold State.passSent
  (repeat' (first | with_reducible rfl | (simp (disch := first | assumption | (simp only [away]; omega) | simp only [onRing_away, ringEnabled_away, ringErr_away, ringCause_away, ringArmed_away, ringProd_away, ringCons_away]) only [State.ite_kept, ite_self, State.onHead_kept]; done) | split | apply foldl_kept_of | apply foldl_kept_snd_of | apply foldl_kept_fst_of | intro _ _ | simp (disch := first | assumption | (simp only [away]; omega) | simp only [onRing_away, ringEnabled_away, ringErr_away, ringCause_away, ringArmed_away, ringProd_away, ringCons_away]) only [State.ite_kept, ite_self, State.onHead_kept] | dsimp only))

@[simp] theorem State.takeStream_kept (s : State) : (State.takeStream s).kept = s.kept := by
  unfold State.takeStream
  (repeat' (first | with_reducible rfl | (simp (disch := first | assumption | (simp only [away, Reg.LS_STATUS_draining, Reg.TALLY_STATUS_warming]; omega) | simp); done) | split | apply foldl_kept_of | apply foldl_kept_snd_of | apply foldl_kept_fst_of | intro _ _ | simp (disch := first | assumption | (simp only [away, Reg.LS_STATUS_draining, Reg.TALLY_STATUS_warming]; omega) | simp) | dsimp only | rfl))

@[simp] theorem State.takeTally_kept (s : State) (cause : Nat) (grant : Option Nat) : (State.takeTally s cause grant).kept = s.kept := by
  unfold State.takeTally
  simp (disch := first | assumption | (simp only [away, Reg.TALLY_COUNTS_takeovers, Reg.TALLY_EPOCH, Reg.TALLY_STATUS_held, Reg.TALLY_STATUS_lost_seen, Reg.TALLY_STATUS_role]; omega) | simp only [onRing_away, ringEnabled_away, ringErr_away, ringCause_away, ringArmed_away, ringProd_away, ringCons_away]) only [State.ite_kept, ite_self, State.bump_kept, State.modTally_kept, State.post_kept, State.raise_kept, State.refresh_kept, State.set_kept, State.takeStream_kept]

@[simp] theorem State.keysLost_kept (s : State) : (State.keysLost s).kept = s.kept := by
  unfold State.keysLost
  simp (disch := first | assumption | (simp only [away]; omega) | simp only [onRing_away, ringEnabled_away, ringErr_away, ringCause_away, ringArmed_away, ringProd_away, ringCons_away]) only [State.ite_kept, ite_self, State.fence_kept, State.refresh_kept, State.sendLease_kept]

end Sys2Proof.Machine
end

