-- ==== Sys2Proof/Laws/KeptPowerCore.lean ====
section
/-! SUPPORT. The operations of Machine/PowerCore.lean leave the kept words alone. -/

set_option linter.all false

namespace Sys2Proof.Machine

@[simp] theorem State.endLost_kept (s : State) (p : Nat → Bool) : (State.endLost s p).kept = s.kept := by
  unfold State.endLost
  (repeat' (first | with_reducible rfl | (simp (disch := first | assumption | (simp only [away]; omega) | simp only [onRing_away, ringEnabled_away, ringErr_away, ringCause_away, ringArmed_away, ringProd_away, ringCons_away]) only [State.ite_kept, ite_self, State.endOp_kept]; done) | split | apply foldl_kept_of | apply foldl_kept_snd_of | apply foldl_kept_fst_of | intro _ _ | simp (disch := first | assumption | (simp only [away]; omega) | simp only [onRing_away, ringEnabled_away, ringErr_away, ringCause_away, ringArmed_away, ringProd_away, ringCons_away]) only [State.ite_kept, ite_self, State.endOp_kept] | dsimp only))

@[simp] theorem State.clearTables_kept (s : State) (kinds : List Nat) : (State.clearTables s kinds).kept = s.kept := by
  unfold State.clearTables
  (repeat' (first | with_reducible rfl | (simp (disch := first | assumption | (simp only [away]; omega) | simp only [onRing_away, ringEnabled_away, ringErr_away, ringCause_away, ringArmed_away, ringProd_away, ringCons_away]) only [State.ite_kept, ite_self, State.endOp_kept, State.modSched_kept]; done) | split | apply foldl_kept_of | apply foldl_kept_snd_of | apply foldl_kept_fst_of | intro _ _ | simp (disch := first | assumption | (simp only [away]; omega) | simp only [onRing_away, ringEnabled_away, ringErr_away, ringCause_away, ringArmed_away, ringProd_away, ringCons_away]) only [State.ite_kept, ite_self, State.endOp_kept, State.modSched_kept] | dsimp only))

@[simp] theorem State.clearJobs_kept (s : State) : (State.clearJobs s).kept = s.kept := by
  unfold State.clearJobs
  simp (disch := first | assumption | (simp only [away, Reg.LS_NEXT_PARTING_HI, Reg.LS_NEXT_PARTING_LO, Reg.LS_STATUS_draining, Reg.LS_STATUS_origin_set]; omega) | simp only [onRing_away, ringEnabled_away, ringErr_away, ringCause_away, ringArmed_away, ringProd_away, ringCons_away]) only [State.ite_kept, ite_self, State.clear_kept, State.modAssay_kept, State.modSched_kept, State.set2_kept]

@[simp] theorem State.clearRaster_kept (s : State) : (State.clearRaster s).kept = s.kept := by
  unfold State.clearRaster
  simp (disch := first | assumption | (simp only [away]; omega) | simp only [onRing_away, ringEnabled_away, ringErr_away, ringCause_away, ringArmed_away, ringProd_away, ringCons_away]) only [State.ite_kept, ite_self, State.clearTables_kept, State.endLost_kept, State.modRaster_kept, State.modSeam_kept]

@[simp] theorem State.clearNodes_kept (s : State) : (State.clearNodes s).kept = s.kept := by
  unfold State.clearNodes
  simp (disch := first | assumption | (simp only [away]; omega) | simp only [onRing_away, ringEnabled_away, ringErr_away, ringCause_away, ringArmed_away, ringProd_away, ringCons_away]) only [State.ite_kept, ite_self, State.modCare_kept, State.modLink_kept, State.modSeam_kept, State.modTally_kept]

@[simp] theorem State.clearHealth_kept (s : State) : (State.clearHealth s).kept = s.kept := by
  unfold State.clearHealth
  simp (disch := first | assumption | (simp only [away]; omega) | simp only [onRing_away, ringEnabled_away, ringErr_away, ringCause_away, ringArmed_away, ringProd_away, ringCons_away]) only [State.ite_kept, ite_self, State.abortCare_kept, State.clearTables_kept, State.modCare_kept]

@[simp] theorem State.clearPorts_kept (s : State) : (State.clearPorts s).kept = s.kept := by
  unfold State.clearPorts
  simp (disch := first | assumption | (simp only [away]; omega) | simp only [onRing_away, ringEnabled_away, ringErr_away, ringCause_away, ringArmed_away, ringProd_away, ringCons_away]) only [State.ite_kept, ite_self, State.clearTables_kept, State.endLost_kept, State.modAssay_kept]

@[simp] theorem State.clearForeman_kept (s : State) : (State.clearForeman s).kept = s.kept := by
  unfold State.clearForeman
  extract_lets s0
  have h0 : s0.kept = s.kept := by
    unfold s0
    exact foldl_kept _ (fun s q => by
      simp (disch := first | assumption | (simp only [away, Reg.FM_PDq_pd, Reg.FM_REGq_dt, Reg.FM_REGq_xoff]; omega)) only [State.clear_kept]) _ _
  clear_value s0
  rw [State.modFm_kept, State.clearTables_kept, h0]

@[simp] theorem State.clearStore_kept (s : State) : (State.clearStore s).kept = s.kept := by
  unfold State.clearStore
  (repeat' (first | with_reducible rfl | (simp (disch := first | assumption | (simp only [away]; omega) | simp only [onRing_away, ringEnabled_away, ringErr_away, ringCause_away, ringArmed_away, ringProd_away, ringCons_away]) only [State.ite_kept, ite_self, State.endLost_kept, State.endOp_kept, State.modFm_kept, State.modMem_kept, State.modStore_kept]; done) | split | apply foldl_kept_of | apply foldl_kept_snd_of | apply foldl_kept_fst_of | intro _ _ | simp (disch := first | assumption | (simp only [away]; omega) | simp only [onRing_away, ringEnabled_away, ringErr_away, ringCause_away, ringArmed_away, ringProd_away, ringCons_away]) only [State.ite_kept, ite_self, State.endLost_kept, State.endOp_kept, State.modFm_kept, State.modMem_kept, State.modStore_kept] | dsimp only))

@[simp] theorem State.clearTally_kept (s : State) : (State.clearTally s).kept = s.kept := by
  unfold State.clearTally
  simp (disch := first | assumption | (simp only [away, Reg.TALLY_EPOCH, Reg.TALLY_STATUS_deputy_halted, Reg.TALLY_STATUS_held, Reg.TALLY_STATUS_role]; omega) | simp only [onRing_away, ringEnabled_away, ringErr_away, ringCause_away, ringArmed_away, ringProd_away, ringCons_away]) only [State.ite_kept, ite_self, State.clear_kept, State.endLost_kept, State.endOps_kept, State.modTally_kept, State.set_kept, State.setOn_kept]

@[simp] theorem State.clearWinders_kept (s : State) : (State.clearWinders s).kept = s.kept := by
  unfold State.clearWinders
  (repeat' (first | with_reducible rfl | (simp (disch := first | assumption | (simp only [away]; omega) | simp only [onRing_away, ringEnabled_away, ringErr_away, ringCause_away, ringArmed_away, ringProd_away, ringCons_away]) only [State.ite_kept, ite_self, State.endOp_kept, State.modWind_kept]; done) | split | apply foldl_kept_of | apply foldl_kept_snd_of | apply foldl_kept_fst_of | intro _ _ | simp (disch := first | assumption | (simp only [away]; omega) | simp only [onRing_away, ringEnabled_away, ringErr_away, ringCause_away, ringArmed_away, ringProd_away, ringCons_away]) only [State.ite_kept, ite_self, State.endOp_kept, State.modWind_kept] | dsimp only))

@[simp] theorem State.restartHeadstock_kept (s : State) : (State.restartHeadstock s).kept = s.kept := by
  unfold State.restartHeadstock
  simp (disch := first | assumption | (simp only [away, Reg.OBS_STATUS_active, Reg.OBS_STATUS_pos_valid]; omega) | simp only [onRing_away, ringEnabled_away, ringErr_away, ringCause_away, ringArmed_away, ringProd_away, ringCons_away]) only [State.ite_kept, ite_self, State.clear_kept, State.modObs_kept, State.modTime_kept, State.set_kept]

@[simp] theorem State.resetDomain_kept (s : State) (d : Nat) : (State.resetDomain s d).kept = s.kept := by
  unfold State.resetDomain
  simp (disch := first | assumption | (simp only [away, Reg.TALLY_EPOCH]; omega) | simp)

@[simp] theorem State.returnRegs_kept (s : State) (d : Nat) : (State.returnRegs s d).kept = s.kept := by
  have same : ∀ (s : State) (off : Nat), (s.setReg off (s.reg off)).kept = s.kept := by
    intro s off
    have h : ∀ o, (s.setReg off (s.reg off)).reg o = s.reg o := by
      intro o
      by_cases h : o = off
      · rw [h, State.reg_setReg_self]
      · exact s.reg_setReg_ne _ _ _ h
    simp only [State.kept, h]; rfl
  have fix : ∀ off x k, ¬ away off → restoreRwl off x k = x := by
    intro off x k h
    have : off = 0x0 ∨ off = 0x4 ∨ off = 0x8 ∨ off = 0x1C := by unfold away at h; omega
    have hn : ∀ f ∈ fieldsAt off, f.acc ≠ .rwl := by
      rcases this with rfl | rfl | rfl | rfl <;> decide
    unfold restoreRwl
    generalize fieldsAt off = l at hn
    induction l with
    | nil => rfl
    | cons f t ih =>
      simp only [List.foldl_cons, hn f (by simp), if_false]
      exact ih fun g hg => hn g (by simp [hg])
  unfold State.returnRegs
  refine (foldl_kept _ (fun s e => ?_) _ _).trans (by simp)
  split
  · by_cases h : away e.1
    · exact s.setReg_kept _ _ h
    · rw [fix _ _ _ h]; exact same s e.1
  · rfl

@[simp] theorem State.setPowered_kept (s : State) (d : Nat) (b : Bool) : (State.setPowered s d b).kept = s.kept := by
  unfold State.setPowered
  simp (disch := first | assumption | (simp only [away, Reg.PWR_DOMAINS_powered]; omega) | simp only [onRing_away, ringEnabled_away, ringErr_away, ringCause_away, ringArmed_away, ringProd_away, ringCons_away]) only [State.ite_kept, ite_self, State.set_kept]

@[simp] theorem State.switchOff_kept (s : State) (d : Nat) : (State.switchOff s d).kept = s.kept := by
  unfold State.switchOff
  simp (disch := first | assumption | (simp only [away]; omega) | simp only [onRing_away, ringEnabled_away, ringErr_away, ringCause_away, ringArmed_away, ringProd_away, ringCons_away]) only [State.ite_kept, ite_self, State.resetDomain_kept, State.setPowered_kept]

@[simp] theorem State.sleepAll_kept (s : State) : (State.sleepAll s).kept = s.kept := by
  unfold State.sleepAll
  (repeat' (first | with_reducible rfl | (simp (disch := first | assumption | (simp only [away]; omega) | simp only [onRing_away, ringEnabled_away, ringErr_away, ringCause_away, ringArmed_away, ringProd_away, ringCons_away]) only [State.ite_kept, ite_self, State.sendNotices_kept, State.setLaneState_kept]; done) | split | apply foldl_kept_of | apply foldl_kept_snd_of | apply foldl_kept_fst_of | intro _ _ | simp (disch := first | assumption | (simp only [away]; omega) | simp only [onRing_away, ringEnabled_away, ringErr_away, ringCause_away, ringArmed_away, ringProd_away, ringCons_away]) only [State.ite_kept, ite_self, State.sendNotices_kept, State.setLaneState_kept] | dsimp only))

@[simp] theorem State.enterDeep_kept (s : State) (cause : Nat) : (State.enterDeep s cause).kept = s.kept := by
  unfold State.enterDeep
  (repeat' (first | with_reducible rfl | (simp (disch := first | assumption | (simp only [away, Reg.PWR_STATE_deep_cause, Reg.TALLY_STATUS_role]; omega) | simp only [onRing_away, ringEnabled_away, ringErr_away, ringCause_away, ringArmed_away, ringProd_away, ringCons_away]) only [State.ite_kept, ite_self, State.clearForeman_kept, State.clearHealth_kept, State.clearJobs_kept, State.clearNodes_kept, State.clearPorts_kept, State.clearRaster_kept, State.clearTally_kept, State.clearWinders_kept, State.enter_kept, State.modSched_kept, State.post_kept, State.set_kept, State.sleepAll_kept, State.switchOff_kept]; done) | split | apply foldl_kept_of | apply foldl_kept_snd_of | apply foldl_kept_fst_of | intro _ _ | simp (disch := first | assumption | (simp only [away, Reg.PWR_STATE_deep_cause, Reg.TALLY_STATUS_role]; omega) | simp only [onRing_away, ringEnabled_away, ringErr_away, ringCause_away, ringArmed_away, ringProd_away, ringCons_away]) only [State.ite_kept, ite_self, State.clearForeman_kept, State.clearHealth_kept, State.clearJobs_kept, State.clearNodes_kept, State.clearPorts_kept, State.clearRaster_kept, State.clearTally_kept, State.clearWinders_kept, State.enter_kept, State.modSched_kept, State.post_kept, State.set_kept, State.sleepAll_kept, State.switchOff_kept] | dsimp only))

@[simp] theorem State.chipShutdown_kept (s : State) (node : Nat) (tc : Int) (source : Nat) : (State.chipShutdown s node tc source).kept = s.kept := by
  unfold State.chipShutdown
  simp (disch := first | assumption | (simp only [away, Reg.HC_STATUS_shutdown]; omega) | simp only [onRing_away, ringEnabled_away, ringErr_away, ringCause_away, ringArmed_away, ringProd_away, ringCons_away]) only [State.ite_kept, ite_self, State.enterDeep_kept, State.fence_kept, State.modPower_kept, State.post_kept, State.raise_kept, State.sendLease_kept]

end Sys2Proof.Machine
end

