-- ==== Sys2Proof/Laws/KeptCareCore.lean ====
section
/-! SUPPORT. The operations of Machine/CareCore.lean leave the kept words alone. -/

set_option linter.all false

namespace Sys2Proof.Machine

@[simp] theorem State.shutHead_kept (s : State) (a source : Nat) : (State.shutHead s a source).kept = s.kept := by
  unfold State.shutHead
  simp (disch := first | assumption | (simp only [away, Reg.HC_HEADa_STATE_held, Reg.HC_STATUS_shutdown]; omega) | simp only [onRing_away, ringEnabled_away, ringErr_away, ringCause_away, ringArmed_away, ringProd_away, ringCons_away]) only [State.ite_kept, ite_self, State.onNode_kept, State.post_kept, State.raise_kept, State.sendHold_kept]

@[simp] theorem State.checkHead_kept (s : State) (a source : Nat) : (State.checkHead s a source).kept = s.kept := by
  unfold State.checkHead
  (try dsimp only)
  (repeat' split) <;> simp (disch := first | assumption | (simp only [away]; omega) | simp only [onRing_away, ringEnabled_away, ringErr_away, ringCause_away, ringArmed_away, ringProd_away, ringCons_away]) only [State.ite_kept, ite_self, State.shutHead_kept]

@[simp] theorem State.readNozzle_kept (s : State) (a row col v : Nat) (rebase : Bool) : (State.readNozzle s a row col v rebase).kept = s.kept := by
  unfold State.readNozzle
  (try dsimp only)
  (repeat' split) <;> simp (disch := first | assumption | (simp only [away]; omega) | simp only [onRing_away, ringEnabled_away, ringErr_away, ringCause_away, ringArmed_away, ringProd_away, ringCons_away]) only [State.ite_kept, ite_self, State.onNoz_kept]

@[simp] theorem State.setScan_kept (s : State) (c : ScanOp) : (State.setScan s c).kept = s.kept := by
  unfold State.setScan
  simp (disch := first | assumption | (simp only [away]; omega) | simp only [onRing_away, ringEnabled_away, ringErr_away, ringCause_away, ringArmed_away, ringProd_away, ringCons_away]) only [State.ite_kept, ite_self, State.modCare_kept]

@[simp] theorem State.scanNext_kept (s : State) (x0 : Nat) : (State.scanNext s x0).kept = s.kept := by
  induction x0 generalizing s with
  | zero => rfl
  | succ n ih =>
    unfold State.scanNext
    split
    · rfl
    · split
      · rfl
      · split
        · dsimp only; rw [ih]; simp
        · split
          · rw [ih]; simp
          · split <;> simp

@[simp] theorem State.setGate_kept (s : State) (g : GateOp) : (State.setGate s g).kept = s.kept := by
  unfold State.setGate
  simp (disch := first | assumption | (simp only [away]; omega) | simp only [onRing_away, ringEnabled_away, ringErr_away, ringCause_away, ringArmed_away, ringProd_away, ringCons_away]) only [State.ite_kept, ite_self, State.modCare_kept]

@[simp] theorem State.gatesNext_kept (s : State) : (State.gatesNext s).kept = s.kept := by
  unfold State.gatesNext
  (repeat' (first | with_reducible rfl | (simp (disch := first | assumption | (simp only [away]; omega) | simp only [onRing_away, ringEnabled_away, ringErr_away, ringCause_away, ringArmed_away, ringProd_away, ringCons_away]) only [State.ite_kept, ite_self, State.setGate_kept]; done) | split | apply foldl_kept_of | apply foldl_kept_snd_of | apply foldl_kept_fst_of | intro _ _ | simp (disch := first | assumption | (simp only [away]; omega) | simp only [onRing_away, ringEnabled_away, ringErr_away, ringCause_away, ringArmed_away, ringProd_away, ringCons_away]) only [State.ite_kept, ite_self, State.setGate_kept] | dsimp only))

@[simp] theorem State.careNext_kept (s : State) : (State.careNext s).kept = s.kept := by
  unfold State.careNext
  simp (disch := first | assumption | (simp only [away]; omega) | simp only [onRing_away, ringEnabled_away, ringErr_away, ringCause_away, ringArmed_away, ringProd_away, ringCons_away]) only [State.ite_kept, ite_self, State.gatesNext_kept, State.scanNext_kept]

@[simp] theorem State.scanDone_kept (s : State) (c : ScanOp) (a row : Nat) : (State.scanDone s c a row).kept = s.kept := by
  unfold State.scanDone
  simp (disch := first | assumption | (simp only [away]; omega) | simp only [onRing_away, ringEnabled_away, ringErr_away, ringCause_away, ringArmed_away, ringProd_away, ringCons_away]) only [State.ite_kept, ite_self, State.careNext_kept, State.post_kept, State.scanNotes_kept, State.setScan_kept]

@[simp] theorem State.measured_kept (s : State) (a row first tag : Nat) (vs : List Nat) : (State.measured s a row first tag vs).kept = s.kept := by
  unfold State.measured
  split
  · rfl
  · split
    · rfl
    · split
      · rfl
      · split
        rename_i s1 c1 k hk
        have h1 : s1.kept = s.kept := by
          rw [show s1 = (s1, c1, k).1 from rfl, ← hk]
          apply foldl_kept_fst_of
          · intro p v; dsimp only; split <;> simp
          · rfl
        dsimp only
        split <;> simp [h1]

@[simp] theorem State.scanRefused_kept (s : State) (a tag : Nat) : (State.scanRefused s a tag).kept = s.kept := by
  unfold State.scanRefused
  (try dsimp only)
  (repeat' split) <;> simp (disch := first | assumption | (simp only [away]; omega) | simp only [onRing_away, ringEnabled_away, ringErr_away, ringCause_away, ringArmed_away, ringProd_away, ringCons_away]) only [State.ite_kept, ite_self, State.scanDone_kept]

@[simp] theorem State.replaceHead_kept (s : State) (a old new : Nat) : (State.replaceHead s a old new).kept = s.kept := by
  unfold State.replaceHead
  simp (disch := first | assumption | (simp only [away, Reg.HC_HEADa_STATE_baseline_valid]; omega) | simp only [onRing_away, ringEnabled_away, ringErr_away, ringCause_away, ringArmed_away, ringProd_away, ringCons_away]) only [State.ite_kept, ite_self, State.clear_kept, State.modCare_kept, State.post_kept]

end Sys2Proof.Machine
end

