-- ==== Sys2Proof/Laws/KeptLink.lean ====
section
/-! SUPPORT. The operations of Machine/Link.lean leave the kept words alone. -/

set_option linter.all false

namespace Sys2Proof.Machine

@[simp] theorem State.requestSync_kept (s : State) (a : Nat) : (State.requestSync s a).kept = s.kept := by
  unfold State.requestSync
  simp (disch := first | assumption | (simp only [away, Reg.PAIR_CFG_end]; omega) | simp only [onRing_away, ringEnabled_away, ringErr_away, ringCause_away, ringArmed_away, ringProd_away, ringCons_away]) only [State.ite_kept, ite_self, State.sendSync_kept, State.setNode_kept]

@[simp] theorem State.sendStep_kept (s : State) (a : Nat) : (State.sendStep s a).kept = s.kept := by
  unfold State.sendStep
  (repeat' (first | with_reducible rfl | (simp (disch := first | assumption | (simp only [away]; omega) | simp only [onRing_away, ringEnabled_away, ringErr_away, ringCause_away, ringArmed_away, ringProd_away, ringCons_away]) only [State.ite_kept, ite_self, State.commitMap_kept, State.nodeCmd_kept, State.onNode_kept, State.requestSync_kept, State.sendMapData_kept]; done) | split | apply foldl_kept_of | apply foldl_kept_snd_of | apply foldl_kept_fst_of | intro _ _ | simp (disch := first | assumption | (simp only [away]; omega) | simp only [onRing_away, ringEnabled_away, ringErr_away, ringCause_away, ringArmed_away, ringProd_away, ringCons_away]) only [State.ite_kept, ite_self, State.commitMap_kept, State.nodeCmd_kept, State.onNode_kept, State.requestSync_kept, State.sendMapData_kept] | dsimp only))

@[simp] theorem State.goStep_kept (s : State) (a step : Nat) : (State.goStep s a step).kept = s.kept := by
  unfold State.goStep
  simp (disch := first | assumption | (simp only [away]; omega) | simp only [onRing_away, ringEnabled_away, ringErr_away, ringCause_away, ringArmed_away, ringProd_away, ringCons_away]) only [State.ite_kept, ite_self, State.onNode_kept, State.sendStep_kept]

@[simp] theorem State.serve_kept (s : State) (a : Nat) : (State.serve s a).kept = s.kept := by
  unfold State.serve
  (try dsimp only)
  (repeat' split) <;> simp (disch := first | assumption | (simp only [away, Reg.HC_HEADa_STATE_warm_level, Reg.NODEa_SERIAL_LO, Reg.NODEa_STATE_class_code, Reg.NODEa_STATE_reason, Reg.NODEa_STATE_state]; omega) | simp only [onRing_away, ringEnabled_away, ringErr_away, ringCause_away, ringArmed_away, ringProd_away, ringCons_away]) only [State.ite_kept, ite_self, State.modFm_kept, State.onModel_kept, State.onNode_kept, State.post_kept, State.sendCareParam_kept, State.set_kept, State.startModel_kept]

@[simp] theorem State.identify_kept (s : State) (a : Nat) : (State.identify s a).kept = s.kept := by
  unfold State.identify
  simp (disch := first | assumption | (simp only [away, Reg.NODEa_STATE_state]; omega) | simp only [onRing_away, ringEnabled_away, ringErr_away, ringCause_away, ringArmed_away, ringProd_away, ringCons_away]) only [State.ite_kept, ite_self, State.goStep_kept, State.onModel_kept, State.onNode_kept, State.set_kept]

@[simp] theorem State.checkMemory_kept (s : State) (a : Nat) : (State.checkMemory s a).kept = s.kept := by
  unfold State.checkMemory
  (try dsimp only)
  (repeat' split) <;> simp (disch := first | assumption | (simp only [away, Reg.NODEa_SERIAL_HI, Reg.NODEa_SERIAL_LO, Reg.NODEa_STATE_class_code]; omega) | simp only [onRing_away, ringEnabled_away, ringErr_away, ringCause_away, ringArmed_away, ringProd_away, ringCons_away]) only [State.ite_kept, ite_self, State.goStep_kept, State.notServed_kept, State.onNode_kept, State.replaceHead_kept, State.set_kept, State.set2_kept]

@[simp] theorem State.checkNode_kept (s : State) (a : Nat) : (State.checkNode s a).kept = s.kept := by
  unfold State.checkNode
  (try dsimp only)
  (repeat' split) <;> simp (disch := first | assumption | (simp only [away, Reg.LS_STATUS_lead_refused, Reg.SEAM_STATUS_phase_limit]; omega) | simp only [onRing_away, ringEnabled_away, ringErr_away, ringCause_away, ringArmed_away, ringProd_away, ringCons_away]) only [State.ite_kept, ite_self, State.goStep_kept, State.notServed_kept, State.onHead_kept, State.onNode_kept, State.post_kept, State.raise_kept, State.sendStreamReset_kept, State.serve_kept, State.setMap_kept]

@[simp] theorem State.adjust_kept (s : State) (a : Nat) (off : Int) : (State.adjust s a off).kept = s.kept := by
  unfold State.adjust
  simp (disch := first | assumption | (simp only [away]; omega) | simp only [onRing_away, ringEnabled_away, ringErr_away, ringCause_away, ringArmed_away, ringProd_away, ringCons_away]) only [State.ite_kept, ite_self, State.drawInt_kept, State.sendSync_kept]

@[simp] theorem State.syncResponse_kept (s : State) (a : Nat) (p : List (BitVec 8)) : (State.syncResponse s a p).kept = s.kept := by
  unfold State.syncResponse
  extract_lets n str
  split
  · rfl
  · split
    · rfl
    · extract_lets t2
      split
      rename_i off s0 h
      have h0 : s0.kept = s.kept := (congrArg (fun p => (Prod.snd p).kept) h).symm.trans (State.drawQuot_kept _ _ _)
      extract_lets s1 off' err s2 within shown s3 s4 s5
      have h1 : s1.kept = s.kept := by unfold s1; rw [State.onNode_kept, h0]
      clear_value s1 off' err
      have h2 : s2.kept = s.kept := by unfold s2; split <;> simp [h1]
      clear_value s2
      have h3 : s3.kept = s.kept := by
        have hs : shown.kept = s.kept := by unfold shown; rw [State.setSat_kept _ _ _ (by simp only [away, Reg.NODEa_STATE_state, Reg.NODEa_SYNC]; omega), h2]
        unfold s3; split
        · exact hs
        · rw [State.post_kept, hs]
      clear_value s3
      have h4 : s4.kept = s.kept := by unfold s4; rw [State.adjust_kept, h3]
      clear_value s4
      have h5 : s5.kept = s.kept := by unfold s5; rw [State.onNode_kept, h4]
      clear_value s5
      (repeat' split) <;> simp [h3, h4, h5]

@[simp] theorem State.scanLost_kept (s : State) (a : Nat) : (State.scanLost s a).kept = s.kept := by
  unfold State.scanLost
  (try dsimp only)
  (repeat' split) <;> simp (disch := first | assumption | (simp only [away]; omega) | simp only [onRing_away, ringEnabled_away, ringErr_away, ringCause_away, ringArmed_away, ringProd_away, ringCons_away]) only [State.ite_kept, ite_self, State.scanRefused_kept]

@[simp] theorem State.learnHops_kept (s : State) (str n flags : Nat) : (State.learnHops s str n flags).kept = s.kept := by
  unfold State.learnHops
  (repeat' (first | with_reducible rfl | (simp (disch := first | assumption | (simp only [away]; omega) | simp only [onRing_away, ringEnabled_away, ringErr_away, ringCause_away, ringArmed_away, ringProd_away, ringCons_away]) only [State.ite_kept, ite_self, State.breakHop_kept, State.restoreHop_kept]; done) | split | apply foldl_kept_of | apply foldl_kept_snd_of | apply foldl_kept_fst_of | intro _ _ | simp (disch := first | assumption | (simp only [away]; omega) | simp only [onRing_away, ringEnabled_away, ringErr_away, ringCause_away, ringArmed_away, ringProd_away, ringCons_away]) only [State.ite_kept, ite_self, State.breakHop_kept, State.restoreHop_kept] | dsimp only))

@[simp] theorem State.rerouted_kept (s : State) (a : Nat) : (State.rerouted s a).kept = s.kept := by
  unfold State.rerouted
  simp (disch := first | assumption | (simp only [away]; omega) | simp only [onRing_away, ringEnabled_away, ringErr_away, ringCause_away, ringArmed_away, ringProd_away, ringCons_away]) only [State.ite_kept, ite_self, State.askRecut_kept, State.endReroute_kept, State.onNode_kept]

@[simp] theorem State.statusIn_kept (s : State) (str n e : Nat) (p : List (BitVec 8)) : (State.statusIn s str n e p).kept = s.kept := by
  unfold State.statusIn
  extract_lets a x silent d epoch t s1 s2 w s2' s2'' s3 s4 s5 s6
  have h1 : s1.kept = s.kept := by unfold s1; rw [State.set_kept _ _ _ (by simp only [away, Reg.HC_HEADa_TEMP_sense, Reg.NODEa_STATE_node_state, Reg.NODEa_STATE_state, Reg.TALLY_MAX_H]; omega), State.onNode_kept]
  clear_value s1
  have h2 : s2.kept = s.kept := by unfold s2; rw [State.set_kept _ _ _ (by simp only [away, Reg.HC_HEADa_TEMP_sense, Reg.NODEa_STATE_node_state, Reg.NODEa_STATE_state, Reg.TALLY_MAX_H]; omega), h1]
  clear_value s2
  have h2' : s2'.kept = s.kept := by unfold s2'; split <;> simp [h2]
  clear_value s2'
  have h2'' : s2''.kept = s.kept := by unfold s2''; split <;> simp [h2']
  clear_value s2''
  have h3 : s3.kept = s.kept := by unfold s3; rw [State.setI_kept _ _ _ (by simp only [away, Reg.HC_HEADa_TEMP_sense, Reg.NODEa_STATE_node_state, Reg.NODEa_STATE_state, Reg.TALLY_MAX_H]; omega), State.onModel_kept, h2'']
  clear_value s3
  have h4 : s4.kept = s.kept := by unfold s4; rw [State.learnHops_kept, h3]
  clear_value s4
  have h5 : s5.kept = s.kept := by unfold s5; split <;> simp [h4]
  clear_value s5
  have h6 : s6.kept = s.kept := by unfold s6; split <;> simp [h5]
  clear_value s6
  rw [State.checkHead_kept, h6]

@[simp] theorem State.ackIn_kept (s : State) (a tag result opcode : Nat) : (State.ackIn s a tag result opcode).kept = s.kept := by
  unfold State.ackIn
  (try dsimp only)
  (repeat' split) <;> simp (disch := first | assumption | (simp only [away, Reg.NODEa_STATE_state]; omega) | simp only [onRing_away, ringEnabled_away, ringErr_away, ringCause_away, ringArmed_away, ringProd_away, ringCons_away]) only [State.ite_kept, ite_self, State.goStep_kept, State.onNode_kept, State.scanRefused_kept, State.serve_kept, State.setMap_kept, State.stageMap_kept]

@[simp] theorem State.postNode_kept (s : State) (a code line count arg : Nat) : (State.postNode s a code line count arg).kept = s.kept := by
  unfold State.postNode
  simp (disch := first | assumption | (simp only [away]; omega) | simp only [onRing_away, ringEnabled_away, ringErr_away, ringCause_away, ringArmed_away, ringProd_away, ringCons_away]) only [State.ite_kept, ite_self, State.post_kept]

@[simp] theorem State.spitSkipped_kept (s : State) (a count : Nat) : (State.spitSkipped s a count).kept = s.kept := by
  unfold State.spitSkipped
  simp (disch := first | assumption | (simp only [away, Reg.HC_SPIT_SKIPS, Reg.HC_STATUS_spit_skipped]; omega) | simp only [onRing_away, ringEnabled_away, ringErr_away, ringCause_away, ringArmed_away, ringProd_away, ringCons_away]) only [State.ite_kept, ite_self, State.bump_kept, State.onModel_kept, State.onNode_kept, State.post_kept, State.raise_kept]

@[simp] theorem State.eventIn_kept (s : State) (str n : Nat) (p : List (BitVec 8)) : (State.eventIn s str n p).kept = s.kept := by
  unfold State.eventIn
  (try dsimp only)
  (repeat' split) <;> simp (disch := first | assumption | (simp only [away]; omega) | simp only [onRing_away, ringEnabled_away, ringErr_away, ringCause_away, ringArmed_away, ringProd_away, ringCons_away]) only [State.ite_kept, ite_self, State.ackIn_kept, State.breakHop_kept, State.onModel_kept, State.post_kept, State.postNode_kept, State.restoreHop_kept, State.shutHead_kept, State.spitSkipped_kept]

@[simp] theorem State.memreadIn_kept (s : State) (a : Nat) (p : List (BitVec 8)) : (State.memreadIn s a p).kept = s.kept := by
  unfold State.memreadIn
  simp (disch := first | assumption | (simp only [away, Reg.NODEa_STATE_state]; omega) | simp only [onRing_away, ringEnabled_away, ringErr_away, ringCause_away, ringArmed_away, ringProd_away, ringCons_away]) only [State.ite_kept, ite_self, State.checkMemory_kept, State.onNode_kept]

@[simp] theorem State.measureIn_kept (s : State) (a : Nat) (p : List (BitVec 8)) : (State.measureIn s a p).kept = s.kept := by
  unfold State.measureIn
  simp (disch := first | assumption | (simp only [away]; omega) | simp only [onRing_away, ringEnabled_away, ringErr_away, ringCause_away, ringArmed_away, ringProd_away, ringCons_away]) only [State.ite_kept, ite_self, State.measured_kept]

@[simp] theorem State.receive_kept (s : State) (str e lane : Nat) (p : List (BitVec 8)) : (State.receive s str e lane p).kept = s.kept := by
  unfold State.receive
  (try dsimp only)
  (repeat' split) <;> simp (disch := first | assumption | (simp only [away, Reg.LINKs_ERRCNT_crc_errors, Reg.LINKs_ERRCNT_passthrough, Reg.LINKs_STATUS_miswire]; omega) | simp only [onRing_away, ringEnabled_away, ringErr_away, ringCause_away, ringArmed_away, ringProd_away, ringCons_away]) only [State.ite_kept, ite_self, State.bump_kept, State.eventIn_kept, State.measureIn_kept, State.memreadIn_kept, State.post_kept, State.raise_kept, State.statusIn_kept, State.syncResponse_kept, State.wakeReroute_kept]

@[simp] theorem State.relaid_kept (s : State) (p : List (BitVec 8)) : (State.relaid s p).2.kept = s.kept := by
  unfold State.relaid
  (try dsimp only)
  (repeat' split) <;> simp (disch := first | assumption | (simp only [away]; omega) | simp only [onRing_away, ringEnabled_away, ringErr_away, ringCause_away, ringArmed_away, ringProd_away, ringCons_away]) only [State.ite_kept, ite_self, State.drawNat_kept]

@[simp] theorem State.relayUp_kept (s : State) (str : Nat) (p : List (BitVec 8)) : (State.relayUp s str p).kept = s.kept := by
  unfold State.relayUp
  (try dsimp only)
  (repeat' split) <;> simp (disch := first | assumption | (simp only [away]; omega) | simp only [onRing_away, ringEnabled_away, ringErr_away, ringCause_away, ringArmed_away, ringProd_away, ringCons_away]) only [State.ite_kept, ite_self, State.relaid_kept, State.sendPacket_kept]

@[simp] theorem State.laneReceive_kept (s : State) (lane : Nat) (p : List (BitVec 8)) : (State.laneReceive s lane p).kept = s.kept := by
  unfold State.laneReceive
  simp (disch := first | assumption | (simp only [away]; omega) | simp only [onRing_away, ringEnabled_away, ringErr_away, ringCause_away, ringArmed_away, ringProd_away, ringCons_away]) only [State.ite_kept, ite_self, State.receive_kept, State.relayUp_kept]

end Sys2Proof.Machine
end

