-- ==== Sys2Proof/Laws/KeptOpRun.lean ====
section
/-! SUPPORT. The operations of Machine/OpRun.lean leave the kept words alone. -/

set_option linter.all false

namespace Sys2Proof.Machine

theorem State.runOp_kept (s : State) (r : OpRef) (opcode : Nat) (used : List (Nat × Nat)) (eff : Bool) (bad : Flight → Bool)
    (always : Flight → List (Nat × List (BitVec 8))) (tally : Bool) (body : Flight → State → State)
    (h : ∀ f t, (body f t).kept = t.kept) : (State.runOp s r opcode used eff bad always tally body).kept = s.kept := by
  unfold State.runOp
  split
  · rfl
  · split
    · rfl
    · dsimp only
      split
      · simp
      · split
        · simp
        · rw [h]; simp

@[simp] theorem State.finish_kept (s : State) (f : Flight) (status : Nat) (result : List (Nat × List (BitVec 8))) : (State.finish s f status result).kept = s.kept := by
  unfold State.finish
  simp (disch := first | assumption | (simp only [away]; omega) | simp only [onRing_away, ringEnabled_away, ringErr_away, ringCause_away, ringArmed_away, ringProd_away, ringCons_away]) only [State.ite_kept, ite_self, State.endOp_kept]

@[simp] theorem State.hasRead_kept (s : State) (f : Flight) : (State.hasRead s f).kept = s.kept := by
  unfold State.hasRead
  (try dsimp only)
  (repeat' split) <;> simp (disch := first | assumption | (simp only [away]; omega) | simp only [onRing_away, ringEnabled_away, ringErr_away, ringCause_away, ringArmed_away, ringProd_away, ringCons_away]) only [State.ite_kept, ite_self, State.setFlight_kept]

end Sys2Proof.Machine
end

