-- ==== Sys2Proof/Laws/KeptCare.lean ====
section
/-! SUPPORT. The operations of Machine/Care.lean leave the kept words alone. -/

set_option linter.all false

namespace Sys2Proof.Machine

@[simp] theorem State.spitTime_kept (s : State) (ahead : Nat) : (State.spitTime s ahead).2.kept = s.kept := by
  unfold State.spitTime
  simp (disch := first | assumption | (simp only [away]; omega) | simp only [onRing_away, ringEnabled_away, ringErr_away, ringCause_away, ringArmed_away, ringProd_away, ringCons_away]) only [State.ite_kept, ite_self, State.drawNat_kept]

@[simp] theorem State.spit_kept (s : State) (a t period rows level first last reps : Nat) : (State.spit s a t period rows level first last reps).kept = s.kept := by
  unfold State.spit
  simp (disch := first | assumption | (simp only [away]; omega) | simp only [onRing_away, ringEnabled_away, ringErr_away, ringCause_away, ringArmed_away, ringProd_away, ringCons_away]) only [State.ite_kept, ite_self, State.onModel_kept, State.onNode_kept, State.sendSpit_kept]

@[simp] theorem State.gateAccept_kept (s : State) (q : Nat) (level : Bool) (stamp at_ : Nat) : (State.gateAccept s q level stamp at_).kept = s.kept := by
  unfold State.gateAccept
  (try dsimp only)
  (repeat' split) <;> simp (disch := first | assumption | (simp only [away, Reg.DGq_CFG_polarity, Reg.DGq_STATUS_level, Reg.DGq_STATUS_unassigned, Reg.DGq_WINDOW_tof_min]; omega) | simp only [onRing_away, ringEnabled_away, ringErr_away, ringCause_away, ringArmed_away, ringProd_away, ringCons_away]) only [State.ite_kept, ite_self, State.bump_kept, State.modCare_kept, State.set_kept, State.setGate_kept, State.setOn_kept]

@[simp] theorem State.gateSettle_kept (s : State) (q : Nat) : (State.gateSettle s q).kept = s.kept := by
  unfold State.gateSettle
  simp (disch := first | assumption | (simp only [away, Reg.DGq_CFG_enable, Reg.DGq_CFG_filter_n, Reg.DGq_STATUS_level]; omega) | simp only [onRing_away, ringEnabled_away, ringErr_away, ringCause_away, ringArmed_away, ringProd_away, ringCons_away]) only [State.ite_kept, ite_self, State.gateAccept_kept]

@[simp] theorem State.gateCfg_kept (s : State) (q : Nat) (v : BitVec 32) : (State.gateCfg s q v).kept = s.kept := by
  unfold State.gateCfg
  simp (disch := first | assumption | (simp only [away, Reg.DGq_CFG_enable]; omega) | simp only [onRing_away, ringEnabled_away, ringErr_away, ringCause_away, ringArmed_away, ringProd_away, ringCons_away]) only [State.ite_kept, ite_self, State.gateSettle_kept, State.modCare_kept, State.set_kept, State.writeWord_kept]

@[simp] theorem State.sendGroup_kept (s : State) (g : GateOp) (a row c0 : Nat) : (State.sendGroup s g a row c0).kept = s.kept := by
  unfold State.sendGroup
  simp (disch := first | assumption | (simp only [away, Reg.DGq_WINDOW_tof_min]; omega) | simp only [onRing_away, ringEnabled_away, ringErr_away, ringCause_away, ringArmed_away, ringProd_away, ringCons_away]) only [State.ite_kept, ite_self, State.setGate_kept, State.spit_kept, State.spitTime_kept]

@[simp] theorem State.gateHeadDone_kept (s : State) (g : GateOp) (a : Nat) : (State.gateHeadDone s g a).2.kept = s.kept := by
  unfold State.gateHeadDone
  simp (disch := first | assumption | (simp only [away]; omega) | simp only [onRing_away, ringEnabled_away, ringErr_away, ringCause_away, ringArmed_away, ringProd_away, ringCons_away]) only [State.ite_kept, ite_self, State.post_kept]

@[simp] theorem State.endGate_kept (s : State) (g : GateOp) (blocked : Bool) : (State.endGate s g blocked).kept = s.kept := by
  unfold State.endGate
  (try dsimp only)
  (repeat' split) <;> simp (disch := first | assumption | (simp only [away, Reg.DGq_STATUS_busy]; omega) | simp only [onRing_away, ringEnabled_away, ringErr_away, ringCause_away, ringArmed_away, ringProd_away, ringCons_away]) only [State.ite_kept, ite_self, State.careNext_kept, State.clear_kept, State.endOp_kept, State.modCare_kept]

@[simp] theorem State.gateNext_kept (s : State) (g : GateOp) (from_ : Nat) (x0 : Nat) : (State.gateNext s g from_ x0).kept = s.kept := by
  induction x0 generalizing s g from_ with
  | zero => rfl
  | succ n ih =>
    unfold State.gateNext
    split
    · simp
    · dsimp only
      split
      · simp
      · split
        · rw [ih]
        · split
          · split
            · rw [ih]; simp
            · simp
          · simp

@[simp] theorem State.gateFinding_kept (s : State) (g : GateOp) (a row c find : Nat) : (State.gateFinding s g a row c find).2.kept = s.kept := by
  unfold State.gateFinding
  (try dsimp only)
  (repeat' split) <;> simp (disch := first | assumption | (simp only [away]; omega) | simp only [onRing_away, ringEnabled_away, ringErr_away, ringCause_away, ringArmed_away, ringProd_away, ringCons_away]) only [State.ite_kept, ite_self, State.onNoz_kept]

@[simp] theorem State.settleColumn_kept (s : State) (g : GateOp) (a row c : Nat) : (State.settleColumn s g a row c).2.kept = s.kept := by
  unfold State.settleColumn
  (try dsimp only)
  (repeat' split) <;> simp (disch := first | assumption | (simp only [away, Reg.DGq_WINDOW_tof_slow, Reg.HC_CFG_gate_retries]; omega) | simp only [onRing_away, ringEnabled_away, ringErr_away, ringCause_away, ringArmed_away, ringProd_away, ringCons_away]) only [State.ite_kept, ite_self, State.gateFinding_kept]

@[simp] theorem State.chipCheck_kept (s : State) : (State.chipCheck s).kept = s.kept := by
  unfold State.chipCheck
  (repeat' (first | with_reducible rfl | (simp (disch := first | assumption | (simp only [away, Reg.HC_CHIP_MAX_node, Reg.HC_CHIP_MAX_t_c, Reg.HC_CHIP_TEMPi_model]; omega) | simp only [onRing_away, ringEnabled_away, ringErr_away, ringCause_away, ringArmed_away, ringProd_away, ringCons_away]) only [State.ite_kept, ite_self, State.chipShutdown_kept, State.set_kept, State.setI_kept]; done) | split | apply foldl_kept_of | apply foldl_kept_snd_of | apply foldl_kept_fst_of | intro _ _ | simp (disch := first | assumption | (simp only [away, Reg.HC_CHIP_MAX_node, Reg.HC_CHIP_MAX_t_c, Reg.HC_CHIP_TEMPi_model]; omega) | simp only [onRing_away, ringEnabled_away, ringErr_away, ringCause_away, ringArmed_away, ringProd_away, ringCons_away]) only [State.ite_kept, ite_self, State.chipShutdown_kept, State.set_kept, State.setI_kept] | dsimp only))

@[simp] theorem State.startChip_kept (s : State) (sensors : List Int) : (State.startChip s sensors).kept = s.kept := by
  unfold State.startChip
  rw [State.modCare_kept]
  exact foldl_kept _ (fun s i => State.setI_kept _ _ _ (by simp only [away, Reg.HC_CHIP_TEMPi_sensor]; omega)) _ _

@[simp] theorem State.throttleHead_kept (s : State) (a : Nat) : (State.throttleHead s a).kept = s.kept := by
  unfold State.throttleHead
  (try dsimp only)
  (repeat' split) <;> simp (disch := first | assumption | (simp only [away, Reg.HC_HEADa_STATE_limit, Reg.HC_STATUS_head_throttle, Reg.HC_THERMAL_CFG_head_margin]; omega) | simp only [onRing_away, ringEnabled_away, ringErr_away, ringCause_away, ringArmed_away, ringProd_away, ringCons_away]) only [State.ite_kept, ite_self, State.modSched_kept, State.onModel_kept, State.post_kept, State.raise_kept, State.set_kept]

end Sys2Proof.Machine
end

