-- ==== Sys2Proof/Laws/KeptFailover.lean ====
section
/-! SUPPORT. The operations of Machine/Failover.lean leave the kept words alone. -/

set_option linter.all false

namespace Sys2Proof.Machine

@[simp] theorem State.endHandover_kept (s : State) (status : Nat) : (State.endHandover s status).kept = s.kept := by
  unfold State.endHandover
  (try dsimp only)
  (repeat' split) <;> simp (disch := first | assumption | (simp only [away]; omega) | simp only [onRing_away, ringEnabled_away, ringErr_away, ringCause_away, ringArmed_away, ringProd_away, ringCons_away]) only [State.ite_kept, ite_self, State.endOp_kept, State.endOps_kept, State.modTally_kept]

@[simp] theorem State.becomeStandby_kept (s : State) : (State.becomeStandby s).kept = s.kept := by
  unfold State.becomeStandby
  simp (disch := first | assumption | (simp only [away, Reg.TALLY_STATUS_role]; omega) | simp only [onRing_away, ringEnabled_away, ringErr_away, ringCause_away, ringArmed_away, ringProd_away, ringCons_away]) only [State.ite_kept, ite_self, State.enter_kept, State.modTally_kept, State.set_kept]

@[simp] theorem State.filterDelta_kept (s : State) (x : Int) : (State.filterDelta s x).kept = s.kept := by
  unfold State.filterDelta
  (try dsimp only)
  (repeat' split) <;> simp (disch := first | assumption | (simp only [away, Reg.PAIR_POS_DELTA_HI, Reg.PAIR_POS_DELTA_LO]; omega) | simp only [onRing_away, ringEnabled_away, ringErr_away, ringCause_away, ringArmed_away, ringProd_away, ringCons_away]) only [State.ite_kept, ite_self, State.drawInt_kept, State.modTally_kept, State.setI2_kept]

@[simp] theorem State.takeSample_kept (s : State) (m : List (BitVec 8)) : (State.takeSample s m).kept = s.kept := by
  unfold State.takeSample
  simp (disch := first | assumption | (simp only [away, Reg.OBS_STATUS_pos_valid]; omega) | simp only [onRing_away, ringEnabled_away, ringErr_away, ringCause_away, ringArmed_away, ringProd_away, ringCons_away]) only [State.ite_kept, ite_self, State.filterDelta_kept]

@[simp] theorem State.notePeer_kept (s : State) (m : List (BitVec 8)) : (State.notePeer s m).kept = s.kept := by
  unfold State.notePeer
  simp (disch := first | assumption | (simp only [away]; omega) | simp only [onRing_away, ringEnabled_away, ringErr_away, ringCause_away, ringArmed_away, ringProd_away, ringCons_away]) only [State.ite_kept, ite_self, State.modTally_kept]

@[simp] theorem State.renewIn_kept (s : State) (m : List (BitVec 8)) : (State.renewIn s m).kept = s.kept := by
  unfold State.renewIn
  simp (disch := first | assumption | (simp only [away, Reg.TALLY_STATUS_mirror_current, Reg.TALLY_STATUS_warming]; omega) | simp only [onRing_away, ringEnabled_away, ringErr_away, ringCause_away, ringArmed_away, ringProd_away, ringCons_away]) only [State.ite_kept, ite_self, State.becomeStandby_kept, State.beginWarm_kept, State.endHandover_kept, State.endWarm_kept, State.modTally_kept, State.refresh_kept, State.setOn_kept]

@[simp] theorem State.healthIn_kept (s : State) (m : List (BitVec 8)) : (State.healthIn s m).kept = s.kept := by
  unfold State.healthIn
  simp (disch := first | assumption | (simp only [away, Reg.PAIR_CFG_end, Reg.TALLY_STATUS_peer_fit]; omega) | simp only [onRing_away, ringEnabled_away, ringErr_away, ringCause_away, ringArmed_away, ringProd_away, ringCons_away]) only [State.ite_kept, ite_self, State.endHandover_kept, State.fence_kept, State.modTally_kept, State.post_kept, State.sendLease_kept, State.setOn_kept, State.takeTally_kept]

@[simp] theorem State.arbIn_kept (s : State) (k : Nat) (m : List (BitVec 8)) : (State.arbIn s k m).kept = s.kept := by
  unfold State.arbIn
  simp (disch := first | assumption | (simp only [away]; omega) | simp only [onRing_away, ringEnabled_away, ringErr_away, ringCause_away, ringArmed_away, ringProd_away, ringCons_away]) only [State.ite_kept, ite_self, State.modTally_kept, State.set_kept]

@[simp] theorem State.noteSeq_kept (s : State) (m : List (BitVec 8)) : (State.noteSeq s m).kept = s.kept := by
  unfold State.noteSeq
  simp (disch := first | assumption | (simp only [away]; omega) | simp only [onRing_away, ringEnabled_away, ringErr_away, ringCause_away, ringArmed_away, ringProd_away, ringCons_away]) only [State.ite_kept, ite_self, State.modTally_kept]

@[simp] theorem State.sendGrant_kept (s : State) (k holder epoch : Nat) : (State.sendGrant s k holder epoch).kept = s.kept := by
  unfold State.sendGrant
  simp (disch := first | assumption | (simp only [away, Reg.TALLY_MAX_H, Reg.WCP_CFG_publisher_id]; omega) | simp only [onRing_away, ringEnabled_away, ringErr_away, ringCause_away, ringArmed_away, ringProd_away, ringCons_away]) only [State.ite_kept, ite_self, State.sendLeaseBytes_kept]

@[simp] theorem State.sendMirror_kept (s : State) : (State.sendMirror s).2.kept = s.kept := by
  unfold State.sendMirror
  (try dsimp only)
  (repeat' split) <;> simp (disch := first | assumption | (simp only [away]; omega) | simp only [onRing_away, ringEnabled_away, ringErr_away, ringCause_away, ringArmed_away, ringProd_away, ringCons_away]) only [State.ite_kept, ite_self, State.drawBytes_kept, State.modTally_kept, State.sendPacket_kept]

@[simp] theorem State.showLag_kept (s : State) : (State.showLag s).kept = s.kept := by
  unfold State.showLag
  simp (disch := first | assumption | (simp only [away, Reg.MIRROR_LAG, Reg.PAIR_CFG_mirror_store]; omega) | simp only [onRing_away, ringEnabled_away, ringErr_away, ringCause_away, ringArmed_away, ringProd_away, ringCons_away]) only [State.ite_kept, ite_self, State.set_kept]

@[simp] theorem State.settleMirror_kept (s : State) : (State.settleMirror s).kept = s.kept := by
  unfold State.settleMirror
  simp (disch := first | assumption | (simp only [away, Reg.TALLY_STATUS_mirror_current]; omega) | simp only [onRing_away, ringEnabled_away, ringErr_away, ringCause_away, ringArmed_away, ringProd_away, ringCons_away]) only [State.ite_kept, ite_self, State.refresh_kept, State.setOn_kept]

@[simp] theorem State.mirrorAck_kept (s : State) (n : Nat) : (State.mirrorAck s n).kept = s.kept := by
  unfold State.mirrorAck
  (try dsimp only)
  (repeat' split) <;> simp (disch := first | assumption | (simp only [away]; omega) | simp only [onRing_away, ringEnabled_away, ringErr_away, ringCause_away, ringArmed_away, ringProd_away, ringCons_away]) only [State.ite_kept, ite_self, State.endOp_kept, State.modStore_kept, State.modTally_kept, State.settleMirror_kept, State.showLag_kept]

@[simp] theorem State.applyStream_kept (s : State) (t : MirrorStream) : (State.applyStream s t).kept = s.kept := by
  unfold State.applyStream
  (try dsimp only)
  (repeat' split) <;> simp (disch := first | assumption | (simp only [away, Reg.LS_COMMIT_LINE_HI, Reg.LS_COMMIT_LINE_LO, Reg.LS_LEAD_lead_in_force, Reg.LS_ORIGIN_HI, Reg.LS_ORIGIN_LO, Reg.LS_STATUS_draining, Reg.LS_STATUS_origin_set]; omega) | simp only [onRing_away, ringEnabled_away, ringErr_away, ringCause_away, ringArmed_away, ringProd_away, ringCons_away]) only [State.ite_kept, ite_self, State.clear_kept, State.modObs_kept, State.modSched_kept, State.raise_kept, State.set_kept, State.set2_kept, State.setI2_kept, State.setOn_kept, State.showParting_kept]

@[simp] theorem State.applyBlock_kept (s : State) (handle slot kind height width rawLen payLen : Nat) (cipher : List (BitVec 8)) : (State.applyBlock s handle slot kind height width rawLen payLen cipher).2.kept = s.kept := by
  unfold State.applyBlock
  (repeat' (first | with_reducible rfl | (simp (disch := first | assumption | (simp only [away]; omega) | simp only [onRing_away, ringEnabled_away, ringErr_away, ringCause_away, ringArmed_away, ringProd_away, ringCons_away]) only [State.ite_kept, ite_self, State.allocPages_kept, State.countStore_kept, State.modStore_kept, State.writePage_kept]; done) | split | apply foldl_kept_of | apply foldl_kept_snd_of | apply foldl_kept_fst_of | intro _ _ | simp (disch := first | assumption | (simp only [away]; omega) | simp only [onRing_away, ringEnabled_away, ringErr_away, ringCause_away, ringArmed_away, ringProd_away, ringCons_away]) only [State.ite_kept, ite_self, State.allocPages_kept, State.countStore_kept, State.modStore_kept, State.writePage_kept] | dsimp only))

@[simp] theorem State.applyBank_kept (s : State) (kind index sub start : Nat) (data : List (BitVec 8)) : (State.applyBank s kind index sub start data).kept = s.kept := by
  unfold State.applyBank
  simp (disch := first | assumption | (simp only [away]; omega) | simp only [onRing_away, ringEnabled_away, ringErr_away, ringCause_away, ringArmed_away, ringProd_away, ringCons_away]) only [State.ite_kept, ite_self, State.modTally_kept, State.setBanks_kept]

@[simp] theorem State.applyItem_kept (s : State) (item : MirrorItem) : (State.applyItem s item).2.kept = s.kept := by
  unfold State.applyItem
  (try dsimp only)
  (repeat' split) <;> simp (disch := first | assumption | (simp only [away]; omega) | simp only [onRing_away, ringEnabled_away, ringErr_away, ringCause_away, ringArmed_away, ringProd_away, ringCons_away]) only [State.ite_kept, ite_self, State.applyBank_kept, State.applyBlock_kept, State.applyStream_kept, State.countStore_kept, State.modSched_kept, State.modStore_kept, State.onNoz_kept, State.onPlane_kept]

@[simp] theorem State.releaseIngests_kept (s : State) : (State.releaseIngests s).kept = s.kept := by
  unfold State.releaseIngests
  (repeat' (first | with_reducible rfl | (simp (disch := first | assumption | (simp only [away]; omega) | simp only [onRing_away, ringEnabled_away, ringErr_away, ringCause_away, ringArmed_away, ringProd_away, ringCons_away]) only [State.ite_kept, ite_self, State.endOp_kept, State.modStore_kept]; done) | split | apply foldl_kept_of | apply foldl_kept_snd_of | apply foldl_kept_fst_of | intro _ _ | simp (disch := first | assumption | (simp only [away]; omega) | simp only [onRing_away, ringEnabled_away, ringErr_away, ringCause_away, ringArmed_away, ringProd_away, ringCons_away]) only [State.ite_kept, ite_self, State.endOp_kept, State.modStore_kept] | dsimp only))

@[simp] theorem State.pairReceive_kept (s : State) (lane : Nat) (data : List (BitVec 8)) : (State.pairReceive s lane data).kept = s.kept := by
  unfold State.pairReceive
  simp (disch := first | assumption | (simp only [away, Reg.PAIR_CFG_end]; omega) | simp only [onRing_away, ringEnabled_away, ringErr_away, ringCause_away, ringArmed_away, ringProd_away, ringCons_away]) only [State.ite_kept, ite_self, State.modTally_kept, State.receive_kept, State.relaid_kept, State.sendPacket_kept, State.showRelays_kept]

end Sys2Proof.Machine
end

