-- ==== Sys2Proof/Laws/KeptRx.lean ====
section
/-! SUPPORT. The operations of Machine/Rx.lean leave the kept words alone. -/

set_option linter.all false

namespace Sys2Proof.Machine

@[simp] theorem State.orderedIn_kept (s : State) (n p : Nat) (converged : Bool) : (State.orderedIn s n p converged).kept = s.kept := by
  unfold State.orderedIn
  simp (disch := first | assumption | (simp only [away]; omega) | simp only [onRing_away, ringEnabled_away, ringErr_away, ringCause_away, ringArmed_away, ringProd_away, ringCons_away]) only [State.ite_kept, ite_self, State.laneGoesDown_kept, State.noticeIn_kept, State.onLane_kept, State.trainingIn_kept]

@[simp] theorem State.rxItem_kept (s : State) (n : Nat) (converged : Bool) (it : RxItem) : (State.rxItem s n converged it).kept = s.kept := by
  unfold State.rxItem
  (try dsimp only)
  (repeat' split) <;> simp (disch := first | assumption | (simp only [away, Reg.LANEn_STATUS_block_lock, Reg.LINKs_ERRCNT_crc_errors]; omega) | simp only [onRing_away, ringEnabled_away, ringErr_away, ringCause_away, ringArmed_away, ringProd_away, ringCons_away]) only [State.ite_kept, ite_self, State.badHeader_kept, State.bump_kept, State.laneReceive_kept, State.lockIn_kept, State.lockOut_kept, State.onLane_kept, State.orderedIn_kept, State.pairReceive_kept]

@[simp] theorem State.laneIn_kept (s : State) (n : Nat) (rx : LaneRx) (converged : Bool) : (State.laneIn s n rx converged).kept = s.kept := by
  unfold State.laneIn
  (repeat' (first | with_reducible rfl | (simp (disch := first | assumption | (simp only [away, Reg.LANEn_STATUS_signal]; omega) | simp only [onRing_away, ringEnabled_away, ringErr_away, ringCause_away, ringArmed_away, ringProd_away, ringCons_away]) only [State.ite_kept, ite_self, State.onLane_kept, State.raise_kept, State.rxItem_kept]; done) | split | apply foldl_kept_of | apply foldl_kept_snd_of | apply foldl_kept_fst_of | intro _ _ | simp (disch := first | assumption | (simp only [away, Reg.LANEn_STATUS_signal]; omega) | simp only [onRing_away, ringEnabled_away, ringErr_away, ringCause_away, ringArmed_away, ringProd_away, ringCons_away]) only [State.ite_kept, ite_self, State.onLane_kept, State.raise_kept, State.rxItem_kept] | dsimp only))

end Sys2Proof.Machine
end

