-- ==== Sys2Proof/Laws/KeptTime.lean ====
section
/-! SUPPORT. The operations of Machine/Time.lean leave the kept words alone. -/

set_option linter.all false

namespace Sys2Proof.Machine

@[simp] theorem State.onPtp_kept (s : State) (d : Nat) (f : Ptp → Ptp) : (State.onPtp s d f).kept = s.kept := by
  unfold State.onPtp
  simp (disch := first | assumption | (simp only [away]; omega) | simp only [onRing_away, ringEnabled_away, ringErr_away, ringCause_away, ringArmed_away, ringProd_away, ringCons_away]) only [State.ite_kept, ite_self, State.modTime_kept]

@[simp] theorem State.showMaster_kept (s : State) (d : Nat) : (State.showMaster s d).kept = s.kept := by
  unfold State.showMaster
  simp (disch := first | assumption | (simp only [away, Reg.PTPd_GM_ID_HI, Reg.PTPd_GM_ID_LO]; omega) | simp only [onRing_away, ringEnabled_away, ringErr_away, ringCause_away, ringArmed_away, ringProd_away, ringCons_away]) only [State.ite_kept, ite_self, State.set2_kept]

@[simp] theorem State.shiftStamps_kept (s : State) (d : Int) : (State.shiftStamps s d).kept = s.kept := by
  unfold State.shiftStamps
  simp (disch := first | assumption | (simp only [away]; omega) | simp only [onRing_away, ringEnabled_away, ringErr_away, ringCause_away, ringArmed_away, ringProd_away, ringCons_away]) only [State.ite_kept, ite_self, State.modObs_kept, State.modSched_kept]

@[simp] theorem State.stepTb3_kept (s : State) : (State.stepTb3 s).kept = s.kept := by
  unfold State.stepTb3
  simp (disch := first | assumption | (simp only [away, Reg.TB_STATUS_stepped]; omega) | simp only [onRing_away, ringEnabled_away, ringErr_away, ringCause_away, ringArmed_away, ringProd_away, ringCons_away]) only [State.ite_kept, ite_self, State.cmpStepped_kept, State.post_kept, State.raise_kept, State.setTb_kept, State.shiftStamps_kept, State.stepOffsets_kept]

@[simp] theorem State.switchTb3_kept (s : State) (src : Nat) : (State.switchTb3 s src).kept = s.kept := by
  unfold State.switchTb3
  simp (disch := first | assumption | (simp only [away, Reg.TB_STATUS_src, Reg.TB_STATUS_switched]; omega) | simp only [onRing_away, ringEnabled_away, ringErr_away, ringCause_away, ringArmed_away, ringProd_away, ringCons_away]) only [State.ite_kept, ite_self, State.post_kept, State.raise_kept, State.set_kept]

@[simp] theorem State.autoSwitch_kept (s : State) : (State.autoSwitch s).kept = s.kept := by
  unfold State.autoSwitch
  (try dsimp only)
  (repeat' split) <;> simp (disch := first | assumption | (simp only [away, Reg.TB3_CFG_revert, Reg.TB3_CFG_select, Reg.TB_STATUS_src]; omega) | simp only [onRing_away, ringEnabled_away, ringErr_away, ringCause_away, ringArmed_away, ringProd_away, ringCons_away]) only [State.ite_kept, ite_self, State.switchTb3_kept]

@[simp] theorem State.compareDomains_kept (s : State) : (State.compareDomains s).kept = s.kept := by
  unfold State.compareDomains
  (repeat' (first | with_reducible rfl | (simp (disch := first | assumption | (simp only [away, Reg.PTPd_STATUS_eligible, Reg.TB_STATUS_disagree]; omega) | simp only [onRing_away, ringEnabled_away, ringErr_away, ringCause_away, ringArmed_away, ringProd_away, ringCons_away]) only [State.ite_kept, ite_self, State.clear_kept, State.modTime_kept, State.post_kept, State.raise_kept]; done) | split | apply foldl_kept_of | apply foldl_kept_snd_of | apply foldl_kept_fst_of | intro _ _ | simp (disch := first | assumption | (simp only [away, Reg.PTPd_STATUS_eligible, Reg.TB_STATUS_disagree]; omega) | simp only [onRing_away, ringEnabled_away, ringErr_away, ringCause_away, ringArmed_away, ringProd_away, ringCons_away]) only [State.ite_kept, ite_self, State.clear_kept, State.modTime_kept, State.post_kept, State.raise_kept] | dsimp only))

@[simp] theorem State.rateTb3_kept (s : State) : (State.rateTb3 s).kept = s.kept := by
  unfold State.rateTb3
  simp (disch := first | assumption | (simp only [away, Reg.TB3_CFG_slew_ppm, Reg.TB3_OFFSET, Reg.TB_STATUS_slewing, Reg.TB_STATUS_tb3_aligned]; omega) | simp only [onRing_away, ringEnabled_away, ringErr_away, ringCause_away, ringArmed_away, ringProd_away, ringCons_away]) only [State.ite_kept, ite_self, State.refresh_kept, State.setI_kept, State.setOn_kept, State.setRate_kept]

@[simp] theorem State.tbSnapshot_kept (s : State) : (State.tbSnapshot s).kept = s.kept := by
  unfold State.tbSnapshot
  (repeat' (first | with_reducible rfl | (simp (disch := first | assumption | (simp only [away, Reg.TBk_SNAP_FRAC_frac, Reg.TBk_SNAP_HI, Reg.TBk_SNAP_LO]; omega) | simp only [onRing_away, ringEnabled_away, ringErr_away, ringCause_away, ringArmed_away, ringProd_away, ringCons_away]) only [State.ite_kept, ite_self, State.set_kept, State.set2_kept]; done) | split | apply foldl_kept_of | apply foldl_kept_snd_of | apply foldl_kept_fst_of | intro _ _ | simp (disch := first | assumption | (simp only [away, Reg.TBk_SNAP_FRAC_frac, Reg.TBk_SNAP_HI, Reg.TBk_SNAP_LO]; omega) | simp only [onRing_away, ringEnabled_away, ringErr_away, ringCause_away, ringArmed_away, ringProd_away, ringCons_away]) only [State.ite_kept, ite_self, State.set_kept, State.set2_kept] | dsimp only))

@[simp] theorem State.askStep_kept (s : State) : (State.askStep s).kept = s.kept := by
  unfold State.askStep
  simp (disch := first | assumption | (simp only [away]; omega) | simp only [onRing_away, ringEnabled_away, ringErr_away, ringCause_away, ringArmed_away, ringProd_away, ringCons_away]) only [State.ite_kept, ite_self, State.stepTb3_kept]

@[simp] theorem State.selectWritten_kept (s : State) (old : Nat) : (State.selectWritten s old).kept = s.kept := by
  unfold State.selectWritten
  simp (disch := first | assumption | (simp only [away, Reg.TB3_CFG_select, Reg.TB_STATUS_src]; omega) | simp only [onRing_away, ringEnabled_away, ringErr_away, ringCause_away, ringArmed_away, ringProd_away, ringCons_away]) only [State.ite_kept, ite_self, State.modTime_kept, State.set_kept, State.switchTb3_kept]

@[simp] theorem State.ptpWritten_kept (s : State) (d : Nat) : (State.ptpWritten s d).kept = s.kept := by
  unfold State.ptpWritten
  simp (disch := first | assumption | (simp only [away, Reg.PTPd_RATE, Reg.PTPd_STATUS_state]; omega) | simp only [onRing_away, ringEnabled_away, ringErr_away, ringCause_away, ringArmed_away, ringProd_away, ringCons_away]) only [State.ite_kept, ite_self, State.autoSwitch_kept, State.onPtp_kept, State.set_kept, State.setRate_kept]

@[simp] theorem State.sourceReached_kept (s : State) (d : Nat) : (State.sourceReached s d).kept = s.kept := by
  unfold State.sourceReached
  simp (disch := first | assumption | (simp only [away]; omega) | simp only [onRing_away, ringEnabled_away, ringErr_away, ringCause_away, ringArmed_away, ringProd_away, ringCons_away]) only [State.ite_kept, ite_self, State.modTime_kept, State.stepTb3_kept]

@[simp] theorem State.servoRate_kept (s : State) (d : Nat) : (State.servoRate s d).kept = s.kept := by
  unfold State.servoRate
  simp (disch := first | assumption | (simp only [away, Reg.PTPd_RATE]; omega) | simp only [onRing_away, ringEnabled_away, ringErr_away, ringCause_away, ringArmed_away, ringProd_away, ringCons_away]) only [State.ite_kept, ite_self, State.drawInt_kept, State.setI_kept, State.setRate_kept]

@[simp] theorem State.servo_kept (s : State) (d : Nat) (t1 t2 : Int) (interval : Int) : (State.servo s d t1 t2 interval).kept = s.kept := by
  unfold State.servo
  simp (disch := first | assumption | (simp only [away, Reg.PTPd_OFFSET, Reg.PTPd_SERVO_lock_ns, Reg.PTPd_SERVO_step_us, Reg.PTPd_STATUS_state, Reg.PTPd_STATUS_stepped]; omega) | simp only [onRing_away, ringEnabled_away, ringErr_away, ringCause_away, ringArmed_away, ringProd_away, ringCons_away]) only [State.ite_kept, ite_self, State.autoSwitch_kept, State.compareDomains_kept, State.onPtp_kept, State.post_kept, State.raise_kept, State.servoRate_kept, State.set_kept, State.setI_kept, State.setTb_kept, State.sourceReached_kept]

@[simp] theorem State.setDelay_kept (s : State) (d : Nat) (v : Int) : (State.setDelay s d v).kept = s.kept := by
  unfold State.setDelay
  simp (disch := first | assumption | (simp only [away, Reg.PTPd_PATH_DELAY]; omega) | simp only [onRing_away, ringEnabled_away, ringErr_away, ringCause_away, ringArmed_away, ringProd_away, ringCons_away]) only [State.ite_kept, ite_self, State.onPtp_kept, State.set_kept]

@[simp] theorem State.sendPtp_kept (s : State) (d : Nat) (peer event : Bool) (m : List (BitVec 8)) : (State.sendPtp s d peer event m).kept = s.kept := by
  unfold State.sendPtp
  simp (disch := first | assumption | (simp only [away]; omega) | simp only [onRing_away, ringEnabled_away, ringErr_away, ringCause_away, ringArmed_away, ringProd_away, ringCons_away]) only [State.ite_kept, ite_self, State.sendNet_kept]

@[simp] theorem State.sendRequest_kept (s : State) (d type : Nat) (pad : Nat) : (State.sendRequest s d type pad).kept = s.kept := by
  unfold State.sendRequest
  simp (disch := first | assumption | (simp only [away]; omega) | simp only [onRing_away, ringEnabled_away, ringErr_away, ringCause_away, ringArmed_away, ringProd_away, ringCons_away]) only [State.ite_kept, ite_self, State.onPtp_kept, State.sendPtp_kept]

@[simp] theorem State.goStale_kept (s : State) (reason : Nat) : (State.goStale s reason).kept = s.kept := by
  unfold State.goStale
  simp (disch := first | assumption | (simp only [away, Reg.WCS_STATUS_reason, Reg.WCS_STATUS_stale, Reg.WCS_STATUS_stale_seen]; omega) | simp only [onRing_away, ringEnabled_away, ringErr_away, ringCause_away, ringArmed_away, ringProd_away, ringCons_away]) only [State.ite_kept, ite_self, State.modTime_kept, State.post_kept, State.raise_kept, State.set_kept, State.sources_kept, State.stopSource_kept]

@[simp] theorem State.remoteEdge_kept (s : State) (y : Int) (te : Nat) : (State.remoteEdge s y te).kept = s.kept := by
  unfold State.remoteEdge
  simp (disch := first | assumption | (simp only [away]; omega) | simp only [onRing_away, ringEnabled_away, ringErr_away, ringCause_away, ringArmed_away, ringProd_away, ringCons_away]) only [State.ite_kept, ite_self, State.startSource_kept, State.updateInst_kept, State.updated_kept]

@[simp] theorem State.wcAccept_kept (s : State) (m : List (BitVec 8)) (te : Nat) : (State.wcAccept s m te).kept = s.kept := by
  unfold State.wcAccept
  simp (disch := first | assumption | (simp only [away, Reg.WCS_STATUS_last_sequence, Reg.WCS_STATUS_reason, Reg.WCS_STATUS_stale]; omega) | simp only [onRing_away, ringEnabled_away, ringErr_away, ringCause_away, ringArmed_away, ringProd_away, ringCons_away]) only [State.ite_kept, ite_self, State.clear_kept, State.goStale_kept, State.modTime_kept, State.post_kept, State.remoteEdge_kept, State.set_kept]

@[simp] theorem State.wcReceive_kept (s : State) (m : List (BitVec 8)) : (State.wcReceive s m).kept = s.kept := by
  unfold State.wcReceive
  simp (disch := first | assumption | (simp only [away, Reg.WCS_CFG_max_age_us, Reg.WCS_ID_publisher_id, Reg.WCS_REJECT_AGE_age_reject, Reg.WCS_REJECT_crc_reject, Reg.WCS_REJECT_domain_reject, Reg.WCS_REJECT_id_reject, Reg.WCS_REJECT_seq_reject, Reg.WCS_STATUS_last_sequence]; omega) | simp only [onRing_away, ringEnabled_away, ringErr_away, ringCause_away, ringArmed_away, ringProd_away, ringCons_away]) only [State.ite_kept, ite_self, State.bump_kept, State.wcAccept_kept]

@[simp] theorem State.wcsWritten_kept (s : State) (was : Bool) : (State.wcsWritten s was).kept = s.kept := by
  unfold State.wcsWritten
  simp (disch := first | assumption | (simp only [away, Reg.WCS_CFG_enable]; omega) | simp only [onRing_away, ringEnabled_away, ringErr_away, ringCause_away, ringArmed_away, ringProd_away, ringCons_away]) only [State.ite_kept, ite_self, State.modTime_kept, State.sources_kept]

end Sys2Proof.Machine
end

