-- ==== Sys2Proof/Laws/KeptCeiling.lean ====
section
/-! SUPPORT. The operations of Machine/Ceiling.lean leave the kept words alone. -/

set_option linter.all false

namespace Sys2Proof.Machine

@[simp] theorem State.placedTo_kept (s : State) (line : Nat) (x0 : Nat) : (State.placedTo s line x0).kept = s.kept := by
  induction x0 generalizing s with
  | zero => rfl
  | succ n ih =>
    unfold State.placedTo
    split
    · split
      · rfl
      · rw [ih]; simp
    · rfl

@[simp] theorem State.showTerms_kept (s : State) (ts : List CeilTerm) : (State.showTerms s ts).kept = s.kept := by
  unfold State.showTerms
  (repeat' (first | with_reducible rfl | (simp (disch := first | assumption | (simp only [away, Reg.LS_CEIL_TERMi_term, Reg.LS_CEIL_TERMi_who]; omega) | simp only [onRing_away, ringEnabled_away, ringErr_away, ringCause_away, ringArmed_away, ringProd_away, ringCons_away]) only [State.ite_kept, ite_self, State.set_kept]; done) | split | apply foldl_kept_of | apply foldl_kept_snd_of | apply foldl_kept_fst_of | intro _ _ | simp (disch := first | assumption | (simp only [away, Reg.LS_CEIL_TERMi_term, Reg.LS_CEIL_TERMi_who]; omega) | simp only [onRing_away, ringEnabled_away, ringErr_away, ringCause_away, ringArmed_away, ringProd_away, ringCons_away]) only [State.ite_kept, ite_self, State.set_kept] | dsimp only))

@[simp] theorem State.sendCeiling_kept (s : State) : (State.sendCeiling s).kept = s.kept := by
  unfold State.sendCeiling
  simp (disch := first | assumption | (simp only [away, Reg.SCM_CFG_domain, Reg.SCM_CFG_enable]; omega) | simp only [onRing_away, ringEnabled_away, ringErr_away, ringCause_away, ringArmed_away, ringProd_away, ringCons_away]) only [State.ite_kept, ite_self, State.modTime_kept, State.sendWc_kept]

@[simp] theorem State.overCeiling_kept (s : State) : (State.overCeiling s).kept = s.kept := by
  unfold State.overCeiling
  simp (disch := first | assumption | (simp only [away, Reg.LS_CEILING_ceiling, Reg.LS_STATUS_over_ceiling]; omega) | simp only [onRing_away, ringEnabled_away, ringErr_away, ringCause_away, ringArmed_away, ringProd_away, ringCons_away]) only [State.ite_kept, ite_self, State.modSched_kept, State.post_kept, State.raise_kept]

@[simp] theorem State.recomputeCeiling_kept (s : State) : (State.recomputeCeiling s).kept = s.kept := by
  unfold State.recomputeCeiling
  simp (disch := first | assumption | (simp only [away, Reg.LS_CEILING_ceiling, Reg.LS_CEILING_code, Reg.LS_CEIL_DETAIL_detail]; omega) | simp only [onRing_away, ringEnabled_away, ringErr_away, ringCause_away, ringArmed_away, ringProd_away, ringCons_away]) only [State.ite_kept, ite_self, State.modSched_kept, State.overCeiling_kept, State.post_kept, State.sendCeiling_kept, State.set_kept, State.showTerms_kept]

end Sys2Proof.Machine
end

