-- ==== Sys2Proof/Laws/KeptHostRings.lean ====
section
/-! SUPPORT. The operations of Machine/HostRings.lean leave the kept words alone. -/

set_option linter.all false

namespace Sys2Proof.Machine

@[simp] theorem ringCfg_away (r : AnyRing) : away (ringCfg r) := by
  cases r
  · simp only [ringCfg, Reg.HR_ISQi_CFG_enable, away]; omega
  · exact onRing_away _ _

@[simp] theorem ringSizeField_away (r : AnyRing) : away (ringSizeField r).off := by
  cases r
  · simp only [ringSizeField, Reg.HR_ISQi_CFG_size_log2, away]; omega
  · exact onRing_away _ _

@[simp] theorem ringOn_away (r : AnyRing) : away (ringOn r).off := by
  cases r
  · simp only [ringOn, Reg.HR_ISQi_STATUS_enabled, away]; omega
  · exact onRing_away _ _

@[simp] theorem State.startRing_kept (s : State) (r : AnyRing) : (State.startRing s r).kept = s.kept := by
  unfold State.startRing
  extract_lets s1
  have h1 : s1.kept = s.kept := by rw [State.modRings_kept, State.raise_kept _ _ (by simp)]
  clear_value s1
  rw [← h1]
  split <;> simp (disch := first | assumption | (simp only [away, Reg.HR_ISQi_CONS, Reg.HR_ISQi_PROD]; omega) | simp)

@[simp] theorem State.writeRingCfg_kept (s : State) (r : AnyRing) (v : BitVec 32) : (State.writeRingCfg s r v).kept = s.kept := by
  unfold State.writeRingCfg
  extract_lets f was s1 s2 en
  have h1 : s1.kept = s.kept := State.writeWord_kept _ _ _ (by simp)
  clear_value s1
  have h2 : s2.kept = s.kept := by
    rw [← h1]; unfold s2; split <;> simp (disch := first | assumption | (simp only [away, Reg.HR_STATUS_cfg_ignored]; omega) | simp) [f]
  clear_value s2 en
  rw [← h2]
  (repeat' split) <;> simp (disch := first | assumption | (simp only [away, Reg.HR_STATUS_cfg_ignored]; omega) | simp)

@[simp] theorem State.badDoorbell_kept (s : State) : (State.badDoorbell s).kept = s.kept := by
  unfold State.badDoorbell
  simp (disch := first | assumption | (simp only [away, Reg.HR_DB_ERRORS]; omega) | simp only [onRing_away, ringEnabled_away, ringErr_away, ringCause_away, ringArmed_away, ringProd_away, ringCons_away]) only [State.ite_kept, ite_self, State.bump_kept]

@[simp] theorem State.issueDoorbell_kept (s : State) (i : Nat) (v : BitVec 64) : (State.issueDoorbell s i v).kept = s.kept := by
  unfold State.issueDoorbell
  simp (disch := first | assumption | (simp only [away, Reg.HR_ISQi_CONS, Reg.HR_ISQi_PROD, Reg.HR_ISQi_STATUS_cause, Reg.HR_ISQi_STATUS_enabled, Reg.HR_ISQi_STATUS_error]; omega) | simp only [onRing_away, ringEnabled_away, ringErr_away, ringCause_away, ringArmed_away, ringProd_away, ringCons_away]) only [State.ite_kept, ite_self, State.badDoorbell_kept, State.set_kept, State.stopRing_kept]

@[simp] theorem State.consumerDoorbell_kept (s : State) (k : Nat) (v : BitVec 64) : (State.consumerDoorbell s k v).kept = s.kept := by
  unfold State.consumerDoorbell
  extract_lets new moved stop left s1
  have h1 : s1.kept = s.kept := by simp [s1]
  clear_value s1 left
  split
  · simp
  · split
    · exact s.stopRing_kept _ _ _ _ (by simp) (by simp)
    · split
      · exact s.stopRing_kept _ _ _ _ (by simp) (by simp)
      · split
        · simp [h1]
        · exact h1

theorem State.chooseIssue_kept (s : State) (x : Nat × State) (h : State.chooseIssue s = some x) : x.2.kept = s.kept := by
  unfold State.chooseIssue at h
  repeat' split at h
  all_goals first | (injection h with h; subst h; simp) | simp at h

@[simp] theorem State.writeBack_kept (s : State) (i : Nat) (ok : Bool) : (State.writeBack s i ok).kept = s.kept := by
  unfold State.writeBack
  simp (disch := first | assumption | (simp only [away, Reg.HR_ISQi_CONS, Reg.HR_ISQi_PROD, Reg.HR_ISQi_STATUS_cause, Reg.HR_ISQi_STATUS_error, Reg.HR_ISQi_WB_HI_wb, Reg.HR_ISQi_WB_LO_wb]; omega) | simp only [onRing_away, ringEnabled_away, ringErr_away, ringCause_away, ringArmed_away, ringProd_away, ringCons_away]) only [State.ite_kept, ite_self, State.emit_kept, State.modRings_kept, State.set_kept, State.stopRing_kept]

@[simp] theorem State.fetched_kept (s : State) (i : Nat) (desc : List (BitVec 8)) : (State.fetched s i desc).kept = s.kept := by
  unfold State.fetched
  simp (disch := first | assumption | (simp only [away, Reg.HR_INFLIGHT, Reg.HR_ISQi_CFG_cq, Reg.HR_ISQi_CONS]; omega) | simp only [onRing_away, ringEnabled_away, ringErr_away, ringCause_away, ringArmed_away, ringProd_away, ringCons_away]) only [State.ite_kept, ite_self, State.endOp_kept, State.modRings_kept, State.set_kept]

@[simp] theorem State.loseCompletion_kept (s : State) : (State.loseCompletion s).kept = s.kept := by
  unfold State.loseCompletion
  simp (disch := first | assumption | (simp only [away, Reg.HR_CPL_LOST, Reg.HR_STATUS_cpl_lost]; omega) | simp only [onRing_away, ringEnabled_away, ringErr_away, ringCause_away, ringArmed_away, ringProd_away, ringCons_away]) only [State.ite_kept, ite_self, State.bump_kept, State.raise_kept]

@[simp] theorem State.writeStat_kept (s : State) (rec : List (BitVec 8)) (ok : Bool) : (State.writeStat s rec ok).kept = s.kept := by
  unfold State.writeStat
  extract_lets size p s1 wb
  split
  · simp (disch := first | assumption | (simp only [away, Reg.HR_STATUS_stat_dropped, Reg.HR_STAT_DROPPED, Reg.HR_STAT_WB_HI_wb, Reg.HR_STAT_WB_LO_wb]; omega) | simp)
  · split
    · exact s.stopRing_kept _ _ _ _ (by simp) (by simp)
    · simp [s1]

end Sys2Proof.Machine
end

