-- ==== Sys2Proof/Laws/KeptMemory.lean ====
section
/-! SUPPORT. The operations of Machine/Memory.lean leave the kept words alone. -/

set_option linter.all false

namespace Sys2Proof.Machine

@[simp] theorem State.memPosted_kept (s : State) (key : Nat) : (State.memPosted s key).kept = s.kept := by
  unfold State.memPosted
  simp (disch := first | assumption | (simp only [away]; omega) | simp only [onRing_away, ringEnabled_away, ringErr_away, ringCause_away, ringArmed_away, ringProd_away, ringCons_away]) only [State.ite_kept, ite_self, State.modMem_kept]

@[simp] theorem State.logError_kept (s : State) (dram : Bool) (type source position location : Nat) : (State.logError s dram type source position location).kept = s.kept := by
  unfold State.logError
  (try dsimp only)
  (repeat' split) <;> simp (disch := first | assumption | (simp only [away, Reg.MEM_DTT_STATUS_entries, Reg.MEM_DTT_STATUS_overflow, Reg.MEM_STT_STATUS_entries, Reg.MEM_STT_STATUS_overflow]; omega) | simp only [onRing_away, ringEnabled_away, ringErr_away, ringCause_away, ringArmed_away, ringProd_away, ringCons_away]) only [State.ite_kept, ite_self, State.memPosted_kept, State.modMem_kept, State.post_kept, State.raise_kept, State.set_kept]

@[simp] theorem State.decodeErrors_kept (s : State) (errs : List Nat) (real : Nat → Bool) (sure : Nat) : (State.decodeErrors s errs real sure).2.kept = s.kept := by
  unfold State.decodeErrors
  (try dsimp only)
  (repeat' split) <;> simp (disch := first | assumption | (simp only [away]; omega) | simp only [onRing_away, ringEnabled_away, ringErr_away, ringCause_away, ringArmed_away, ringProd_away, ringCons_away]) only [State.ite_kept, ite_self, State.drawNat_kept]

@[simp] theorem State.decodePoisoned_kept (s : State) (n : Nat) : (State.decodePoisoned s n).2.kept = s.kept := by
  unfold State.decodePoisoned
  (try dsimp only)
  (repeat' split) <;> simp (disch := first | assumption | (simp only [away]; omega) | simp only [onRing_away, ringEnabled_away, ringErr_away, ringCause_away, ringArmed_away, ringProd_away, ringCons_away]) only [State.ite_kept, ite_self, State.drawNat_kept]

@[simp] theorem State.dramOutcome_kept (s : State) (w : Nat) (e : SymbolErrors) : (State.dramOutcome s w e).2.kept = s.kept := by
  unfold State.dramOutcome
  (try dsimp only)
  (repeat' split) <;> simp (disch := first | assumption | (simp only [away]; omega) | simp only [onRing_away, ringEnabled_away, ringErr_away, ringCause_away, ringArmed_away, ringProd_away, ringCons_away]) only [State.ite_kept, ite_self, State.decodeErrors_kept, State.decodePoisoned_kept]

@[simp] theorem State.flipData_kept (s : State) (w : Nat) (e : SymbolErrors) : (State.flipData s w e).kept = s.kept := by
  unfold State.flipData
  simp (disch := first | assumption | (simp only [away]; omega) | simp only [onRing_away, ringEnabled_away, ringErr_away, ringCause_away, ringArmed_away, ringProd_away, ringCons_away]) only [State.ite_kept, ite_self, State.modMem_kept]

@[simp] theorem State.noteDram_kept (s : State) (w source : Nat) (e : SymbolErrors) (o : ReadOutcome) : (State.noteDram s w source e o).kept = s.kept := by
  unfold State.noteDram
  (try dsimp only)
  (repeat' split) <;> simp (disch := first | assumption | (simp only [away, Reg.MEM_CHc_CE, Reg.MEM_CHc_UE]; omega) | simp only [onRing_away, ringEnabled_away, ringErr_away, ringCause_away, ringArmed_away, ringProd_away, ringCons_away]) only [State.ite_kept, ite_self, State.bump_kept, State.flipData_kept, State.logError_kept, State.memPosted_kept, State.modMem_kept, State.post_kept, State.set_kept]

@[simp] theorem State.poisonDram_kept (s : State) (w source : Nat) (e : SymbolErrors) : (State.poisonDram s w source e).kept = s.kept := by
  unfold State.poisonDram
  simp (disch := first | assumption | (simp only [away, Reg.MEM_CHc_UE, Reg.MEM_STATUS_poison_written]; omega) | simp only [onRing_away, ringEnabled_away, ringErr_away, ringCause_away, ringArmed_away, ringProd_away, ringCons_away]) only [State.ite_kept, ite_self, State.bump_kept, State.flipData_kept, State.logError_kept, State.modMem_kept, State.post_kept, State.raise_kept]

@[simp] theorem State.markHold_kept (s : State) (addr : Nat) (h : SramHold) (on : Bool) : (State.markHold s addr h on).kept = s.kept := by
  unfold State.markHold
  (try dsimp only)
  (repeat' split) <;> simp (disch := first | assumption | (simp only [away]; omega) | simp only [onRing_away, ringEnabled_away, ringErr_away, ringCause_away, ringArmed_away, ringProd_away, ringCons_away]) only [State.ite_kept, ite_self, State.modSeam_kept, State.onBad_kept]

@[simp] theorem State.skewPoisoned_kept (s : State) (h : SramHold) : (State.skewPoisoned s h).kept = s.kept := by
  unfold State.skewPoisoned
  (try dsimp only)
  (repeat' split) <;> simp (disch := first | assumption | (simp only [away, Reg.SEAM_STATUS_skew_poison]; omega) | simp only [onRing_away, ringEnabled_away, ringErr_away, ringCause_away, ringArmed_away, ringProd_away, ringCons_away]) only [State.ite_kept, ite_self, State.modSeam_kept, State.post_kept, State.raise_kept]

@[simp] theorem State.slicePoisoned_kept (s : State) (addr : Nat) (h : SramHold) : (State.slicePoisoned s addr h).kept = s.kept := by
  unfold State.slicePoisoned
  (try dsimp only)
  (repeat' split) <;> simp (disch := first | assumption | (simp only [away]; omega) | simp only [onRing_away, ringEnabled_away, ringErr_away, ringCause_away, ringArmed_away, ringProd_away, ringCons_away]) only [State.ite_kept, ite_self, State.failSlice_kept, State.tablePoison_kept]

@[simp] theorem State.holdPoisoned_kept (s : State) (addr : Nat) (h : SramHold) : (State.holdPoisoned s addr h).kept = s.kept := by
  unfold State.holdPoisoned
  simp (disch := first | assumption | (simp only [away]; omega) | simp only [onRing_away, ringEnabled_away, ringErr_away, ringCause_away, ringArmed_away, ringProd_away, ringCons_away]) only [State.ite_kept, ite_self, State.skewPoisoned_kept, State.slicePoisoned_kept]

@[simp] theorem State.sramOutcome_kept (s : State) (addr : Nat) (e : List Nat) (h : SramHold) : (State.sramOutcome s addr e h).2.kept = s.kept := by
  unfold State.sramOutcome
  (try dsimp only)
  (repeat' split) <;> simp (disch := first | assumption | (simp only [away]; omega) | simp only [onRing_away, ringEnabled_away, ringErr_away, ringCause_away, ringArmed_away, ringProd_away, ringCons_away]) only [State.ite_kept, ite_self, State.decodeErrors_kept, State.decodePoisoned_kept]

@[simp] theorem State.noteSram_kept (s : State) (addr source : Nat) (h : SramHold) (o : ReadOutcome) : (State.noteSram s addr source h o).kept = s.kept := by
  unfold State.noteSram
  (try dsimp only)
  (repeat' split) <;> simp (disch := first | assumption | (simp only [away, Reg.MEM_SRAM_ADDR_ERR, Reg.MEM_SRAM_CE, Reg.MEM_SRAM_UE]; omega) | simp only [onRing_away, ringEnabled_away, ringErr_away, ringCause_away, ringArmed_away, ringProd_away, ringCons_away]) only [State.ite_kept, ite_self, State.bump_kept, State.holdPoisoned_kept, State.logError_kept, State.markHold_kept, State.memPosted_kept, State.modMem_kept, State.post_kept]

@[simp] theorem State.poisonSram_kept (s : State) (addr source : Nat) (h : SramHold) (o : ReadOutcome) : (State.poisonSram s addr source h o).kept = s.kept := by
  unfold State.poisonSram
  (try dsimp only)
  (repeat' split) <;> simp (disch := first | assumption | (simp only [away, Reg.MEM_SRAM_ADDR_ERR, Reg.MEM_SRAM_UE, Reg.MEM_STATUS_poison_written]; omega) | simp only [onRing_away, ringEnabled_away, ringErr_away, ringCause_away, ringArmed_away, ringProd_away, ringCons_away]) only [State.ite_kept, ite_self, State.bump_kept, State.logError_kept, State.markHold_kept, State.modMem_kept, State.post_kept, State.raise_kept]

@[simp] theorem State.scrubDram_kept (s : State) (x : Nat × SymbolErrors) : (State.scrubDram s x).1.kept = s.kept := by
  unfold State.scrubDram
  (try dsimp only)
  (repeat' split) <;> simp (disch := first | assumption | (simp only [away]; omega) | simp only [onRing_away, ringEnabled_away, ringErr_away, ringCause_away, ringArmed_away, ringProd_away, ringCons_away]) only [State.ite_kept, ite_self, State.dramOutcome_kept, State.noteDram_kept, State.poisonDram_kept]

@[simp] theorem State.scrubSram_kept (s : State) (addr : Nat) (e : List Nat) (h : SramHold) : (State.scrubSram s addr e h).1.kept = s.kept := by
  unfold State.scrubSram
  (try dsimp only)
  (repeat' split) <;> simp (disch := first | assumption | (simp only [away]; omega) | simp only [onRing_away, ringEnabled_away, ringErr_away, ringCause_away, ringArmed_away, ringProd_away, ringCons_away]) only [State.ite_kept, ite_self, State.holdPoisoned_kept, State.noteSram_kept, State.poisonSram_kept, State.sramOutcome_kept]

@[simp] theorem State.mergeDram_kept (s : State) (w : Nat) (e : SymbolErrors) : (State.mergeDram s w e).1.kept = s.kept := by
  unfold State.mergeDram
  (try dsimp only)
  (repeat' split) <;> simp (disch := first | assumption | (simp only [away]; omega) | simp only [onRing_away, ringEnabled_away, ringErr_away, ringCause_away, ringArmed_away, ringProd_away, ringCons_away]) only [State.ite_kept, ite_self, State.dramOutcome_kept, State.noteDram_kept, State.poisonDram_kept]

@[simp] theorem State.mergeUnit_kept (s : State) (unit : Nat) (errors : BurstErrors) : (State.mergeUnit s unit errors).1.kept = s.kept := by
  unfold State.mergeUnit
  exact foldl_kept_fst_of (fun _ _ => State.mergeDram_kept _ _ _) rfl

@[simp] theorem State.partialDram_kept (s : State) (addr : Nat) (data : List (BitVec 8)) (errors : BurstErrors) : (State.partialDram s addr data errors).1.kept = s.kept := by
  unfold State.partialDram
  (try dsimp only)
  (repeat' split) <;> simp (disch := first | assumption | (simp only [away]; omega) | simp only [onRing_away, ringEnabled_away, ringErr_away, ringCause_away, ringArmed_away, ringProd_away, ringCons_away]) only [State.ite_kept, ite_self, State.mergeUnit_kept, State.modMem_kept]

@[simp] theorem State.partialSram_kept (s : State) (addr : Nat) (e : List Nat) (h : SramHold) : (State.partialSram s addr e h).1.kept = s.kept := by
  unfold State.partialSram
  (try dsimp only)
  (repeat' split) <;> simp (disch := first | assumption | (simp only [away]; omega) | simp only [onRing_away, ringEnabled_away, ringErr_away, ringCause_away, ringArmed_away, ringProd_away, ringCons_away]) only [State.ite_kept, ite_self, State.holdPoisoned_kept, State.noteSram_kept, State.poisonSram_kept, State.sramOutcome_kept]

@[simp] theorem State.endPoisoned_kept (s : State) (r : OpRef) : (State.endPoisoned s r).kept = s.kept := by
  unfold State.endPoisoned
  (try dsimp only)
  (repeat' split) <;> simp (disch := first | assumption | (simp only [away]; omega) | simp only [onRing_away, ringEnabled_away, ringErr_away, ringCause_away, ringArmed_away, ringProd_away, ringCons_away]) only [State.ite_kept, ite_self, State.drawBlock_kept, State.endOp_kept]

@[simp] theorem State.retirePage_kept (s : State) (p : Nat) : (State.retirePage s p).kept = s.kept := by
  unfold State.retirePage
  simp (disch := first | assumption | (simp only [away, Reg.MEM_RETIRED, Reg.MEM_STATUS_retired]; omega) | simp only [onRing_away, ringEnabled_away, ringErr_away, ringCause_away, ringArmed_away, ringProd_away, ringCons_away]) only [State.ite_kept, ite_self, State.countStore_kept, State.modMem_kept, State.raise_kept, State.set_kept]

@[simp] theorem State.copyRead_kept (s : State) (w : Nat) (e : SymbolErrors) : (State.copyRead s w e).2.kept = s.kept := by
  unfold State.copyRead
  simp (disch := first | assumption | (simp only [away]; omega) | simp only [onRing_away, ringEnabled_away, ringErr_away, ringCause_away, ringArmed_away, ringProd_away, ringCons_away]) only [State.ite_kept, ite_self, State.dramOutcome_kept, State.flipData_kept, State.noteDram_kept]

@[simp] theorem State.copyReads_kept (s : State) (page : Nat) (errors : List (Nat × BurstErrors)) : (State.copyReads s page errors).1.kept = s.kept := by
  unfold State.copyReads
  refine foldl_kept_fst_of (fun a k => ?_) rfl
  have h := State.copyRead_kept a.1 (128 * page + k) ((errors.filter (·.1 == k / 4)).flatMap (·.2.symbols (k % 4)))
  simp only []
  generalize a.1.copyRead (128 * page + k) ((errors.filter (·.1 == k / 4)).flatMap (·.2.symbols (k % 4))) = y at h
  obtain ⟨o, s1⟩ := y
  cases o <;> exact h

@[simp] theorem State.endRetires_kept (s : State) (page : Nat) (l : List Migration) : (State.endRetires s page l).kept = s.kept := by
  unfold State.endRetires
  (repeat' (first | with_reducible rfl | (simp (disch := first | assumption | (simp only [away]; omega) | simp only [onRing_away, ringEnabled_away, ringErr_away, ringCause_away, ringArmed_away, ringProd_away, ringCons_away]) only [State.ite_kept, ite_self, State.endOp_kept]; done) | split | apply foldl_kept_of | apply foldl_kept_snd_of | apply foldl_kept_fst_of | intro _ _ | simp (disch := first | assumption | (simp only [away]; omega) | simp only [onRing_away, ringEnabled_away, ringErr_away, ringCause_away, ringArmed_away, ringProd_away, ringCons_away]) only [State.ite_kept, ite_self, State.endOp_kept] | dsimp only))

@[simp] theorem State.replacePage_kept (s : State) (p new : Nat) : (State.replacePage s p new).1.kept = s.kept := by
  unfold State.replacePage
  simp (disch := first | assumption | (simp only [away]; omega) | simp only [onRing_away, ringEnabled_away, ringErr_away, ringCause_away, ringArmed_away, ringProd_away, ringCons_away]) only [State.ite_kept, ite_self, State.modMem_kept, State.modStore_kept]

end Sys2Proof.Machine
end

