-- ==== Sys2Proof/Laws/KeptTableLoad.lean ====
section
/-! SUPPORT. The operations of Machine/TableLoad.lean leave the kept words alone. -/

set_option linter.all false

namespace Sys2Proof.Machine

@[simp] theorem State.seamRefused_kept (s : State) (kind index : Nat) (x : Nat × Nat × Nat) : (State.seamRefused s kind index x).kept = s.kept := by
  unfold State.seamRefused
  simp (disch := first | assumption | (simp only [away, Reg.SEAM_LAST_REFUSAL_head, Reg.SEAM_LAST_REFUSAL_reason, Reg.SEAM_LAST_REFUSAL_slot, Reg.SEAM_STATUS_refused]; omega) | simp only [onRing_away, ringEnabled_away, ringErr_away, ringCause_away, ringArmed_away, ringProd_away, ringCons_away]) only [State.ite_kept, ite_self, State.post_kept, State.raise_kept, State.set_kept]

@[simp] theorem State.stageLoad_kept (s : State) (f : Flight) (d : List (BitVec 8)) : (State.stageLoad s f d).kept = s.kept := by
  unfold State.stageLoad
  simp (disch := first | assumption | (simp only [away]; omega) | simp only [onRing_away, ringEnabled_away, ringErr_away, ringCause_away, ringArmed_away, ringProd_away, ringCons_away]) only [State.ite_kept, ite_self, State.fmWithdraw_kept, State.modSched_kept, State.stage_kept]

@[simp] theorem State.loadTable_kept (s : State) (f : Flight) (data : List (BitVec 8)) : (State.loadTable s f data).kept = s.kept := by
  unfold State.loadTable
  (try dsimp only)
  (repeat' split) <;> simp (disch := first | assumption | (simp only [away]; omega) | simp only [onRing_away, ringEnabled_away, ringErr_away, ringCause_away, ringArmed_away, ringProd_away, ringCons_away]) only [State.ite_kept, ite_self, State.finish_kept, State.hasRead_kept, State.seamRefused_kept, State.stageLoad_kept]

theorem State.tableOp_kept (s : State) (op : OpRef) (body : Flight → State → State) (h : ∀ f t, (body f t).kept = t.kept) :
    (State.tableOp s op body).kept = s.kept := s.runOp_kept _ _ _ _ _ _ _ _ h

end Sys2Proof.Machine
end

