-- ==== Sys2Proof/Laws/KeptStore.lean ====
section
/-! SUPPORT. The operations of Machine/Store.lean leave the kept words alone. -/

set_option linter.all false

namespace Sys2Proof.Machine

@[simp] theorem State.freeIndex_kept (s : State) : (State.freeIndex s).2.kept = s.kept := by
  unfold State.freeIndex
  simp (disch := first | assumption | (simp only [away]; omega) | simp only [onRing_away, ringEnabled_away, ringErr_away, ringCause_away, ringArmed_away, ringProd_away, ringCons_away]) only [State.ite_kept, ite_self, State.drawNat_kept]

@[simp] theorem State.placeBlock_kept (s : State) (index slot : Nat) (block : List (BitVec 8)) : (State.placeBlock s index slot block).kept = s.kept := by
  unfold State.placeBlock
  extract_lets handle key
  split
  rename_i pages s1 h
  have h1 : s1.kept = s.kept := by
    have := congrArg (fun x => x.2.kept) h
    simpa using this.symm
  clear h
  extract_lets s2 b s3 n m
  have h2 : s2.kept = s.kept := by
    unfold s2
    exact (foldl_kept _ (fun s p => by simp) _ _).trans h1
  clear_value s2
  have h3 : s3.kept = s.kept := (State.modStore_kept _ _).trans h2
  clear_value s3
  rw [← h3]; simp (disch := first | assumption | (simp only [away, Reg.CR_RAW_BYTES_HI, Reg.CR_RAW_BYTES_LO, Reg.CR_STORED_BYTES_HI, Reg.CR_STORED_BYTES_LO]; omega) | simp)

@[simp] theorem State.endStored_kept (s : State) (f : Flight) (res : List (Nat × List (BitVec 8))) : (State.endStored s f res).kept = s.kept := by
  unfold State.endStored
  simp (disch := first | assumption | (simp only [away, Reg.PAIR_CFG_mirror_store]; omega) | simp only [onRing_away, ringEnabled_away, ringErr_away, ringCause_away, ringArmed_away, ringProd_away, ringCons_away]) only [State.ite_kept, ite_self, State.finish_kept, State.modStore_kept, State.sendMirror_kept, State.showLag_kept]

@[simp] theorem State.storeFull_kept (s : State) (f : Flight) (pages : Nat) : (State.storeFull s f pages).kept = s.kept := by
  unfold State.storeFull
  simp (disch := first | assumption | (simp only [away, Reg.CR_STATUS_full_seen]; omega) | simp only [onRing_away, ringEnabled_away, ringErr_away, ringCause_away, ringArmed_away, ringProd_away, ringCons_away]) only [State.ite_kept, ite_self, State.finish_kept, State.modStore_kept, State.post_kept, State.raise_kept]

theorem State.reserve_kept (s : State) (f : Flight) (pages : Nat) (go : Nat → State → State)
    (h : ∀ i t, (go i t).kept = t.kept) : (State.reserve s f pages go).kept = s.kept := by
  unfold State.reserve
  split
  · simp
  · split
    · simp
    · split
      all_goals
        rename_i h'
        have := congrArg (fun x => x.2.kept) h'
        simpa [h] using this.symm

@[simp] theorem State.crush_kept (s : State) (kind height width level : Nat) (raw : List (BitVec 8)) : (State.crush s kind height width level raw).2.2.kept = s.kept := by
  unfold State.crush
  (try dsimp only)
  (repeat' split) <;> simp (disch := first | assumption | (simp only [away]; omega) | simp only [onRing_away, ringEnabled_away, ringErr_away, ringCause_away, ringArmed_away, ringProd_away, ringCons_away]) only [State.ite_kept, ite_self, State.drawBytes_kept]

theorem State.ingestOp_kept (s : State) (op : OpRef) (body : Flight → State → State)
    (h : ∀ f t, (body f t).kept = t.kept) : (State.ingestOp s op body).kept = s.kept := s.runOp_kept _ _ _ _ _ _ _ _ h

@[simp] theorem State.ingest_kept (s : State) (f : Flight) (data : List (BitVec 8)) : (State.ingest s f data).kept = s.kept := by
  unfold State.ingest
  grind [away, Reg.CR_FALLBACKS_reason1, Reg.CR_FALLBACKS_reason2, Reg.CR_STATUS_verify_seen, State.bump_kept, State.crush_kept, State.endStored_kept, State.finish_kept, State.hasRead_kept, State.placeBlock_kept, State.post_kept, State.raise_kept, State.reserve_kept, foldl_kept, foldl_kept_snd]

theorem State.storeOp_kept (s : State) (op : OpRef) (bad : Flight → Bool) (body : Flight → State → State)
    (h : ∀ f t, (body f t).kept = t.kept) : (State.storeOp s op bad body).kept = s.kept := s.runOp_kept _ _ _ _ _ _ _ _ h

@[simp] theorem State.storeBlock_kept (s : State) (f : Flight) (data : List (BitVec 8)) : (State.storeBlock s f data).kept = s.kept := by
  unfold State.storeBlock
  (repeat' (first | with_reducible rfl | (simp (disch := first | assumption | (simp only [away]; omega) | simp only [onRing_away, ringEnabled_away, ringErr_away, ringCause_away, ringArmed_away, ringProd_away, ringCons_away]) only [State.ite_kept, ite_self, State.endStored_kept, State.finish_kept, State.hasRead_kept, State.placeBlock_kept]; done) | split | refine (State.reserve_kept _ _ _ _ ?_).trans ?_ | apply foldl_kept_of | apply foldl_kept_snd_of | apply foldl_kept_fst_of | intro _ _ | simp (disch := first | assumption | (simp only [away]; omega) | simp only [onRing_away, ringEnabled_away, ringErr_away, ringCause_away, ringArmed_away, ringProd_away, ringCons_away]) only [State.ite_kept, ite_self, State.endStored_kept, State.finish_kept, State.hasRead_kept, State.placeBlock_kept] | dsimp only))

end Sys2Proof.Machine
end

