-- ==== Sys2Proof/Laws/KeptCatalogue.lean ====
section
/-! SUPPORT. The operations of Machine/Catalogue.lean leave the kept words alone. -/

set_option linter.all false

namespace Sys2Proof.Machine

theorem State.jobOp_kept (s : State) (op : OpRef) (free : JobFault) (body : Flight → State → State) (h : ∀ f t, (body f t).kept = t.kept) : (State.jobOp s op free body).kept = s.kept := by
  unfold State.jobOp
  exact State.runOp_kept _ _ _ _ _ _ _ _ _ h

@[simp] theorem State.addJob_kept (s : State) (b : Job) : (State.addJob s b).kept = s.kept := by
  unfold State.addJob
  simp (disch := first | assumption | (simp only [away, Reg.LS_STATUS_draining]; omega) | simp only [onRing_away, ringEnabled_away, ringErr_away, ringCause_away, ringArmed_away, ringProd_away, ringCons_away]) only [State.ite_kept, ite_self, State.clear_kept, State.enter_kept, State.extend_kept, State.modSched_kept, State.refresh_kept]

@[simp] theorem State.drawFault_kept (s : State) : (State.drawFault s).2.kept = s.kept := by
  unfold State.drawFault
  simp (disch := first | assumption | (simp only [away]; omega) | simp only [onRing_away, ringEnabled_away, ringErr_away, ringCause_away, ringArmed_away, ringProd_away, ringCons_away]) only [State.ite_kept, ite_self, State.drawNat_kept]

@[simp] theorem State.queueJob_kept (s : State) (f : Flight) (list : List (BitVec 8)) (handles : List (List (BitVec 8))) (free : JobFault) : (State.queueJob s f list handles free).kept = s.kept := by
  unfold State.queueJob
  (try dsimp only)
  (repeat' split) <;> simp (disch := first | assumption | (simp only [away]; omega) | simp only [onRing_away, ringEnabled_away, ringErr_away, ringCause_away, ringArmed_away, ringProd_away, ringCons_away]) only [State.ite_kept, ite_self, State.addJob_kept, State.finish_kept, State.hasRead_kept]

@[simp] theorem State.putKey_kept (s : State) (slot : Nat) (k : KeySlot) (st : Nat) : (State.putKey s slot k st).kept = s.kept := by
  unfold State.putKey
  simp (disch := first | assumption | (simp only [away]; omega) | simp only [onRing_away, ringEnabled_away, ringErr_away, ringCause_away, ringArmed_away, ringProd_away, ringCons_away]) only [State.ite_kept, ite_self, State.modPower_kept, State.set_kept, State.setKeyState_kept]

theorem State.keyOp_kept (s : State) (op : OpRef) (body : Flight → State → State) (h : ∀ f t, (body f t).kept = t.kept) : (State.keyOp s op body).kept = s.kept := by
  unfold State.keyOp
  exact State.runOp_kept _ _ _ _ _ _ _ _ _ h

@[simp] theorem State.loadKey_kept (s : State) (f : Flight) (wrapped : List (BitVec 8)) : (State.loadKey s f wrapped).kept = s.kept := by
  unfold State.loadKey
  (try dsimp only)
  (repeat' split) <;> simp (disch := first | assumption | (simp only [away]; omega) | simp only [onRing_away, ringEnabled_away, ringErr_away, ringCause_away, ringArmed_away, ringProd_away, ringCons_away]) only [State.ite_kept, ite_self, State.drawNat_kept, State.finish_kept, State.hasRead_kept, State.modPower_kept, State.post_kept, State.putKey_kept]

@[simp] theorem State.clearLog_kept (s : State) (x0 : Nat) : (State.clearLog s x0).kept = s.kept := by
  unfold State.clearLog
  (try dsimp only)
  (repeat' split) <;> simp (disch := first | assumption | (simp only [away, Reg.MEM_DTT_STATUS_entries, Reg.MEM_DTT_STATUS_overflow, Reg.MEM_STT_STATUS_entries, Reg.MEM_STT_STATUS_overflow]; omega) | simp only [onRing_away, ringEnabled_away, ringErr_away, ringCause_away, ringArmed_away, ringProd_away, ringCons_away]) only [State.ite_kept, ite_self, State.clear_kept, State.modMem_kept]

end Sys2Proof.Machine
end

