-- ==== Sys2Proof/Laws/KeptAssayCore.lean ====
section
/-! SUPPORT. The operations of Machine/AssayCore.lean leave the kept words alone. -/

set_option linter.all false

namespace Sys2Proof.Machine

@[simp] theorem State.showBuf_kept (s : State) (p : Nat) : (State.showBuf s p).kept = s.kept := by
  unfold State.showBuf
  simp (disch := first | assumption | (simp only [away, Reg.CAMp_BUF_level, Reg.CAMp_BUF_peak]; omega) | simp only [onRing_away, ringEnabled_away, ringErr_away, ringCause_away, ringArmed_away, ringProd_away, ringCons_away]) only [State.ite_kept, ite_self, State.set_kept]

@[simp] theorem State.issueStat_kept (s : State) (kind : Nat) (rec : List (BitVec 8)) : (State.issueStat s kind rec).kept = s.kept := by
  unfold State.issueStat
  simp (disch := first | assumption | (simp only [away, Reg.ASSAY_CFG_host_kinds]; omega) | simp only [onRing_away, ringEnabled_away, ringErr_away, ringCause_away, ringArmed_away, ringProd_away, ringCons_away]) only [State.ite_kept, ite_self, State.modFm_kept, State.sendStat_kept]

end Sys2Proof.Machine
end

