-- ==== Sys2Proof/Laws/KeptAssay.lean ====
section
/-! SUPPORT. The operations of Machine/Assay.lean leave the kept words alone. -/

set_option linter.all false

namespace Sys2Proof.Machine

@[simp] theorem State.panelOf_kept (s : State) (x0 : Option CamPlace) : (State.panelOf s x0).2.kept = s.kept := by
  unfold State.panelOf
  (try dsimp only)
  (repeat' split) <;> simp (disch := first | assumption | (simp only [away]; omega) | simp only [onRing_away, ringEnabled_away, ringErr_away, ringCause_away, ringArmed_away, ringProd_away, ringCons_away]) only [State.ite_kept, ite_self, State.drawBlock_kept]

@[simp] theorem State.issueFrame_kept (s : State) (p : Nat) (f : CamFrame) : (State.issueFrame s p f).kept = s.kept := by
  unfold State.issueFrame
  (try dsimp only)
  (repeat' split) <;> simp (disch := first | assumption | (simp only [away]; omega) | simp only [onRing_away, ringEnabled_away, ringErr_away, ringCause_away, ringArmed_away, ringProd_away, ringCons_away]) only [State.ite_kept, ite_self, State.drawBlock_kept, State.issueStat_kept, State.panelOf_kept]

@[simp] theorem State.settleFrames_kept (s : State) (p : Nat) (x0 : Nat) : (State.settleFrames s p x0).kept = s.kept := by
  induction x0 generalizing s with
  | zero => rfl
  | succ n ih =>
    unfold State.settleFrames
    dsimp only
    split
    · split
      · rw [ih]; simp
      · rfl
    · rfl

@[simp] theorem State.flagFrame_kept (s : State) (p no flag : Nat) : (State.flagFrame s p no flag).kept = s.kept := by
  unfold State.flagFrame
  simp (disch := first | assumption | (simp only [away]; omega) | simp only [onRing_away, ringEnabled_away, ringErr_away, ringCause_away, ringArmed_away, ringProd_away, ringCons_away]) only [State.ite_kept, ite_self, State.onCam_kept]

@[simp] theorem State.closeFrame_kept (s : State) (p : Nat) (noEnd : Bool) : (State.closeFrame s p noEnd).kept = s.kept := by
  unfold State.closeFrame
  (try dsimp only)
  (repeat' split) <;> simp (disch := first | assumption | (simp only [away, Reg.CAMp_STATUS_short_seen]; omega) | simp)

@[simp] theorem State.frameTable_kept (s : State) (p no : Nat) (g : Staged) : (State.frameTable s p no g).kept = s.kept := by
  unfold State.frameTable
  (try dsimp only)
  (repeat' split) <;> simp (disch := first | assumption | (simp only [away]; omega) | simp only [onRing_away, ringEnabled_away, ringErr_away, ringCause_away, ringArmed_away, ringProd_away, ringCons_away]) only [State.ite_kept, ite_self, State.endOp_kept, State.onCam_kept, State.setBanks_kept, State.unstage_kept]

@[simp] theorem State.frameTables_kept (s : State) (p no : Nat) (due : Nat → Bool) : (State.frameTables s p no due).kept = s.kept := by
  unfold State.frameTables
  (repeat' (first | with_reducible rfl | (simp (disch := first | assumption | (simp only [away]; omega) | simp only [onRing_away, ringEnabled_away, ringErr_away, ringCause_away, ringArmed_away, ringProd_away, ringCons_away]) only [State.ite_kept, ite_self, State.frameTable_kept]; done) | split | apply foldl_kept_of | apply foldl_kept_snd_of | apply foldl_kept_fst_of | intro _ _ | simp (disch := first | assumption | (simp only [away]; omega) | simp only [onRing_away, ringEnabled_away, ringErr_away, ringCause_away, ringArmed_away, ringProd_away, ringCons_away]) only [State.ite_kept, ite_self, State.frameTable_kept] | dsimp only))

@[simp] theorem State.startCaptures_kept (s : State) (p no : Nat) (due : Nat → Bool) : (State.startCaptures s p no due).kept = s.kept := by
  unfold State.startCaptures
  simp (disch := first | assumption | (simp only [away]; omega) | simp only [onRing_away, ringEnabled_away, ringErr_away, ringCause_away, ringArmed_away, ringProd_away, ringCons_away]) only [State.ite_kept, ite_self, State.onCam_kept]

@[simp] theorem State.endCapture_kept (s : State) (p : Nat) (x : CaptureOp) (status : Nat) : (State.endCapture s p x status).kept = s.kept := by
  unfold State.endCapture
  simp (disch := first | assumption | (simp only [away]; omega) | simp only [onRing_away, ringEnabled_away, ringErr_away, ringCause_away, ringArmed_away, ringProd_away, ringCons_away]) only [State.ite_kept, ite_self, State.endOp_kept, State.onCam_kept]

@[simp] theorem State.lateCaptures_kept (s : State) (p : Nat) : (State.lateCaptures s p).kept = s.kept := by
  unfold State.lateCaptures
  (repeat' (first | with_reducible rfl | (simp (disch := first | assumption | (simp only [away]; omega) | simp only [onRing_away, ringEnabled_away, ringErr_away, ringCause_away, ringArmed_away, ringProd_away, ringCons_away]) only [State.ite_kept, ite_self, State.endCapture_kept]; done) | split | apply foldl_kept_of | apply foldl_kept_snd_of | apply foldl_kept_fst_of | intro _ _ | simp (disch := first | assumption | (simp only [away]; omega) | simp only [onRing_away, ringEnabled_away, ringErr_away, ringCause_away, ringArmed_away, ringProd_away, ringCons_away]) only [State.ite_kept, ite_self, State.endCapture_kept] | dsimp only))

@[simp] theorem State.captureTriple_kept (s : State) (p : Nat) (r : CamLine) (others : List CamLine) (dens : List (Nat × Nat × Nat)) : (State.captureTriple s p r others dens).kept = s.kept := by
  unfold State.captureTriple
  (repeat' (first | with_reducible rfl | (simp (disch := first | assumption | (simp only [away]; omega) | simp); done) | split | apply foldl_kept_of | apply foldl_kept_snd_of | apply foldl_kept_fst_of | intro _ _ | simp (disch := first | assumption | (simp only [away]; omega) | simp) | dsimp only | rfl))

@[simp] theorem State.camPacket_kept (s : State) (p : Nat) (corrected : Bool) : (State.camPacket s p corrected).kept = s.kept := by
  unfold State.camPacket
  simp (disch := first | assumption | (simp only [away, Reg.CAMp_ERRCNT_A_corrected]; omega) | simp only [onRing_away, ringEnabled_away, ringErr_away, ringCause_away, ringArmed_away, ringProd_away, ringCons_away]) only [State.ite_kept, ite_self, State.bump_kept, State.onCam_kept]

@[simp] theorem State.beginFrame_kept (s : State) (p vc : Nat) : (State.beginFrame s p vc).kept = s.kept := by
  unfold State.beginFrame
  simp (disch := first | assumption | (simp only [away, Reg.CAMp_FRAME_NO]; omega) | simp only [onRing_away, ringEnabled_away, ringErr_away, ringCause_away, ringArmed_away, ringProd_away, ringCons_away]) only [State.ite_kept, ite_self, State.commit_kept, State.frameTables_kept, State.onCam_kept, State.set_kept, State.showPort_kept, State.startCaptures_kept]

@[simp] theorem State.commitCam_kept (s : State) (p : Nat) : (State.commitCam s p).kept = s.kept := by
  unfold State.commitCam
  simp (disch := first | assumption | (simp only [away]; omega) | simp only [onRing_away, ringEnabled_away, ringErr_away, ringCause_away, ringArmed_away, ringProd_away, ringCons_away]) only [State.ite_kept, ite_self, State.onCam_kept]

@[simp] theorem State.camCfg_kept (s : State) (p : Nat) (v : BitVec 32) : (State.camCfg s p v).kept = s.kept := by
  unfold State.camCfg
  (repeat' (first | with_reducible rfl | (simp (disch := first | assumption | (simp only [away, Reg.CAMp_BUF_peak, Reg.CAMp_CFG_enable, Reg.CAMp_FRAME_NO]; omega) | simp only [onRing_away, ringEnabled_away, ringErr_away, ringCause_away, ringArmed_away, ringProd_away, ringCons_away]) only [State.ite_kept, ite_self, State.endCapture_kept, State.onCam_kept, State.set_kept, State.showPort_kept, State.writeWord_kept]; done) | split | apply foldl_kept_of | apply foldl_kept_snd_of | apply foldl_kept_fst_of | intro _ _ | simp (disch := first | assumption | (simp only [away, Reg.CAMp_BUF_peak, Reg.CAMp_CFG_enable, Reg.CAMp_FRAME_NO]; omega) | simp only [onRing_away, ringEnabled_away, ringErr_away, ringCause_away, ringArmed_away, ringProd_away, ringCons_away]) only [State.ite_kept, ite_self, State.endCapture_kept, State.onCam_kept, State.set_kept, State.showPort_kept, State.writeWord_kept] | dsimp only))

@[simp] theorem State.cutFrame_kept (s : State) (p : Nat) (f : CamFrame) (cause : Nat) : (State.cutFrame s p f cause).kept = s.kept := by
  unfold State.cutFrame
  simp (disch := first | assumption | (simp only [away, Reg.CAMp_STATUS_partial_seen]; omega) | simp)

@[simp] theorem State.discardPacket_kept (s : State) (p no : Nat) : (State.discardPacket s p no).kept = s.kept := by
  unfold State.discardPacket
  simp (disch := first | assumption | (simp only [away, Reg.CAMp_ERRCNT_A_discarded]; omega) | simp only [onRing_away, ringEnabled_away, ringErr_away, ringCause_away, ringArmed_away, ringProd_away, ringCons_away]) only [State.ite_kept, ite_self, State.bump_kept, State.onCam_kept]

@[simp] theorem State.ageStamps_kept (s : State) (p : Nat) (f : CamFrame) : (State.ageStamps s p f).kept = s.kept := by
  unfold State.ageStamps
  (try dsimp only)
  (repeat' split) <;> simp (disch := first | assumption | (simp only [away, Reg.CAMp_ERRCNT_B_stamps_lost, Reg.CAMp_STATUS_lost_seen]; omega) | simp)

@[simp] theorem State.fixFrame_kept (s : State) (p no : Nat) (place : Option CamPlace) : (State.fixFrame s p no place).kept = s.kept := by
  unfold State.fixFrame
  simp (disch := first | assumption | (simp only [away]; omega) | simp only [onRing_away, ringEnabled_away, ringErr_away, ringCause_away, ringArmed_away, ringProd_away, ringCons_away]) only [State.ite_kept, ite_self, State.frameTables_kept, State.onCam_kept, State.startCaptures_kept]

@[simp] theorem State.bufferLine_kept (s : State) (p : Nat) (l : CamLine) : (State.bufferLine s p l).kept = s.kept := by
  unfold State.bufferLine
  simp (disch := first | assumption | (simp only [away]; omega) | simp only [onRing_away, ringEnabled_away, ringErr_away, ringCause_away, ringArmed_away, ringProd_away, ringCons_away]) only [State.ite_kept, ite_self, State.onCam_kept, State.showBuf_kept]

@[simp] theorem State.refLineIn_kept (s : State) (p : Nat) (f : CamFrame) (n : Nat) (data : List Nat) : (State.refLineIn s p f n data).kept = s.kept := by
  unfold State.refLineIn
  extract_lets s1 s2
  have h1 : s1.kept = s.kept := State.ageStamps_kept _ _ _
  have h2 : s2.kept = s.kept := by
    rw [← h1]; unfold s2; split
    · simp (disch := first | assumption | (simp only [away, Reg.CAMp_ERRCNT_B_untriggered, Reg.CAMp_STATUS_silent, Reg.CAMp_STATUS_untrig_seen]; omega)) only [State.postCam_none_kept, State.clear_kept]
    · rfl
  clear_value s2 s1
  split
  · rw [← h1]
    simp (disch := first | assumption | (simp only [away, Reg.CAMp_ERRCNT_B_untriggered, Reg.CAMp_STATUS_silent, Reg.CAMp_STATUS_untrig_seen]; omega)) only [State.postCam_some_kept, State.onCam_kept, State.bump_kept]
  · extract_lets place s3 seq s4
    have h3 : s3.kept = s.kept := by
      unfold s3; split
      · exact h2
      · rw [State.fixFrame_kept, h2]
    clear_value s3
    rw [State.bufferLine_kept, State.onCam_kept, h3]

@[simp] theorem State.otherLineIn_kept (s : State) (p : Nat) (f : CamFrame) (c n : Nat) (data : List Nat) : (State.otherLineIn s p f c n data).kept = s.kept := by
  unfold State.otherLineIn
  (try dsimp only)
  (repeat' split) <;> simp (disch := first | assumption | (simp only [away]; omega) | simp only [onRing_away, ringEnabled_away, ringErr_away, ringCause_away, ringArmed_away, ringProd_away, ringCons_away]) only [State.ite_kept, ite_self, State.bufferLine_kept]

@[simp] theorem State.lateStamp_kept (s : State) (p no n : Nat) : (State.lateStamp s p no n).kept = s.kept := by
  unfold State.lateStamp
  (repeat' (first | with_reducible rfl | (simp (disch := first | assumption | (simp only [away]; omega) | simp only [onRing_away, ringEnabled_away, ringErr_away, ringCause_away, ringArmed_away, ringProd_away, ringCons_away]) only [State.ite_kept, ite_self, State.onCam_kept, State.otherLineIn_kept]; done) | split | apply foldl_kept_of | apply foldl_kept_snd_of | apply foldl_kept_fst_of | intro _ _ | simp (disch := first | assumption | (simp only [away]; omega) | simp only [onRing_away, ringEnabled_away, ringErr_away, ringCause_away, ringArmed_away, ringProd_away, ringCons_away]) only [State.ite_kept, ite_self, State.onCam_kept, State.otherLineIn_kept] | dsimp only))

@[simp] theorem State.sideLineIn_kept (s : State) (p : Nat) (f : CamFrame) (c n : Nat) (data : List Nat) : (State.sideLineIn s p f c n data).kept = s.kept := by
  unfold State.sideLineIn
  simp (disch := first | assumption | (simp only [away]; omega) | simp only [onRing_away, ringEnabled_away, ringErr_away, ringCause_away, ringArmed_away, ringProd_away, ringCons_away]) only [State.ite_kept, ite_self, State.onCam_kept, State.otherLineIn_kept, State.showBuf_kept]

@[simp] theorem State.packetIn_kept (s : State) (p : Nat) (f : CamFrame) (h : CsiHeader) (payload : List (BitVec 8)) (crcOk : Bool) : (State.packetIn s p f h payload crcOk).kept = s.kept := by
  unfold State.packetIn
  extract_lets c n pixels raw12 words s0 bad s1 s2 bytes data
  have h0 : s0.kept = s.kept := State.onCam_kept _ _ _
  clear_value s0 bad
  have h1 : s1.kept = s.kept := by unfold s1; split <;> simp [h0]
  clear_value s1
  have h2 : s2.kept = s.kept := (State.flagFrame_kept _ _ _ _).trans h1
  clear_value s2 data bytes words n raw12
  split
  · split
    · exact h2
    · rw [← h2]; simp (disch := first | assumption | (simp only [away, Reg.CAMp_CFG_data_type, Reg.CAMp_CFG_pixels, Reg.CAMp_STATUS_long_seen]; omega) | simp)
  · split
    · exact h1
    · split
      · split <;> simp [h1]
      · split
        · simp [h1]
        · (try dsimp only); split <;> simp [h1]

@[simp] theorem State.freshUnits_kept (s : State) (p off n : Nat) : (State.freshUnits s p off n).kept = s.kept := by
  unfold State.freshUnits
  simp (disch := first | assumption | (simp only [away]; omega) | simp only [onRing_away, ringEnabled_away, ringErr_away, ringCause_away, ringArmed_away, ringProd_away, ringCons_away]) only [State.ite_kept, ite_self, State.modMem_kept]

@[simp] theorem State.temporalLine_kept (s : State) (p : Nat) (prm : List Nat) (l : CamLine) (x : List Nat) : (State.temporalLine s p prm l x).2.kept = s.kept := by
  unfold State.temporalLine
  (try dsimp only)
  (repeat' split) <;> simp (disch := first | assumption | (simp only [away, Reg.ASSAY_CFG_tnr_lines, Reg.CAMp_CFG_pixels, Reg.CAMp_CFG_tnr_en, Reg.CAMp_STATUS_tnr_ok]; omega) | simp only [onRing_away, ringEnabled_away, ringErr_away, ringCause_away, ringArmed_away, ringProd_away, ringCons_away]) only [State.ite_kept, ite_self, State.freshUnits_kept, State.onCam_kept]

@[simp] theorem State.analyse_kept (s : State) (p : Nat) (f : CamFrame) (r : CamLine) (dens : List (Nat × Nat × Nat)) (align : Bool) : (State.analyse s p f r dens align).kept = s.kept := by
  unfold State.analyse
  split
  · extract_lets fl cols s1
    have h1 : s1.kept = s.kept := State.onCam_kept _ _ _
    clear_value s1 cols
    refine (foldl_kept _ (fun s i => ?_) _ _).trans h1
    extract_lets rec_
    split
    · rfl
    · refine foldl_kept _ (fun s start => ?_) _ _
      extract_lets part c
      split
      · rfl
      · split
        · exact State.onCam_kept _ _ _
        · split
          · rw [State.postCam_some_kept _ _ _ _ _ _ (by simp only [away, Reg.CAMp_STATUS_skip_seen]; omega), State.onCam_kept]
          · split
            rename_i job panel s2 h
            rw [State.onCam_kept]
            have := congrArg (fun x => x.2.kept) h
            simpa only [State.panelOf_kept] using this.symm
  · rfl

@[simp] theorem State.formTriple_kept (s : State) (p : Nat) (r : CamLine) : (State.formTriple s p r).kept = s.kept := by
  unfold State.formTriple
  (try dsimp only)
  (repeat' split) <;> simp (disch := first | assumption | (simp only [away]; omega) | simp only [onRing_away, ringEnabled_away, ringErr_away, ringCause_away, ringArmed_away, ringProd_away, ringCons_away]) only [State.ite_kept, ite_self, State.analyse_kept, State.captureTriple_kept, State.drawBlock_kept, State.onCam_kept]

@[simp] theorem State.formTriples_kept (s : State) (p : Nat) (x0 : Nat) : (State.formTriples s p x0).kept = s.kept := by
  induction x0 generalizing s with
  | zero => rfl
  | succ n ih =>
    unfold State.formTriples
    extract_lets c
    split
    · rfl
    · extract_lets prm ready
      split
      · rw [ih]; simp
      · rfl

@[simp] theorem State.processLine_kept (s : State) (p : Nat) (l : CamLine) : (State.processLine s p l).kept = s.kept := by
  unfold State.processLine
  simp (disch := first | assumption | (simp only [away]; omega) | simp only [onRing_away, ringEnabled_away, ringErr_away, ringCause_away, ringArmed_away, ringProd_away, ringCons_away]) only [State.ite_kept, ite_self, State.formTriples_kept, State.onCam_kept, State.settleFrames_kept, State.temporalLine_kept]

@[simp] theorem State.issueRegion_kept (s : State) (p : Nat) (o : Occurrence) : (State.issueRegion s p o).kept = s.kept := by
  unfold State.issueRegion
  have hd : ∀ n k (t : State), s.drawBlock n = (k, t) → t.kept = s.kept := by
    intro n k t h
    have := congrArg (fun x => x.2.kept) h
    simpa only [State.drawBlock_kept] using this.symm
  split
  · extract_lets pl h n
    split
    rename_i k s1 hk
    exact (foldl_kept _ (fun s i => State.issueStat_kept _ _ _) _ _).trans (hd _ _ _ hk)
  all_goals
    split
    rename_i k s1 hk
    rw [State.issueStat_kept]
    exact hd _ _ _ hk

end Sys2Proof.Machine
end

