-- ==== Sys2Proof/Laws/KeptForeman.lean ====
section
/-! SUPPORT. The operations of Machine/Foreman.lean leave the kept words alone. -/

set_option linter.all false

namespace Sys2Proof.Machine

@[simp] theorem State.fmView_kept (s : State) (kind index : Nat) : (State.fmView s kind index).kept = s.kept := by
  unfold State.fmView
  (repeat' (first | with_reducible rfl | (simp (disch := first | assumption | (simp only [away]; omega) | simp only [onRing_away, ringEnabled_away, ringErr_away, ringCause_away, ringArmed_away, ringProd_away, ringCons_away]) only [State.ite_kept, ite_self, State.fmApply_kept, State.fmRebase_kept]; done) | split | apply foldl_kept_of | apply foldl_kept_snd_of | apply foldl_kept_fst_of | intro _ _ | simp (disch := first | assumption | (simp only [away]; omega) | simp only [onRing_away, ringEnabled_away, ringErr_away, ringCause_away, ringArmed_away, ringProd_away, ringCons_away]) only [State.ite_kept, ite_self, State.fmApply_kept, State.fmRebase_kept] | dsimp only))

@[simp] theorem State.fmFrom_kept (s : State) (mode kind index : Nat) : (State.fmFrom s mode kind index).kept = s.kept := by
  unfold State.fmFrom
  simp (disch := first | assumption | (simp only [away]; omega) | simp only [onRing_away, ringEnabled_away, ringErr_away, ringCause_away, ringArmed_away, ringProd_away, ringCons_away]) only [State.ite_kept, ite_self, State.fmView_kept]

@[simp] theorem State.noteBounds_kept (s : State) (c : FmChange) : (State.noteBounds s c).kept = s.kept := by
  unfold State.noteBounds
  refine foldl_kept _ (fun s w => ?_) _ _
  split
  · rfl
  · split
    · simp (disch := first | assumption | (simp only [away, Reg.FM_STATUS_bound]; omega) | simp)
    · rfl

@[simp] theorem State.noteTotal_kept (s : State) (loop q : Nat) (clamped : Bool) : (State.noteTotal s loop q clamped).kept = s.kept := by
  unfold State.noteTotal
  simp (disch := first | assumption | (simp only [away, Reg.FM_STATUS_bound]; omega) | simp only [onRing_away, ringEnabled_away, ringErr_away, ringCause_away, ringArmed_away, ringProd_away, ringCons_away]) only [State.ite_kept, ite_self, State.modFm_kept, State.post_kept, State.raise_kept]

@[simp] theorem State.fmSubmitted_kept (s : State) (kind index : Nat) (cs : List FmChange) : (State.fmSubmitted s kind index cs).kept = s.kept := by
  unfold State.fmSubmitted
  (repeat' (first | with_reducible rfl | (simp (disch := first | assumption | (simp only [away]; omega) | simp only [onRing_away, ringEnabled_away, ringErr_away, ringCause_away, ringArmed_away, ringProd_away, ringCons_away]) only [State.ite_kept, ite_self, State.issueChange_kept, State.modFm_kept, State.noteBounds_kept]; done) | split | apply foldl_kept_of | apply foldl_kept_snd_of | apply foldl_kept_fst_of | intro _ _ | simp (disch := first | assumption | (simp only [away]; omega) | simp only [onRing_away, ringEnabled_away, ringErr_away, ringCause_away, ringArmed_away, ringProd_away, ringCons_away]) only [State.ite_kept, ite_self, State.issueChange_kept, State.modFm_kept, State.noteBounds_kept] | dsimp only))

@[simp] theorem State.fmLoad_kept (s : State) (loop kind index eff : Nat) (cs : List FmChange) : (State.fmLoad s loop kind index eff cs).kept = s.kept := by
  unfold State.fmLoad
  simp (disch := first | assumption | (simp only [away]; omega) | simp only [onRing_away, ringEnabled_away, ringErr_away, ringCause_away, ringArmed_away, ringProd_away, ringCons_away]) only [State.ite_kept, ite_self, State.drawBlock_kept, State.fmSubmitted_kept, State.fmView_kept, State.modFm_kept, State.noteTotal_kept, State.stage_kept]

@[simp] theorem State.fmDo_kept (s : State) (mode kind index : Nat) (c : FmChange) : (State.fmDo s mode kind index c).kept = s.kept := by
  unfold State.fmDo
  simp (disch := first | assumption | (simp only [away]; omega) | simp only [onRing_away, ringEnabled_away, ringErr_away, ringCause_away, ringArmed_away, ringProd_away, ringCons_away]) only [State.ite_kept, ite_self, State.fmLoad_kept, State.issueChange_kept]

@[simp] theorem State.escalate_kept (s : State) (loop q head reason : Nat) : (State.escalate s loop q head reason).kept = s.kept := by
  unfold State.escalate
  simp (disch := first | assumption | (simp only [away, Reg.FM_STATUS_escalated]; omega) | simp only [onRing_away, ringEnabled_away, ringErr_away, ringCause_away, ringArmed_away, ringProd_away, ringCons_away]) only [State.ite_kept, ite_self, State.post_kept, State.raise_kept]

@[simp] theorem State.noteUsable_kept (s : State) (loop q : Nat) (b : List (BitVec 8)) : (State.noteUsable s loop q b).kept = s.kept := by
  unfold State.noteUsable
  simp (disch := first | assumption | (simp only [away]; omega) | simp only [onRing_away, ringEnabled_away, ringErr_away, ringCause_away, ringArmed_away, ringProd_away, ringCons_away]) only [State.ite_kept, ite_self, State.modFm_kept, State.post_kept]

@[simp] theorem State.setBoundRun_kept (s : State) (q n : Nat) : (State.setBoundRun s q n).kept = s.kept := by
  unfold State.setBoundRun
  simp (disch := first | assumption | (simp only [away]; omega) | simp only [onRing_away, ringEnabled_away, ringErr_away, ringCause_away, ringArmed_away, ringProd_away, ringCons_away]) only [State.ite_kept, ite_self, State.modFm_kept, State.set_kept]

@[simp] theorem State.densityStep_kept (s : State) (mode q : Nat) (b : List (BitVec 8)) : (State.densityStep s mode q b).kept = s.kept := by
  unfold State.densityStep
  simp (disch := first | assumption | (simp only [away, Reg.FM_DEN_CFG_deadband_md, Reg.FM_PDq_pd]; omega) | simp only [onRing_away, ringEnabled_away, ringErr_away, ringCause_away, ringArmed_away, ringProd_away, ringCons_away]) only [State.ite_kept, ite_self, State.drawBlock_kept, State.escalate_kept, State.fmDo_kept, State.fmFrom_kept, State.modFm_kept, State.setBoundRun_kept]

@[simp] theorem State.densityLoop_kept (s : State) (b : List (BitVec 8)) : (State.densityLoop s b).kept = s.kept := by
  unfold State.densityLoop
  (repeat' (first | with_reducible rfl | (simp (disch := first | assumption | (simp only [away]; omega) | simp only [onRing_away, ringEnabled_away, ringErr_away, ringCause_away, ringArmed_away, ringProd_away, ringCons_away]) only [State.ite_kept, ite_self, State.densityStep_kept, State.noteUsable_kept]; done) | split | apply foldl_kept_of | apply foldl_kept_snd_of | apply foldl_kept_fst_of | intro _ _ | simp (disch := first | assumption | (simp only [away]; omega) | simp only [onRing_away, ringEnabled_away, ringErr_away, ringCause_away, ringArmed_away, ringProd_away, ringCons_away]) only [State.ite_kept, ite_self, State.densityStep_kept, State.noteUsable_kept] | dsimp only))

@[simp] theorem State.regStep_kept (s : State) (mode q : Nat) (b : List (BitVec 8)) (e : Int × Int) : (State.regStep s mode q b e).kept = s.kept := by
  unfold State.regStep
  simp (disch := first | assumption | (simp only [away, Reg.FM_REG_CFG_cross_deadband, Reg.FM_REG_CFG_down_deadband, Reg.FM_REG_CFG_down_step, Reg.FM_REGq_dt, Reg.FM_REGq_xoff]; omega) | simp only [onRing_away, ringEnabled_away, ringErr_away, ringCause_away, ringArmed_away, ringProd_away, ringCons_away]) only [State.ite_kept, ite_self, State.drawBlock_kept, State.fmDo_kept, State.fmFrom_kept]

@[simp] theorem State.registrationLoop_kept (s : State) (b : List (BitVec 8)) : (State.registrationLoop s b).kept = s.kept := by
  unfold State.registrationLoop
  (try dsimp only)
  (repeat' split) <;> simp (disch := first | assumption | (simp only [away]; omega) | simp only [onRing_away, ringEnabled_away, ringErr_away, ringCause_away, ringArmed_away, ringProd_away, ringCons_away]) only [State.ite_kept, ite_self, State.modFm_kept, State.noteUsable_kept, State.regStep_kept]

@[simp] theorem State.countReading_kept (s : State) (h row q col i cls : Nat) : (State.countReading s h row q col i cls).kept = s.kept := by
  unfold State.countReading
  simp (disch := first | assumption | (simp only [away]; omega) | simp only [onRing_away, ringEnabled_away, ringErr_away, ringCause_away, ringArmed_away, ringProd_away, ringCons_away]) only [State.ite_kept, ite_self, State.modFm_kept, State.onNoz_kept, State.set_kept]

@[simp] theorem State.setFindings_kept (s : State) (h row : Nat) (items : List FmItem) : (State.setFindings s h row items).kept = s.kept := by
  unfold State.setFindings
  (repeat' (first | with_reducible rfl | (simp (disch := first | assumption | (simp only [away]; omega) | simp only [onRing_away, ringEnabled_away, ringErr_away, ringCause_away, ringArmed_away, ringProd_away, ringCons_away]) only [State.ite_kept, ite_self, State.healthChanged_kept, State.onNoz_kept]; done) | split | apply foldl_kept_of | apply foldl_kept_snd_of | apply foldl_kept_fst_of | intro _ _ | simp (disch := first | assumption | (simp only [away]; omega) | simp only [onRing_away, ringEnabled_away, ringErr_away, ringCause_away, ringArmed_away, ringProd_away, ringCons_away]) only [State.ite_kept, ite_self, State.healthChanged_kept, State.onNoz_kept] | dsimp only))

@[simp] theorem State.findingStep_kept (s : State) (mode h row q : Nat) (b : List (BitVec 8)) (fs : List (Nat × Nat × Bool)) : (State.findingStep s mode h row q b fs).kept = s.kept := by
  unfold State.findingStep
  (try dsimp only)
  (repeat' split) <;> simp (disch := first | assumption | (simp only [away]; omega) | simp only [onRing_away, ringEnabled_away, ringErr_away, ringCause_away, ringArmed_away, ringProd_away, ringCons_away]) only [State.ite_kept, ite_self, State.escalate_kept, State.issueChange_kept, State.setFindings_kept]

@[simp] theorem State.nzStep_kept (s : State) (mode h row q first : Nat) (b : List (BitVec 8)) (m2 : Nat) (weak : List (Nat × Nat)) : (State.nzStep s mode h row q first b m2 weak).kept = s.kept := by
  unfold State.nzStep
  simp (disch := first | assumption | (simp only [away]; omega) | simp only [onRing_away, ringEnabled_away, ringErr_away, ringCause_away, ringArmed_away, ringProd_away, ringCons_away]) only [State.ite_kept, ite_self, State.drawBlock_kept, State.fmDo_kept, State.fmFrom_kept]

@[simp] theorem State.moveStep_kept (s : State) (mode h q : Nat) (b : List (BitVec 8)) : (State.moveStep s mode h q b).kept = s.kept := by
  unfold State.moveStep
  (repeat' (first | with_reducible rfl | (simp (disch := first | assumption | (simp only [away, Reg.FM_STATUS_move_refused]; omega) | simp only [onRing_away, ringEnabled_away, ringErr_away, ringCause_away, ringArmed_away, ringProd_away, ringCons_away]) only [State.ite_kept, ite_self, State.fmDo_kept, State.fmFrom_kept, State.modFm_kept, State.post_kept, State.raise_kept, State.seamRefused_kept]; done) | split | apply foldl_kept_of | apply foldl_kept_snd_of | apply foldl_kept_fst_of | intro _ _ | simp (disch := first | assumption | (simp only [away, Reg.FM_STATUS_move_refused]; omega) | simp only [onRing_away, ringEnabled_away, ringErr_away, ringCause_away, ringArmed_away, ringProd_away, ringCons_away]) only [State.ite_kept, ite_self, State.fmDo_kept, State.fmFrom_kept, State.modFm_kept, State.post_kept, State.raise_kept, State.seamRefused_kept] | dsimp only))

@[simp] theorem State.nozzleLoop_kept (s : State) (b : List (BitVec 8)) : (State.nozzleLoop s b).kept = s.kept := by
  unfold State.nozzleLoop
  extract_lets mode q s1 h row first all m2 used s2 fs may s3 s4
  have h1 : s1.kept = s.kept := State.noteUsable_kept _ _ _ _
  clear_value s1 used
  have h2 : s2.kept = s.kept := by
    unfold s2
    exact (foldl_kept _ (fun s p => by simp) _ _).trans h1
  clear_value s2 fs may
  have h3 : s3.kept = s.kept := by rw [← h2]; simp [s3]
  clear_value s3
  (repeat' split) <;> simp [h3, s4]

@[simp] theorem State.ffPlane_kept (s : State) (mode k q : Nat) : (State.ffPlane s mode k q).kept = s.kept := by
  unfold State.ffPlane
  (repeat' (first | with_reducible rfl | (simp (disch := first | assumption | (simp only [away, Reg.FM_CFG_ff_at_partings]; omega) | simp only [onRing_away, ringEnabled_away, ringErr_away, ringCause_away, ringArmed_away, ringProd_away, ringCons_away]) only [State.ite_kept, ite_self, State.fmFrom_kept, State.fmLoad_kept, State.issueChange_kept, State.modFm_kept]; done) | split | apply foldl_kept_of | apply foldl_kept_snd_of | apply foldl_kept_fst_of | intro _ _ | simp (disch := first | assumption | (simp only [away, Reg.FM_CFG_ff_at_partings]; omega) | simp only [onRing_away, ringEnabled_away, ringErr_away, ringCause_away, ringArmed_away, ringProd_away, ringCons_away]) only [State.ite_kept, ite_self, State.fmFrom_kept, State.fmLoad_kept, State.issueChange_kept, State.modFm_kept] | dsimp only))

@[simp] theorem State.nozClear_kept (s : State) (v : Nat) : (State.nozClear s v).kept = s.kept := by
  unfold State.nozClear
  (repeat' (first | with_reducible rfl | (simp (disch := first | assumption | (simp only [away]; omega) | simp only [onRing_away, ringEnabled_away, ringErr_away, ringCause_away, ringArmed_away, ringProd_away, ringCons_away]) only [State.ite_kept, ite_self, State.healthChanged_kept, State.onNoz_kept]; done) | split | apply foldl_kept_of | apply foldl_kept_snd_of | apply foldl_kept_fst_of | intro _ _ | simp (disch := first | assumption | (simp only [away]; omega) | simp only [onRing_away, ringEnabled_away, ringErr_away, ringCause_away, ringArmed_away, ringProd_away, ringCons_away]) only [State.ite_kept, ite_self, State.healthChanged_kept, State.onNoz_kept] | dsimp only))

end Sys2Proof.Machine
end

