-- ==== Sys2Proof/Laws/KeptWinderCore.lean ====
section
/-! SUPPORT. The operations of Machine/WinderCore.lean leave the kept words alone. -/

set_option linter.all false

namespace Sys2Proof.Machine

@[simp] theorem State.setWinder_kept (s : State) (n : Nat) (w : Winder) : (State.setWinder s n w).kept = s.kept := by
  unfold State.setWinder
  simp (disch := first | assumption | (simp only [away]; omega) | simp only [onRing_away, ringEnabled_away, ringErr_away, ringCause_away, ringArmed_away, ringProd_away, ringCons_away]) only [State.ite_kept, ite_self, State.modWind_kept, State.set_kept]

@[simp] theorem State.onWinder_kept (s : State) (n : Nat) (f : Winder → Winder) : (State.onWinder s n f).kept = s.kept := by
  unfold State.onWinder
  simp (disch := first | assumption | (simp only [away]; omega) | simp only [onRing_away, ringEnabled_away, ringErr_away, ringCause_away, ringArmed_away, ringProd_away, ringCons_away]) only [State.ite_kept, ite_self, State.setWinder_kept]

end Sys2Proof.Machine
end

