-- ==== Sys2Proof/Laws/KeptWinder.lean ====
section
/-! SUPPORT. The operations of Machine/Winder.lean leave the kept words alone. -/

set_option linter.all false

namespace Sys2Proof.Machine

@[simp] theorem State.moveEnds_kept (s : State) (n : Nat) (m : WinderMove) (outcome : Nat) : (State.moveEnds s n m outcome).kept = s.kept := by
  unfold State.moveEnds
  (try dsimp only)
  (repeat' split) <;> simp (disch := first | assumption | (simp only [away, Reg.WCn_STATUS_home_state]; omega) | simp only [onRing_away, ringEnabled_away, ringErr_away, ringCause_away, ringArmed_away, ringProd_away, ringCons_away]) only [State.ite_kept, ite_self, State.drawInt_kept, State.endOp_kept, State.post_kept, State.set_kept]

@[simp] theorem State.windRest_kept (s : State) (n : Nat) : (State.windRest s n).kept = s.kept := by
  unfold State.windRest
  simp (disch := first | assumption | (simp only [away, Reg.WCn_STATUS_state]; omega) | simp only [onRing_away, ringEnabled_away, ringErr_away, ringCause_away, ringArmed_away, ringProd_away, ringCons_away]) only [State.ite_kept, ite_self, State.onWinder_kept, State.set_kept]

@[simp] theorem State.moveEnding_kept (s : State) (n outcome : Nat) : (State.moveEnding s n outcome).kept = s.kept := by
  unfold State.moveEnding
  simp (disch := first | assumption | (simp only [away]; omega) | simp only [onRing_away, ringEnabled_away, ringErr_away, ringCause_away, ringArmed_away, ringProd_away, ringCons_away]) only [State.ite_kept, ite_self, State.onWinder_kept]

@[simp] theorem State.limitStop_kept (s : State) (n sw : Nat) (p : Int) : (State.limitStop s n sw p).kept = s.kept := by
  unfold State.limitStop
  simp (disch := first | assumption | (simp only [away, Reg.WCn_STATUS_limit_seen]; omega) | simp only [onRing_away, ringEnabled_away, ringErr_away, ringCause_away, ringArmed_away, ringProd_away, ringCons_away]) only [State.ite_kept, ite_self, State.moveEnding_kept, State.post_kept, State.raise_kept]

@[simp] theorem State.homeBegin_kept (s : State) (n : Nat) : (State.homeBegin s n).kept = s.kept := by
  unfold State.homeBegin
  simp (disch := first | assumption | (simp only [away, Reg.WCn_CHATTER, Reg.WCn_STATUS_home_state, Reg.WCn_STATUS_homed]; omega) | simp only [onRing_away, ringEnabled_away, ringErr_away, ringCause_away, ringArmed_away, ringProd_away, ringCons_away]) only [State.ite_kept, ite_self, State.clear_kept, State.onWinder_kept, State.set_kept]

@[simp] theorem State.setPos_kept (s : State) (n : Nat) (p : Int) : (State.setPos s n p).kept = s.kept := by
  unfold State.setPos
  simp (disch := first | assumption | (simp only [away, Reg.WCn_POS]; omega) | simp only [onRing_away, ringEnabled_away, ringErr_away, ringCause_away, ringArmed_away, ringProd_away, ringCons_away]) only [State.ite_kept, ite_self, State.modWind_kept, State.onWinder_kept, State.setI_kept]

@[simp] theorem State.homeDone_kept (s : State) (n : Nat) (m : WinderMove) : (State.homeDone s n m).kept = s.kept := by
  unfold State.homeDone
  simp (disch := first | assumption | (simp only [away, Reg.WCn_STATUS_homed]; omega) | simp only [onRing_away, ringEnabled_away, ringErr_away, ringCause_away, ringArmed_away, ringProd_away, ringCons_away]) only [State.ite_kept, ite_self, State.moveEnds_kept, State.raise_kept, State.windRest_kept]

@[simp] theorem State.homeByScale_kept (s : State) (n : Nat) (m : WinderMove) : (State.homeByScale s n m).kept = s.kept := by
  unfold State.homeByScale
  (try dsimp only)
  (repeat' split) <;> simp (disch := first | assumption | (simp only [away, Reg.SSIk_RAW, Reg.SSIk_STATUS_valid]; omega) | simp only [onRing_away, ringEnabled_away, ringErr_away, ringCause_away, ringArmed_away, ringProd_away, ringCons_away]) only [State.ite_kept, ite_self, State.drawBlock_kept, State.homeDone_kept, State.moveEnds_kept, State.onWinder_kept, State.setPos_kept, State.windRest_kept]

@[simp] theorem State.homeStep_kept (s : State) (n : Nat) (m : WinderMove) : (State.homeStep s n m).kept = s.kept := by
  unfold State.homeStep
  (try dsimp only)
  (repeat' split) <;> simp (disch := first | assumption | (simp only [away, Reg.WCn_HOME_TRAVEL, Reg.WCn_HOME_backoff, Reg.WCn_STATUS_home_state]; omega) | simp only [onRing_away, ringEnabled_away, ringErr_away, ringCause_away, ringArmed_away, ringProd_away, ringCons_away]) only [State.ite_kept, ite_self, State.homeByScale_kept, State.homeDone_kept, State.moveEnding_kept, State.onWinder_kept, State.set_kept, State.setPos_kept]

@[simp] theorem State.homeEdge_kept (s : State) (n : Nat) (active : Bool) (p : Int) : (State.homeEdge s n active p).kept = s.kept := by
  unfold State.homeEdge
  simp (disch := first | assumption | (simp only [away, Reg.WCn_CHATTER, Reg.WCn_STATUS_chatter, Reg.WCn_STATUS_home_state, Reg.WCn_SW_chatter_max]; omega) | simp only [onRing_away, ringEnabled_away, ringErr_away, ringCause_away, ringArmed_away, ringProd_away, ringCons_away]) only [State.ite_kept, ite_self, State.bump_kept, State.clear_kept, State.onWinder_kept, State.post_kept, State.raise_kept, State.set_kept]

@[simp] theorem State.setSwitch_kept (s : State) (n sw : Nat) (x : WindSwitch) : (State.setSwitch s n sw x).kept = s.kept := by
  unfold State.setSwitch
  simp (disch := first | assumption | (simp only [away]; omega) | simp only [onRing_away, ringEnabled_away, ringErr_away, ringCause_away, ringArmed_away, ringProd_away, ringCons_away]) only [State.ite_kept, ite_self, State.modWind_kept, State.set_kept]

@[simp] theorem switchFlag_away (n sw : Nat) : away (switchFlag n sw).off := by
  refine away_of_le ?_
  unfold switchFlag
  (repeat' split) <;> simp only [Reg.WCn_STATUS_neg_active, Reg.WCn_STATUS_pos_active, Reg.WCn_STATUS_home_active] <;> omega

@[simp] theorem State.acceptSwitch_kept (s : State) (n sw : Nat) (active : Bool) (p : Int) : (State.acceptSwitch s n sw active p).kept = s.kept := by
  unfold State.acceptSwitch
  extract_lets w s1 toward
  have h1 : s1.kept = s.kept := by
    unfold s1
    exact s.setOn_kept _ _ (switchFlag_away n sw)
  clear_value s1 toward
  split
  · simp [h1]
  · split <;> simp [h1]

@[simp] theorem State.sampleSwitch_kept (s : State) (n sw : Nat) : (State.sampleSwitch s n sw).kept = s.kept := by
  unfold State.sampleSwitch
  simp (disch := first | assumption | (simp only [away, Reg.WCn_SW_filter_us]; omega) | simp only [onRing_away, ringEnabled_away, ringErr_away, ringCause_away, ringArmed_away, ringProd_away, ringCons_away]) only [State.ite_kept, ite_self, State.acceptSwitch_kept, State.setSwitch_kept]

@[simp] theorem State.sampleSwitches_kept (s : State) : (State.sampleSwitches s).kept = s.kept := by
  unfold State.sampleSwitches
  (repeat' (first | with_reducible rfl | (simp (disch := first | assumption | (simp only [away]; omega) | simp only [onRing_away, ringEnabled_away, ringErr_away, ringCause_away, ringArmed_away, ringProd_away, ringCons_away]) only [State.ite_kept, ite_self, State.sampleSwitch_kept]; done) | split | apply foldl_kept_of | apply foldl_kept_snd_of | apply foldl_kept_fst_of | intro _ _ | simp (disch := first | assumption | (simp only [away]; omega) | simp only [onRing_away, ringEnabled_away, ringErr_away, ringCause_away, ringArmed_away, ringProd_away, ringCons_away]) only [State.ite_kept, ite_self, State.sampleSwitch_kept] | dsimp only))

@[simp] theorem State.showSwitches_kept (s : State) (n : Nat) : (State.showSwitches s n).kept = s.kept := by
  unfold State.showSwitches
  refine foldl_kept _ (fun s sw => ?_) _ _
  exact s.setOn_kept _ _ (switchFlag_away n sw)

@[simp] theorem State.switchCfg_kept (s : State) (n : Nat) (v : BitVec 32) : (State.switchCfg s n v).kept = s.kept := by
  unfold State.switchCfg
  simp (disch := first | assumption | (simp only [away, Reg.WCn_SW_filter_us]; omega) | simp only [onRing_away, ringEnabled_away, ringErr_away, ringCause_away, ringArmed_away, ringProd_away, ringCons_away]) only [State.ite_kept, ite_self, State.showSwitches_kept, State.writeWord_kept]

@[simp] theorem State.showMotion_kept (s : State) (n : Nat) (m : Motion) : (State.showMotion s n m).kept = s.kept := by
  unfold State.showMotion
  simp (disch := first | assumption | (simp only [away, Reg.WCn_POS, Reg.WCn_VEL]; omega) | simp only [onRing_away, ringEnabled_away, ringErr_away, ringCause_away, ringArmed_away, ringProd_away, ringCons_away]) only [State.ite_kept, ite_self, State.onWinder_kept, State.setI_kept]

@[simp] theorem State.stepMode_kept (s : State) (n : Nat) : (State.stepMode s n).kept = s.kept := by
  unfold State.stepMode
  simp (disch := first | assumption | (simp only [away, Reg.WCn_STATUS_mode]; omega) | simp only [onRing_away, ringEnabled_away, ringErr_away, ringCause_away, ringArmed_away, ringProd_away, ringCons_away]) only [State.ite_kept, ite_self, State.onWinder_kept, State.set_kept]

@[simp] theorem State.takeNext_kept (s : State) (n : Nat) : (State.takeNext s n).kept = s.kept := by
  unfold State.takeNext
  (try dsimp only)
  (repeat' split) <;> simp (disch := first | assumption | (simp only [away, Reg.WCn_STATUS_state]; omega) | simp only [onRing_away, ringEnabled_away, ringErr_away, ringCause_away, ringArmed_away, ringProd_away, ringCons_away]) only [State.ite_kept, ite_self, State.homeBegin_kept, State.moveEnds_kept, State.onWinder_kept, State.set_kept, State.setPos_kept]

@[simp] theorem State.moveDone_kept (s : State) (n : Nat) (m : WinderMove) : (State.moveDone s n m).kept = s.kept := by
  unfold State.moveDone
  (try dsimp only)
  (repeat' split) <;> simp (disch := first | assumption | (simp only [away]; omega) | simp only [onRing_away, ringEnabled_away, ringErr_away, ringCause_away, ringArmed_away, ringProd_away, ringCons_away]) only [State.ite_kept, ite_self, State.homeStep_kept, State.moveEnds_kept, State.onWinder_kept, State.windRest_kept]

@[simp] theorem State.limitCheck_kept (s : State) (n : Nat) : (State.limitCheck s n).kept = s.kept := by
  unfold State.limitCheck
  simp (disch := first | assumption | (simp only [away]; omega) | simp only [onRing_away, ringEnabled_away, ringErr_away, ringCause_away, ringArmed_away, ringProd_away, ringCons_away]) only [State.ite_kept, ite_self, State.limitStop_kept]

@[simp] theorem State.windTick_kept (s : State) (n : Nat) : (State.windTick s n).kept = s.kept := by
  unfold State.windTick
  (try dsimp only)
  (repeat' split) <;> simp (disch := first | assumption | (simp only [away, Reg.WCn_STATUS_state]; omega) | simp only [onRing_away, ringEnabled_away, ringErr_away, ringCause_away, ringArmed_away, ringProd_away, ringCons_away]) only [State.ite_kept, ite_self, State.limitCheck_kept, State.moveDone_kept, State.onWinder_kept, State.showMotion_kept, State.stepMode_kept, State.takeNext_kept]

@[simp] theorem State.motionFree_kept (s : State) (op : OpRef) : (State.motionFree s op).2.kept = s.kept := by
  unfold State.motionFree
  (try dsimp only)
  (repeat' split) <;> simp (disch := first | assumption | (simp only [away]; omega) | simp only [onRing_away, ringEnabled_away, ringErr_away, ringCause_away, ringArmed_away, ringProd_away, ringCons_away]) only [State.ite_kept, ite_self, State.drawNat_kept]

@[simp] theorem State.motionMove_kept (s : State) (f : Flight) : (State.motionMove s f).kept = s.kept := by
  unfold State.motionMove
  (try dsimp only)
  (repeat' split) <;> simp (disch := first | assumption | (simp only [away, Reg.WCn_STATUS_homed, Reg.WCn_STATUS_limit_seen]; omega) | simp only [onRing_away, ringEnabled_away, ringErr_away, ringCause_away, ringArmed_away, ringProd_away, ringCons_away]) only [State.ite_kept, ite_self, State.clear_kept, State.moveEnds_kept, State.onWinder_kept, State.post_kept, State.raise_kept]

@[simp] theorem State.windCfg_kept (s : State) (n : Nat) (v : BitVec 32) : (State.windCfg s n v).kept = s.kept := by
  unfold State.windCfg
  (try dsimp only)
  (repeat' split) <;> simp (disch := first | assumption | (simp only [away, Reg.WCn_CFG_enable, Reg.WCn_POS, Reg.WCn_STATUS_homed, Reg.WCn_STATUS_mode, Reg.WCn_STATUS_state, Reg.WCn_VEL]; omega) | simp only [onRing_away, ringEnabled_away, ringErr_away, ringCause_away, ringArmed_away, ringProd_away, ringCons_away]) only [State.ite_kept, ite_self, State.clear_kept, State.moveEnds_kept, State.set_kept, State.setI_kept, State.setWinder_kept, State.writeWord_kept]

@[simp] theorem State.windReturn_kept (s : State) : (State.windReturn s).kept = s.kept := by
  unfold State.windReturn
  (repeat' (first | with_reducible rfl | (simp (disch := first | assumption | (simp only [away, Reg.WCn_CFG_enable, Reg.WCn_STATUS_state]; omega) | simp only [onRing_away, ringEnabled_away, ringErr_away, ringCause_away, ringArmed_away, ringProd_away, ringCons_away]) only [State.ite_kept, ite_self, State.set_kept, State.showSwitches_kept]; done) | split | apply foldl_kept_of | apply foldl_kept_snd_of | apply foldl_kept_fst_of | intro _ _ | simp (disch := first | assumption | (simp only [away, Reg.WCn_CFG_enable, Reg.WCn_STATUS_state]; omega) | simp only [onRing_away, ringEnabled_away, ringErr_away, ringCause_away, ringArmed_away, ringProd_away, ringCons_away]) only [State.ite_kept, ite_self, State.set_kept, State.showSwitches_kept] | dsimp only))

@[simp] theorem State.newDecel_kept (s : State) (n : Nat) (m : WinderMove) (b : WinderBrake) : (State.newDecel s n m b).kept = s.kept := by
  unfold State.newDecel
  simp (disch := first | assumption | (simp only [away, Reg.WCn_STATUS_accel_deferred]; omega) | simp only [onRing_away, ringEnabled_away, ringErr_away, ringCause_away, ringArmed_away, ringProd_away, ringCons_away]) only [State.ite_kept, ite_self, State.onWinder_kept, State.post_kept, State.raise_kept]

@[simp] theorem State.rampWrite_kept (s : State) (n : Nat) (decel : Bool) (v : BitVec 32) : (State.rampWrite s n decel v).kept = s.kept := by
  unfold State.rampWrite
  (try dsimp only)
  (repeat' split) <;> simp (disch := first | assumption | (simp only [away, Reg.WCn_ACCEL, Reg.WCn_DECEL]; omega) | simp only [onRing_away, ringEnabled_away, ringErr_away, ringCause_away, ringArmed_away, ringProd_away, ringCons_away]) only [State.ite_kept, ite_self, State.newDecel_kept, State.writeWord_kept]

@[simp] theorem State.onChop_kept (s : State) (n : Nat) (b : Bool) (f : ChopPhase → ChopPhase) : (State.onChop s n b f).kept = s.kept := by
  unfold State.onChop
  simp (disch := first | assumption | (simp only [away]; omega) | simp only [onRing_away, ringEnabled_away, ringErr_away, ringCause_away, ringArmed_away, ringProd_away, ringCons_away]) only [State.ite_kept, ite_self, State.onWinder_kept]

@[simp] theorem State.windFault_kept (s : State) (n : Nat) (b : Bool) : (State.windFault s n b).kept = s.kept := by
  unfold State.windFault
  (try dsimp only)
  (repeat' split) <;> simp (disch := first | assumption | (simp only [away, Reg.WCn_STATUS_overcurrent, Reg.WCn_STATUS_state, Reg.WCn_VEL]; omega) | simp only [onRing_away, ringEnabled_away, ringErr_away, ringCause_away, ringArmed_away, ringProd_away, ringCons_away]) only [State.ite_kept, ite_self, State.moveEnds_kept, State.onWinder_kept, State.post_kept, State.raise_kept, State.set_kept, State.setI_kept]

@[simp] theorem State.clearFault_kept (s : State) (n : Nat) : (State.clearFault s n).kept = s.kept := by
  unfold State.clearFault
  simp (disch := first | assumption | (simp only [away, Reg.WCn_STATUS_homed, Reg.WCn_STATUS_state]; omega) | simp only [onRing_away, ringEnabled_away, ringErr_away, ringCause_away, ringArmed_away, ringProd_away, ringCons_away]) only [State.ite_kept, ite_self, State.clear_kept, State.onWinder_kept, State.set_kept]

@[simp] theorem State.onSsi_kept (s : State) (k : Nat) (f : Ssi → Ssi) : (State.onSsi s k f).kept = s.kept := by
  unfold State.onSsi
  simp (disch := first | assumption | (simp only [away]; omega) | simp only [onRing_away, ringEnabled_away, ringErr_away, ringCause_away, ringArmed_away, ringProd_away, ringCons_away]) only [State.ite_kept, ite_self, State.modWind_kept, State.set_kept]

@[simp] theorem State.ssiFails_kept (s : State) (k cause : Nat) : (State.ssiFails s k cause).kept = s.kept := by
  unfold State.ssiFails
  simp (disch := first | assumption | (simp only [away, Reg.SSIk_STATUS_error_seen, Reg.SSIk_STATUS_failed, Reg.SSIk_STATUS_valid]; omega) | simp only [onRing_away, ringEnabled_away, ringErr_away, ringCause_away, ringArmed_away, ringProd_away, ringCons_away]) only [State.ite_kept, ite_self, State.bump_kept, State.clear_kept, State.onSsi_kept, State.post_kept, State.raise_kept]

@[simp] theorem State.ssiGood_kept (s : State) (k raw : Nat) : (State.ssiGood s k raw).kept = s.kept := by
  unfold State.ssiGood
  simp (disch := first | assumption | (simp only [away, Reg.SSIk_CFG_channel, Reg.SSIk_CFG_check_en, Reg.SSIk_RAW, Reg.SSIk_STATUS_slip, Reg.SSIk_STATUS_valid, Reg.SSIk_TIME_HI, Reg.SSIk_TIME_LO, Reg.SSIk_TOL, Reg.WCn_STATUS_homed]; omega) | simp only [onRing_away, ringEnabled_away, ringErr_away, ringCause_away, ringArmed_away, ringProd_away, ringCons_away]) only [State.ite_kept, ite_self, State.drawBlock_kept, State.onSsi_kept, State.post_kept, State.raise_kept, State.set_kept, State.set2_kept]

end Sys2Proof.Machine
end

