-- ==== Sys2Proof/Laws/KeptPower.lean ====
section
/-! SUPPORT. The operations of Machine/Power.lean leave the kept words alone. -/

set_option linter.all false

namespace Sys2Proof.Machine

@[simp] theorem State.lockKeys_kept (s : State) : (State.lockKeys s).kept = s.kept := by
  unfold State.lockKeys
  (repeat' (first | with_reducible rfl | (simp (disch := first | assumption | (simp only [away]; omega) | simp only [onRing_away, ringEnabled_away, ringErr_away, ringCause_away, ringArmed_away, ringProd_away, ringCons_away]) only [State.ite_kept, ite_self, State.setKeyState_kept]; done) | split | apply foldl_kept_of | apply foldl_kept_snd_of | apply foldl_kept_fst_of | intro _ _ | simp (disch := first | assumption | (simp only [away]; omega) | simp only [onRing_away, ringEnabled_away, ringErr_away, ringCause_away, ringArmed_away, ringProd_away, ringCons_away]) only [State.ite_kept, ite_self, State.setKeyState_kept] | dsimp only))

@[simp] theorem State.eraseKeys_kept (s : State) (src : Nat) : (State.eraseKeys s src).kept = s.kept := by
  unfold State.eraseKeys
  (repeat' (first | with_reducible rfl | (simp (disch := first | assumption | (simp only [away]; omega) | simp); done) | split | apply foldl_kept_of | apply foldl_kept_snd_of | apply foldl_kept_fst_of | intro _ _ | simp (disch := first | assumption | (simp only [away]; omega) | simp) | dsimp only | rfl))

@[simp] theorem activeBit_away (src : Nat) : away (activeBit src).off := by
  simp only [activeBit, Reg.SEC_ALARM_active, away]; omega

@[simp] theorem State.alarm_kept (s : State) (src : Nat) (active : Bool) : (State.alarm s src active).kept = s.kept := by
  unfold State.alarm
  extract_lets r s1 s2 s3
  have h1 : s1.kept = s.kept := by unfold s1; simp (disch := first | assumption | (simp only [away, Reg.SEC_ALARM_COUNT_count, Reg.SEC_ALARM_seen]; omega) | simp)
  clear_value s1
  have h2 : s2.kept = s.kept := (State.post_kept _ _ _).trans h1
  clear_value s2
  have h3 : s3.kept = s.kept := by rw [← h2]; unfold s3; (repeat' split) <;> simp
  clear_value s3
  rw [← h3]; simp

@[simp] theorem State.alarmLevel_kept (s : State) (src : Nat) (active : Bool) : (State.alarmLevel s src active).kept = s.kept := by
  unfold State.alarmLevel
  split
  · simp
  · exact s.clear_kept _ (activeBit_away _)

@[simp] theorem State.unlockKeys_kept (s : State) : (State.unlockKeys s).kept = s.kept := by
  unfold State.unlockKeys
  (repeat' (first | with_reducible rfl | (simp (disch := first | assumption | (simp only [away, Reg.SEC_ALARM_unlock_refused]; omega) | simp only [onRing_away, ringEnabled_away, ringErr_away, ringCause_away, ringArmed_away, ringProd_away, ringCons_away]) only [State.ite_kept, ite_self, State.post_kept, State.raise_kept, State.refresh_kept, State.setKeyState_kept]; done) | split | apply foldl_kept_of | apply foldl_kept_snd_of | apply foldl_kept_fst_of | intro _ _ | simp (disch := first | assumption | (simp only [away, Reg.SEC_ALARM_unlock_refused]; omega) | simp only [onRing_away, ringEnabled_away, ringErr_away, ringCause_away, ringArmed_away, ringProd_away, ringCons_away]) only [State.ite_kept, ite_self, State.post_kept, State.raise_kept, State.refresh_kept, State.setKeyState_kept] | dsimp only))

@[simp] theorem State.showSpare_kept (s : State) : (State.showSpare s).kept = s.kept := by
  unfold State.showSpare
  (try dsimp only)
  (repeat' split) <;> simp (disch := first | assumption | (simp only [away, Reg.RSn_STATUS_state]; omega) | simp only [onRing_away, ringEnabled_away, ringErr_away, ringCause_away, ringArmed_away, ringProd_away, ringCons_away]) only [State.ite_kept, ite_self, State.set_kept]

@[simp] theorem State.bootInhibit_kept (s : State) : (State.bootInhibit s).kept = s.kept := by
  unfold State.bootInhibit
  simp (disch := first | assumption | (simp only [away]; omega) | simp only [onRing_away, ringEnabled_away, ringErr_away, ringCause_away, ringArmed_away, ringProd_away, ringCons_away]) only [State.ite_kept, ite_self, State.modLink_kept, State.startInhibit_kept]

@[simp] theorem State.boot_kept (s : State) (f : BootFacts) : (State.boot s f).kept = s.kept := by
  unfold State.boot
  simp (disch := first | assumption | (simp only [away, Reg.PWR_DOMAINS_powered, Reg.PWR_STATE_boot_fail]; omega) | simp only [onRing_away, ringEnabled_away, ringErr_away, ringCause_away, ringArmed_away, ringProd_away, ringCons_away]) only [State.ite_kept, ite_self, State.alarm_kept, State.bootInhibit_kept, State.enter_kept, State.modPower_kept, State.modTime_kept, State.set_kept, State.showSpare_kept, State.startChip_kept]

@[simp] theorem State.hostReset_kept (s : State) : (State.hostReset s).kept = s.kept := by
  unfold State.hostReset
  simp (disch := first | assumption | (simp only [away, Reg.HR_INFLIGHT]; omega) | simp)

@[simp] theorem State.showRepeats_kept (s : State) : (State.showRepeats s).kept = s.kept := by
  unfold State.showRepeats
  (repeat' (first | with_reducible rfl | (simp (disch := first | assumption | (simp only [away, Reg.CAMp_STATUS_tnr_ok]; omega) | simp only [onRing_away, ringEnabled_away, ringErr_away, ringCause_away, ringArmed_away, ringProd_away, ringCons_away]) only [State.ite_kept, ite_self, State.setOn_kept]; done) | split | apply foldl_kept_of | apply foldl_kept_snd_of | apply foldl_kept_fst_of | intro _ _ | simp (disch := first | assumption | (simp only [away, Reg.CAMp_STATUS_tnr_ok]; omega) | simp only [onRing_away, ringEnabled_away, ringErr_away, ringCause_away, ringArmed_away, ringProd_away, ringCons_away]) only [State.ite_kept, ite_self, State.setOn_kept] | dsimp only))

@[simp] theorem State.reserveAreas_kept (s : State) : (State.reserveAreas s).kept = s.kept := by
  unfold State.reserveAreas
  (repeat' (first | with_reducible rfl | (simp (disch := first | assumption | (simp only [away, Reg.ASSAY_STATUS_ports, Reg.CAMp_CFG_enable, Reg.CAMp_CFG_tnr_en, Reg.CR_AREA_PAGES, Reg.MEM_RESERVED_PAGES, Reg.MEM_STORE_PAGES]; omega) | simp only [onRing_away, ringEnabled_away, ringErr_away, ringCause_away, ringArmed_away, ringProd_away, ringCons_away]) only [State.ite_kept, ite_self, State.post_kept, State.raise_kept, State.set_kept, State.showRepeats_kept]; done) | split | apply foldl_kept_of | apply foldl_kept_snd_of | apply foldl_kept_fst_of | intro _ _ | simp (disch := first | assumption | (simp only [away, Reg.ASSAY_STATUS_ports, Reg.CAMp_CFG_enable, Reg.CAMp_CFG_tnr_en, Reg.CR_AREA_PAGES, Reg.MEM_RESERVED_PAGES, Reg.MEM_STORE_PAGES]; omega) | simp only [onRing_away, ringEnabled_away, ringErr_away, ringCause_away, ringArmed_away, ringProd_away, ringCons_away]) only [State.ite_kept, ite_self, State.post_kept, State.raise_kept, State.set_kept, State.showRepeats_kept] | dsimp only))

@[simp] theorem State.trainStore_kept (s : State) (fails : List (Fin 6)) : (State.trainStore s fails).kept = s.kept := by
  unfold State.trainStore
  (repeat' (first | with_reducible rfl | (simp (disch := first | assumption | (simp only [away, Reg.MEM_RETIRED, Reg.MEM_STATUS_ready, Reg.MEM_STATUS_train_fail]; omega) | simp only [onRing_away, ringEnabled_away, ringErr_away, ringCause_away, ringArmed_away, ringProd_away, ringCons_away]) only [State.ite_kept, ite_self, State.clearStore_kept, State.countStore_kept, State.modMem_kept, State.post_kept, State.raise_kept, State.reserveAreas_kept, State.set_kept]; done) | split | apply foldl_kept_of | apply foldl_kept_snd_of | apply foldl_kept_fst_of | intro _ _ | simp (disch := first | assumption | (simp only [away, Reg.MEM_RETIRED, Reg.MEM_STATUS_ready, Reg.MEM_STATUS_train_fail]; omega) | simp only [onRing_away, ringEnabled_away, ringErr_away, ringCause_away, ringArmed_away, ringProd_away, ringCons_away]) only [State.ite_kept, ite_self, State.clearStore_kept, State.countStore_kept, State.modMem_kept, State.post_kept, State.raise_kept, State.reserveAreas_kept, State.set_kept] | dsimp only))

@[simp] theorem State.settleNodes_kept (s : State) : (State.settleNodes s).kept = s.kept := by
  unfold State.settleNodes
  (repeat' (first | with_reducible rfl | (simp (disch := first | assumption | (simp only [away]; omega) | simp only [onRing_away, ringEnabled_away, ringErr_away, ringCause_away, ringArmed_away, ringProd_away, ringCons_away]) only [State.ite_kept, ite_self, State.settleReach_kept]; done) | split | apply foldl_kept_of | apply foldl_kept_snd_of | apply foldl_kept_fst_of | intro _ _ | simp (disch := first | assumption | (simp only [away]; omega) | simp only [onRing_away, ringEnabled_away, ringErr_away, ringCause_away, ringArmed_away, ringProd_away, ringCons_away]) only [State.ite_kept, ite_self, State.settleReach_kept] | dsimp only))

@[simp] theorem State.settleLanes_kept (s : State) : (State.settleLanes s).kept = s.kept := by
  unfold State.settleLanes
  (repeat' (first | with_reducible rfl | (simp (disch := first | assumption | (simp only [away]; omega) | simp only [onRing_away, ringEnabled_away, ringErr_away, ringCause_away, ringArmed_away, ringProd_away, ringCons_away]) only [State.ite_kept, ite_self, State.settleLane_kept, State.settleNodes_kept]; done) | split | apply foldl_kept_of | apply foldl_kept_snd_of | apply foldl_kept_fst_of | intro _ _ | simp (disch := first | assumption | (simp only [away]; omega) | simp only [onRing_away, ringEnabled_away, ringErr_away, ringCause_away, ringArmed_away, ringProd_away, ringCons_away]) only [State.ite_kept, ite_self, State.settleLane_kept, State.settleNodes_kept] | dsimp only))

@[simp] theorem State.faultEndsStream_kept (s : State) (st : Nat) : (State.faultEndsStream s st).kept = s.kept := by
  unfold State.faultEndsStream
  simp (disch := first | assumption | (simp only [away]; omega) | simp only [onRing_away, ringEnabled_away, ringErr_away, ringCause_away, ringArmed_away, ringProd_away, ringCons_away]) only [State.ite_kept, ite_self, State.endStream_kept, State.enter_kept, State.modPower_kept]

@[simp] theorem State.domainLoses_kept (s : State) (d : Nat) : (State.domainLoses s d).kept = s.kept := by
  unfold State.domainLoses
  (try dsimp only)
  (repeat' split) <;> simp (disch := first | assumption | (simp only [away, Reg.MEM_STATUS_ready]; omega) | simp only [onRing_away, ringEnabled_away, ringErr_away, ringCause_away, ringArmed_away, ringProd_away, ringCons_away]) only [State.ite_kept, ite_self, State.clear_kept, State.clearForeman_kept, State.clearHealth_kept, State.clearNodes_kept, State.clearPorts_kept, State.clearRaster_kept, State.clearStore_kept, State.clearTables_kept, State.clearTally_kept, State.clearWinders_kept, State.hostReset_kept, State.modSched_kept, State.restartHeadstock_kept]

@[simp] theorem State.faultState_kept (s : State) (d : Nat) : (State.faultState s d).kept = s.kept := by
  unfold State.faultState
  simp (disch := first | assumption | (simp only [away, Reg.TALLY_STATUS_role]; omega) | simp only [onRing_away, ringEnabled_away, ringErr_away, ringCause_away, ringArmed_away, ringProd_away, ringCons_away]) only [State.ite_kept, ite_self, State.endStream_kept, State.enter_kept, State.faultEndsStream_kept, State.set_kept]

@[simp] theorem State.domainOffNow_kept (s : State) (d : Nat) : (State.domainOffNow s d).kept = s.kept := by
  unfold State.domainOffNow
  simp (disch := first | assumption | (simp only [away]; omega) | simp only [onRing_away, ringEnabled_away, ringErr_away, ringCause_away, ringArmed_away, ringProd_away, ringCons_away]) only [State.ite_kept, ite_self, State.domainLoses_kept, State.faultState_kept, State.modPower_kept, State.refresh_kept, State.showPorts_kept, State.switchOff_kept]

@[simp] theorem State.domainBack_kept (s : State) (d : Nat) (fails : List (Fin 6)) : (State.domainBack s d fails).kept = s.kept := by
  unfold State.domainBack
  (try dsimp only)
  (repeat' split) <;> simp (disch := first | assumption | (simp only [away, Reg.LINK_INHIBIT_sending, Reg.TALLY_STATUS_role]; omega) | simp only [onRing_away, ringEnabled_away, ringErr_away, ringCause_away, ringArmed_away, ringProd_away, ringCons_away]) only [State.ite_kept, ite_self, State.countStore_kept, State.raise_kept, State.restartBalls_kept, State.returnRegs_kept, State.set_kept, State.setPowered_kept, State.settleLanes_kept, State.showPorts_kept, State.showRepeats_kept, State.showSpare_kept, State.startChip_kept, State.trainStore_kept, State.windReturn_kept]

@[simp] theorem State.wake_kept (s : State) : (State.wake s).kept = s.kept := by
  unfold State.wake
  (repeat' (first | with_reducible rfl | (simp (disch := first | assumption | (simp only [away, Reg.PWR_STATE_deep_cause, Reg.TALLY_STATUS_role]; omega) | simp only [onRing_away, ringEnabled_away, ringErr_away, ringCause_away, ringArmed_away, ringProd_away, ringCons_away]) only [State.ite_kept, ite_self, State.clear_kept, State.domainBack_kept, State.enter_kept, State.modPower_kept, State.post_kept, State.refresh_kept, State.set_kept]; done) | split | apply foldl_kept_of | apply foldl_kept_snd_of | apply foldl_kept_fst_of | intro _ _ | simp (disch := first | assumption | (simp only [away, Reg.PWR_STATE_deep_cause, Reg.TALLY_STATUS_role]; omega) | simp only [onRing_away, ringEnabled_away, ringErr_away, ringCause_away, ringArmed_away, ringProd_away, ringCons_away]) only [State.ite_kept, ite_self, State.clear_kept, State.domainBack_kept, State.enter_kept, State.modPower_kept, State.post_kept, State.refresh_kept, State.set_kept] | dsimp only))

@[simp] theorem State.writeIntEn_kept (s : State) (v : BitVec 32) : (State.writeIntEn s v).kept = s.kept := by
  unfold State.writeIntEn
  simp (disch := first | assumption | (simp only [away, Reg.GLB_CAUSE_classes, Reg.GLB_INT_CFG_vector, Reg.GLB_INT_EN_classes]; omega) | simp only [onRing_away, ringEnabled_away, ringErr_away, ringCause_away, ringArmed_away, ringProd_away, ringCons_away]) only [State.ite_kept, ite_self, State.sendVector_kept, State.writeWord_kept]

end Sys2Proof.Machine
end

