-- ==== Sys2Proof/Laws/KeptHostRegs.lean ====
section
/-! SUPPORT. The operations of Machine/HostRegs.lean leave the kept words alone. -/

set_option linter.all false

namespace Sys2Proof.Machine

@[simp] theorem State.fillShadow_kept (s : State) (l : List Nat) (f : Nat → BitVec 32) : (State.fillShadow s l f).kept = s.kept := by
  unfold State.fillShadow
  (repeat' (first | with_reducible rfl | (simp (disch := first | assumption | (simp only [away]; omega) | simp); done) | split | apply foldl_kept_of | apply foldl_kept_snd_of | apply foldl_kept_fst_of | intro _ _ | simp (disch := first | assumption | (simp only [away]; omega) | simp) | dsimp only | rfl))

@[simp] theorem State.readAdapt_kept (s : State) (off : Nat) : (State.readAdapt s off).kept = s.kept := by
  unfold State.readAdapt
  simp (disch := first | assumption | (simp only [away]; omega) | simp only [onRing_away, ringEnabled_away, ringErr_away, ringCause_away, ringArmed_away, ringProd_away, ringCons_away]) only [State.ite_kept, ite_self, State.adapt_kept]

@[simp] theorem State.hostRead_kept (s : State) (off : Nat) : (State.hostRead s off).kept = s.kept := by
  unfold State.hostRead
  split
  · simp
  · split
    · rw [State.fillShadow_kept, State.emit_kept, State.raise_kept _ _ (by simp [away, Reg.GLB_STATUS_off_access])]
    · rw [State.fillShadow_kept, State.emit_kept, State.readAdapt_kept]

@[simp] theorem State.writeLaneCtrl_kept (s : State) (n : Nat) (v : BitVec 32) : (State.writeLaneCtrl s n v).kept = s.kept := by
  unfold State.writeLaneCtrl
  extract_lets doIf s1 s2
  have hd : ∀ b f t, (f t).kept = t.kept → (doIf b f t).kept = t.kept := by
    intro b f t h; unfold doIf; split
    · exact h
    · rfl
  have hi : ∀ (c : Bool) b f t, (f t).kept = t.kept → ((if c then id else doIf b f) t).kept = t.kept := by
    intro c b f t h; split
    · rfl
    · exact hd _ _ _ h
  clear_value doIf
  have h1 : s1.kept = s.kept :=
    (hd _ _ _ (by simp)).trans ((hi _ _ _ _ (by simp)).trans (hd _ _ _ (by simp)))
  clear_value s1
  have h2 : s2.kept = s.kept :=
    (hd _ _ _ (by simp)).trans ((hd _ _ _ (by simp)).trans ((hi _ _ _ _ (by simp)).trans h1))
  clear_value s2
  exact (hd _ _ _ (by simp)).trans h2

@[simp] theorem State.writeRingReg_kept (s : State) (off : Nat) (v : BitVec 32) (h : away off) :
    (State.writeRingReg s off v).kept = s.kept := by
  unfold State.writeRingReg
  extract_lets ring
  clear_value ring
  split
  · split
    · simp
    · split
      · exact s.raise_kept _ (by simp [away, Reg.HR_STATUS_cfg_ignored])
      · exact s.writeWord_kept _ _ h
  · rfl

@[simp] theorem State.writeTiming_kept (s : State) (off : Nat) (v : BitVec 32) (h : away off) :
    (State.writeTiming s off v).kept = s.kept := by
  unfold State.writeTiming
  have hw : (s.writeWord off v).kept = s.kept := s.writeWord_kept _ _ h
  generalize nthOf 0x100000 0x100 4 off = a
  generalize nthOf 0x101000 0x40 8 off = b
  generalize nthOf 0x10101C 0x40 8 off = c
  generalize nthOf 0x104014 0x40 48 off = d
  generalize nthOf 0x141000 0x100 2 off = e
  rcases a with _ | n
  · rcases b with _ | n
    · rcases c with _ | n
      · rcases d with _ | n
        · rcases e with _ | n
          · dsimp only
            (repeat' split) <;> simp [hw]
          · simp [hw]
        · dsimp only
          (repeat' split) <;> simp
      · simp
    · simp
  · simp

@[simp] theorem State.writeHeads_kept (s : State) (off : Nat) (v : BitVec 32) (h : away off) :
    (State.writeHeads s off v).kept = s.kept := by
  unfold State.writeHeads
  split
  all_goals (try dsimp only)
  all_goals (repeat' split)
  all_goals first | rfl | simp [h]

@[simp] theorem State.writeRest_kept (s : State) (off : Nat) (v : BitVec 32) (h : away off) :
    (State.writeRest s off v).kept = s.kept := by
  unfold State.writeRest
  split
  all_goals (try dsimp only)
  all_goals (repeat' split)
  all_goals first | rfl | simp [h]

@[simp] theorem State.assertInhibit_kept (s : State) : (State.assertInhibit s).kept = s.kept := by
  unfold State.assertInhibit
  simp (disch := first | assumption | (simp only [away]; omega) | simp only [onRing_away, ringEnabled_away, ringErr_away, ringCause_away, ringArmed_away, ringProd_away, ringCons_away]) only [State.ite_kept, ite_self, State.modPower_kept, State.startInhibit_kept]

end Sys2Proof.Machine
end

