-- ==== Sys2Proof/Laws/KeepsBase.lean ====
section
/-! SUPPORT. Meanings that answer a next state and leave the kept words alone. -/

namespace Sys2Proof.Machine

/-- The outcome is a next state with these kept words. -/
def keeps (r : Result) (k : List Instr × Nat × BitVec 32 × BitVec 32 × BitVec 32 × BitVec 32) : Prop :=
  ∃ t, r = .next t ∧ t.kept = k

@[simp] theorem keeps_next (t : State) (k) : keeps (.next t) k = (t.kept = k) := by
  refine propext ⟨?_, fun h => ⟨t, rfl, h⟩⟩
  rintro ⟨u, h, hk⟩
  injection h with h
  exact h ▸ hk

theorem whenOn_keeps {s : State} {d : Nat} {f : State → Host.Outcome State Fault Refusal} {k}
    (h : s.kept = k) (hf : keeps (f s) k) : keeps (s.whenOn d f) k := by
  unfold State.whenOn
  split
  · exact hf
  · rw [keeps_next]; exact h

/-- The state of a pair that a call answered. -/
theorem pair_kept {α : Type} {x : α × State} {a : α} {t : State} {k} (h : x = (a, t)) (hk : x.2.kept = k) : t.kept = k := by
  rw [h] at hk; exact hk

end Sys2Proof.Machine
end

