-- ==== Sys2Proof/Laws/Keeps1.lean ====
section
/-! SUPPORT. Meanings that answer a next state and leave the kept words alone. -/

set_option linter.all false

namespace Sys2Proof.Machine

theorem execCmpArm_kept (dt : Nat) (n : Fin 48) (s : State) : keeps (execCmpArm dt n s) (s.advance dt).kept := by
  unfold execCmpArm
  generalize s.advance dt = s
  (repeat' (first | rw [keeps_next] | apply whenOn_keeps | refine (State.hostWrite_kept _ _ _ ?_).trans ?_ | with_reducible rfl | (simp (disch := first | assumption | (simp only [away, Reg.CMPn_CTRL_arm]; omega) | simp only [onRing_away, ringEnabled_away, ringErr_away, ringCause_away, ringArmed_away, ringProd_away, ringCons_away]) only [keeps_next, State.ite_kept, ite_self, State.arm_kept]; done) | split | apply foldl_kept_of | apply foldl_kept_snd_of | apply foldl_kept_fst_of | intro _ _ | dsimp only | simp (disch := first | assumption | (simp only [away, Reg.CMPn_CTRL_arm]; omega) | simp only [onRing_away, ringEnabled_away, ringErr_away, ringCause_away, ringArmed_away, ringProd_away, ringCons_away]) only [keeps_next, State.ite_kept, ite_self, State.arm_kept]))

theorem execCmpDisarm_kept (dt : Nat) (n : Fin 48) (s : State) : keeps (execCmpDisarm dt n s) (s.advance dt).kept := by
  unfold execCmpDisarm
  generalize s.advance dt = s
  (repeat' (first | rw [keeps_next] | apply whenOn_keeps | refine (State.hostWrite_kept _ _ _ ?_).trans ?_ | with_reducible rfl | (simp (disch := first | assumption | (simp only [away, Reg.CMPn_CTRL_disarm]; omega) | simp only [onRing_away, ringEnabled_away, ringErr_away, ringCause_away, ringArmed_away, ringProd_away, ringCons_away]) only [keeps_next, State.ite_kept, ite_self, State.disarm_kept]; done) | split | apply foldl_kept_of | apply foldl_kept_snd_of | apply foldl_kept_fst_of | intro _ _ | dsimp only | simp (disch := first | assumption | (simp only [away, Reg.CMPn_CTRL_disarm]; omega) | simp only [onRing_away, ringEnabled_away, ringErr_away, ringCause_away, ringArmed_away, ringProd_away, ringCons_away]) only [keeps_next, State.ite_kept, ite_self, State.disarm_kept]))

theorem execCmpCrossing_kept (dt : Nat) (n : Fin 48) (s : State) : keeps (execCmpCrossing dt n s) (s.advance dt).kept := by
  unfold execCmpCrossing
  generalize s.advance dt = s
  (repeat' (first | rw [keeps_next] | apply whenOn_keeps | with_reducible rfl | (simp (disch := first | assumption | (simp only [away]; omega) | simp only [onRing_away, ringEnabled_away, ringErr_away, ringCause_away, ringArmed_away, ringProd_away, ringCons_away]) only [keeps_next, State.ite_kept, ite_self, State.fireCrossing_kept]; done) | split | apply foldl_kept_of | apply foldl_kept_snd_of | apply foldl_kept_fst_of | intro _ _ | dsimp only | simp (disch := first | assumption | (simp only [away]; omega) | simp only [onRing_away, ringEnabled_away, ringErr_away, ringCause_away, ringArmed_away, ringProd_away, ringCons_away]) only [keeps_next, State.ite_kept, ite_self, State.fireCrossing_kept]))

theorem execCmpPulseCommit_kept (dt : Nat) (n : Fin 48) (s : State) : keeps (execCmpPulseCommit dt n s) (s.advance dt).kept := by
  unfold execCmpPulseCommit
  generalize s.advance dt = s
  (repeat' (first | rw [keeps_next] | apply whenOn_keeps | with_reducible rfl | (simp (disch := first | assumption | (simp only [away]; omega) | simp only [onRing_away, ringEnabled_away, ringErr_away, ringCause_away, ringArmed_away, ringProd_away, ringCons_away]) only [keeps_next, State.ite_kept, ite_self, State.setCmp_kept]; done) | split | apply foldl_kept_of | apply foldl_kept_snd_of | apply foldl_kept_fst_of | intro _ _ | dsimp only | simp (disch := first | assumption | (simp only [away]; omega) | simp only [onRing_away, ringEnabled_away, ringErr_away, ringCause_away, ringArmed_away, ringProd_away, ringCons_away]) only [keeps_next, State.ite_kept, ite_self, State.setCmp_kept]))

theorem execCmpPulseEnd_kept (dt : Nat) (n : Fin 48) (s : State) : keeps (execCmpPulseEnd dt n s) (s.advance dt).kept := by
  unfold execCmpPulseEnd
  generalize s.advance dt = s
  (repeat' (first | rw [keeps_next] | apply whenOn_keeps | with_reducible rfl | (simp (disch := first | assumption | (simp only [away]; omega) | simp only [onRing_away, ringEnabled_away, ringErr_away, ringCause_away, ringArmed_away, ringProd_away, ringCons_away]) only [keeps_next, State.ite_kept, ite_self, State.setCmp_kept]; done) | split | apply foldl_kept_of | apply foldl_kept_snd_of | apply foldl_kept_fst_of | intro _ _ | dsimp only | simp (disch := first | assumption | (simp only [away]; omega) | simp only [onRing_away, ringEnabled_away, ringErr_away, ringCause_away, ringArmed_away, ringProd_away, ringCons_away]) only [keeps_next, State.ite_kept, ite_self, State.setCmp_kept]))

theorem execCmpTimePulse_kept (dt : Nat) (n : Fin 48) (s : State) : keeps (execCmpTimePulse dt n s) (s.advance dt).kept := by
  unfold execCmpTimePulse
  generalize s.advance dt = s
  (repeat' (first | rw [keeps_next] | apply whenOn_keeps | with_reducible rfl | (simp (disch := first | assumption | (simp only [away]; omega) | simp only [onRing_away, ringEnabled_away, ringErr_away, ringCause_away, ringArmed_away, ringProd_away, ringCons_away]) only [keeps_next, State.ite_kept, ite_self, State.fireTime_kept]; done) | split | apply foldl_kept_of | apply foldl_kept_snd_of | apply foldl_kept_fst_of | intro _ _ | dsimp only | simp (disch := first | assumption | (simp only [away]; omega) | simp only [onRing_away, ringEnabled_away, ringErr_away, ringCause_away, ringArmed_away, ringProd_away, ringCons_away]) only [keeps_next, State.ite_kept, ite_self, State.fireTime_kept]))

theorem execObserverTick_kept (dt : Nat) (k : Fin 5) (s : State) : keeps (execObserverTick dt k s) (s.advance dt).kept := by
  unfold execObserverTick
  generalize s.advance dt = s
  (repeat' (first | rw [keeps_next] | apply whenOn_keeps | with_reducible rfl | (simp (disch := first | assumption | (simp only [away]; omega) | simp only [onRing_away, ringEnabled_away, ringErr_away, ringCause_away, ringArmed_away, ringProd_away, ringCons_away]) only [keeps_next, State.ite_kept, ite_self, State.updateInst_kept, State.updated_kept]; done) | split | apply foldl_kept_of | apply foldl_kept_snd_of | apply foldl_kept_fst_of | intro _ _ | dsimp only | simp (disch := first | assumption | (simp only [away]; omega) | simp only [onRing_away, ringEnabled_away, ringErr_away, ringCause_away, ringArmed_away, ringProd_away, ringCons_away]) only [keeps_next, State.ite_kept, ite_self, State.updateInst_kept, State.updated_kept]))

theorem execPosValid_kept (dt : Nat) (s : State) : keeps (execPosValid dt s) (s.advance dt).kept := by
  unfold execPosValid
  generalize s.advance dt = s
  (repeat' (first | rw [keeps_next] | apply whenOn_keeps | with_reducible rfl | (simp (disch := first | assumption | (simp only [away, Reg.OBS_STATUS_pos_valid]; omega) | simp only [onRing_away, ringEnabled_away, ringErr_away, ringCause_away, ringArmed_away, ringProd_away, ringCons_away]) only [keeps_next, State.ite_kept, ite_self, State.raise_kept, State.refresh_kept]; done) | split | apply foldl_kept_of | apply foldl_kept_snd_of | apply foldl_kept_fst_of | intro _ _ | dsimp only | simp (disch := first | assumption | (simp only [away, Reg.OBS_STATUS_pos_valid]; omega) | simp only [onRing_away, ringEnabled_away, ringErr_away, ringCause_away, ringArmed_away, ringProd_away, ringCons_away]) only [keeps_next, State.ite_kept, ite_self, State.raise_kept, State.refresh_kept]))

theorem execSourceFailed_kept (dt : Nat) (k : Fin 5) (s : State) : keeps (execSourceFailed dt k s) (s.advance dt).kept := by
  unfold execSourceFailed
  generalize s.advance dt = s
  (repeat' (first | rw [keeps_next] | apply whenOn_keeps | with_reducible rfl | (simp (disch := first | assumption | (simp only [away]; omega) | simp only [onRing_away, ringEnabled_away, ringErr_away, ringCause_away, ringArmed_away, ringProd_away, ringCons_away]) only [keeps_next, State.ite_kept, ite_self, State.sources_kept, State.stopSource_kept]; done) | split | apply foldl_kept_of | apply foldl_kept_snd_of | apply foldl_kept_fst_of | intro _ _ | dsimp only | simp (disch := first | assumption | (simp only [away]; omega) | simp only [onRing_away, ringEnabled_away, ringErr_away, ringCause_away, ringArmed_away, ringProd_away, ringCons_away]) only [keeps_next, State.ite_kept, ite_self, State.sources_kept, State.stopSource_kept]))

theorem execObsSnapshot_kept (dt : Nat) (s : State) : keeps (execObsSnapshot dt s) (s.advance dt).kept := by
  unfold execObsSnapshot
  generalize s.advance dt = s
  (repeat' (first | rw [keeps_next] | apply whenOn_keeps | refine (State.hostWrite_kept _ _ _ ?_).trans ?_ | with_reducible rfl | (simp (disch := first | assumption | (simp only [away, Reg.OBS_CTRL_snapshot]; omega) | simp only [onRing_away, ringEnabled_away, ringErr_away, ringCause_away, ringArmed_away, ringProd_away, ringCons_away]) only [keeps_next, State.ite_kept, ite_self, State.obsSnapshot_kept]; done) | split | apply foldl_kept_of | apply foldl_kept_snd_of | apply foldl_kept_fst_of | intro _ _ | dsimp only | simp (disch := first | assumption | (simp only [away, Reg.OBS_CTRL_snapshot]; omega) | simp only [onRing_away, ringEnabled_away, ringErr_away, ringCause_away, ringArmed_away, ringProd_away, ringCons_away]) only [keeps_next, State.ite_kept, ite_self, State.obsSnapshot_kept]))

theorem execObsReadmit_kept (dt : Nat) (s : State) : keeps (execObsReadmit dt s) (s.advance dt).kept := by
  unfold execObsReadmit
  generalize s.advance dt = s
  (repeat' (first | rw [keeps_next] | apply whenOn_keeps | refine (State.hostWrite_kept _ _ _ ?_).trans ?_ | with_reducible rfl | (simp (disch := first | assumption | (simp only [away, Reg.OBS_CTRL_readmit]; omega) | simp only [onRing_away, ringEnabled_away, ringErr_away, ringCause_away, ringArmed_away, ringProd_away, ringCons_away]) only [keeps_next, State.ite_kept, ite_self, State.readmit_kept]; done) | split | apply foldl_kept_of | apply foldl_kept_snd_of | apply foldl_kept_fst_of | intro _ _ | dsimp only | simp (disch := first | assumption | (simp only [away, Reg.OBS_CTRL_readmit]; omega) | simp only [onRing_away, ringEnabled_away, ringErr_away, ringCause_away, ringArmed_away, ringProd_away, ringCons_away]) only [keeps_next, State.ite_kept, ite_self, State.readmit_kept]))

theorem execObsResync_kept (dt : Nat) (s : State) : keeps (execObsResync dt s) (s.advance dt).kept := by
  unfold execObsResync
  generalize s.advance dt = s
  (repeat' (first | rw [keeps_next] | apply whenOn_keeps | refine (State.hostWrite_kept _ _ _ ?_).trans ?_ | with_reducible rfl | (simp (disch := first | assumption | (simp only [away, Reg.OBS_CTRL_resync]; omega) | simp only [onRing_away, ringEnabled_away, ringErr_away, ringCause_away, ringArmed_away, ringProd_away, ringCons_away]) only [keeps_next, State.ite_kept, ite_self, State.resync_kept]; done) | split | apply foldl_kept_of | apply foldl_kept_snd_of | apply foldl_kept_fst_of | intro _ _ | dsimp only | simp (disch := first | assumption | (simp only [away, Reg.OBS_CTRL_resync]; omega) | simp only [onRing_away, ringEnabled_away, ringErr_away, ringCause_away, ringArmed_away, ringProd_away, ringCons_away]) only [keeps_next, State.ite_kept, ite_self, State.resync_kept]))

theorem execEncEnable_kept (dt : Nat) (n : Fin 4) (cfg : BitVec 32) (s : State) : keeps (execEncEnable dt n cfg s) (s.advance dt).kept := by
  unfold execEncEnable
  generalize s.advance dt = s
  (repeat' (first | rw [keeps_next] | apply whenOn_keeps | refine (State.hostWrite_kept _ _ _ ?_).trans ?_ | with_reducible rfl | (simp (disch := first | assumption | (simp only [away, Reg.ENCn_CFG_enable]; omega) | simp only [onRing_away, ringEnabled_away, ringErr_away, ringCause_away, ringArmed_away, ringProd_away, ringCons_away]) only [keeps_next, State.ite_kept, ite_self, State.encCfg_kept]; done) | split | apply foldl_kept_of | apply foldl_kept_snd_of | apply foldl_kept_fst_of | intro _ _ | dsimp only | simp (disch := first | assumption | (simp only [away, Reg.ENCn_CFG_enable]; omega) | simp only [onRing_away, ringEnabled_away, ringErr_away, ringCause_away, ringArmed_away, ringProd_away, ringCons_away]) only [keeps_next, State.ite_kept, ite_self, State.encCfg_kept]))

theorem execIndexDriftWrite_kept (dt : Nat) (n : Fin 4) (v : BitVec 32) (s : State) : keeps (execIndexDriftWrite dt n v s) (s.advance dt).kept := by
  unfold execIndexDriftWrite
  generalize s.advance dt = s
  (repeat' (first | rw [keeps_next] | apply whenOn_keeps | refine (State.hostWrite_kept _ _ _ ?_).trans ?_ | with_reducible rfl | (simp (disch := first | assumption | (simp only [away, Reg.ENCn_INDEX_DRIFT_drift]; omega) | simp only [onRing_away, ringEnabled_away, ringErr_away, ringCause_away, ringArmed_away, ringProd_away, ringCons_away]) only [keeps_next, State.ite_kept, ite_self, State.driftWrite_kept]; done) | split | apply foldl_kept_of | apply foldl_kept_snd_of | apply foldl_kept_fst_of | intro _ _ | dsimp only | simp (disch := first | assumption | (simp only [away, Reg.ENCn_INDEX_DRIFT_drift]; omega) | simp only [onRing_away, ringEnabled_away, ringErr_away, ringCause_away, ringArmed_away, ringProd_away, ringCons_away]) only [keeps_next, State.ite_kept, ite_self, State.driftWrite_kept]))

theorem execTrigEnable_kept (dt : Nat) (n : Fin 8) (cfg : BitVec 32) (s : State) : keeps (execTrigEnable dt n cfg s) (s.advance dt).kept := by
  unfold execTrigEnable
  generalize s.advance dt = s
  (repeat' (first | rw [keeps_next] | apply whenOn_keeps | refine (State.hostWrite_kept _ _ _ ?_).trans ?_ | with_reducible rfl | (simp (disch := first | assumption | (simp only [away, Reg.TRIGn_CFG_enable]; omega) | simp only [onRing_away, ringEnabled_away, ringErr_away, ringCause_away, ringArmed_away, ringProd_away, ringCons_away]) only [keeps_next, State.ite_kept, ite_self, State.trigCfg_kept]; done) | split | apply foldl_kept_of | apply foldl_kept_snd_of | apply foldl_kept_fst_of | intro _ _ | dsimp only | simp (disch := first | assumption | (simp only [away, Reg.TRIGn_CFG_enable]; omega) | simp only [onRing_away, ringEnabled_away, ringErr_away, ringCause_away, ringArmed_away, ringProd_away, ringCons_away]) only [keeps_next, State.ite_kept, ite_self, State.trigCfg_kept]))

theorem execTrigPop_kept (dt : Nat) (n : Fin 8) (s : State) : keeps (execTrigPop dt n s) (s.advance dt).kept := by
  unfold execTrigPop
  generalize s.advance dt = s
  (repeat' (first | rw [keeps_next] | apply whenOn_keeps | refine (State.hostWrite_kept _ _ _ ?_).trans ?_ | with_reducible rfl | (simp (disch := first | assumption | (simp only [away, Reg.TRIGn_POP_pop]; omega) | simp only [onRing_away, ringEnabled_away, ringErr_away, ringCause_away, ringArmed_away, ringProd_away, ringCons_away]) only [keeps_next, State.ite_kept, ite_self, State.popCapture_kept]; done) | split | apply foldl_kept_of | apply foldl_kept_snd_of | apply foldl_kept_fst_of | intro _ _ | dsimp only | simp (disch := first | assumption | (simp only [away, Reg.TRIGn_POP_pop]; omega) | simp only [onRing_away, ringEnabled_away, ringErr_away, ringCause_away, ringArmed_away, ringProd_away, ringCons_away]) only [keeps_next, State.ite_kept, ite_self, State.popCapture_kept]))

theorem execEncoderEdge_kept (dt : Nat) (levels : BitVec 20) (s : State) : keeps (execEncoderEdge dt levels s) (s.advance dt).kept := by
  unfold execEncoderEdge
  rw [keeps_next]
  exact State.sampleBalls_kept _ _ _

theorem execIndexLatch_kept (dt : Nat) (levels : BitVec 20) (s : State) : keeps (execIndexLatch dt levels s) (s.advance dt).kept := by
  unfold execIndexLatch
  rw [keeps_next]
  exact State.sampleBalls_kept _ _ _

theorem execTrigCapture_kept (dt : Nat) (levels : BitVec 20) (s : State) : keeps (execTrigCapture dt levels s) (s.advance dt).kept := by
  unfold execTrigCapture
  rw [keeps_next]
  exact State.sampleBalls_kept _ _ _

theorem execTableTakesEffect_kept (dt : Nat) (kind : Fin 13) (index : Fin 32) (sub : Fin 4) (s : State) : keeps (execTableTakesEffect dt kind index sub s) (s.advance dt).kept := by
  unfold execTableTakesEffect
  generalize s.advance dt = s
  (try dsimp only); (repeat' split) <;> simp (disch := first | assumption | (simp only [away]; omega) | simp only [onRing_away, ringEnabled_away, ringErr_away, ringCause_away, ringArmed_away, ringProd_away, ringCons_away]) only [keeps_next, State.ite_kept, ite_self, State.fixLines_kept, State.takeEffect_kept, State.unstage_kept]

theorem execOriginSet_kept (dt : Nat) (s : State) : keeps (execOriginSet dt s) (s.advance dt).kept := by
  unfold execOriginSet
  generalize s.advance dt = s
  (repeat' (first | rw [keeps_next] | apply whenOn_keeps | with_reducible rfl | (simp (disch := first | assumption | (simp only [away, Reg.OBS_STATUS_pos_valid]; omega) | simp only [onRing_away, ringEnabled_away, ringErr_away, ringCause_away, ringArmed_away, ringProd_away, ringCons_away]) only [keeps_next, State.ite_kept, ite_self, State.ignoreEdge_kept, State.modSched_kept, State.partings_kept, State.setOrigin_kept]; done) | split | apply foldl_kept_of | apply foldl_kept_snd_of | apply foldl_kept_fst_of | intro _ _ | dsimp only | simp (disch := first | assumption | (simp only [away, Reg.OBS_STATUS_pos_valid]; omega) | simp only [onRing_away, ringEnabled_away, ringErr_away, ringCause_away, ringArmed_away, ringProd_away, ringCons_away]) only [keeps_next, State.ite_kept, ite_self, State.ignoreEdge_kept, State.modSched_kept, State.partings_kept, State.setOrigin_kept]))

theorem execBindSend_kept (dt : Nat) (h : Fin 256) (s : State) : keeps (execBindSend dt h s) (s.advance dt).kept := by
  unfold execBindSend
  generalize s.advance dt = s
  (try dsimp only); (repeat' split) <;> simp (disch := first | assumption | (simp only [away, Reg.PAIR_CFG_end]; omega) | simp only [onRing_away, ringEnabled_away, ringErr_away, ringCause_away, ringArmed_away, ringProd_away, ringCons_away]) only [keeps_next, State.ite_kept, ite_self, State.bindMore_kept, State.releaseDue_kept, State.retireHead_kept, State.sendBind_kept, State.settleRuns_kept]

theorem execSheetMissing_kept (dt : Nat) (s : State) : keeps (execSheetMissing dt s) (s.advance dt).kept := by
  unfold execSheetMissing
  generalize s.advance dt = s
  (try dsimp only); (repeat' split) <;> simp (disch := first | assumption | (simp only [away, Reg.LS_SHEET_GAP_max_gap_lines, Reg.LS_STATUS_sheet_missing]; omega) | simp only [onRing_away, ringEnabled_away, ringErr_away, ringCause_away, ringArmed_away, ringProd_away, ringCons_away]) only [keeps_next, State.ite_kept, ite_self, State.modSched_kept, State.post_kept, State.raise_kept]

theorem execStreamEnd_kept (dt : Nat) (s : State) : keeps (execStreamEnd dt s) (s.advance dt).kept := by
  unfold execStreamEnd
  generalize s.advance dt = s
  (try dsimp only); (repeat' split) <;> simp (disch := first | assumption | (simp only [away, Reg.LS_STATUS_draining]; omega) | simp only [onRing_away, ringEnabled_away, ringErr_away, ringCause_away, ringArmed_away, ringProd_away, ringCons_away]) only [keeps_next, State.ite_kept, ite_self, State.enter_kept, State.post_kept, State.raise_kept]

theorem execDrainComplete_kept (dt : Nat) (s : State) : keeps (execDrainComplete dt s) (s.advance dt).kept := by
  unfold execDrainComplete
  generalize s.advance dt = s
  (try dsimp only); (repeat' split) <;> simp (disch := first | assumption | (simp only [away]; omega) | simp only [onRing_away, ringEnabled_away, ringErr_away, ringCause_away, ringArmed_away, ringProd_away, ringCons_away]) only [keeps_next, State.ite_kept, ite_self, State.endStream_kept, State.releaseDue_kept]

theorem execLeadWrite_kept (dt : Nat) (v : BitVec 32) (s : State) : keeps (execLeadWrite dt v s) (s.advance dt).kept := by
  unfold execLeadWrite
  generalize s.advance dt = s
  (repeat' (first | rw [keeps_next] | apply whenOn_keeps | refine (State.hostWrite_kept _ _ _ ?_).trans ?_ | with_reducible rfl | (simp (disch := first | assumption | (simp only [away, Reg.LS_LEAD_lead]; omega) | simp only [onRing_away, ringEnabled_away, ringErr_away, ringCause_away, ringArmed_away, ringProd_away, ringCons_away]) only [keeps_next, State.ite_kept, ite_self, State.leadWrite_kept]; done) | split | apply foldl_kept_of | apply foldl_kept_snd_of | apply foldl_kept_fst_of | intro _ _ | dsimp only | simp (disch := first | assumption | (simp only [away, Reg.LS_LEAD_lead]; omega) | simp only [onRing_away, ringEnabled_away, ringErr_away, ringCause_away, ringArmed_away, ringProd_away, ringCons_away]) only [keeps_next, State.ite_kept, ite_self, State.leadWrite_kept]))

theorem execSeamAssemble_kept (dt : Nat) (h : Fin 256) (s : State) : keeps (execSeamAssemble dt h s) (s.advance dt).kept := by
  unfold execSeamAssemble
  generalize s.advance dt = s
  (repeat' (first | rw [keeps_next] | apply whenOn_keeps | with_reducible rfl | (simp (disch := first | assumption | (simp only [away]; omega) | simp only [onRing_away, ringEnabled_away, ringErr_away, ringCause_away, ringArmed_away, ringProd_away, ringCons_away]) only [keeps_next, State.ite_kept, ite_self, State.onHead_kept, State.seamPoison_kept]; done) | split | apply foldl_kept_of | apply foldl_kept_snd_of | apply foldl_kept_fst_of | intro _ _ | dsimp only | simp (disch := first | assumption | (simp only [away]; omega) | simp only [onRing_away, ringEnabled_away, ringErr_away, ringCause_away, ringArmed_away, ringProd_away, ringCons_away]) only [keeps_next, State.ite_kept, ite_self, State.onHead_kept, State.seamPoison_kept]))

theorem execMapDataSend_kept (dt : Nat) (h : Fin 256) (s : State) : keeps (execMapDataSend dt h s) (s.advance dt).kept := by
  unfold execMapDataSend
  generalize s.advance dt = s
  (repeat' (first | rw [keeps_next] | apply whenOn_keeps | with_reducible rfl | (simp (disch := first | assumption | (simp only [away]; omega) | simp only [onRing_away, ringEnabled_away, ringErr_away, ringCause_away, ringArmed_away, ringProd_away, ringCons_away]) only [keeps_next, State.ite_kept, ite_self, State.stageMap_kept]; done) | split | apply foldl_kept_of | apply foldl_kept_snd_of | apply foldl_kept_fst_of | intro _ _ | dsimp only | simp (disch := first | assumption | (simp only [away]; omega) | simp only [onRing_away, ringEnabled_away, ringErr_away, ringCause_away, ringArmed_away, ringProd_away, ringCons_away]) only [keeps_next, State.ite_kept, ite_self, State.stageMap_kept]))

theorem execMapCommitSend_kept (dt : Nat) (h : Fin 256) (s : State) : keeps (execMapCommitSend dt h s) (s.advance dt).kept := by
  unfold execMapCommitSend
  generalize s.advance dt = s
  (repeat' (first | rw [keeps_next] | apply whenOn_keeps | with_reducible rfl | (simp (disch := first | assumption | (simp only [away]; omega) | simp only [onRing_away, ringEnabled_away, ringErr_away, ringCause_away, ringArmed_away, ringProd_away, ringCons_away]) only [keeps_next, State.ite_kept, ite_self, State.commitMap_kept, State.fixLines_kept]; done) | split | apply foldl_kept_of | apply foldl_kept_snd_of | apply foldl_kept_fst_of | intro _ _ | dsimp only | simp (disch := first | assumption | (simp only [away]; omega) | simp only [onRing_away, ringEnabled_away, ringErr_away, ringCause_away, ringArmed_away, ringProd_away, ringCons_away]) only [keeps_next, State.ite_kept, ite_self, State.commitMap_kept, State.fixLines_kept]))

theorem execBankSpareSwitch_kept (dt : Nat) (q : Fin 10) (s : State) : keeps (execBankSpareSwitch dt q s) (s.advance dt).kept := by
  unfold execBankSpareSwitch
  generalize s.advance dt = s
  (repeat' (first | rw [keeps_next] | apply whenOn_keeps | with_reducible rfl | (simp (disch := first | assumption | (simp only [away, Reg.SEAM_PLANEq_copying, Reg.SEAM_PLANEq_spare_in_use, Reg.SEAM_PLANEq_spared_bank, Reg.SEAM_STATUS_bank_spared]; omega) | simp only [onRing_away, ringEnabled_away, ringErr_away, ringCause_away, ringArmed_away, ringProd_away, ringCons_away]) only [keeps_next, State.ite_kept, ite_self, State.clear_kept, State.endOp_kept, State.modSeam_kept, State.post_kept, State.raise_kept, State.set_kept]; done) | split | apply foldl_kept_of | apply foldl_kept_snd_of | apply foldl_kept_fst_of | intro _ _ | dsimp only | simp (disch := first | assumption | (simp only [away, Reg.SEAM_PLANEq_copying, Reg.SEAM_PLANEq_spare_in_use, Reg.SEAM_PLANEq_spared_bank, Reg.SEAM_STATUS_bank_spared]; omega) | simp only [onRing_away, ringEnabled_away, ringErr_away, ringCause_away, ringArmed_away, ringProd_away, ringCons_away]) only [keeps_next, State.ite_kept, ite_self, State.clear_kept, State.endOp_kept, State.modSeam_kept, State.post_kept, State.raise_kept, State.set_kept]))

theorem execRingBreak_kept (dt : Nat) (str : Fin 32) (hop : Fin 9) (s : State) : keeps (execRingBreak dt str hop s) (s.advance dt).kept := by
  unfold execRingBreak
  generalize s.advance dt = s
  (repeat' (first | rw [keeps_next] | apply whenOn_keeps | with_reducible rfl | (simp (disch := first | assumption | (simp only [away]; omega) | simp only [onRing_away, ringEnabled_away, ringErr_away, ringCause_away, ringArmed_away, ringProd_away, ringCons_away]) only [keeps_next, State.ite_kept, ite_self, State.breakHop_kept]; done) | split | apply foldl_kept_of | apply foldl_kept_snd_of | apply foldl_kept_fst_of | intro _ _ | dsimp only | simp (disch := first | assumption | (simp only [away]; omega) | simp only [onRing_away, ringEnabled_away, ringErr_away, ringCause_away, ringArmed_away, ringProd_away, ringCons_away]) only [keeps_next, State.ite_kept, ite_self, State.breakHop_kept]))

theorem execRingRestored_kept (dt : Nat) (str : Fin 32) (hop : Fin 9) (s : State) : keeps (execRingRestored dt str hop s) (s.advance dt).kept := by
  unfold execRingRestored
  generalize s.advance dt = s
  (repeat' (first | rw [keeps_next] | apply whenOn_keeps | with_reducible rfl | (simp (disch := first | assumption | (simp only [away]; omega) | simp only [onRing_away, ringEnabled_away, ringErr_away, ringCause_away, ringArmed_away, ringProd_away, ringCons_away]) only [keeps_next, State.ite_kept, ite_self, State.restoreHop_kept]; done) | split | apply foldl_kept_of | apply foldl_kept_snd_of | apply foldl_kept_fst_of | intro _ _ | dsimp only | simp (disch := first | assumption | (simp only [away]; omega) | simp only [onRing_away, ringEnabled_away, ringErr_away, ringCause_away, ringArmed_away, ringProd_away, ringCons_away]) only [keeps_next, State.ite_kept, ite_self, State.restoreHop_kept]))

theorem execSliceBeginLine_kept (dt : Nat) (q : Fin 10) (s : State) : keeps (execSliceBeginLine dt q s) (s.advance dt).kept := by
  unfold execSliceBeginLine
  generalize s.advance dt = s
  (repeat' (first | rw [keeps_next] | apply whenOn_keeps | with_reducible rfl | (simp (disch := first | assumption | (simp only [away, Reg.RSn_LATE_COUNT, Reg.RSn_STATUS_state]; omega) | simp only [onRing_away, ringEnabled_away, ringErr_away, ringCause_away, ringArmed_away, ringProd_away, ringCons_away]) only [keeps_next, State.ite_kept, ite_self, State.blockEnds_kept, State.bump_kept, State.closeBehind_kept, State.commit_kept, State.completeLine_kept, State.deliver_kept, State.formUsable_kept, State.noteCopyStart_kept, State.onPlane_kept, State.set_kept, State.switchPlane_kept]; done) | split | apply foldl_kept_of | apply foldl_kept_snd_of | apply foldl_kept_fst_of | intro _ _ | dsimp only | simp (disch := first | assumption | (simp only [away, Reg.RSn_LATE_COUNT, Reg.RSn_STATUS_state]; omega) | simp only [onRing_away, ringEnabled_away, ringErr_away, ringCause_away, ringArmed_away, ringProd_away, ringCons_away]) only [keeps_next, State.ite_kept, ite_self, State.blockEnds_kept, State.bump_kept, State.closeBehind_kept, State.commit_kept, State.completeLine_kept, State.deliver_kept, State.formUsable_kept, State.noteCopyStart_kept, State.onPlane_kept, State.set_kept, State.switchPlane_kept]))

theorem execBlockFetch_kept (dt : Nat) (q : Fin 10) (wait : StoreWait) (s : State) : keeps (execBlockFetch dt q wait s) (s.advance dt).kept := by
  unfold execBlockFetch
  generalize s.advance dt = s
  (repeat' (first | rw [keeps_next] | apply whenOn_keeps | with_reducible rfl | (simp (disch := first | assumption | (simp only [away]; omega) | simp only [onRing_away, ringEnabled_away, ringErr_away, ringCause_away, ringArmed_away, ringProd_away, ringCons_away]) only [keeps_next, State.ite_kept, ite_self, State.noteKey_kept, State.onPlane_kept, State.post_kept, State.refresh_kept, State.serveStore_kept]; done) | split | apply foldl_kept_of | apply foldl_kept_snd_of | apply foldl_kept_fst_of | intro _ _ | dsimp only | simp (disch := first | assumption | (simp only [away]; omega) | simp only [onRing_away, ringEnabled_away, ringErr_away, ringCause_away, ringArmed_away, ringProd_away, ringCons_away]) only [keeps_next, State.ite_kept, ite_self, State.noteKey_kept, State.onPlane_kept, State.post_kept, State.refresh_kept, State.serveStore_kept]))

theorem execBlockVerify_kept (dt : Nat) (q : Fin 10) (s : State) : keeps (execBlockVerify dt q s) (s.advance dt).kept := by
  unfold execBlockVerify
  generalize s.advance dt = s
  (repeat' (first | rw [keeps_next] | apply whenOn_keeps | with_reducible rfl | (simp (disch := first | assumption | (simp only [away]; omega) | simp only [onRing_away, ringEnabled_away, ringErr_away, ringCause_away, ringArmed_away, ringProd_away, ringCons_away]) only [keeps_next, State.ite_kept, ite_self, State.completeLine_kept, State.onPlane_kept]; done) | split | apply foldl_kept_of | apply foldl_kept_snd_of | apply foldl_kept_fst_of | intro _ _ | dsimp only | simp (disch := first | assumption | (simp only [away]; omega) | simp only [onRing_away, ringEnabled_away, ringErr_away, ringCause_away, ringArmed_away, ringProd_away, ringCons_away]) only [keeps_next, State.ite_kept, ite_self, State.completeLine_kept, State.onPlane_kept]))

end Sys2Proof.Machine
end

