-- ==== Sys2Proof/Laws/Keeps2.lean ====
section
/-! SUPPORT. Meanings that answer a next state and leave the kept words alone. -/

set_option linter.all false

namespace Sys2Proof.Machine

theorem execSpareAuditLine_kept (dt : Nat) (crc : Option (BitVec 32)) (s : State) : keeps (execSpareAuditLine dt crc s) (s.advance dt).kept := by
  unfold execSpareAuditLine
  generalize s.advance dt = s
  (repeat' (first | rw [keeps_next] | apply whenOn_keeps | with_reducible rfl | (simp (disch := first | assumption | (simp only [away, Reg.RS_AUDIT_COUNT, Reg.RS_AUDIT_MISMATCH, Reg.RS_SPARE_STATUS_mismatch, Reg.RS_SPARE_STATUS_state]; omega) | simp only [onRing_away, ringEnabled_away, ringErr_away, ringCause_away, ringArmed_away, ringProd_away, ringCons_away]) only [keeps_next, State.ite_kept, ite_self, State.bump_kept, State.failSlice_kept, State.modRaster_kept, State.onPlane_kept, State.post_kept, State.raise_kept]; done) | split | apply foldl_kept_of | apply foldl_kept_snd_of | apply foldl_kept_fst_of | intro _ _ | dsimp only | simp (disch := first | assumption | (simp only [away, Reg.RS_AUDIT_COUNT, Reg.RS_AUDIT_MISMATCH, Reg.RS_SPARE_STATUS_mismatch, Reg.RS_SPARE_STATUS_state]; omega) | simp only [onRing_away, ringEnabled_away, ringErr_away, ringCause_away, ringArmed_away, ringProd_away, ringCons_away]) only [keeps_next, State.ite_kept, ite_self, State.bump_kept, State.failSlice_kept, State.modRaster_kept, State.onPlane_kept, State.post_kept, State.raise_kept]))

theorem execSliceLineTimeout_kept (dt : Nat) (n : Fin 11) (s : State) : keeps (execSliceLineTimeout dt n s) (s.advance dt).kept := by
  unfold execSliceLineTimeout
  generalize s.advance dt = s
  (repeat' (first | rw [keeps_next] | apply whenOn_keeps | with_reducible rfl | (simp (disch := first | assumption | (simp only [away]; omega) | simp only [onRing_away, ringEnabled_away, ringErr_away, ringCause_away, ringArmed_away, ringProd_away, ringCons_away]) only [keeps_next, State.ite_kept, ite_self, State.failSlice_kept]; done) | split | apply foldl_kept_of | apply foldl_kept_snd_of | apply foldl_kept_fst_of | intro _ _ | dsimp only | simp (disch := first | assumption | (simp only [away]; omega) | simp only [onRing_away, ringEnabled_away, ringErr_away, ringCause_away, ringArmed_away, ringProd_away, ringCons_away]) only [keeps_next, State.ite_kept, ite_self, State.failSlice_kept]))

theorem execSliceTakeover_kept (dt : Nat) (s : State) : keeps (execSliceTakeover dt s) (s.advance dt).kept := by
  unfold execSliceTakeover
  generalize s.advance dt = s
  (repeat' (first | rw [keeps_next] | apply whenOn_keeps | with_reducible rfl | (simp (disch := first | assumption | (simp only [away, Reg.RS_SPARE_STATUS_takeover]; omega) | simp only [onRing_away, ringEnabled_away, ringErr_away, ringCause_away, ringArmed_away, ringProd_away, ringCons_away]) only [keeps_next, State.ite_kept, ite_self, State.deputyFault_kept, State.modRaster_kept, State.noteLost_kept, State.onPlane_kept, State.post_kept, State.raise_kept, State.writeRing_kept]; done) | split | apply foldl_kept_of | apply foldl_kept_snd_of | apply foldl_kept_fst_of | intro _ _ | dsimp only | simp (disch := first | assumption | (simp only [away, Reg.RS_SPARE_STATUS_takeover]; omega) | simp only [onRing_away, ringEnabled_away, ringErr_away, ringCause_away, ringArmed_away, ringProd_away, ringCons_away]) only [keeps_next, State.ite_kept, ite_self, State.deputyFault_kept, State.modRaster_kept, State.noteLost_kept, State.onPlane_kept, State.post_kept, State.raise_kept, State.writeRing_kept]))

theorem execSpareTake_kept (dt : Nat) (n : Fin 16) (s : State) : keeps (execSpareTake dt n s) (s.advance dt).kept := by
  unfold execSpareTake
  generalize s.advance dt = s
  (repeat' (first | rw [keeps_next] | apply whenOn_keeps | refine (State.hostWrite_kept _ _ _ ?_).trans ?_ | with_reducible rfl | (simp (disch := first | assumption | (simp only [away, Reg.RS_SPARE_CTRL_take]; omega) | simp only [onRing_away, ringEnabled_away, ringErr_away, ringCause_away, ringArmed_away, ringProd_away, ringCons_away]) only [keeps_next, State.ite_kept, ite_self, State.spareTake_kept]; done) | split | apply foldl_kept_of | apply foldl_kept_snd_of | apply foldl_kept_fst_of | intro _ _ | dsimp only | simp (disch := first | assumption | (simp only [away, Reg.RS_SPARE_CTRL_take]; omega) | simp only [onRing_away, ringEnabled_away, ringErr_away, ringCause_away, ringArmed_away, ringProd_away, ringCons_away]) only [keeps_next, State.ite_kept, ite_self, State.spareTake_kept]))

theorem execSpareRestore_kept (dt : Nat) (n : Fin 16) (s : State) : keeps (execSpareRestore dt n s) (s.advance dt).kept := by
  unfold execSpareRestore
  generalize s.advance dt = s
  (repeat' (first | rw [keeps_next] | apply whenOn_keeps | refine (State.hostWrite_kept _ _ _ ?_).trans ?_ | with_reducible rfl | (simp (disch := first | assumption | (simp only [away, Reg.RS_SPARE_CTRL_restore]; omega) | simp only [onRing_away, ringEnabled_away, ringErr_away, ringCause_away, ringArmed_away, ringProd_away, ringCons_away]) only [keeps_next, State.ite_kept, ite_self, State.spareRestore_kept]; done) | split | apply foldl_kept_of | apply foldl_kept_snd_of | apply foldl_kept_fst_of | intro _ _ | dsimp only | simp (disch := first | assumption | (simp only [away, Reg.RS_SPARE_CTRL_restore]; omega) | simp only [onRing_away, ringEnabled_away, ringErr_away, ringCause_away, ringArmed_away, ringProd_away, ringCons_away]) only [keeps_next, State.ite_kept, ite_self, State.spareRestore_kept]))

theorem execSliceBistDone_kept (dt : Nat) (pass : Bool) (s : State) : keeps (execSliceBistDone dt pass s) (s.advance dt).kept := by
  unfold execSliceBistDone
  generalize s.advance dt = s
  (repeat' (first | rw [keeps_next] | apply whenOn_keeps | with_reducible rfl | (simp (disch := first | assumption | (simp only [away, Reg.RSn_BIST_done, Reg.RSn_BIST_pass, Reg.RSn_STATUS_plane, Reg.RSn_STATUS_state]; omega) | simp only [onRing_away, ringEnabled_away, ringErr_away, ringCause_away, ringArmed_away, ringProd_away, ringCons_away]) only [keeps_next, State.ite_kept, ite_self, State.modRaster_kept, State.raise_kept, State.setOn_kept, State.setSpare_kept, State.set_kept]; done) | split | apply foldl_kept_of | apply foldl_kept_snd_of | apply foldl_kept_fst_of | intro _ _ | dsimp only | simp (disch := first | assumption | (simp only [away, Reg.RSn_BIST_done, Reg.RSn_BIST_pass, Reg.RSn_STATUS_plane, Reg.RSn_STATUS_state]; omega) | simp only [onRing_away, ringEnabled_away, ringErr_away, ringCause_away, ringArmed_away, ringProd_away, ringCons_away]) only [keeps_next, State.ite_kept, ite_self, State.modRaster_kept, State.raise_kept, State.setOn_kept, State.setSpare_kept, State.set_kept]))

theorem execRecutStart_kept (dt : Nat) (s : State) : keeps (execRecutStart dt s) (s.advance dt).kept := by
  unfold execRecutStart
  generalize s.advance dt = s
  (repeat' (first | rw [keeps_next] | apply whenOn_keeps | with_reducible rfl | (simp (disch := first | assumption | (simp only [away, Reg.RSn_STATUS_state]; omega) | simp only [onRing_away, ringEnabled_away, ringErr_away, ringCause_away, ringArmed_away, ringProd_away, ringCons_away]) only [keeps_next, State.ite_kept, ite_self, State.deputyFault_kept, State.modRaster_kept, State.post_kept, State.setSpare_kept, State.set_kept]; done) | split | apply foldl_kept_of | apply foldl_kept_snd_of | apply foldl_kept_fst_of | intro _ _ | dsimp only | simp (disch := first | assumption | (simp only [away, Reg.RSn_STATUS_state]; omega) | simp only [onRing_away, ringEnabled_away, ringErr_away, ringCause_away, ringArmed_away, ringProd_away, ringCons_away]) only [keeps_next, State.ite_kept, ite_self, State.deputyFault_kept, State.modRaster_kept, State.post_kept, State.setSpare_kept, State.set_kept]))

theorem execRecutDone_kept (dt : Nat) (s : State) : keeps (execRecutDone dt s) (s.advance dt).kept := by
  unfold execRecutDone
  generalize s.advance dt = s
  (repeat' (first | rw [keeps_next] | apply whenOn_keeps | with_reducible rfl | (simp (disch := first | assumption | (simp only [away, Reg.RSn_STATUS_state]; omega) | simp only [onRing_away, ringEnabled_away, ringErr_away, ringCause_away, ringArmed_away, ringProd_away, ringCons_away]) only [keeps_next, State.ite_kept, ite_self, State.modRaster_kept, State.noteRecut_kept, State.onHead_kept, State.post_kept, State.setSpare_kept, State.set_kept]; done) | split | apply foldl_kept_of | apply foldl_kept_snd_of | apply foldl_kept_fst_of | intro _ _ | dsimp only | simp (disch := first | assumption | (simp only [away, Reg.RSn_STATUS_state]; omega) | simp only [onRing_away, ringEnabled_away, ringErr_away, ringCause_away, ringArmed_away, ringProd_away, ringCons_away]) only [keeps_next, State.ite_kept, ite_self, State.modRaster_kept, State.noteRecut_kept, State.onHead_kept, State.post_kept, State.setSpare_kept, State.set_kept]))

theorem execRasterBankRelease_kept (dt : Nat) (kind : Fin 12) (q : Fin 10) (sub : Fin 4) (s : State) : keeps (execRasterBankRelease dt kind q sub s) (s.advance dt).kept := by
  unfold execRasterBankRelease
  generalize s.advance dt = s
  (repeat' (first | rw [keeps_next] | apply whenOn_keeps | with_reducible rfl | (simp (disch := first | assumption | (simp only [away]; omega) | simp only [onRing_away, ringEnabled_away, ringErr_away, ringCause_away, ringArmed_away, ringProd_away, ringCons_away]) only [keeps_next, State.ite_kept, ite_self, State.fixLines_kept, State.setBanks_kept]; done) | split | apply foldl_kept_of | apply foldl_kept_snd_of | apply foldl_kept_fst_of | intro _ _ | dsimp only | simp (disch := first | assumption | (simp only [away]; omega) | simp only [onRing_away, ringEnabled_away, ringErr_away, ringCause_away, ringArmed_away, ringProd_away, ringCons_away]) only [keeps_next, State.ite_kept, ite_self, State.fixLines_kept, State.setBanks_kept]))

theorem execLaneEnable_kept (dt : Nat) (n : Fin 68) (s : State) : keeps (execLaneEnable dt n s) (s.advance dt).kept := by
  unfold execLaneEnable
  generalize s.advance dt = s
  (try dsimp only); (repeat' split) <;> simp (disch := first | assumption | (simp only [away]; omega) | simp only [onRing_away, ringEnabled_away, ringErr_away, ringCause_away, ringArmed_away, ringProd_away, ringCons_away]) only [keeps_next, State.ite_kept, ite_self, State.settleLane_kept, State.startTraining_kept]

theorem execTrainTimeout_kept (dt : Nat) (n : Fin 68) (s : State) : keeps (execTrainTimeout dt n s) (s.advance dt).kept := by
  unfold execTrainTimeout
  generalize s.advance dt = s
  (try dsimp only); (repeat' split) <;> simp (disch := first | assumption | (simp only [away, Reg.LANEn_CFG_max_attempts, Reg.LANEn_CFG_train_timeout_ms, Reg.LANEn_STATUS_attempts, Reg.LANEn_STATUS_train_fail]; omega) | simp only [onRing_away, ringEnabled_away, ringErr_away, ringCause_away, ringArmed_away, ringProd_away, ringCons_away]) only [keeps_next, State.ite_kept, ite_self, State.post_kept, State.raise_kept, State.setLaneState_kept, State.set_kept, State.startAttempt_kept]

theorem execLaneRetrain_kept (dt : Nat) (n : Fin 68) (s : State) : keeps (execLaneRetrain dt n s) (s.advance dt).kept := by
  unfold execLaneRetrain
  rw [keeps_next]
  exact State.laneCtrl_kept _ _ _ fun t => by simp

theorem execSleepTx_kept (dt : Nat) (n : Fin 68) (s : State) : keeps (execSleepTx dt n s) (s.advance dt).kept := by
  unfold execSleepTx
  rw [keeps_next]
  exact State.laneCtrl_kept _ _ _ fun t => by simp

theorem execSleepRx_kept (dt : Nat) (n : Fin 68) (s : State) : keeps (execSleepRx dt n s) (s.advance dt).kept := by
  unfold execSleepRx
  rw [keeps_next]
  exact State.laneCtrl_kept _ _ _ fun t => by simp

theorem execWakeTx_kept (dt : Nat) (n : Fin 68) (s : State) : keeps (execWakeTx dt n s) (s.advance dt).kept := by
  unfold execWakeTx
  rw [keeps_next]
  exact State.laneCtrl_kept _ _ _ fun t => by simp

theorem execWakeRx_kept (dt : Nat) (n : Fin 68) (s : State) : keeps (execWakeRx dt n s) (s.advance dt).kept := by
  unfold execWakeRx
  rw [keeps_next]
  exact State.laneCtrl_kept _ _ _ fun t => by simp

theorem execSignalDetectWake_kept (dt : Nat) (n : Fin 68) (s : State) : keeps (execSignalDetectWake dt n s) (s.advance dt).kept := by
  unfold execSignalDetectWake
  generalize s.advance dt = s
  (try dsimp only); (repeat' split) <;> simp (disch := first | assumption | (simp only [away, Reg.LANEn_STATUS_far_tx_asleep, Reg.LANEn_STATUS_signal]; omega) | simp only [onRing_away, ringEnabled_away, ringErr_away, ringCause_away, ringArmed_away, ringProd_away, ringCons_away]) only [keeps_next, State.ite_kept, ite_self, State.clear_kept, State.onLane_kept, State.raise_kept, State.relock_kept]

theorem execRelockTimeout_kept (dt : Nat) (n : Fin 68) (s : State) : keeps (execRelockTimeout dt n s) (s.advance dt).kept := by
  unfold execRelockTimeout
  generalize s.advance dt = s
  (try dsimp only); (repeat' split) <;> simp (disch := first | assumption | (simp only [away]; omega) | simp only [onRing_away, ringEnabled_away, ringErr_away, ringCause_away, ringArmed_away, ringProd_away, ringCons_away]) only [keeps_next, State.ite_kept, ite_self, State.laneGoesDown_kept]

theorem execEyeStart_kept (dt : Nat) (n : Fin 68) (s : State) : keeps (execEyeStart dt n s) (s.advance dt).kept := by
  unfold execEyeStart
  rw [keeps_next]
  exact State.laneCtrl_kept _ _ _ fun t => by simp

theorem execEyeStop_kept (dt : Nat) (n : Fin 68) (compared errors : Nat) (s : State) : keeps (execEyeStop dt n compared errors s) (s.advance dt).kept := by
  unfold execEyeStop
  rw [keeps_next]
  exact State.laneCtrl_kept _ _ _ fun t => by simp

theorem execEyeScanDone_kept (dt : Nat) (n : Fin 68) (errors : Nat) (s : State) : keeps (execEyeScanDone dt n errors s) (s.advance dt).kept := by
  unfold execEyeScanDone
  generalize s.advance dt = s
  (try dsimp only); (repeat' split) <;> simp (disch := first | assumption | (simp only [away]; omega) | simp only [onRing_away, ringEnabled_away, ringErr_away, ringCause_away, ringArmed_away, ringProd_away, ringCons_away]) only [keeps_next, State.ite_kept, ite_self, State.eyeResult_kept]

theorem execSyncRequestSend_kept (dt : Nat) (a : Fin 256) (s : State) : keeps (execSyncRequestSend dt a s) (s.advance dt).kept := by
  unfold execSyncRequestSend
  generalize s.advance dt = s
  (repeat' (first | rw [keeps_next] | apply whenOn_keeps | with_reducible rfl | (simp (disch := first | assumption | (simp only [away]; omega) | simp only [onRing_away, ringEnabled_away, ringErr_away, ringCause_away, ringArmed_away, ringProd_away, ringCons_away]) only [keeps_next, State.ite_kept, ite_self, State.requestSync_kept]; done) | split | apply foldl_kept_of | apply foldl_kept_snd_of | apply foldl_kept_fst_of | intro _ _ | dsimp only | simp (disch := first | assumption | (simp only [away]; omega) | simp only [onRing_away, ringEnabled_away, ringErr_away, ringCause_away, ringArmed_away, ringProd_away, ringCons_away]) only [keeps_next, State.ite_kept, ite_self, State.requestSync_kept]))

theorem execNodeIdentify_kept (dt : Nat) (a : Fin 256) (s : State) : keeps (execNodeIdentify dt a s) (s.advance dt).kept := by
  unfold execNodeIdentify
  generalize s.advance dt = s
  (repeat' (first | rw [keeps_next] | apply whenOn_keeps | with_reducible rfl | (simp (disch := first | assumption | (simp only [away, Reg.LINKs_STATUS_reachable, Reg.NODEa_STATE_state]; omega) | simp only [onRing_away, ringEnabled_away, ringErr_away, ringCause_away, ringArmed_away, ringProd_away, ringCons_away]) only [keeps_next, State.ite_kept, ite_self, State.deputyFault_kept, State.identify_kept]; done) | split | apply foldl_kept_of | apply foldl_kept_snd_of | apply foldl_kept_fst_of | intro _ _ | dsimp only | simp (disch := first | assumption | (simp only [away, Reg.LINKs_STATUS_reachable, Reg.NODEa_STATE_state]; omega) | simp only [onRing_away, ringEnabled_away, ringErr_away, ringCause_away, ringArmed_away, ringProd_away, ringCons_away]) only [keeps_next, State.ite_kept, ite_self, State.deputyFault_kept, State.identify_kept]))

theorem execIdentifyStepTimeout_kept (dt : Nat) (a : Fin 256) (s : State) : keeps (execIdentifyStepTimeout dt a s) (s.advance dt).kept := by
  unfold execIdentifyStepTimeout
  generalize s.advance dt = s
  (repeat' (first | rw [keeps_next] | apply whenOn_keeps | with_reducible rfl | (simp (disch := first | assumption | (simp only [away, Reg.NODEa_STATE_state]; omega) | simp only [onRing_away, ringEnabled_away, ringErr_away, ringCause_away, ringArmed_away, ringProd_away, ringCons_away]) only [keeps_next, State.ite_kept, ite_self, State.notServed_kept, State.onNode_kept, State.sendStep_kept, State.wakeReroute_kept]; done) | split | apply foldl_kept_of | apply foldl_kept_snd_of | apply foldl_kept_fst_of | intro _ _ | dsimp only | simp (disch := first | assumption | (simp only [away, Reg.NODEa_STATE_state]; omega) | simp only [onRing_away, ringEnabled_away, ringErr_away, ringCause_away, ringArmed_away, ringProd_away, ringCons_away]) only [keeps_next, State.ite_kept, ite_self, State.notServed_kept, State.onNode_kept, State.sendStep_kept, State.wakeReroute_kept]))

theorem execNodeLost_kept (dt : Nat) (a : Fin 256) (s : State) : keeps (execNodeLost dt a s) (s.advance dt).kept := by
  unfold execNodeLost
  generalize s.advance dt = s
  (repeat' (first | rw [keeps_next] | apply whenOn_keeps | with_reducible rfl | (simp (disch := first | assumption | (simp only [away, Reg.LINKs_STATUS_reachable, Reg.NODEa_STATE_state]; omega) | simp only [onRing_away, ringEnabled_away, ringErr_away, ringCause_away, ringArmed_away, ringProd_away, ringCons_away]) only [keeps_next, State.ite_kept, ite_self, State.dropMoved_kept, State.endReroute_kept, State.onNode_kept, State.post_kept, State.scanLost_kept, State.set_kept, State.wakeReroute_kept]; done) | split | apply foldl_kept_of | apply foldl_kept_snd_of | apply foldl_kept_fst_of | intro _ _ | dsimp only | simp (disch := first | assumption | (simp only [away, Reg.LINKs_STATUS_reachable, Reg.NODEa_STATE_state]; omega) | simp only [onRing_away, ringEnabled_away, ringErr_away, ringCause_away, ringArmed_away, ringProd_away, ringCons_away]) only [keeps_next, State.ite_kept, ite_self, State.dropMoved_kept, State.endReroute_kept, State.onNode_kept, State.post_kept, State.scanLost_kept, State.set_kept, State.wakeReroute_kept]))

theorem execResistScan_kept (dt : Nat) (op : OpRef) (s : State) : keeps (execResistScan dt op s) (s.advance dt).kept := by
  unfold execResistScan
  generalize s.advance dt = s
  (repeat' (first | rw [keeps_next] | apply whenOn_keeps | refine (State.runOp_kept _ _ _ _ _ _ _ _ _ ?_).trans ?_ | with_reducible rfl | (simp (disch := first | assumption | (simp only [away]; omega) | simp only [onRing_away, ringEnabled_away, ringErr_away, ringCause_away, ringArmed_away, ringProd_away, ringCons_away]) only [keeps_next, State.ite_kept, ite_self, State.careNext_kept, State.finish_kept, State.modCare_kept]; done) | split | apply foldl_kept_of | apply foldl_kept_snd_of | apply foldl_kept_fst_of | intro _ _ | dsimp only | simp (disch := first | assumption | (simp only [away]; omega) | simp only [onRing_away, ringEnabled_away, ringErr_away, ringCause_away, ringArmed_away, ringProd_away, ringCons_away]) only [keeps_next, State.ite_kept, ite_self, State.careNext_kept, State.finish_kept, State.modCare_kept]))

theorem execDropCheck_kept (dt : Nat) (op : OpRef) (s : State) : keeps (execDropCheck dt op s) (s.advance dt).kept := by
  unfold execDropCheck
  generalize s.advance dt = s
  rw [keeps_next]
  refine State.runOp_kept _ _ _ _ _ _ _ _ _ fun f s => ?_
  extract_lets q d hs todo g s0 s1 s2
  split
  · simp
  · split
    · simp
    · have h0 : s0.kept = s.kept := by unfold s0; simp
      clear_value s0
      have h1 : s1.kept = s.kept := by
        unfold s1
        rw [State.gatesNext_kept, State.raise_kept _ _ (by simp only [away, Reg.DGq_STATUS_busy]; omega), State.modCare_kept, h0]
      clear_value s1
      have h2 : s2.kept = s.kept := by unfold s2; rw [State.endWet_kept, h1]
      clear_value s2 g todo
      split
      · split <;> simp [h2]
      · exact h2

theorem execDropGateEdge_kept (dt : Nat) (q : Fin 10) (level : Bool) (s : State) : keeps (execDropGateEdge dt q level s) (s.advance dt).kept := by
  unfold execDropGateEdge
  generalize s.advance dt = s
  (repeat' (first | rw [keeps_next] | apply whenOn_keeps | with_reducible rfl | (simp (disch := first | assumption | (simp only [away]; omega) | simp only [onRing_away, ringEnabled_away, ringErr_away, ringCause_away, ringArmed_away, ringProd_away, ringCons_away]) only [keeps_next, State.ite_kept, ite_self, State.gateSettle_kept, State.modCare_kept, State.set_kept]; done) | split | apply foldl_kept_of | apply foldl_kept_snd_of | apply foldl_kept_fst_of | intro _ _ | dsimp only | simp (disch := first | assumption | (simp only [away]; omega) | simp only [onRing_away, ringEnabled_away, ringErr_away, ringCause_away, ringArmed_away, ringProd_away, ringCons_away]) only [keeps_next, State.ite_kept, ite_self, State.gateSettle_kept, State.modCare_kept, State.set_kept]))

theorem execDropWindowEnd_kept (dt : Nat) (q : Fin 10) (s : State) : keeps (execDropWindowEnd dt q s) (s.advance dt).kept := by
  unfold execDropWindowEnd
  generalize s.advance dt = s
  (repeat' (first | rw [keeps_next] | apply whenOn_keeps | with_reducible rfl | (simp (disch := first | assumption | (simp only [away]; omega) | simp only [onRing_away, ringEnabled_away, ringErr_away, ringCause_away, ringArmed_away, ringProd_away, ringCons_away]) only [keeps_next, State.ite_kept, ite_self, State.endGate_kept, State.gateNext_kept, State.gateSettle_kept, State.setGate_kept, State.settleColumn_kept]; done) | split | apply foldl_kept_of | apply foldl_kept_snd_of | apply foldl_kept_fst_of | intro _ _ | dsimp only | simp (disch := first | assumption | (simp only [away]; omega) | simp only [onRing_away, ringEnabled_away, ringErr_away, ringCause_away, ringArmed_away, ringProd_away, ringCons_away]) only [keeps_next, State.ite_kept, ite_self, State.endGate_kept, State.gateNext_kept, State.gateSettle_kept, State.setGate_kept, State.settleColumn_kept]))

theorem execGateBlocked_kept (dt : Nat) (q : Fin 10) (s : State) : keeps (execGateBlocked dt q s) (s.advance dt).kept := by
  unfold execGateBlocked
  generalize s.advance dt = s
  (repeat' (first | rw [keeps_next] | apply whenOn_keeps | with_reducible rfl | (simp (disch := first | assumption | (simp only [away, Reg.DGq_STATUS_blocked, Reg.HC_STATUS_gate_blocked]; omega) | simp only [onRing_away, ringEnabled_away, ringErr_away, ringCause_away, ringArmed_away, ringProd_away, ringCons_away]) only [keeps_next, State.ite_kept, ite_self, State.endGate_kept, State.gateSettle_kept, State.post_kept, State.raise_kept]; done) | split | apply foldl_kept_of | apply foldl_kept_snd_of | apply foldl_kept_fst_of | intro _ _ | dsimp only | simp (disch := first | assumption | (simp only [away, Reg.DGq_STATUS_blocked, Reg.HC_STATUS_gate_blocked]; omega) | simp only [onRing_away, ringEnabled_away, ringErr_away, ringCause_away, ringArmed_away, ringProd_away, ringCons_away]) only [keeps_next, State.ite_kept, ite_self, State.endGate_kept, State.gateSettle_kept, State.post_kept, State.raise_kept]))

theorem execSpitPlan_kept (dt : Nat) (op : OpRef) (s : State) : keeps (execSpitPlan dt op s) (s.advance dt).kept := by
  unfold execSpitPlan
  generalize s.advance dt = s
  (repeat' (first | rw [keeps_next] | apply whenOn_keeps | refine (State.runOp_kept _ _ _ _ _ _ _ _ _ ?_).trans ?_ | with_reducible rfl | (simp (disch := first | assumption | (simp only [away]; omega) | simp only [onRing_away, ringEnabled_away, ringErr_away, ringCause_away, ringArmed_away, ringProd_away, ringCons_away]) only [keeps_next, State.ite_kept, ite_self, State.finish_kept, State.modCare_kept, State.set_kept, State.spitTime_kept, State.spit_kept]; done) | split | apply foldl_kept_of | apply foldl_kept_snd_of | apply foldl_kept_fst_of | intro _ _ | dsimp only | simp (disch := first | assumption | (simp only [away]; omega) | simp only [onRing_away, ringEnabled_away, ringErr_away, ringCause_away, ringArmed_away, ringProd_away, ringCons_away]) only [keeps_next, State.ite_kept, ite_self, State.finish_kept, State.modCare_kept, State.set_kept, State.spitTime_kept, State.spit_kept]))

theorem execKeepWetSpit_kept (dt : Nat) (a : Fin 256) (s : State) : keeps (execKeepWetSpit dt a s) (s.advance dt).kept := by
  unfold execKeepWetSpit
  generalize s.advance dt = s
  (repeat' (first | rw [keeps_next] | apply whenOn_keeps | with_reducible rfl | (simp (disch := first | assumption | (simp only [away]; omega) | simp only [onRing_away, ringEnabled_away, ringErr_away, ringCause_away, ringArmed_away, ringProd_away, ringCons_away]) only [keeps_next, State.ite_kept, ite_self, State.onModel_kept, State.retireHead_kept, State.spitTime_kept, State.spit_kept]; done) | split | apply foldl_kept_of | apply foldl_kept_snd_of | apply foldl_kept_fst_of | intro _ _ | dsimp only | simp (disch := first | assumption | (simp only [away]; omega) | simp only [onRing_away, ringEnabled_away, ringErr_away, ringCause_away, ringArmed_away, ringProd_away, ringCons_away]) only [keeps_next, State.ite_kept, ite_self, State.onModel_kept, State.retireHead_kept, State.spitTime_kept, State.spit_kept]))

theorem execWarmLevelUpdate_kept (dt : Nat) (a : Fin 256) (s : State) : keeps (execWarmLevelUpdate dt a s) (s.advance dt).kept := by
  unfold execWarmLevelUpdate
  generalize s.advance dt = s
  (repeat' (first | rw [keeps_next] | apply whenOn_keeps | with_reducible rfl | (simp (disch := first | assumption | (simp only [away, Reg.HC_HEADa_STATE_warm_level]; omega) | simp only [onRing_away, ringEnabled_away, ringErr_away, ringCause_away, ringArmed_away, ringProd_away, ringCons_away]) only [keeps_next, State.ite_kept, ite_self, State.sendCareParam_kept, State.set_kept]; done) | split | apply foldl_kept_of | apply foldl_kept_snd_of | apply foldl_kept_fst_of | intro _ _ | dsimp only | simp (disch := first | assumption | (simp only [away, Reg.HC_HEADa_STATE_warm_level]; omega) | simp only [onRing_away, ringEnabled_away, ringErr_away, ringCause_away, ringArmed_away, ringProd_away, ringCons_away]) only [keeps_next, State.ite_kept, ite_self, State.sendCareParam_kept, State.set_kept]))

theorem execHeadModelUpdate_kept (dt : Nat) (a : Fin 256) (s : State) : keeps (execHeadModelUpdate dt a s) (s.advance dt).kept := by
  unfold execHeadModelUpdate
  generalize s.advance dt = s
  (repeat' (first | rw [keeps_next] | apply whenOn_keeps | with_reducible rfl | (simp (disch := first | assumption | (simp only [away, Reg.HC_HEADa_TEMP_t_d, Reg.HC_INK_TEMPq_t_ink]; omega) | simp only [onRing_away, ringEnabled_away, ringErr_away, ringCause_away, ringArmed_away, ringProd_away, ringCons_away]) only [keeps_next, State.ite_kept, ite_self, State.checkHead_kept, State.drawQuot_kept, State.onModel_kept, State.retireHead_kept, State.setI_kept]; done) | split | apply foldl_kept_of | apply foldl_kept_snd_of | apply foldl_kept_fst_of | intro _ _ | dsimp only | simp (disch := first | assumption | (simp only [away, Reg.HC_HEADa_TEMP_t_d, Reg.HC_INK_TEMPq_t_ink]; omega) | simp only [onRing_away, ringEnabled_away, ringErr_away, ringCause_away, ringArmed_away, ringProd_away, ringCons_away]) only [keeps_next, State.ite_kept, ite_self, State.checkHead_kept, State.drawQuot_kept, State.onModel_kept, State.retireHead_kept, State.setI_kept]))

theorem execHeadSenseCorrection_kept (dt : Nat) (a : Fin 256) (s : State) : keeps (execHeadSenseCorrection dt a s) (s.advance dt).kept := by
  unfold execHeadSenseCorrection
  generalize s.advance dt = s
  (repeat' (first | rw [keeps_next] | apply whenOn_keeps | with_reducible rfl | (simp (disch := first | assumption | (simp only [away, Reg.HC_HEADa_STATE_sense_stale, Reg.HC_HEADa_TEMP_t_d, Reg.HC_STATUS_sense_stale]; omega) | simp only [onRing_away, ringEnabled_away, ringErr_away, ringCause_away, ringArmed_away, ringProd_away, ringCons_away]) only [keeps_next, State.ite_kept, ite_self, State.clear_kept, State.drawQuot_kept, State.modFm_kept, State.onModel_kept, State.post_kept, State.raise_kept, State.setI_kept, State.set_kept]; done) | split | apply foldl_kept_of | apply foldl_kept_snd_of | apply foldl_kept_fst_of | intro _ _ | dsimp only | simp (disch := first | assumption | (simp only [away, Reg.HC_HEADa_STATE_sense_stale, Reg.HC_HEADa_TEMP_t_d, Reg.HC_STATUS_sense_stale]; omega) | simp only [onRing_away, ringEnabled_away, ringErr_away, ringCause_away, ringArmed_away, ringProd_away, ringCons_away]) only [keeps_next, State.ite_kept, ite_self, State.clear_kept, State.drawQuot_kept, State.modFm_kept, State.onModel_kept, State.post_kept, State.raise_kept, State.setI_kept, State.set_kept]))

end Sys2Proof.Machine
end

