-- ==== Sys2Proof/Laws/Keeps3.lean ====
section
/-! SUPPORT. Meanings that answer a next state and leave the kept words alone. -/

set_option linter.all false

namespace Sys2Proof.Machine

theorem execChipModelUpdate_kept (dt : Nat) (powerMw : List Nat) (s : State) : keeps (execChipModelUpdate dt powerMw s) (s.advance dt).kept := by
  unfold execChipModelUpdate
  generalize s.advance dt = s
  (repeat' (first | rw [keeps_next] | apply whenOn_keeps | with_reducible rfl | (simp (disch := first | assumption | (simp only [away, Reg.HC_CHIP_AMB_amb, Reg.PWR_DOMi_MW_mw]; omega) | simp only [onRing_away, ringEnabled_away, ringErr_away, ringCause_away, ringArmed_away, ringProd_away, ringCons_away]) only [keeps_next, State.ite_kept, ite_self, State.chipCheck_kept, State.drawQuot_kept, State.modCare_kept, State.set_kept]; done) | split | apply foldl_kept_of | apply foldl_kept_snd_of | apply foldl_kept_fst_of | intro _ _ | dsimp only | simp (disch := first | assumption | (simp only [away, Reg.HC_CHIP_AMB_amb, Reg.PWR_DOMi_MW_mw]; omega) | simp only [onRing_away, ringEnabled_away, ringErr_away, ringCause_away, ringArmed_away, ringProd_away, ringCons_away]) only [keeps_next, State.ite_kept, ite_self, State.chipCheck_kept, State.drawQuot_kept, State.modCare_kept, State.set_kept]))

theorem execChipSensorCorrection_kept (dt : Nat) (sensors : List (BitVec 16)) (s : State) : keeps (execChipSensorCorrection dt sensors s) (s.advance dt).kept := by
  unfold execChipSensorCorrection
  generalize s.advance dt = s
  (repeat' (first | rw [keeps_next] | apply whenOn_keeps | with_reducible rfl | (simp (disch := first | assumption | (simp only [away, Reg.HC_CHIP_TEMPi_sensor]; omega) | simp only [onRing_away, ringEnabled_away, ringErr_away, ringCause_away, ringArmed_away, ringProd_away, ringCons_away]) only [keeps_next, State.ite_kept, ite_self, State.chipCheck_kept, State.drawQuot_kept, State.modCare_kept, State.setI_kept]; done) | split | apply foldl_kept_of | apply foldl_kept_snd_of | apply foldl_kept_fst_of | intro _ _ | dsimp only | simp (disch := first | assumption | (simp only [away, Reg.HC_CHIP_TEMPi_sensor]; omega) | simp only [onRing_away, ringEnabled_away, ringErr_away, ringCause_away, ringArmed_away, ringProd_away, ringCons_away]) only [keeps_next, State.ite_kept, ite_self, State.chipCheck_kept, State.drawQuot_kept, State.modCare_kept, State.setI_kept]))

theorem execThrottleUpdate_kept (dt : Nat) (s : State) : keeps (execThrottleUpdate dt s) (s.advance dt).kept := by
  unfold execThrottleUpdate
  generalize s.advance dt = s
  (repeat' (first | rw [keeps_next] | apply whenOn_keeps | with_reducible rfl | (simp (disch := first | assumption | (simp only [away, Reg.HC_STATUS_chip_throttle, Reg.HC_THERMAL_CFG_chip_margin]; omega) | simp only [onRing_away, ringEnabled_away, ringErr_away, ringCause_away, ringArmed_away, ringProd_away, ringCons_away]) only [keeps_next, State.ite_kept, ite_self, State.modCare_kept, State.modSched_kept, State.post_kept, State.raise_kept, State.throttleHead_kept]; done) | split | apply foldl_kept_of | apply foldl_kept_snd_of | apply foldl_kept_fst_of | intro _ _ | dsimp only | simp (disch := first | assumption | (simp only [away, Reg.HC_STATUS_chip_throttle, Reg.HC_THERMAL_CFG_chip_margin]; omega) | simp only [onRing_away, ringEnabled_away, ringErr_away, ringCause_away, ringArmed_away, ringProd_away, ringCons_away]) only [keeps_next, State.ite_kept, ite_self, State.modCare_kept, State.modSched_kept, State.post_kept, State.raise_kept, State.throttleHead_kept]))

theorem execHeadAutoRelease_kept (dt : Nat) (a : Fin 256) (s : State) : keeps (execHeadAutoRelease dt a s) (s.advance dt).kept := by
  unfold execHeadAutoRelease
  generalize s.advance dt = s
  (repeat' (first | rw [keeps_next] | apply whenOn_keeps | with_reducible rfl | (simp (disch := first | assumption | (simp only [away, Reg.HC_HEADa_STATE_held]; omega) | simp only [onRing_away, ringEnabled_away, ringErr_away, ringCause_away, ringArmed_away, ringProd_away, ringCons_away]) only [keeps_next, State.ite_kept, ite_self, State.onNode_kept, State.releaseHead_kept]; done) | split | apply foldl_kept_of | apply foldl_kept_snd_of | apply foldl_kept_fst_of | intro _ _ | dsimp only | simp (disch := first | assumption | (simp only [away, Reg.HC_HEADa_STATE_held]; omega) | simp only [onRing_away, ringEnabled_away, ringErr_away, ringCause_away, ringArmed_away, ringProd_away, ringCons_away]) only [keeps_next, State.ite_kept, ite_self, State.onNode_kept, State.releaseHead_kept]))

theorem execHeadRelease_kept (dt : Nat) (v : BitVec 32) (s : State) : keeps (execHeadRelease dt v s) (s.advance dt).kept := by
  unfold execHeadRelease
  generalize s.advance dt = s
  (repeat' (first | rw [keeps_next] | apply whenOn_keeps | refine (State.hostWrite_kept _ _ _ ?_).trans ?_ | with_reducible rfl | (simp (disch := first | assumption | (simp only [away, Reg.HC_HEAD_RELEASE_head]; omega) | simp only [onRing_away, ringEnabled_away, ringErr_away, ringCause_away, ringArmed_away, ringProd_away, ringCons_away]) only [keeps_next, State.ite_kept, ite_self, State.releaseHead_kept]; done) | split | apply foldl_kept_of | apply foldl_kept_snd_of | apply foldl_kept_fst_of | intro _ _ | dsimp only | simp (disch := first | assumption | (simp only [away, Reg.HC_HEAD_RELEASE_head]; omega) | simp only [onRing_away, ringEnabled_away, ringErr_away, ringCause_away, ringArmed_away, ringProd_away, ringCons_away]) only [keeps_next, State.ite_kept, ite_self, State.releaseHead_kept]))

theorem execRenewSend_kept (dt : Nat) (s : State) : keeps (execRenewSend dt s) (s.advance dt).kept := by
  unfold execRenewSend
  generalize s.advance dt = s
  (repeat' (first | rw [keeps_next] | apply whenOn_keeps | with_reducible rfl | (simp (disch := first | assumption | (simp only [away]; omega) | simp only [onRing_away, ringEnabled_away, ringErr_away, ringCause_away, ringArmed_away, ringProd_away, ringCons_away]) only [keeps_next, State.ite_kept, ite_self, State.modTally_kept, State.sendLease_kept]; done) | split | apply foldl_kept_of | apply foldl_kept_snd_of | apply foldl_kept_fst_of | intro _ _ | dsimp only | simp (disch := first | assumption | (simp only [away]; omega) | simp only [onRing_away, ringEnabled_away, ringErr_away, ringCause_away, ringArmed_away, ringProd_away, ringCons_away]) only [keeps_next, State.ite_kept, ite_self, State.modTally_kept, State.sendLease_kept]))

theorem execHealthSend_kept (dt : Nat) (s : State) : keeps (execHealthSend dt s) (s.advance dt).kept := by
  unfold execHealthSend
  generalize s.advance dt = s
  (repeat' (first | rw [keeps_next] | apply whenOn_keeps | with_reducible rfl | (simp (disch := first | assumption | (simp only [away]; omega) | simp only [onRing_away, ringEnabled_away, ringErr_away, ringCause_away, ringArmed_away, ringProd_away, ringCons_away]) only [keeps_next, State.ite_kept, ite_self, State.sendLease_kept]; done) | split | apply foldl_kept_of | apply foldl_kept_snd_of | apply foldl_kept_fst_of | intro _ _ | dsimp only | simp (disch := first | assumption | (simp only [away]; omega) | simp only [onRing_away, ringEnabled_away, ringErr_away, ringCause_away, ringArmed_away, ringProd_away, ringCons_away]) only [keeps_next, State.ite_kept, ite_self, State.sendLease_kept]))

theorem execTallyFence_kept (dt : Nat) (s : State) : keeps (execTallyFence dt s) (s.advance dt).kept := by
  unfold execTallyFence
  generalize s.advance dt = s
  (try dsimp only); (repeat' split) <;> simp (disch := first | assumption | (simp only [away]; omega) | simp only [onRing_away, ringEnabled_away, ringErr_away, ringCause_away, ringArmed_away, ringProd_away, ringCons_away]) only [keeps_next, State.ite_kept, ite_self, State.fence_kept]

theorem execLeaseLate_kept (dt : Nat) (s : State) : keeps (execLeaseLate dt s) (s.advance dt).kept := by
  unfold execLeaseLate
  generalize s.advance dt = s
  (try dsimp only); (repeat' split) <;> simp (disch := first | assumption | (simp only [away, Reg.TALLY_COUNTS_lease_late, Reg.TALLY_STATUS_late_seen, Reg.TALLY_STATUS_warming]; omega) | simp only [onRing_away, ringEnabled_away, ringErr_away, ringCause_away, ringArmed_away, ringProd_away, ringCons_away]) only [keeps_next, State.ite_kept, ite_self, State.beginWarm_kept, State.bump_kept, State.modTally_kept, State.post_kept, State.raise_kept]

theorem execTallyLapseTake_kept (dt : Nat) (s : State) : keeps (execTallyLapseTake dt s) (s.advance dt).kept := by
  unfold execTallyLapseTake
  generalize s.advance dt = s
  (repeat' (first | rw [keeps_next] | apply whenOn_keeps | with_reducible rfl | (simp (disch := first | assumption | (simp only [away, Reg.TALLY_STATUS_lost_seen]; omega) | simp only [onRing_away, ringEnabled_away, ringErr_away, ringCause_away, ringArmed_away, ringProd_away, ringCons_away]) only [keeps_next, State.ite_kept, ite_self, State.modTally_kept, State.post_kept, State.raise_kept, State.refresh_kept, State.takeTally_kept]; done) | split | apply foldl_kept_of | apply foldl_kept_snd_of | apply foldl_kept_fst_of | intro _ _ | dsimp only | simp (disch := first | assumption | (simp only [away, Reg.TALLY_STATUS_lost_seen]; omega) | simp only [onRing_away, ringEnabled_away, ringErr_away, ringCause_away, ringArmed_away, ringProd_away, ringCons_away]) only [keeps_next, State.ite_kept, ite_self, State.modTally_kept, State.post_kept, State.raise_kept, State.refresh_kept, State.takeTally_kept]))

theorem execPairStartTimeout_kept (dt : Nat) (s : State) : keeps (execPairStartTimeout dt s) (s.advance dt).kept := by
  unfold execPairStartTimeout
  generalize s.advance dt = s
  (repeat' (first | rw [keeps_next] | apply whenOn_keeps | with_reducible rfl | (simp (disch := first | assumption | (simp only [away, Reg.PAIR_CFG_end]; omega) | simp only [onRing_away, ringEnabled_away, ringErr_away, ringCause_away, ringArmed_away, ringProd_away, ringCons_away]) only [keeps_next, State.ite_kept, ite_self, State.takeTally_kept]; done) | split | apply foldl_kept_of | apply foldl_kept_snd_of | apply foldl_kept_fst_of | intro _ _ | dsimp only | simp (disch := first | assumption | (simp only [away, Reg.PAIR_CFG_end]; omega) | simp only [onRing_away, ringEnabled_away, ringErr_away, ringCause_away, ringArmed_away, ringProd_away, ringCons_away]) only [keeps_next, State.ite_kept, ite_self, State.takeTally_kept]))

theorem execLeaseMessageRx_kept (dt : Nat) (viaNet : Bool) (data : List Byte) (s : State) : keeps (execLeaseMessageRx dt viaNet data s) (s.advance dt).kept := by
  unfold execLeaseMessageRx
  generalize s.advance dt = s
  refine whenOn_keeps rfl ?_
  extract_lets m pair fresh awake op role own s1 s2
  have h1 : s1.kept = s.kept := by simp [s1]
  have h2 : s2.kept = s.kept := by simp [s2]
  clear_value s1 s2 fresh awake
  clear_value m pair op role own
  split
  · simp
  · split
    · split <;> simp
    · split
      · simp
      · split
        · split
          · split
            · split
              · simp [h1]
              · split <;> simp [h1]
            · simp [h1]
          · simp
        · split
          · simp
          · split
            · simp [h2]
            · simp [h2]
            · split <;> simp [h2]
            · simp [h2]

theorem execArbiterTick_kept (dt : Nat) (k : Fin 8) (s : State) : keeps (execArbiterTick dt k s) (s.advance dt).kept := by
  unfold execArbiterTick
  generalize s.advance dt = s
  (repeat' (first | rw [keeps_next] | apply whenOn_keeps | with_reducible rfl | (simp (disch := first | assumption | (simp only [away]; omega) | simp only [onRing_away, ringEnabled_away, ringErr_away, ringCause_away, ringArmed_away, ringProd_away, ringCons_away]) only [keeps_next, State.ite_kept, ite_self, State.modTally_kept, State.sendGrant_kept, State.set_kept]; done) | split | apply foldl_kept_of | apply foldl_kept_snd_of | apply foldl_kept_fst_of | intro _ _ | dsimp only | simp (disch := first | assumption | (simp only [away]; omega) | simp only [onRing_away, ringEnabled_away, ringErr_away, ringCause_away, ringArmed_away, ringProd_away, ringCons_away]) only [keeps_next, State.ite_kept, ite_self, State.modTally_kept, State.sendGrant_kept, State.set_kept]))

theorem execTallyCtrl_kept (dt : Nat) (op : OpRef) (s : State) : keeps (execTallyCtrl dt op s) (s.advance dt).kept := by
  unfold execTallyCtrl
  generalize s.advance dt = s
  (repeat' (first | rw [keeps_next] | apply whenOn_keeps | refine (State.runOp_kept _ _ _ _ _ _ _ _ _ ?_).trans ?_ | with_reducible rfl | (simp (disch := first | assumption | (simp only [away]; omega) | simp only [onRing_away, ringEnabled_away, ringErr_away, ringCause_away, ringArmed_away, ringProd_away, ringCons_away]) only [keeps_next, State.ite_kept, ite_self, State.finish_kept, State.modTally_kept]; done) | split | apply foldl_kept_of | apply foldl_kept_snd_of | apply foldl_kept_fst_of | intro _ _ | dsimp only | simp (disch := first | assumption | (simp only [away]; omega) | simp only [onRing_away, ringEnabled_away, ringErr_away, ringCause_away, ringArmed_away, ringProd_away, ringCons_away]) only [keeps_next, State.ite_kept, ite_self, State.finish_kept, State.modTally_kept]))

theorem execHandoverTimeout_kept (dt : Nat) (s : State) : keeps (execHandoverTimeout dt s) (s.advance dt).kept := by
  unfold execHandoverTimeout
  generalize s.advance dt = s
  (try dsimp only); (repeat' split) <;> simp (disch := first | assumption | (simp only [away]; omega) | simp only [onRing_away, ringEnabled_away, ringErr_away, ringCause_away, ringArmed_away, ringProd_away, ringCons_away]) only [keeps_next, State.ite_kept, ite_self, State.fence_kept, State.modTally_kept, State.sendLease_kept]

theorem execTallyCtrlTimeout_kept (dt : Nat) (s : State) : keeps (execTallyCtrlTimeout dt s) (s.advance dt).kept := by
  unfold execTallyCtrlTimeout
  generalize s.advance dt = s
  (try dsimp only); (repeat' split) <;> simp (disch := first | assumption | (simp only [away]; omega) | simp only [onRing_away, ringEnabled_away, ringErr_away, ringCause_away, ringArmed_away, ringProd_away, ringCons_away]) only [keeps_next, State.ite_kept, ite_self, State.endHandover_kept]

theorem execMirrorSend_kept (dt : Nat) (full : Bool) (s : State) : keeps (execMirrorSend dt full s) (s.advance dt).kept := by
  unfold execMirrorSend
  generalize s.advance dt = s
  (repeat' (first | rw [keeps_next] | apply whenOn_keeps | with_reducible rfl | (simp (disch := first | assumption | (simp only [away]; omega) | simp only [onRing_away, ringEnabled_away, ringErr_away, ringCause_away, ringArmed_away, ringProd_away, ringCons_away]) only [keeps_next, State.ite_kept, ite_self, State.modTally_kept, State.sendMirror_kept]; done) | split | apply foldl_kept_of | apply foldl_kept_snd_of | apply foldl_kept_fst_of | intro _ _ | dsimp only | simp (disch := first | assumption | (simp only [away]; omega) | simp only [onRing_away, ringEnabled_away, ringErr_away, ringCause_away, ringArmed_away, ringProd_away, ringCons_away]) only [keeps_next, State.ite_kept, ite_self, State.modTally_kept, State.sendMirror_kept]))

theorem execMirrorRx_kept (dt : Nat) (lane : Fin 68) (number : Nat) (item : MirrorItem) (s : State) : keeps (execMirrorRx dt lane number item s) (s.advance dt).kept := by
  unfold execMirrorRx
  generalize s.advance dt = s
  refine whenOn_keeps rfl ?_
  split
  · simp
  · split
    · rw [keeps_next]; split <;> simp
    · split
      · split
        rename_i ok s1 h
        have h1 : s1.kept = s.kept := pair_kept h (by simp)
        split
        · split
          rename_i bs s2 h'
          have h2 : s2.kept = s.kept := (pair_kept h' (by simp)).trans h1
          simp [h2]
        · simp [h1]
      · simp

theorem execMirrorLost_kept (dt : Nat) (cause : Fin 3) (s : State) : keeps (execMirrorLost dt cause s) (s.advance dt).kept := by
  unfold execMirrorLost
  generalize s.advance dt = s
  (try dsimp only); (repeat' split) <;> simp (disch := first | assumption | (simp only [away, Reg.TALLY_STATUS_mirror_current]; omega) | simp only [onRing_away, ringEnabled_away, ringErr_away, ringCause_away, ringArmed_away, ringProd_away, ringCons_away]) only [keeps_next, State.ite_kept, ite_self, State.clear_kept, State.modTally_kept, State.post_kept, State.refresh_kept, State.releaseIngests_kept, State.showLag_kept]

theorem execMirrorSynced_kept (dt : Nat) (s : State) : keeps (execMirrorSynced dt s) (s.advance dt).kept := by
  unfold execMirrorSynced
  generalize s.advance dt = s
  (repeat' (first | rw [keeps_next] | apply whenOn_keeps | with_reducible rfl | (simp (disch := first | assumption | (simp only [away]; omega) | simp only [onRing_away, ringEnabled_away, ringErr_away, ringCause_away, ringArmed_away, ringProd_away, ringCons_away]) only [keeps_next, State.ite_kept, ite_self, State.modStore_kept, State.modTally_kept, State.post_kept, State.settleMirror_kept, State.showLag_kept]; done) | split | apply foldl_kept_of | apply foldl_kept_snd_of | apply foldl_kept_fst_of | intro _ _ | dsimp only | simp (disch := first | assumption | (simp only [away]; omega) | simp only [onRing_away, ringEnabled_away, ringErr_away, ringCause_away, ringArmed_away, ringProd_away, ringCons_away]) only [keeps_next, State.ite_kept, ite_self, State.modStore_kept, State.modTally_kept, State.post_kept, State.settleMirror_kept, State.showLag_kept]))

theorem execMirrorAckTimeout_kept (dt : Nat) (s : State) : keeps (execMirrorAckTimeout dt s) (s.advance dt).kept := by
  unfold execMirrorAckTimeout
  generalize s.advance dt = s
  (repeat' (first | rw [keeps_next] | apply whenOn_keeps | with_reducible rfl | (simp (disch := first | assumption | (simp only [away, Reg.TALLY_STATUS_mirror_current]; omega) | simp only [onRing_away, ringEnabled_away, ringErr_away, ringCause_away, ringArmed_away, ringProd_away, ringCons_away]) only [keeps_next, State.ite_kept, ite_self, State.clear_kept, State.refresh_kept]; done) | split | apply foldl_kept_of | apply foldl_kept_snd_of | apply foldl_kept_fst_of | intro _ _ | dsimp only | simp (disch := first | assumption | (simp only [away, Reg.TALLY_STATUS_mirror_current]; omega) | simp only [onRing_away, ringEnabled_away, ringErr_away, ringCause_away, ringArmed_away, ringProd_away, ringCons_away]) only [keeps_next, State.ite_kept, ite_self, State.clear_kept, State.refresh_kept]))

theorem execDeputyHalt_kept (dt : Nat) (s : State) : keeps (execDeputyHalt dt s) (s.advance dt).kept := by
  unfold execDeputyHalt
  generalize s.advance dt = s
  (try dsimp only); (repeat' split) <;> simp (disch := first | assumption | (simp only [away, Reg.TALLY_STATUS_deputy_halted]; omega) | simp only [onRing_away, ringEnabled_away, ringErr_away, ringCause_away, ringArmed_away, ringProd_away, ringCons_away]) only [keeps_next, State.ite_kept, ite_self, State.modTally_kept, State.post_kept, State.raise_kept]

theorem execDoubleFault_kept (dt : Nat) (a : Fin 256) (s : State) : keeps (execDoubleFault dt a s) (s.advance dt).kept := by
  unfold execDoubleFault
  generalize s.advance dt = s
  (repeat' (first | rw [keeps_next] | apply whenOn_keeps | with_reducible rfl | (simp (disch := first | assumption | (simp only [away, Reg.TALLY_STATUS_double_seen]; omega) | simp only [onRing_away, ringEnabled_away, ringErr_away, ringCause_away, ringArmed_away, ringProd_away, ringCons_away]) only [keeps_next, State.ite_kept, ite_self, State.onNode_kept, State.post_kept, State.raise_kept, State.sendHold_kept]; done) | split | apply foldl_kept_of | apply foldl_kept_snd_of | apply foldl_kept_fst_of | intro _ _ | dsimp only | simp (disch := first | assumption | (simp only [away, Reg.TALLY_STATUS_double_seen]; omega) | simp only [onRing_away, ringEnabled_away, ringErr_away, ringCause_away, ringArmed_away, ringProd_away, ringCons_away]) only [keeps_next, State.ite_kept, ite_self, State.onNode_kept, State.post_kept, State.raise_kept, State.sendHold_kept]))

theorem execLineSend_kept (dt : Nat) (h : Fin 256) (s : State) : keeps (execLineSend dt h s) (s.advance dt).kept := by
  unfold execLineSend
  generalize s.advance dt = s
  (repeat' (first | rw [keeps_next] | apply whenOn_keeps | with_reducible rfl | (simp (disch := first | assumption | (simp only [away]; omega) | simp only [onRing_away, ringEnabled_away, ringErr_away, ringCause_away, ringArmed_away, ringProd_away, ringCons_away]) only [keeps_next, State.ite_kept, ite_self, State.lineSend_kept, State.modTally_kept, State.post_kept, State.returnNodes_kept]; done) | split | apply foldl_kept_of | apply foldl_kept_snd_of | apply foldl_kept_fst_of | intro _ _ | dsimp only | simp (disch := first | assumption | (simp only [away]; omega) | simp only [onRing_away, ringEnabled_away, ringErr_away, ringCause_away, ringArmed_away, ringProd_away, ringCons_away]) only [keeps_next, State.ite_kept, ite_self, State.lineSend_kept, State.modTally_kept, State.post_kept, State.returnNodes_kept]))

theorem execTrainingBlockRx_kept (dt : Nat) (n : Fin 68) (rx : LaneRx) (converged : Bool) (s : State) : keeps (execTrainingBlockRx dt n rx converged s) (s.advance dt).kept := by
  unfold execTrainingBlockRx
  generalize s.advance dt = s
  simp (disch := first | assumption | (simp only [away]; omega) | simp only [onRing_away, ringEnabled_away, ringErr_away, ringCause_away, ringArmed_away, ringProd_away, ringCons_away]) only [keeps_next, State.ite_kept, ite_self, State.laneIn_kept]

theorem execBlockLockAcquired_kept (dt : Nat) (n : Fin 68) (rx : LaneRx) (s : State) : keeps (execBlockLockAcquired dt n rx s) (s.advance dt).kept := by
  unfold execBlockLockAcquired
  generalize s.advance dt = s
  (try dsimp only); (repeat' split) <;> simp (disch := first | assumption | (simp only [away]; omega) | simp only [onRing_away, ringEnabled_away, ringErr_away, ringCause_away, ringArmed_away, ringProd_away, ringCons_away]) only [keeps_next, State.ite_kept, ite_self, State.laneIn_kept]

theorem execLaneDown_kept (dt : Nat) (n : Fin 68) (cause : LaneDownCause) (s : State) : keeps (execLaneDown dt n cause s) (s.advance dt).kept := by
  unfold execLaneDown
  generalize s.advance dt = s
  (try dsimp only); (repeat' split) <;> simp (disch := first | assumption | (simp only [away, Reg.LANEn_STATUS_signal]; omega) | simp only [onRing_away, ringEnabled_away, ringErr_away, ringCause_away, ringArmed_away, ringProd_away, ringCons_away]) only [keeps_next, State.ite_kept, ite_self, State.laneIn_kept, State.signalOut_kept]

theorem execLaneBerWarn_kept (dt : Nat) (n : Fin 68) (rx : LaneRx) (s : State) : keeps (execLaneBerWarn dt n rx s) (s.advance dt).kept := by
  unfold execLaneBerWarn
  generalize s.advance dt = s
  (try dsimp only); (repeat' split) <;> simp (disch := first | assumption | (simp only [away]; omega) | simp only [onRing_away, ringEnabled_away, ringErr_away, ringCause_away, ringArmed_away, ringProd_away, ringCons_away]) only [keeps_next, State.ite_kept, ite_self, State.laneIn_kept]

theorem execSleepNoticeRx_kept (dt : Nat) (n : Fin 68) (rx : LaneRx) (s : State) : keeps (execSleepNoticeRx dt n rx s) (s.advance dt).kept := by
  unfold execSleepNoticeRx
  generalize s.advance dt = s
  (try dsimp only); (repeat' split) <;> simp (disch := first | assumption | (simp only [away]; omega) | simp only [onRing_away, ringEnabled_away, ringErr_away, ringCause_away, ringArmed_away, ringProd_away, ringCons_away]) only [keeps_next, State.ite_kept, ite_self, State.laneIn_kept]

theorem execStatusRx_kept (dt : Nat) (lane : Fin 68) (rx : LaneRx) (s : State) : keeps (execStatusRx dt lane rx s) (s.advance dt).kept := by
  unfold execStatusRx
  generalize s.advance dt = s
  simp (disch := first | assumption | (simp only [away]; omega) | simp only [onRing_away, ringEnabled_away, ringErr_away, ringCause_away, ringArmed_away, ringProd_away, ringCons_away]) only [keeps_next, State.ite_kept, ite_self, State.laneIn_kept]

theorem execMeasureRx_kept (dt : Nat) (lane : Fin 68) (rx : LaneRx) (s : State) : keeps (execMeasureRx dt lane rx s) (s.advance dt).kept := by
  unfold execMeasureRx
  generalize s.advance dt = s
  simp (disch := first | assumption | (simp only [away]; omega) | simp only [onRing_away, ringEnabled_away, ringErr_away, ringCause_away, ringArmed_away, ringProd_away, ringCons_away]) only [keeps_next, State.ite_kept, ite_self, State.laneIn_kept]

theorem execMemreadRx_kept (dt : Nat) (lane : Fin 68) (rx : LaneRx) (s : State) : keeps (execMemreadRx dt lane rx s) (s.advance dt).kept := by
  unfold execMemreadRx
  generalize s.advance dt = s
  simp (disch := first | assumption | (simp only [away]; omega) | simp only [onRing_away, ringEnabled_away, ringErr_away, ringCause_away, ringArmed_away, ringProd_away, ringCons_away]) only [keeps_next, State.ite_kept, ite_self, State.laneIn_kept]

theorem execNodeEventRx_kept (dt : Nat) (lane : Fin 68) (rx : LaneRx) (s : State) : keeps (execNodeEventRx dt lane rx s) (s.advance dt).kept := by
  unfold execNodeEventRx
  generalize s.advance dt = s
  simp (disch := first | assumption | (simp only [away]; omega) | simp only [onRing_away, ringEnabled_away, ringErr_away, ringCause_away, ringArmed_away, ringProd_away, ringCons_away]) only [keeps_next, State.ite_kept, ite_self, State.laneIn_kept]

theorem execDownstreamPassthrough_kept (dt : Nat) (lane : Fin 68) (rx : LaneRx) (s : State) : keeps (execDownstreamPassthrough dt lane rx s) (s.advance dt).kept := by
  unfold execDownstreamPassthrough
  generalize s.advance dt = s
  simp (disch := first | assumption | (simp only [away]; omega) | simp only [onRing_away, ringEnabled_away, ringErr_away, ringCause_away, ringArmed_away, ringProd_away, ringCons_away]) only [keeps_next, State.ite_kept, ite_self, State.laneIn_kept]

theorem execSyncResponseRx_kept (dt : Nat) (lane : Fin 68) (rx : LaneRx) (s : State) : keeps (execSyncResponseRx dt lane rx s) (s.advance dt).kept := by
  unfold execSyncResponseRx
  generalize s.advance dt = s
  simp (disch := first | assumption | (simp only [away]; omega) | simp only [onRing_away, ringEnabled_away, ringErr_away, ringCause_away, ringArmed_away, ringProd_away, ringCons_away]) only [keeps_next, State.ite_kept, ite_self, State.laneIn_kept]

end Sys2Proof.Machine
end

