-- ==== Sys2Proof/Laws/Keeps4.lean ====
section
/-! SUPPORT. Meanings that answer a next state and leave the kept words alone. -/

set_option linter.all false

namespace Sys2Proof.Machine

theorem execRelayDownRx_kept (dt : Nat) (lane : Fin 68) (rx : LaneRx) (s : State) : keeps (execRelayDownRx dt lane rx s) (s.advance dt).kept := by
  unfold execRelayDownRx
  generalize s.advance dt = s
  (try dsimp only); (repeat' split) <;> simp (disch := first | assumption | (simp only [away]; omega) | simp only [onRing_away, ringEnabled_away, ringErr_away, ringCause_away, ringArmed_away, ringProd_away, ringCons_away]) only [keeps_next, State.ite_kept, ite_self, State.laneIn_kept]

theorem execRelayUpRx_kept (dt : Nat) (lane : Fin 68) (rx : LaneRx) (s : State) : keeps (execRelayUpRx dt lane rx s) (s.advance dt).kept := by
  unfold execRelayUpRx
  generalize s.advance dt = s
  (try dsimp only); (repeat' split) <;> simp (disch := first | assumption | (simp only [away]; omega) | simp only [onRing_away, ringEnabled_away, ringErr_away, ringCause_away, ringArmed_away, ringProd_away, ringCons_away]) only [keeps_next, State.ite_kept, ite_self, State.laneIn_kept]

theorem execTb3RateUpdate_kept (dt : Nat) (s : State) : keeps (execTb3RateUpdate dt s) (s.advance dt).kept := by
  unfold execTb3RateUpdate
  generalize s.advance dt = s
  (repeat' (first | rw [keeps_next] | apply whenOn_keeps | with_reducible rfl | (simp (disch := first | assumption | (simp only [away]; omega) | simp only [onRing_away, ringEnabled_away, ringErr_away, ringCause_away, ringArmed_away, ringProd_away, ringCons_away]) only [keeps_next, State.ite_kept, ite_self, State.compareDomains_kept, State.rateTb3_kept]; done) | split | apply foldl_kept_of | apply foldl_kept_snd_of | apply foldl_kept_fst_of | intro _ _ | dsimp only | simp (disch := first | assumption | (simp only [away]; omega) | simp only [onRing_away, ringEnabled_away, ringErr_away, ringCause_away, ringArmed_away, ringProd_away, ringCons_away]) only [keeps_next, State.ite_kept, ite_self, State.compareDomains_kept, State.rateTb3_kept]))

theorem execTbSnapshot_kept (dt : Nat) (s : State) : keeps (execTbSnapshot dt s) (s.advance dt).kept := by
  unfold execTbSnapshot
  rw [keeps_next]
  exact State.hostWrite_kept _ _ _ (State.tbSnapshot_kept _)

theorem execStepTb3_kept (dt : Nat) (s : State) : keeps (execStepTb3 dt s) (s.advance dt).kept := by
  unfold execStepTb3
  generalize s.advance dt = s
  (repeat' (first | rw [keeps_next] | apply whenOn_keeps | refine (State.hostWrite_kept _ _ _ ?_).trans ?_ | with_reducible rfl | (simp (disch := first | assumption | (simp only [away, Reg.TB_CTRL_step_tb3]; omega) | simp only [onRing_away, ringEnabled_away, ringErr_away, ringCause_away, ringArmed_away, ringProd_away, ringCons_away]) only [keeps_next, State.ite_kept, ite_self, State.askStep_kept]; done) | split | apply foldl_kept_of | apply foldl_kept_snd_of | apply foldl_kept_fst_of | intro _ _ | dsimp only | simp (disch := first | assumption | (simp only [away, Reg.TB_CTRL_step_tb3]; omega) | simp only [onRing_away, ringEnabled_away, ringErr_away, ringCause_away, ringArmed_away, ringProd_away, ringCons_away]) only [keeps_next, State.ite_kept, ite_self, State.askStep_kept]))

theorem execTb3Switch_kept (dt : Nat) (s : State) : keeps (execTb3Switch dt s) (s.advance dt).kept := by
  unfold execTb3Switch
  generalize s.advance dt = s
  (repeat' (first | rw [keeps_next] | apply whenOn_keeps | with_reducible rfl | (simp (disch := first | assumption | (simp only [away]; omega) | simp only [onRing_away, ringEnabled_away, ringErr_away, ringCause_away, ringArmed_away, ringProd_away, ringCons_away]) only [keeps_next, State.ite_kept, ite_self, State.autoSwitch_kept]; done) | split | apply foldl_kept_of | apply foldl_kept_snd_of | apply foldl_kept_fst_of | intro _ _ | dsimp only | simp (disch := first | assumption | (simp only [away]; omega) | simp only [onRing_away, ringEnabled_away, ringErr_away, ringCause_away, ringArmed_away, ringProd_away, ringCons_away]) only [keeps_next, State.ite_kept, ite_self, State.autoSwitch_kept]))

theorem execDomainEligibleRestore_kept (dt : Nat) (s : State) : keeps (execDomainEligibleRestore dt s) (s.advance dt).kept := by
  unfold execDomainEligibleRestore
  generalize s.advance dt = s
  (repeat' (first | rw [keeps_next] | apply whenOn_keeps | with_reducible rfl | (simp (disch := first | assumption | (simp only [away, Reg.PTPd_STATUS_eligible]; omega) | simp only [onRing_away, ringEnabled_away, ringErr_away, ringCause_away, ringArmed_away, ringProd_away, ringCons_away]) only [keeps_next, State.ite_kept, ite_self, State.autoSwitch_kept, State.compareDomains_kept, State.modTime_kept, State.onPtp_kept, State.raise_kept]; done) | split | apply foldl_kept_of | apply foldl_kept_snd_of | apply foldl_kept_fst_of | intro _ _ | dsimp only | simp (disch := first | assumption | (simp only [away, Reg.PTPd_STATUS_eligible]; omega) | simp only [onRing_away, ringEnabled_away, ringErr_away, ringCause_away, ringArmed_away, ringProd_away, ringCons_away]) only [keeps_next, State.ite_kept, ite_self, State.autoSwitch_kept, State.compareDomains_kept, State.modTime_kept, State.onPtp_kept, State.raise_kept]))

theorem execPtpSyncRx_kept (dt : Nat) (d : Fin 2) (h : PtpHeader) (origin : BitVec 64) (s : State) : keeps (execPtpSyncRx dt d h origin s) (s.advance dt).kept := by
  unfold execPtpSyncRx
  generalize s.advance dt = s
  (repeat' (first | rw [keeps_next] | apply whenOn_keeps | with_reducible rfl | (simp (disch := first | assumption | (simp only [away]; omega) | simp only [onRing_away, ringEnabled_away, ringErr_away, ringCause_away, ringArmed_away, ringProd_away, ringCons_away]) only [keeps_next, State.ite_kept, ite_self, State.onPtp_kept, State.servo_kept]; done) | split | apply foldl_kept_of | apply foldl_kept_snd_of | apply foldl_kept_fst_of | intro _ _ | dsimp only | simp (disch := first | assumption | (simp only [away]; omega) | simp only [onRing_away, ringEnabled_away, ringErr_away, ringCause_away, ringArmed_away, ringProd_away, ringCons_away]) only [keeps_next, State.ite_kept, ite_self, State.onPtp_kept, State.servo_kept]))

theorem execPtpFollowUpRx_kept (dt : Nat) (d : Fin 2) (h : PtpHeader) (origin : BitVec 64) (s : State) : keeps (execPtpFollowUpRx dt d h origin s) (s.advance dt).kept := by
  unfold execPtpFollowUpRx
  generalize s.advance dt = s
  (repeat' (first | rw [keeps_next] | apply whenOn_keeps | with_reducible rfl | (simp (disch := first | assumption | (simp only [away]; omega) | simp only [onRing_away, ringEnabled_away, ringErr_away, ringCause_away, ringArmed_away, ringProd_away, ringCons_away]) only [keeps_next, State.ite_kept, ite_self, State.onPtp_kept, State.servo_kept]; done) | split | apply foldl_kept_of | apply foldl_kept_snd_of | apply foldl_kept_fst_of | intro _ _ | dsimp only | simp (disch := first | assumption | (simp only [away]; omega) | simp only [onRing_away, ringEnabled_away, ringErr_away, ringCause_away, ringArmed_away, ringProd_away, ringCons_away]) only [keeps_next, State.ite_kept, ite_self, State.onPtp_kept, State.servo_kept]))

theorem execPtpDelayReqSend_kept (dt : Nat) (d : Fin 2) (s : State) : keeps (execPtpDelayReqSend dt d s) (s.advance dt).kept := by
  unfold execPtpDelayReqSend
  generalize s.advance dt = s
  (repeat' (first | rw [keeps_next] | apply whenOn_keeps | with_reducible rfl | (simp (disch := first | assumption | (simp only [away]; omega) | simp only [onRing_away, ringEnabled_away, ringErr_away, ringCause_away, ringArmed_away, ringProd_away, ringCons_away]) only [keeps_next, State.ite_kept, ite_self, State.sendRequest_kept]; done) | split | apply foldl_kept_of | apply foldl_kept_snd_of | apply foldl_kept_fst_of | intro _ _ | dsimp only | simp (disch := first | assumption | (simp only [away]; omega) | simp only [onRing_away, ringEnabled_away, ringErr_away, ringCause_away, ringArmed_away, ringProd_away, ringCons_away]) only [keeps_next, State.ite_kept, ite_self, State.sendRequest_kept]))

theorem execPtpDelayRespRx_kept (dt : Nat) (d : Fin 2) (h : PtpHeader) (received : BitVec 64) (s : State) : keeps (execPtpDelayRespRx dt d h received s) (s.advance dt).kept := by
  unfold execPtpDelayRespRx
  generalize s.advance dt = s
  (repeat' (first | rw [keeps_next] | apply whenOn_keeps | with_reducible rfl | (simp (disch := first | assumption | (simp only [away]; omega) | simp only [onRing_away, ringEnabled_away, ringErr_away, ringCause_away, ringArmed_away, ringProd_away, ringCons_away]) only [keeps_next, State.ite_kept, ite_self, State.setDelay_kept]; done) | split | apply foldl_kept_of | apply foldl_kept_snd_of | apply foldl_kept_fst_of | intro _ _ | dsimp only | simp (disch := first | assumption | (simp only [away]; omega) | simp only [onRing_away, ringEnabled_away, ringErr_away, ringCause_away, ringArmed_away, ringProd_away, ringCons_away]) only [keeps_next, State.ite_kept, ite_self, State.setDelay_kept]))

theorem execPtpAnnounceRx_kept (dt : Nat) (d : Fin 2) (h : PtpHeader) (data : Announce) (s : State) : keeps (execPtpAnnounceRx dt d h data s) (s.advance dt).kept := by
  unfold execPtpAnnounceRx
  generalize s.advance dt = s
  (repeat' (first | rw [keeps_next] | apply whenOn_keeps | with_reducible rfl | (simp (disch := first | assumption | (simp only [away]; omega) | simp only [onRing_away, ringEnabled_away, ringErr_away, ringCause_away, ringArmed_away, ringProd_away, ringCons_away]) only [keeps_next, State.ite_kept, ite_self, State.onPtp_kept, State.showMaster_kept]; done) | split | apply foldl_kept_of | apply foldl_kept_snd_of | apply foldl_kept_fst_of | intro _ _ | dsimp only | simp (disch := first | assumption | (simp only [away]; omega) | simp only [onRing_away, ringEnabled_away, ringErr_away, ringCause_away, ringArmed_away, ringProd_away, ringCons_away]) only [keeps_next, State.ite_kept, ite_self, State.onPtp_kept, State.showMaster_kept]))

theorem execPtpPdelayReqSend_kept (dt : Nat) (d : Fin 2) (s : State) : keeps (execPtpPdelayReqSend dt d s) (s.advance dt).kept := by
  unfold execPtpPdelayReqSend
  generalize s.advance dt = s
  (repeat' (first | rw [keeps_next] | apply whenOn_keeps | with_reducible rfl | (simp (disch := first | assumption | (simp only [away]; omega) | simp only [onRing_away, ringEnabled_away, ringErr_away, ringCause_away, ringArmed_away, ringProd_away, ringCons_away]) only [keeps_next, State.ite_kept, ite_self, State.sendRequest_kept]; done) | split | apply foldl_kept_of | apply foldl_kept_snd_of | apply foldl_kept_fst_of | intro _ _ | dsimp only | simp (disch := first | assumption | (simp only [away]; omega) | simp only [onRing_away, ringEnabled_away, ringErr_away, ringCause_away, ringArmed_away, ringProd_away, ringCons_away]) only [keeps_next, State.ite_kept, ite_self, State.sendRequest_kept]))

theorem execPtpPdelayReqRx_kept (dt : Nat) (d : Fin 2) (h : PtpHeader) (s : State) : keeps (execPtpPdelayReqRx dt d h s) (s.advance dt).kept := by
  unfold execPtpPdelayReqRx
  generalize s.advance dt = s
  (repeat' (first | rw [keeps_next] | apply whenOn_keeps | with_reducible rfl | (simp (disch := first | assumption | (simp only [away]; omega) | simp only [onRing_away, ringEnabled_away, ringErr_away, ringCause_away, ringArmed_away, ringProd_away, ringCons_away]) only [keeps_next, State.ite_kept, ite_self, State.sendPtp_kept]; done) | split | apply foldl_kept_of | apply foldl_kept_snd_of | apply foldl_kept_fst_of | intro _ _ | dsimp only | simp (disch := first | assumption | (simp only [away]; omega) | simp only [onRing_away, ringEnabled_away, ringErr_away, ringCause_away, ringArmed_away, ringProd_away, ringCons_away]) only [keeps_next, State.ite_kept, ite_self, State.sendPtp_kept]))

theorem execPtpPdelayRespRx_kept (dt : Nat) (d : Fin 2) (h : PtpHeader) (followUp : Bool) (stamp : BitVec 64) (s : State) : keeps (execPtpPdelayRespRx dt d h followUp stamp s) (s.advance dt).kept := by
  unfold execPtpPdelayRespRx
  generalize s.advance dt = s
  (repeat' (first | rw [keeps_next] | apply whenOn_keeps | with_reducible rfl | (simp (disch := first | assumption | (simp only [away]; omega) | simp only [onRing_away, ringEnabled_away, ringErr_away, ringCause_away, ringArmed_away, ringProd_away, ringCons_away]) only [keeps_next, State.ite_kept, ite_self, State.onPtp_kept, State.setDelay_kept]; done) | split | apply foldl_kept_of | apply foldl_kept_snd_of | apply foldl_kept_fst_of | intro _ _ | dsimp only | simp (disch := first | assumption | (simp only [away]; omega) | simp only [onRing_away, ringEnabled_away, ringErr_away, ringCause_away, ringArmed_away, ringProd_away, ringCons_away]) only [keeps_next, State.ite_kept, ite_self, State.onPtp_kept, State.setDelay_kept]))

theorem execPtpIgnoredRx_kept (dt : Nat) (d : Fin 2) (h : PtpHeader) (s : State) : keeps (execPtpIgnoredRx dt d h s) (s.advance dt).kept := by
  unfold execPtpIgnoredRx
  generalize s.advance dt = s
  (repeat' (first | rw [keeps_next] | apply whenOn_keeps | with_reducible rfl | (simp (disch := first | assumption | (simp only [away, Reg.PTPd_STATUS_ignored_count]; omega) | simp only [onRing_away, ringEnabled_away, ringErr_away, ringCause_away, ringArmed_away, ringProd_away, ringCons_away]) only [keeps_next, State.ite_kept, ite_self, State.bump_kept]; done) | split | apply foldl_kept_of | apply foldl_kept_snd_of | apply foldl_kept_fst_of | intro _ _ | dsimp only | simp (disch := first | assumption | (simp only [away, Reg.PTPd_STATUS_ignored_count]; omega) | simp only [onRing_away, ringEnabled_away, ringErr_away, ringCause_away, ringArmed_away, ringProd_away, ringCons_away]) only [keeps_next, State.ite_kept, ite_self, State.bump_kept]))

theorem execPtpHoldover_kept (dt : Nat) (d : Fin 2) (s : State) : keeps (execPtpHoldover dt d s) (s.advance dt).kept := by
  unfold execPtpHoldover
  generalize s.advance dt = s
  (repeat' (first | rw [keeps_next] | apply whenOn_keeps | with_reducible rfl | (simp (disch := first | assumption | (simp only [away, Reg.PTPd_STATUS_holdover_seen, Reg.PTPd_STATUS_state]; omega) | simp only [onRing_away, ringEnabled_away, ringErr_away, ringCause_away, ringArmed_away, ringProd_away, ringCons_away]) only [keeps_next, State.ite_kept, ite_self, State.autoSwitch_kept, State.onPtp_kept, State.post_kept, State.raise_kept, State.set_kept, State.showMaster_kept]; done) | split | apply foldl_kept_of | apply foldl_kept_snd_of | apply foldl_kept_fst_of | intro _ _ | dsimp only | simp (disch := first | assumption | (simp only [away, Reg.PTPd_STATUS_holdover_seen, Reg.PTPd_STATUS_state]; omega) | simp only [onRing_away, ringEnabled_away, ringErr_away, ringCause_away, ringArmed_away, ringProd_away, ringCons_away]) only [keeps_next, State.ite_kept, ite_self, State.autoSwitch_kept, State.onPtp_kept, State.post_kept, State.raise_kept, State.set_kept, State.showMaster_kept]))

theorem execWcPublish_kept (dt : Nat) (s : State) : keeps (execWcPublish dt s) (s.advance dt).kept := by
  unfold execWcPublish
  generalize s.advance dt = s
  (repeat' (first | rw [keeps_next] | apply whenOn_keeps | with_reducible rfl | (simp (disch := first | assumption | (simp only [away, Reg.WCP_CFG_domain, Reg.WCP_CFG_enable]; omega) | simp only [onRing_away, ringEnabled_away, ringErr_away, ringCause_away, ringArmed_away, ringProd_away, ringCons_away]) only [keeps_next, State.ite_kept, ite_self, State.modTime_kept, State.post_kept, State.sendWc_kept]; done) | split | apply foldl_kept_of | apply foldl_kept_snd_of | apply foldl_kept_fst_of | intro _ _ | dsimp only | simp (disch := first | assumption | (simp only [away, Reg.WCP_CFG_domain, Reg.WCP_CFG_enable]; omega) | simp only [onRing_away, ringEnabled_away, ringErr_away, ringCause_away, ringArmed_away, ringProd_away, ringCons_away]) only [keeps_next, State.ite_kept, ite_self, State.modTime_kept, State.post_kept, State.sendWc_kept]))

theorem execWcMessageRx_kept (dt : Nat) (_port : Fin 2) (carrier : NetCarrier) (data : List Byte) (s : State) : keeps (execWcMessageRx dt _port carrier data s) (s.advance dt).kept := by
  unfold execWcMessageRx
  generalize s.advance dt = s
  (repeat' (first | rw [keeps_next] | apply whenOn_keeps | with_reducible rfl | (simp (disch := first | assumption | (simp only [away, Reg.WCS_CFG_enable]; omega) | simp only [onRing_away, ringEnabled_away, ringErr_away, ringCause_away, ringArmed_away, ringProd_away, ringCons_away]) only [keeps_next, State.ite_kept, ite_self, State.wcReceive_kept]; done) | split | apply foldl_kept_of | apply foldl_kept_snd_of | apply foldl_kept_fst_of | intro _ _ | dsimp only | simp (disch := first | assumption | (simp only [away, Reg.WCS_CFG_enable]; omega) | simp only [onRing_away, ringEnabled_away, ringErr_away, ringCause_away, ringArmed_away, ringProd_away, ringCons_away]) only [keeps_next, State.ite_kept, ite_self, State.wcReceive_kept]))

theorem execWcStale_kept (dt : Nat) (s : State) : keeps (execWcStale dt s) (s.advance dt).kept := by
  unfold execWcStale
  generalize s.advance dt = s
  (repeat' (first | rw [keeps_next] | apply whenOn_keeps | with_reducible rfl | (simp (disch := first | assumption | (simp only [away, Reg.WCS_CFG_enable, Reg.WCS_CFG_stale_us]; omega) | simp only [onRing_away, ringEnabled_away, ringErr_away, ringCause_away, ringArmed_away, ringProd_away, ringCons_away]) only [keeps_next, State.ite_kept, ite_self, State.goStale_kept]; done) | split | apply foldl_kept_of | apply foldl_kept_snd_of | apply foldl_kept_fst_of | intro _ _ | dsimp only | simp (disch := first | assumption | (simp only [away, Reg.WCS_CFG_enable, Reg.WCS_CFG_stale_us]; omega) | simp only [onRing_away, ringEnabled_away, ringErr_away, ringCause_away, ringArmed_away, ringProd_away, ringCons_away]) only [keeps_next, State.ite_kept, ite_self, State.goStale_kept]))

theorem execEthFrameRx_kept (dt : Nat) (port : Fin 2) (dest : EthDest) (bad : Bool) (carrier : NetCarrier) (s : State) : keeps (execEthFrameRx dt port dest bad carrier s) (s.advance dt).kept := by
  unfold execEthFrameRx
  generalize s.advance dt = s
  (repeat' (first | rw [keeps_next] | apply whenOn_keeps | with_reducible rfl | (simp (disch := first | assumption | (simp only [away, Reg.ETHp_CFG_enable, Reg.ETHp_RX_ERRORS, Reg.ETHp_RX_FILTERED, Reg.ETHp_RX_FRAMES]; omega) | simp only [onRing_away, ringEnabled_away, ringErr_away, ringCause_away, ringArmed_away, ringProd_away, ringCons_away]) only [keeps_next, State.ite_kept, ite_self, State.bump_kept]; done) | split | apply foldl_kept_of | apply foldl_kept_snd_of | apply foldl_kept_fst_of | intro _ _ | dsimp only | simp (disch := first | assumption | (simp only [away, Reg.ETHp_CFG_enable, Reg.ETHp_RX_ERRORS, Reg.ETHp_RX_FILTERED, Reg.ETHp_RX_FRAMES]; omega) | simp only [onRing_away, ringEnabled_away, ringErr_away, ringCause_away, ringArmed_away, ringProd_away, ringCons_away]) only [keeps_next, State.ite_kept, ite_self, State.bump_kept]))

theorem execEthLinkChange_kept (dt : Nat) (port : Fin 2) (up : Bool) (s : State) : keeps (execEthLinkChange dt port up s) (s.advance dt).kept := by
  unfold execEthLinkChange
  generalize s.advance dt = s
  (repeat' (first | rw [keeps_next] | apply whenOn_keeps | with_reducible rfl | (simp (disch := first | assumption | (simp only [away, Reg.ETHp_STATUS_link_changed, Reg.ETHp_STATUS_link_up]; omega) | simp only [onRing_away, ringEnabled_away, ringErr_away, ringCause_away, ringArmed_away, ringProd_away, ringCons_away]) only [keeps_next, State.ite_kept, ite_self, State.raise_kept, State.setOn_kept]; done) | split | apply foldl_kept_of | apply foldl_kept_snd_of | apply foldl_kept_fst_of | intro _ _ | dsimp only | simp (disch := first | assumption | (simp only [away, Reg.ETHp_STATUS_link_changed, Reg.ETHp_STATUS_link_up]; omega) | simp only [onRing_away, ringEnabled_away, ringErr_away, ringCause_away, ringArmed_away, ringProd_away, ringCons_away]) only [keeps_next, State.ite_kept, ite_self, State.raise_kept, State.setOn_kept]))

theorem execCeilingRecompute_kept (dt : Nat) (s : State) : keeps (execCeilingRecompute dt s) (s.advance dt).kept := by
  unfold execCeilingRecompute
  generalize s.advance dt = s
  (repeat' (first | rw [keeps_next] | apply whenOn_keeps | with_reducible rfl | (simp (disch := first | assumption | (simp only [away]; omega) | simp only [onRing_away, ringEnabled_away, ringErr_away, ringCause_away, ringArmed_away, ringProd_away, ringCons_away]) only [keeps_next, State.ite_kept, ite_self, State.recomputeCeiling_kept]; done) | split | apply foldl_kept_of | apply foldl_kept_snd_of | apply foldl_kept_fst_of | intro _ _ | dsimp only | simp (disch := first | assumption | (simp only [away]; omega) | simp only [onRing_away, ringEnabled_away, ringErr_away, ringCause_away, ringArmed_away, ringProd_away, ringCons_away]) only [keeps_next, State.ite_kept, ite_self, State.recomputeCeiling_kept]))

theorem execRingEnable_kept (dt : Nat) (r : AnyRing) (v : BitVec 32) (s : State) : keeps (execRingEnable dt r v s) (s.advance dt).kept := by
  unfold execRingEnable
  generalize s.advance dt = s
  (repeat' (first | rw [keeps_next] | apply whenOn_keeps | refine (State.hostWrite_kept _ _ _ ?_).trans ?_ | with_reducible rfl | (simp (disch := first | assumption | (simp only [away]; omega) | simp only [onRing_away, ringEnabled_away, ringErr_away, ringCause_away, ringArmed_away, ringProd_away, ringCons_away]) only [keeps_next, State.ite_kept, ite_self, State.writeRingCfg_kept]; done) | split | apply foldl_kept_of | apply foldl_kept_snd_of | apply foldl_kept_fst_of | intro _ _ | dsimp only | simp (disch := first | assumption | (simp only [away]; omega) | simp only [onRing_away, ringEnabled_away, ringErr_away, ringCause_away, ringArmed_away, ringProd_away, ringCons_away]) only [keeps_next, State.ite_kept, ite_self, State.writeRingCfg_kept]))

theorem execIssueDoorbell_kept (dt : Nat) (g : Fin 16) (v : BitVec 64) (s : State) : keeps (execIssueDoorbell dt g v s) (s.advance dt).kept := by
  unfold execIssueDoorbell
  generalize s.advance dt = s
  simp (disch := first | assumption | (simp only [away]; omega) | simp only [onRing_away, ringEnabled_away, ringErr_away, ringCause_away, ringArmed_away, ringProd_away, ringCons_away]) only [keeps_next, State.ite_kept, ite_self, State.issueDoorbell_kept]

theorem execCompletionDoorbell_kept (dt : Nat) (g : Fin 16) (v : BitVec 64) (s : State) : keeps (execCompletionDoorbell dt g v s) (s.advance dt).kept := by
  unfold execCompletionDoorbell
  generalize s.advance dt = s
  simp (disch := first | assumption | (simp only [away]; omega) | simp only [onRing_away, ringEnabled_away, ringErr_away, ringCause_away, ringArmed_away, ringProd_away, ringCons_away]) only [keeps_next, State.ite_kept, ite_self, State.consumerDoorbell_kept]

theorem execEventDoorbell_kept (dt : Nat) (v : BitVec 64) (s : State) : keeps (execEventDoorbell dt v s) (s.advance dt).kept := by
  unfold execEventDoorbell
  generalize s.advance dt = s
  simp (disch := first | assumption | (simp only [away]; omega) | simp only [onRing_away, ringEnabled_away, ringErr_away, ringCause_away, ringArmed_away, ringProd_away, ringCons_away]) only [keeps_next, State.ite_kept, ite_self, State.consumerDoorbell_kept]

theorem execStatsDoorbell_kept (dt : Nat) (v : BitVec 64) (s : State) : keeps (execStatsDoorbell dt v s) (s.advance dt).kept := by
  unfold execStatsDoorbell
  generalize s.advance dt = s
  simp (disch := first | assumption | (simp only [away]; omega) | simp only [onRing_away, ringEnabled_away, ringErr_away, ringCause_away, ringArmed_away, ringProd_away, ringCons_away]) only [keeps_next, State.ite_kept, ite_self, State.consumerDoorbell_kept]

theorem execBar2BadWrite_kept (dt : Nat) (off : BitVec 17) (bytes : Nat) (s : State) : keeps (execBar2BadWrite dt off bytes s) (s.advance dt).kept := by
  unfold execBar2BadWrite
  generalize s.advance dt = s
  (try dsimp only); (repeat' split) <;> simp (disch := first | assumption | (simp only [away]; omega) | simp only [onRing_away, ringEnabled_away, ringErr_away, ringCause_away, ringArmed_away, ringProd_away, ringCons_away]) only [keeps_next, State.ite_kept, ite_self, State.badDoorbell_kept]

theorem execDescriptorFetch_kept (dt : Nat) (desc : List Byte) (dma : FetchDma) (s : State) : keeps (execDescriptorFetch dt desc dma s) (s.advance dt).kept := by
  unfold execDescriptorFetch
  generalize s.advance dt = s
  refine whenOn_keeps rfl ?_
  split
  · simp
  · split
    · simp
    · rename_i i s1 h
      have h1 : s1.kept = s.kept := s.chooseIssue_kept _ h
      split
      · rw [keeps_next, State.stopRing_kept _ _ _ _ _ (by simp [away, Reg.HR_ISQi_STATUS_error]; omega)
          (by simp [away, Reg.HR_ISQi_STATUS_cause]; omega), h1]
      · simp [h1]

theorem execCompletionWrite_kept (dt : Nat) (op : OpRef) (ok : Bool) (s : State) : keeps (execCompletionWrite dt op ok s) (s.advance dt).kept := by
  unfold execCompletionWrite
  generalize s.advance dt = s
  refine whenOn_keeps rfl ?_
  dsimp only
  split
  · simp
  · split
    · simp
    · split
      · simp
      · split
        · rw [keeps_next, State.loseCompletion_kept, State.stopRing_kept _ _ _ _ _ (by simp) (by simp), State.dropFlight_kept]
        · simp

theorem execRingInterrupt_kept (dt : Nat) (r : ConsumerRing) (s : State) : keeps (execRingInterrupt dt r s) (s.advance dt).kept := by
  unfold execRingInterrupt
  generalize s.advance dt = s
  simp (disch := first | assumption | (simp only [away]; omega) | simp only [onRing_away, ringEnabled_away, ringErr_away, ringCause_away, ringArmed_away, ringProd_away, ringCons_away]) only [keeps_next, State.ite_kept, ite_self, State.moderate_kept]

theorem execEventPost_kept (dt : Nat) (code : BitVec 16) (args : List Byte) (ok : Bool) (s : State) : keeps (execEventPost dt code args ok s) (s.advance dt).kept := by
  unfold execEventPost
  generalize s.advance dt = s
  simp (disch := first | assumption | (simp only [away, Reg.HR_EVT_MASK_mask]; omega) | simp only [onRing_away, ringEnabled_away, ringErr_away, ringCause_away, ringArmed_away, ringProd_away, ringCons_away]) only [keeps_next, State.ite_kept, ite_self, State.post_kept, State.stopRing_kept]

theorem execStatsRecordWrite_kept (dt : Nat) (ok : Bool) (s : State) : keeps (execStatsRecordWrite dt ok s) (s.advance dt).kept := by
  unfold execStatsRecordWrite
  generalize s.advance dt = s
  (repeat' (first | rw [keeps_next] | apply whenOn_keeps | with_reducible rfl | (simp (disch := first | assumption | (simp only [away]; omega) | simp only [onRing_away, ringEnabled_away, ringErr_away, ringCause_away, ringArmed_away, ringProd_away, ringCons_away]) only [keeps_next, State.ite_kept, ite_self, State.modRings_kept, State.writeStat_kept]; done) | split | apply foldl_kept_of | apply foldl_kept_snd_of | apply foldl_kept_fst_of | intro _ _ | dsimp only | simp (disch := first | assumption | (simp only [away]; omega) | simp only [onRing_away, ringEnabled_away, ringErr_away, ringCause_away, ringArmed_away, ringProd_away, ringCons_away]) only [keeps_next, State.ite_kept, ite_self, State.modRings_kept, State.writeStat_kept]))

theorem execCodewordRead_kept (dt : Nat) (r : WordRead) (s : State) : keeps (execCodewordRead dt r s) (s.advance dt).kept := by
  unfold execCodewordRead
  generalize s.advance dt = s
  (try dsimp only); (repeat' split) <;> simp (disch := first | assumption | (simp only [away]; omega) | simp only [onRing_away, ringEnabled_away, ringErr_away, ringCause_away, ringArmed_away, ringProd_away, ringCons_away]) only [keeps_next, State.ite_kept, ite_self, State.dramOutcome_kept, State.noteDram_kept, State.noteSram_kept, State.sramOutcome_kept]

end Sys2Proof.Machine
end

