-- ==== Sys2Proof/Laws/Keeps5.lean ====
section
/-! SUPPORT. Meanings that answer a next state and leave the kept words alone. -/

set_option linter.all false

namespace Sys2Proof.Machine

theorem execDramScrub_kept (dt : Nat) (errors : List (Nat × BurstErrors)) (wait : StoreWait) (s : State) : keeps (execDramScrub dt errors wait s) (s.advance dt).kept := by
  unfold execDramScrub
  generalize s.advance dt = s
  (repeat' (first | rw [keeps_next] | apply whenOn_keeps | with_reducible rfl | (simp (disch := first | assumption | (simp only [away, Reg.MEM_SCRUB_dram_en, Reg.MEM_STATUS_ready]; omega) | simp only [onRing_away, ringEnabled_away, ringErr_away, ringCause_away, ringArmed_away, ringProd_away, ringCons_away]) only [keeps_next, State.ite_kept, ite_self, State.modMem_kept, State.post_kept, State.scrubDram_kept, State.serveStore_kept]; done) | split | apply foldl_kept_of | apply foldl_kept_snd_of | apply foldl_kept_fst_of | intro _ _ | dsimp only | simp (disch := first | assumption | (simp only [away, Reg.MEM_SCRUB_dram_en, Reg.MEM_STATUS_ready]; omega) | simp only [onRing_away, ringEnabled_away, ringErr_away, ringCause_away, ringArmed_away, ringProd_away, ringCons_away]) only [keeps_next, State.ite_kept, ite_self, State.modMem_kept, State.post_kept, State.scrubDram_kept, State.serveStore_kept]))

theorem execSramScrub_kept (dt : Nat) (errors : List (BitVec 24 × List Nat × SramHold)) (s : State) : keeps (execSramScrub dt errors s) (s.advance dt).kept := by
  unfold execSramScrub
  generalize s.advance dt = s
  (repeat' (first | rw [keeps_next] | apply whenOn_keeps | with_reducible rfl | (simp (disch := first | assumption | (simp only [away, Reg.MEM_SCRUB_sram_en]; omega) | simp only [onRing_away, ringEnabled_away, ringErr_away, ringCause_away, ringArmed_away, ringProd_away, ringCons_away]) only [keeps_next, State.ite_kept, ite_self, State.post_kept, State.scrubSram_kept]; done) | split | apply foldl_kept_of | apply foldl_kept_snd_of | apply foldl_kept_fst_of | intro _ _ | dsimp only | simp (disch := first | assumption | (simp only [away, Reg.MEM_SCRUB_sram_en]; omega) | simp only [onRing_away, ringEnabled_away, ringErr_away, ringCause_away, ringArmed_away, ringProd_away, ringCons_away]) only [keeps_next, State.ite_kept, ite_self, State.post_kept, State.scrubSram_kept]))

theorem execPartialWrite_kept (dt : Nat) (t : PartialTarget) (op : Option OpRef) (s : State) : keeps (execPartialWrite dt t op s) (s.advance dt).kept := by
  unfold execPartialWrite
  generalize s.advance dt = s
  (try dsimp only); (repeat' split) <;> simp (disch := first | assumption | (simp only [away]; omega) | simp only [onRing_away, ringEnabled_away, ringErr_away, ringCause_away, ringArmed_away, ringProd_away, ringCons_away]) only [keeps_next, State.ite_kept, ite_self, State.endPoisoned_kept, State.partialDram_kept, State.partialSram_kept]

theorem execRetire_kept (dt : Nat) (op : OpRef) (s : State) : keeps (execRetire dt op s) (s.advance dt).kept := by
  unfold execRetire
  generalize s.advance dt = s
  rw [keeps_next]
  refine State.runOp_kept _ _ _ _ _ _ _ _ _ fun f s => ?_
  dsimp only
  split
  · simp
  · split
    · simp
    · split
      · simp
      · split
        · rename_i new s1 h
          have h1 : s1.kept = s.kept := pair_kept h (by simp)
          simp [h1]
        · rename_i s1 h
          have h1 : s1.kept = s.kept := pair_kept h (by simp)
          simp [h1]

theorem execPageRetired_kept (dt : Nat) (page : Nat) (errors : List (Nat × BurstErrors)) (s : State) : keeps (execPageRetired dt page errors s) (s.advance dt).kept := by
  unfold execPageRetired
  generalize s.advance dt = s
  (try dsimp only); (repeat' split) <;> simp (disch := first | assumption | (simp only [away]; omega) | simp only [onRing_away, ringEnabled_away, ringErr_away, ringCause_away, ringArmed_away, ringProd_away, ringCons_away]) only [keeps_next, State.ite_kept, ite_self, State.copyReads_kept, State.countStore_kept, State.endOp_kept, State.endRetires_kept, State.modMem_kept, State.post_kept, State.replacePage_kept, State.retirePage_kept, State.writePage_kept]

theorem execTableLoad_kept (dt : Nat) (op : OpRef) (data : List Byte) (s : State) : keeps (execTableLoad dt op data s) (s.advance dt).kept := by
  unfold execTableLoad
  generalize s.advance dt = s
  (repeat' (first | rw [keeps_next] | apply whenOn_keeps | refine (State.tableOp_kept _ _ _ ?_).trans ?_ | with_reducible rfl | (simp (disch := first | assumption | (simp only [away]; omega) | simp only [onRing_away, ringEnabled_away, ringErr_away, ringCause_away, ringArmed_away, ringProd_away, ringCons_away]) only [keeps_next, State.ite_kept, ite_self, State.loadTable_kept]; done) | split | apply foldl_kept_of | apply foldl_kept_snd_of | apply foldl_kept_fst_of | intro _ _ | dsimp only | simp (disch := first | assumption | (simp only [away]; omega) | simp only [onRing_away, ringEnabled_away, ringErr_away, ringCause_away, ringArmed_away, ringProd_away, ringCons_away]) only [keeps_next, State.ite_kept, ite_self, State.loadTable_kept]))

theorem execIngest_kept (dt : Nat) (op : OpRef) (data : List Byte) (s : State) : keeps (execIngest dt op data s) (s.advance dt).kept := by
  unfold execIngest
  generalize s.advance dt = s
  (repeat' (first | rw [keeps_next] | apply whenOn_keeps | refine (State.ingestOp_kept _ _ _ ?_).trans ?_ | with_reducible rfl | (simp (disch := first | assumption | (simp only [away]; omega) | simp only [onRing_away, ringEnabled_away, ringErr_away, ringCause_away, ringArmed_away, ringProd_away, ringCons_away]) only [keeps_next, State.ite_kept, ite_self, State.ingest_kept]; done) | split | apply foldl_kept_of | apply foldl_kept_snd_of | apply foldl_kept_fst_of | intro _ _ | dsimp only | simp (disch := first | assumption | (simp only [away]; omega) | simp only [onRing_away, ringEnabled_away, ringErr_away, ringCause_away, ringArmed_away, ringProd_away, ringCons_away]) only [keeps_next, State.ite_kept, ite_self, State.ingest_kept]))

theorem execStorePrecompressed_kept (dt : Nat) (op : OpRef) (data : List Byte) (s : State) : keeps (execStorePrecompressed dt op data s) (s.advance dt).kept := by
  unfold execStorePrecompressed
  generalize s.advance dt = s
  (repeat' (first | rw [keeps_next] | apply whenOn_keeps | refine (State.storeOp_kept _ _ _ _ ?_).trans ?_ | with_reducible rfl | (simp (disch := first | assumption | (simp only [away]; omega) | simp only [onRing_away, ringEnabled_away, ringErr_away, ringCause_away, ringArmed_away, ringProd_away, ringCons_away]) only [keeps_next, State.ite_kept, ite_self, State.storeBlock_kept]; done) | split | apply foldl_kept_of | apply foldl_kept_snd_of | apply foldl_kept_fst_of | intro _ _ | dsimp only | simp (disch := first | assumption | (simp only [away]; omega) | simp only [onRing_away, ringEnabled_away, ringErr_away, ringCause_away, ringArmed_away, ringProd_away, ringCons_away]) only [keeps_next, State.ite_kept, ite_self, State.storeBlock_kept]))

theorem execBlockFree_kept (dt : Nat) (op : OpRef) (s : State) : keeps (execBlockFree dt op s) (s.advance dt).kept := by
  unfold execBlockFree
  generalize s.advance dt = s
  (repeat' (first | rw [keeps_next] | apply whenOn_keeps | refine (State.runOp_kept _ _ _ _ _ _ _ _ _ ?_).trans ?_ | with_reducible rfl | (simp (disch := first | assumption | (simp only [away]; omega) | simp only [onRing_away, ringEnabled_away, ringErr_away, ringCause_away, ringArmed_away, ringProd_away, ringCons_away]) only [keeps_next, State.ite_kept, ite_self, State.countStore_kept, State.finish_kept, State.modStore_kept]; done) | split | apply foldl_kept_of | apply foldl_kept_snd_of | apply foldl_kept_fst_of | intro _ _ | dsimp only | simp (disch := first | assumption | (simp only [away]; omega) | simp only [onRing_away, ringEnabled_away, ringErr_away, ringCause_away, ringArmed_away, ringProd_away, ringCons_away]) only [keeps_next, State.ite_kept, ite_self, State.countStore_kept, State.finish_kept, State.modStore_kept]))

theorem execBlockRelease_kept (dt : Nat) (h : BitVec 32) (s : State) : keeps (execBlockRelease dt h s) (s.advance dt).kept := by
  unfold execBlockRelease
  generalize s.advance dt = s
  (try dsimp only); (repeat' split) <;> simp (disch := first | assumption | (simp only [away, Reg.PAIR_CFG_mirror_store]; omega) | simp only [onRing_away, ringEnabled_away, ringErr_away, ringCause_away, ringArmed_away, ringProd_away, ringCons_away]) only [keeps_next, State.ite_kept, ite_self, State.countStore_kept, State.modStore_kept, State.sendMirror_kept, State.showLag_kept]

theorem execJobQueue_kept (dt : Nat) (op : OpRef) (list : List Byte) (handles : List (List Byte)) (s : State) : keeps (execJobQueue dt op list handles s) (s.advance dt).kept := by
  unfold execJobQueue
  generalize s.advance dt = s
  (repeat' (first | rw [keeps_next] | apply whenOn_keeps | refine (State.jobOp_kept _ _ _ _ ?_).trans ?_ | with_reducible rfl | (simp (disch := first | assumption | (simp only [away]; omega) | simp only [onRing_away, ringEnabled_away, ringErr_away, ringCause_away, ringArmed_away, ringProd_away, ringCons_away]) only [keeps_next, State.ite_kept, ite_self, State.drawFault_kept, State.queueJob_kept]; done) | split | apply foldl_kept_of | apply foldl_kept_snd_of | apply foldl_kept_fst_of | intro _ _ | dsimp only | simp (disch := first | assumption | (simp only [away]; omega) | simp only [onRing_away, ringEnabled_away, ringErr_away, ringCause_away, ringArmed_away, ringProd_away, ringCons_away]) only [keeps_next, State.ite_kept, ite_self, State.drawFault_kept, State.queueJob_kept]))

theorem execJobStop_kept (dt : Nat) (op : OpRef) (s : State) : keeps (execJobStop dt op s) (s.advance dt).kept := by
  unfold execJobStop
  generalize s.advance dt = s
  (repeat' (first | rw [keeps_next] | apply whenOn_keeps | refine (State.runOp_kept _ _ _ _ _ _ _ _ _ ?_).trans ?_ | with_reducible rfl | (simp (disch := first | assumption | (simp only [away]; omega) | simp only [onRing_away, ringEnabled_away, ringErr_away, ringCause_away, ringArmed_away, ringProd_away, ringCons_away]) only [keeps_next, State.ite_kept, ite_self, State.finish_kept, State.modSched_kept, State.refresh_kept, State.stopStream_kept]; done) | split | apply foldl_kept_of | apply foldl_kept_snd_of | apply foldl_kept_fst_of | intro _ _ | dsimp only | simp (disch := first | assumption | (simp only [away]; omega) | simp only [onRing_away, ringEnabled_away, ringErr_away, ringCause_away, ringArmed_away, ringProd_away, ringCons_away]) only [keeps_next, State.ite_kept, ite_self, State.finish_kept, State.modSched_kept, State.refresh_kept, State.stopStream_kept]))

theorem execHeadQuery_kept (dt : Nat) (op : OpRef) (s : State) : keeps (execHeadQuery dt op s) (s.advance dt).kept := by
  unfold execHeadQuery
  generalize s.advance dt = s
  (repeat' (first | rw [keeps_next] | apply whenOn_keeps | refine (State.runOp_kept _ _ _ _ _ _ _ _ _ ?_).trans ?_ | with_reducible rfl | (simp (disch := first | assumption | (simp only [away, Reg.NODEa_STATE_class_code]; omega) | simp only [onRing_away, ringEnabled_away, ringErr_away, ringCause_away, ringArmed_away, ringProd_away, ringCons_away]) only [keeps_next, State.ite_kept, ite_self, State.emit_kept, State.finish_kept]; done) | split | apply foldl_kept_of | apply foldl_kept_snd_of | apply foldl_kept_fst_of | intro _ _ | dsimp only | simp (disch := first | assumption | (simp only [away, Reg.NODEa_STATE_class_code]; omega) | simp only [onRing_away, ringEnabled_away, ringErr_away, ringCause_away, ringArmed_away, ringProd_away, ringCons_away]) only [keeps_next, State.ite_kept, ite_self, State.emit_kept, State.finish_kept]))

theorem execKeyLoad_kept (dt : Nat) (op : OpRef) (data : List Byte) (s : State) : keeps (execKeyLoad dt op data s) (s.advance dt).kept := by
  unfold execKeyLoad
  generalize s.advance dt = s
  (repeat' (first | rw [keeps_next] | apply whenOn_keeps | refine (State.keyOp_kept _ _ _ ?_).trans ?_ | with_reducible rfl | (simp (disch := first | assumption | (simp only [away]; omega) | simp only [onRing_away, ringEnabled_away, ringErr_away, ringCause_away, ringArmed_away, ringProd_away, ringCons_away]) only [keeps_next, State.ite_kept, ite_self, State.loadKey_kept]; done) | split | apply foldl_kept_of | apply foldl_kept_snd_of | apply foldl_kept_fst_of | intro _ _ | dsimp only | simp (disch := first | assumption | (simp only [away]; omega) | simp only [onRing_away, ringEnabled_away, ringErr_away, ringCause_away, ringArmed_away, ringProd_away, ringCons_away]) only [keeps_next, State.ite_kept, ite_self, State.loadKey_kept]))

theorem execSpareBank_kept (dt : Nat) (op : OpRef) (s : State) : keeps (execSpareBank dt op s) (s.advance dt).kept := by
  unfold execSpareBank
  generalize s.advance dt = s
  (repeat' (first | rw [keeps_next] | apply whenOn_keeps | refine (State.runOp_kept _ _ _ _ _ _ _ _ _ ?_).trans ?_ | with_reducible rfl | (simp (disch := first | assumption | (simp only [away, Reg.SEAM_PLANEq_copying, Reg.SEAM_PLANEq_spare_in_use]; omega) | simp only [onRing_away, ringEnabled_away, ringErr_away, ringCause_away, ringArmed_away, ringProd_away, ringCons_away]) only [keeps_next, State.ite_kept, ite_self, State.endCopies_kept, State.finish_kept, State.modSeam_kept, State.raise_kept]; done) | split | apply foldl_kept_of | apply foldl_kept_snd_of | apply foldl_kept_fst_of | intro _ _ | dsimp only | simp (disch := first | assumption | (simp only [away, Reg.SEAM_PLANEq_copying, Reg.SEAM_PLANEq_spare_in_use]; omega) | simp only [onRing_away, ringEnabled_away, ringErr_away, ringCause_away, ringArmed_away, ringProd_away, ringCons_away]) only [keeps_next, State.ite_kept, ite_self, State.endCopies_kept, State.finish_kept, State.modSeam_kept, State.raise_kept]))

theorem execLogRead_kept (dt : Nat) (op : OpRef) (s : State) : keeps (execLogRead dt op s) (s.advance dt).kept := by
  unfold execLogRead
  generalize s.advance dt = s
  (repeat' (first | rw [keeps_next] | apply whenOn_keeps | refine (State.runOp_kept _ _ _ _ _ _ _ _ _ ?_).trans ?_ | with_reducible rfl | (simp (disch := first | assumption | (simp only [away]; omega) | simp only [onRing_away, ringEnabled_away, ringErr_away, ringCause_away, ringArmed_away, ringProd_away, ringCons_away]) only [keeps_next, State.ite_kept, ite_self, State.clearLog_kept, State.drawNat_kept, State.emit_kept, State.finish_kept]; done) | split | apply foldl_kept_of | apply foldl_kept_snd_of | apply foldl_kept_fst_of | intro _ _ | dsimp only | simp (disch := first | assumption | (simp only [away]; omega) | simp only [onRing_away, ringEnabled_away, ringErr_away, ringCause_away, ringArmed_away, ringProd_away, ringCons_away]) only [keeps_next, State.ite_kept, ite_self, State.clearLog_kept, State.drawNat_kept, State.emit_kept, State.finish_kept]))

theorem execPowerState_kept (dt : Nat) (op : OpRef) (s : State) : keeps (execPowerState dt op s) (s.advance dt).kept := by
  unfold execPowerState
  generalize s.advance dt = s
  (repeat' (first | rw [keeps_next] | apply whenOn_keeps | refine (State.runOp_kept _ _ _ _ _ _ _ _ _ ?_).trans ?_ | with_reducible rfl | (simp (disch := first | assumption | (simp only [away]; omega) | simp only [onRing_away, ringEnabled_away, ringErr_away, ringCause_away, ringArmed_away, ringProd_away, ringCons_away]) only [keeps_next, State.ite_kept, ite_self, State.enterDeep_kept, State.finish_kept]; done) | split | apply foldl_kept_of | apply foldl_kept_snd_of | apply foldl_kept_fst_of | intro _ _ | dsimp only | simp (disch := first | assumption | (simp only [away]; omega) | simp only [onRing_away, ringEnabled_away, ringErr_away, ringCause_away, ringArmed_away, ringProd_away, ringCons_away]) only [keeps_next, State.ite_kept, ite_self, State.enterDeep_kept, State.finish_kept]))

theorem execCapture_kept (dt : Nat) (op : OpRef) (s : State) : keeps (execCapture dt op s) (s.advance dt).kept := by
  unfold execCapture
  generalize s.advance dt = s
  extract_lets s1
  have h1 : s1.kept = s.kept := foldl_kept _ (fun s p => by simp) _ _
  clear_value s1
  rw [keeps_next, ← h1]
  refine State.runOp_kept _ _ _ _ _ _ _ _ _ fun f s => ?_
  dsimp only
  split <;> simp

theorem execCsiFrameStart_kept (dt : Nat) (p : Fin 4) (vc : Fin 16) (corrected : Bool) (s : State) : keeps (execCsiFrameStart dt p vc corrected s) (s.advance dt).kept := by
  unfold execCsiFrameStart
  generalize s.advance dt = s
  (try dsimp only); (repeat' split) <;> simp (disch := first | assumption | (simp only [away, Reg.CAMp_ERRCNT_A_discarded]; omega) | simp only [onRing_away, ringEnabled_away, ringErr_away, ringCause_away, ringArmed_away, ringProd_away, ringCons_away]) only [keeps_next, State.ite_kept, ite_self, State.beginFrame_kept, State.bump_kept, State.camPacket_kept, State.closeFrame_kept, State.lateCaptures_kept, State.onCam_kept, State.set_kept]

theorem execCsiFrameEnd_kept (dt : Nat) (p : Fin 4) (vc : Fin 16) (corrected : Bool) (s : State) : keeps (execCsiFrameEnd dt p vc corrected s) (s.advance dt).kept := by
  unfold execCsiFrameEnd
  generalize s.advance dt = s
  (try dsimp only); (repeat' split) <;> simp (disch := first | assumption | (simp only [away, Reg.CAMp_ERRCNT_A_discarded]; omega) | simp only [onRing_away, ringEnabled_away, ringErr_away, ringCause_away, ringArmed_away, ringProd_away, ringCons_away]) only [keeps_next, State.ite_kept, ite_self, State.bump_kept, State.camPacket_kept, State.closeFrame_kept, State.onCam_kept, State.set_kept]

theorem execFrameTimeout_kept (dt : Nat) (p : Fin 4) (s : State) : keeps (execFrameTimeout dt p s) (s.advance dt).kept := by
  unfold execFrameTimeout
  generalize s.advance dt = s
  (try dsimp only); (repeat' split) <;> simp (disch := first | assumption | (simp only [away]; omega) | simp only [onRing_away, ringEnabled_away, ringErr_away, ringCause_away, ringArmed_away, ringProd_away, ringCons_away]) only [keeps_next, State.ite_kept, ite_self, State.closeFrame_kept, State.lateCaptures_kept]

theorem execCameraSilent_kept (dt : Nat) (p : Fin 4) (s : State) : keeps (execCameraSilent dt p s) (s.advance dt).kept := by
  unfold execCameraSilent
  generalize s.advance dt = s
  (repeat' (first | rw [keeps_next] | apply whenOn_keeps | with_reducible rfl | (simp (disch := first | assumption | (simp only [away, Reg.CAMp_STATUS_silent]; omega) | simp only [onRing_away, ringEnabled_away, ringErr_away, ringCause_away, ringArmed_away, ringProd_away, ringCons_away]) only [keeps_next, State.ite_kept, ite_self, State.endCapture_kept, State.postCam_some_kept, State.postCam_none_kept, State.raise_kept]; done) | split | apply foldl_kept_of | apply foldl_kept_snd_of | apply foldl_kept_fst_of | intro _ _ | dsimp only | simp (disch := first | assumption | (simp only [away, Reg.CAMp_STATUS_silent]; omega) | simp only [onRing_away, ringEnabled_away, ringErr_away, ringCause_away, ringArmed_away, ringProd_away, ringCons_away]) only [keeps_next, State.ite_kept, ite_self, State.endCapture_kept, State.postCam_some_kept, State.postCam_none_kept, State.raise_kept]))

theorem execFlushStamps_kept (dt : Nat) (p : Fin 4) (s : State) : keeps (execFlushStamps dt p s) (s.advance dt).kept := by
  unfold execFlushStamps
  generalize s.advance dt = s
  (repeat' (first | rw [keeps_next] | apply whenOn_keeps | refine (State.hostWrite_kept _ _ _ ?_).trans ?_ | with_reducible rfl | (simp (disch := first | assumption | (simp only [away, Reg.CAMp_CTRL_flush_stamps]; omega) | simp only [onRing_away, ringEnabled_away, ringErr_away, ringCause_away, ringArmed_away, ringProd_away, ringCons_away]) only [keeps_next, State.ite_kept, ite_self, State.onCam_kept]; done) | split | apply foldl_kept_of | apply foldl_kept_snd_of | apply foldl_kept_fst_of | intro _ _ | dsimp only | simp (disch := first | assumption | (simp only [away, Reg.CAMp_CTRL_flush_stamps]; omega) | simp only [onRing_away, ringEnabled_away, ringErr_away, ringCause_away, ringArmed_away, ringProd_away, ringCons_away]) only [keeps_next, State.ite_kept, ite_self, State.onCam_kept]))

theorem execCamCommit_kept (dt : Nat) (p : Fin 4) (s : State) : keeps (execCamCommit dt p s) (s.advance dt).kept := by
  unfold execCamCommit
  generalize s.advance dt = s
  (repeat' (first | rw [keeps_next] | apply whenOn_keeps | refine (State.hostWrite_kept _ _ _ ?_).trans ?_ | with_reducible rfl | (simp (disch := first | assumption | (simp only [away, Reg.CAMp_CTRL_commit]; omega) | simp only [onRing_away, ringEnabled_away, ringErr_away, ringCause_away, ringArmed_away, ringProd_away, ringCons_away]) only [keeps_next, State.ite_kept, ite_self, State.commitCam_kept]; done) | split | apply foldl_kept_of | apply foldl_kept_snd_of | apply foldl_kept_fst_of | intro _ _ | dsimp only | simp (disch := first | assumption | (simp only [away, Reg.CAMp_CTRL_commit]; omega) | simp only [onRing_away, ringEnabled_away, ringErr_away, ringCause_away, ringArmed_away, ringProd_away, ringCons_away]) only [keeps_next, State.ite_kept, ite_self, State.commitCam_kept]))

theorem execCsiLongPacket_kept (dt : Nat) (p : Fin 4) (h : CsiHeader) (payload : List Byte) (crcOk : Bool) (s : State) : keeps (execCsiLongPacket dt p h payload crcOk s) (s.advance dt).kept := by
  unfold execCsiLongPacket
  generalize s.advance dt = s
  (try dsimp only); (repeat' split) <;> simp (disch := first | assumption | (simp only [away, Reg.CAMp_ERRCNT_A_discarded]; omega) | simp only [onRing_away, ringEnabled_away, ringErr_away, ringCause_away, ringArmed_away, ringProd_away, ringCons_away]) only [keeps_next, State.ite_kept, ite_self, State.bump_kept, State.camPacket_kept, State.cutFrame_kept, State.discardPacket_kept, State.firePort_kept, State.lateCaptures_kept, State.packetIn_kept]

theorem execPipelineTile_kept (dt : Nat) (s : State) : keeps (execPipelineTile dt s) (s.advance dt).kept := by
  unfold execPipelineTile
  generalize s.advance dt = s
  (try dsimp only); (repeat' split) <;> simp (disch := first | assumption | (simp only [away]; omega) | simp only [onRing_away, ringEnabled_away, ringErr_away, ringCause_away, ringArmed_away, ringProd_away, ringCons_away]) only [keeps_next, State.ite_kept, ite_self, State.modAssay_kept, State.onCam_kept, State.processLine_kept, State.showBuf_kept]

theorem execRegionClose_kept (dt : Nat) (p : Fin 4) (s : State) : keeps (execRegionClose dt p s) (s.advance dt).kept := by
  unfold execRegionClose
  generalize s.advance dt = s
  (repeat' (first | rw [keeps_next] | apply whenOn_keeps | with_reducible rfl | (simp (disch := first | assumption | (simp only [away]; omega) | simp only [onRing_away, ringEnabled_away, ringErr_away, ringCause_away, ringArmed_away, ringProd_away, ringCons_away]) only [keeps_next, State.ite_kept, ite_self, State.issueRegion_kept, State.onCam_kept]; done) | split | apply foldl_kept_of | apply foldl_kept_snd_of | apply foldl_kept_fst_of | intro _ _ | dsimp only | simp (disch := first | assumption | (simp only [away]; omega) | simp only [onRing_away, ringEnabled_away, ringErr_away, ringCause_away, ringArmed_away, ringProd_away, ringCons_away]) only [keeps_next, State.ite_kept, ite_self, State.issueRegion_kept, State.onCam_kept]))

theorem execForemanRecord_kept (dt : Nat) (s : State) : keeps (execForemanRecord dt s) (s.advance dt).kept := by
  unfold execForemanRecord
  generalize s.advance dt = s
  (repeat' (first | rw [keeps_next] | apply whenOn_keeps | with_reducible rfl | (simp (disch := first | assumption | (simp only [away]; omega) | simp only [onRing_away, ringEnabled_away, ringErr_away, ringCause_away, ringArmed_away, ringProd_away, ringCons_away]) only [keeps_next, State.ite_kept, ite_self, State.densityLoop_kept, State.modFm_kept, State.nozzleLoop_kept, State.registrationLoop_kept, State.switchTable_kept]; done) | split | apply foldl_kept_of | apply foldl_kept_snd_of | apply foldl_kept_fst_of | intro _ _ | dsimp only | simp (disch := first | assumption | (simp only [away]; omega) | simp only [onRing_away, ringEnabled_away, ringErr_away, ringCause_away, ringArmed_away, ringProd_away, ringCons_away]) only [keeps_next, State.ite_kept, ite_self, State.densityLoop_kept, State.modFm_kept, State.nozzleLoop_kept, State.registrationLoop_kept, State.switchTable_kept]))

theorem execFeedForwardUpdate_kept (dt : Nat) (s : State) : keeps (execFeedForwardUpdate dt s) (s.advance dt).kept := by
  unfold execFeedForwardUpdate
  generalize s.advance dt = s
  refine whenOn_keeps rfl ?_
  extract_lets mode due
  split
  · simp
  · split
    rename_i k s1 h
    have h1 : s1.kept = s.kept := pair_kept h (by simp)
    rw [keeps_next, State.modFm_kept]
    exact (foldl_kept _ (fun s q => by simp) _ _).trans h1

theorem execFmHold_kept (dt : Nat) (loop : Fin 4) (q : Fin 10) (s : State) : keeps (execFmHold dt loop q s) (s.advance dt).kept := by
  unfold execFmHold
  generalize s.advance dt = s
  (repeat' (first | rw [keeps_next] | apply whenOn_keeps | with_reducible rfl | (simp (disch := first | assumption | (simp only [away, Reg.CAMp_STATUS_silent, Reg.FM_STATUS_held]; omega) | simp only [onRing_away, ringEnabled_away, ringErr_away, ringCause_away, ringArmed_away, ringProd_away, ringCons_away]) only [keeps_next, State.ite_kept, ite_self, State.modFm_kept, State.post_kept, State.raise_kept]; done) | split | apply foldl_kept_of | apply foldl_kept_snd_of | apply foldl_kept_fst_of | intro _ _ | dsimp only | simp (disch := first | assumption | (simp only [away, Reg.CAMp_STATUS_silent, Reg.FM_STATUS_held]; omega) | simp only [onRing_away, ringEnabled_away, ringErr_away, ringCause_away, ringArmed_away, ringProd_away, ringCons_away]) only [keeps_next, State.ite_kept, ite_self, State.modFm_kept, State.post_kept, State.raise_kept]))

theorem execFmNozClear_kept (dt : Nat) (v : BitVec 32) (s : State) : keeps (execFmNozClear dt v s) (s.advance dt).kept := by
  unfold execFmNozClear
  generalize s.advance dt = s
  (repeat' (first | rw [keeps_next] | apply whenOn_keeps | refine (State.hostWrite_kept _ _ _ ?_).trans ?_ | with_reducible rfl | (simp (disch := first | assumption | (simp only [away, Reg.FM_NOZ_CLEAR_go]; omega) | simp only [onRing_away, ringEnabled_away, ringErr_away, ringCause_away, ringArmed_away, ringProd_away, ringCons_away]) only [keeps_next, State.ite_kept, ite_self, State.nozClear_kept]; done) | split | apply foldl_kept_of | apply foldl_kept_snd_of | apply foldl_kept_fst_of | intro _ _ | dsimp only | simp (disch := first | assumption | (simp only [away, Reg.FM_NOZ_CLEAR_go]; omega) | simp only [onRing_away, ringEnabled_away, ringErr_away, ringCause_away, ringArmed_away, ringProd_away, ringCons_away]) only [keeps_next, State.ite_kept, ite_self, State.nozClear_kept]))

theorem execSwitchEdge_kept (dt : Nat) (n : Fin 32) (sw : Fin 3) (level : Bool) (s : State) : keeps (execSwitchEdge dt n sw level s) (s.advance dt).kept := by
  unfold execSwitchEdge
  generalize s.advance dt = s
  simp (disch := first | assumption | (simp only [away]; omega) | simp only [onRing_away, ringEnabled_away, ringErr_away, ringCause_away, ringArmed_away, ringProd_away, ringCons_away]) only [keeps_next, State.ite_kept, ite_self, State.setSwitch_kept]

theorem execWinderTick_kept (dt : Nat) (s : State) : keeps (execWinderTick dt s) (s.advance dt).kept := by
  unfold execWinderTick
  generalize s.advance dt = s
  (repeat' (first | rw [keeps_next] | apply whenOn_keeps | with_reducible rfl | (simp (disch := first | assumption | (simp only [away]; omega) | simp only [onRing_away, ringEnabled_away, ringErr_away, ringCause_away, ringArmed_away, ringProd_away, ringCons_away]) only [keeps_next, State.ite_kept, ite_self, State.sampleSwitches_kept, State.windTick_kept]; done) | split | apply foldl_kept_of | apply foldl_kept_snd_of | apply foldl_kept_fst_of | intro _ _ | dsimp only | simp (disch := first | assumption | (simp only [away]; omega) | simp only [onRing_away, ringEnabled_away, ringErr_away, ringCause_away, ringArmed_away, ringProd_away, ringCons_away]) only [keeps_next, State.ite_kept, ite_self, State.sampleSwitches_kept, State.windTick_kept]))

theorem execMotionMove_kept (dt : Nat) (op : OpRef) (s : State) : keeps (execMotionMove dt op s) (s.advance dt).kept := by
  unfold execMotionMove
  generalize s.advance dt = s
  (repeat' (first | rw [keeps_next] | apply whenOn_keeps | refine (State.runOp_kept _ _ _ _ _ _ _ _ _ ?_).trans ?_ | with_reducible rfl | (simp (disch := first | assumption | (simp only [away]; omega) | simp only [onRing_away, ringEnabled_away, ringErr_away, ringCause_away, ringArmed_away, ringProd_away, ringCons_away]) only [keeps_next, State.ite_kept, ite_self, State.motionFree_kept, State.motionMove_kept]; done) | split | apply foldl_kept_of | apply foldl_kept_snd_of | apply foldl_kept_fst_of | intro _ _ | dsimp only | simp (disch := first | assumption | (simp only [away]; omega) | simp only [onRing_away, ringEnabled_away, ringErr_away, ringCause_away, ringArmed_away, ringProd_away, ringCons_away]) only [keeps_next, State.ite_kept, ite_self, State.motionFree_kept, State.motionMove_kept]))

theorem execWinderEnable_kept (dt : Nat) (n : Fin 32) (v : BitVec 32) (s : State) : keeps (execWinderEnable dt n v s) (s.advance dt).kept := by
  unfold execWinderEnable
  generalize s.advance dt = s
  (repeat' (first | rw [keeps_next] | apply whenOn_keeps | refine (State.hostWrite_kept _ _ _ ?_).trans ?_ | with_reducible rfl | (simp (disch := first | assumption | (simp only [away, Reg.WCn_CFG_enable]; omega) | simp only [onRing_away, ringEnabled_away, ringErr_away, ringCause_away, ringArmed_away, ringProd_away, ringCons_away]) only [keeps_next, State.ite_kept, ite_self, State.windCfg_kept]; done) | split | apply foldl_kept_of | apply foldl_kept_snd_of | apply foldl_kept_fst_of | intro _ _ | dsimp only | simp (disch := first | assumption | (simp only [away, Reg.WCn_CFG_enable]; omega) | simp only [onRing_away, ringEnabled_away, ringErr_away, ringCause_away, ringArmed_away, ringProd_away, ringCons_away]) only [keeps_next, State.ite_kept, ite_self, State.windCfg_kept]))

end Sys2Proof.Machine
end

