-- ==== Sys2Proof/Laws/Keeps6.lean ====
section
/-! SUPPORT. Meanings that answer a next state and leave the kept words alone. -/

set_option linter.all false

namespace Sys2Proof.Machine

theorem execRampRegisterWrite_kept (dt : Nat) (n : Fin 32) (decel : Bool) (v : BitVec 32) (s : State) : keeps (execRampRegisterWrite dt n decel v s) (s.advance dt).kept := by
  unfold execRampRegisterWrite
  generalize s.advance dt = s
  (repeat' (first | rw [keeps_next] | apply whenOn_keeps | refine (State.hostWrite_kept _ _ _ ?_).trans ?_ | with_reducible rfl | (simp (disch := first | assumption | (simp only [away, Reg.WCn_ACCEL, Reg.WCn_DECEL]; omega) | simp only [onRing_away, ringEnabled_away, ringErr_away, ringCause_away, ringArmed_away, ringProd_away, ringCons_away]) only [keeps_next, State.ite_kept, ite_self, State.rampWrite_kept]; done) | split | apply foldl_kept_of | apply foldl_kept_snd_of | apply foldl_kept_fst_of | intro _ _ | dsimp only | simp (disch := first | assumption | (simp only [away, Reg.WCn_ACCEL, Reg.WCn_DECEL]; omega) | simp only [onRing_away, ringEnabled_away, ringErr_away, ringCause_away, ringArmed_away, ringProd_away, ringCons_away]) only [keeps_next, State.ite_kept, ite_self, State.rampWrite_kept]))

theorem execChopperTrip_kept (dt : Nat) (n : Fin 32) (phaseB : Bool) (level : Bool) (s : State) : keeps (execChopperTrip dt n phaseB level s) (s.advance dt).kept := by
  unfold execChopperTrip
  generalize s.advance dt = s
  (try dsimp only); (repeat' split) <;> simp (disch := first | assumption | (simp only [away, Reg.WCn_CFG_oc_cycles, Reg.WCn_CHOP_trip_pol]; omega) | simp only [onRing_away, ringEnabled_away, ringErr_away, ringCause_away, ringArmed_away, ringProd_away, ringCons_away]) only [keeps_next, State.ite_kept, ite_self, State.onChop_kept, State.windFault_kept]

theorem execChopperOffEnd_kept (dt : Nat) (n : Fin 32) (phaseB : Bool) (s : State) : keeps (execChopperOffEnd dt n phaseB s) (s.advance dt).kept := by
  unfold execChopperOffEnd
  generalize s.advance dt = s
  (try dsimp only); (repeat' split) <;> simp (disch := first | assumption | (simp only [away]; omega) | simp only [onRing_away, ringEnabled_away, ringErr_away, ringCause_away, ringArmed_away, ringProd_away, ringCons_away]) only [keeps_next, State.ite_kept, ite_self, State.onChop_kept]

theorem execClearFault_kept (dt : Nat) (n : Fin 32) (v : BitVec 32) (s : State) : keeps (execClearFault dt n v s) (s.advance dt).kept := by
  unfold execClearFault
  generalize s.advance dt = s
  (repeat' (first | rw [keeps_next] | apply whenOn_keeps | refine (State.hostWrite_kept _ _ _ ?_).trans ?_ | with_reducible rfl | (simp (disch := first | assumption | (simp only [away, Reg.WCn_CTRL_clear_fault]; omega) | simp only [onRing_away, ringEnabled_away, ringErr_away, ringCause_away, ringArmed_away, ringProd_away, ringCons_away]) only [keeps_next, State.ite_kept, ite_self, State.clearFault_kept]; done) | split | apply foldl_kept_of | apply foldl_kept_snd_of | apply foldl_kept_fst_of | intro _ _ | dsimp only | simp (disch := first | assumption | (simp only [away, Reg.WCn_CTRL_clear_fault]; omega) | simp only [onRing_away, ringEnabled_away, ringErr_away, ringCause_away, ringArmed_away, ringProd_away, ringCons_away]) only [keeps_next, State.ite_kept, ite_self, State.clearFault_kept]))

theorem execHoldDelayExpire_kept (dt : Nat) (n : Fin 32) (s : State) : keeps (execHoldDelayExpire dt n s) (s.advance dt).kept := by
  unfold execHoldDelayExpire
  generalize s.advance dt = s
  (try dsimp only); (repeat' split) <;> simp (disch := first | assumption | (simp only [away, Reg.WCn_CURRENT_hold_delay_ms]; omega) | simp only [onRing_away, ringEnabled_away, ringErr_away, ringCause_away, ringArmed_away, ringProd_away, ringCons_away]) only [keeps_next, State.ite_kept, ite_self, State.onWinder_kept]

theorem execSsiRead_kept (dt : Nat) (k : Fin 8) (ready : Bool) (data : List Bool) (low : Bool) (s : State) : keeps (execSsiRead dt k ready data low s) (s.advance dt).kept := by
  unfold execSsiRead
  generalize s.advance dt = s
  (try dsimp only); (repeat' split) <;> simp (disch := first | assumption | (simp only [away, Reg.SSIk_CFG_clk, Reg.SSIk_CFG_enable, Reg.SSIk_CFG_err_bit, Reg.SSIk_CFG_err_pol, Reg.SSIk_CFG_gray]; omega) | simp only [onRing_away, ringEnabled_away, ringErr_away, ringCause_away, ringArmed_away, ringProd_away, ringCons_away]) only [keeps_next, State.ite_kept, ite_self, State.emit_kept, State.onSsi_kept, State.ssiFails_kept, State.ssiGood_kept]

theorem execSecAlarm_kept (dt : Nat) (src : Fin 14) (active : Bool) (s : State) : keeps (execSecAlarm dt src active s) (s.advance dt).kept := by
  unfold execSecAlarm
  generalize s.advance dt = s
  simp (disch := first | assumption | (simp only [away]; omega) | simp only [onRing_away, ringEnabled_away, ringErr_away, ringCause_away, ringArmed_away, ringProd_away, ringCons_away]) only [keeps_next, State.ite_kept, ite_self, State.alarmLevel_kept]

theorem execEnclosureAlarm_kept (dt : Nat) (lowNs : Nat) (s : State) : keeps (execEnclosureAlarm dt lowNs s) (s.advance dt).kept := by
  unfold execEnclosureAlarm
  generalize s.advance dt = s
  (try dsimp only); (repeat' split) <;> simp (disch := first | assumption | (simp only [away, Reg.SEC_ENCL_CFG_filter_ms]; omega) | simp only [onRing_away, ringEnabled_away, ringErr_away, ringCause_away, ringArmed_away, ringProd_away, ringCons_away]) only [keeps_next, State.ite_kept, ite_self, State.alarmLevel_kept]

theorem execGlitchAlarm_kept (dt : Nat) (d : Fin 10) (active : Bool) (s : State) : keeps (execGlitchAlarm dt d active s) (s.advance dt).kept := by
  unfold execGlitchAlarm
  generalize s.advance dt = s
  simp (disch := first | assumption | (simp only [away]; omega) | simp only [onRing_away, ringEnabled_away, ringErr_away, ringCause_away, ringArmed_away, ringProd_away, ringCons_away]) only [keeps_next, State.ite_kept, ite_self, State.alarmLevel_kept]

theorem execClockMonitorAlarm_kept (dt : Nat) (active : Bool) (s : State) : keeps (execClockMonitorAlarm dt active s) (s.advance dt).kept := by
  unfold execClockMonitorAlarm
  generalize s.advance dt = s
  simp (disch := first | assumption | (simp only [away]; omega) | simp only [onRing_away, ringEnabled_away, ringErr_away, ringCause_away, ringArmed_away, ringProd_away, ringCons_away]) only [keeps_next, State.ite_kept, ite_self, State.alarmLevel_kept]

theorem execDebugUnlockAttempt_kept (dt : Nat) (s : State) : keeps (execDebugUnlockAttempt dt s) (s.advance dt).kept := by
  unfold execDebugUnlockAttempt
  generalize s.advance dt = s
  simp (disch := first | assumption | (simp only [away]; omega) | simp only [onRing_away, ringEnabled_away, ringErr_away, ringCause_away, ringArmed_away, ringProd_away, ringCons_away]) only [keeps_next, State.ite_kept, ite_self, State.alarm_kept]

theorem execSecUnlock_kept (dt : Nat) (v : BitVec 32) (s : State) : keeps (execSecUnlock dt v s) (s.advance dt).kept := by
  unfold execSecUnlock
  generalize s.advance dt = s
  (repeat' (first | rw [keeps_next] | apply whenOn_keeps | refine (State.hostWrite_kept _ _ _ ?_).trans ?_ | with_reducible rfl | (simp (disch := first | assumption | (simp only [away, Reg.SEC_UNLOCK_go]; omega) | simp only [onRing_away, ringEnabled_away, ringErr_away, ringCause_away, ringArmed_away, ringProd_away, ringCons_away]) only [keeps_next, State.ite_kept, ite_self, State.unlockKeys_kept]; done) | split | apply foldl_kept_of | apply foldl_kept_snd_of | apply foldl_kept_fst_of | intro _ _ | dsimp only | simp (disch := first | assumption | (simp only [away, Reg.SEC_UNLOCK_go]; omega) | simp only [onRing_away, ringEnabled_away, ringErr_away, ringCause_away, ringArmed_away, ringProd_away, ringCons_away]) only [keeps_next, State.ite_kept, ite_self, State.unlockKeys_kept]))

theorem execHostReset_kept (dt : Nat) (kind : HostResetKind) (s : State) : keeps (execHostReset dt kind s) (s.advance dt).kept := by
  unfold execHostReset
  generalize s.advance dt = s
  simp (disch := first | assumption | (simp only [away]; omega) | simp only [onRing_away, ringEnabled_away, ringErr_away, ringCause_away, ringArmed_away, ringProd_away, ringCons_away]) only [keeps_next, State.ite_kept, ite_self, State.hostReset_kept, State.modPower_kept]

theorem execPcieLinkTrained_kept (dt : Nat) (s : State) : keeps (execPcieLinkTrained dt s) (s.advance dt).kept := by
  unfold execPcieLinkTrained
  generalize s.advance dt = s
  simp (disch := first | assumption | (simp only [away]; omega) | simp only [onRing_away, ringEnabled_away, ringErr_away, ringCause_away, ringArmed_away, ringProd_away, ringCons_away]) only [keeps_next, State.ite_kept, ite_self, State.modPower_kept]

theorem execReadyEntry_kept (dt : Nat) (s : State) : keeps (execReadyEntry dt s) (s.advance dt).kept := by
  unfold execReadyEntry
  generalize s.advance dt = s
  (try dsimp only); (repeat' split) <;> simp (disch := first | assumption | (simp only [away, Reg.TALLY_STATUS_role]; omega) | simp only [onRing_away, ringEnabled_away, ringErr_away, ringCause_away, ringArmed_away, ringProd_away, ringCons_away]) only [keeps_next, State.ite_kept, ite_self, State.enter_kept, State.modPower_kept, State.modTally_kept, State.set_kept, State.takeTally_kept]

theorem execDomainPowerReturn_kept (dt : Nat) (d : Fin 10) (trainFails : List (Fin 6)) (s : State) : keeps (execDomainPowerReturn dt d trainFails s) (s.advance dt).kept := by
  unfold execDomainPowerReturn
  generalize s.advance dt = s
  (try dsimp only); (repeat' split) <;> simp (disch := first | assumption | (simp only [away]; omega) | simp only [onRing_away, ringEnabled_away, ringErr_away, ringCause_away, ringArmed_away, ringProd_away, ringCons_away]) only [keeps_next, State.ite_kept, ite_self, State.domainBack_kept, State.modPower_kept, State.refresh_kept]

theorem execWake_kept (dt : Nat) (v : BitVec 32) (s : State) : keeps (execWake dt v s) (s.advance dt).kept := by
  unfold execWake
  generalize s.advance dt = s
  (repeat' (first | rw [keeps_next] | apply whenOn_keeps | refine (State.hostWrite_kept _ _ _ ?_).trans ?_ | with_reducible rfl | (simp (disch := first | assumption | (simp only [away, Reg.PWR_CTRL_wake]; omega) | simp only [onRing_away, ringEnabled_away, ringErr_away, ringCause_away, ringArmed_away, ringProd_away, ringCons_away]) only [keeps_next, State.ite_kept, ite_self, State.wake_kept]; done) | split | apply foldl_kept_of | apply foldl_kept_snd_of | apply foldl_kept_fst_of | intro _ _ | dsimp only | simp (disch := first | assumption | (simp only [away, Reg.PWR_CTRL_wake]; omega) | simp only [onRing_away, ringEnabled_away, ringErr_away, ringCause_away, ringArmed_away, ringProd_away, ringCons_away]) only [keeps_next, State.ite_kept, ite_self, State.wake_kept]))

theorem execAliveToggle_kept (dt : Nat) (s : State) : keeps (execAliveToggle dt s) (s.advance dt).kept := by
  unfold execAliveToggle
  generalize s.advance dt = s
  (try dsimp only); (repeat' split) <;> simp (disch := first | assumption | (simp only [away]; omega) | simp only [onRing_away, ringEnabled_away, ringErr_away, ringCause_away, ringArmed_away, ringProd_away, ringCons_away]) only [keeps_next, State.ite_kept, ite_self, State.modPower_kept]

theorem execGlbCauseWrite_kept (dt : Nat) (v : BitVec 32) (s : State) : keeps (execGlbCauseWrite dt v s) (s.advance dt).kept := by
  unfold execGlbCauseWrite
  generalize s.advance dt = s
  (repeat' (first | rw [keeps_next] | apply whenOn_keeps | refine (State.hostWrite_kept _ _ _ ?_).trans ?_ | with_reducible rfl | (simp (disch := first | assumption | (simp only [away, Reg.GLB_CAUSE_classes]; omega) | simp only [onRing_away, ringEnabled_away, ringErr_away, ringCause_away, ringArmed_away, ringProd_away, ringCons_away]) only [keeps_next, State.ite_kept, ite_self, State.writeWord_kept]; done) | split | apply foldl_kept_of | apply foldl_kept_snd_of | apply foldl_kept_fst_of | intro _ _ | dsimp only | simp (disch := first | assumption | (simp only [away, Reg.GLB_CAUSE_classes]; omega) | simp only [onRing_away, ringEnabled_away, ringErr_away, ringCause_away, ringArmed_away, ringProd_away, ringCons_away]) only [keeps_next, State.ite_kept, ite_self, State.writeWord_kept]))

theorem execGlbIntEnWrite_kept (dt : Nat) (v : BitVec 32) (s : State) : keeps (execGlbIntEnWrite dt v s) (s.advance dt).kept := by
  unfold execGlbIntEnWrite
  generalize s.advance dt = s
  (repeat' (first | rw [keeps_next] | apply whenOn_keeps | refine (State.hostWrite_kept _ _ _ ?_).trans ?_ | with_reducible rfl | (simp (disch := first | assumption | (simp only [away, Reg.GLB_INT_EN_classes]; omega) | simp only [onRing_away, ringEnabled_away, ringErr_away, ringCause_away, ringArmed_away, ringProd_away, ringCons_away]) only [keeps_next, State.ite_kept, ite_self, State.writeIntEn_kept]; done) | split | apply foldl_kept_of | apply foldl_kept_snd_of | apply foldl_kept_fst_of | intro _ _ | dsimp only | simp (disch := first | assumption | (simp only [away, Reg.GLB_INT_EN_classes]; omega) | simp only [onRing_away, ringEnabled_away, ringErr_away, ringCause_away, ringArmed_away, ringProd_away, ringCons_away]) only [keeps_next, State.ite_kept, ite_self, State.writeIntEn_kept]))

theorem execDmaTimeout_kept (dt : Nat) (op : OpRef) (s : State) : keeps (execDmaTimeout dt op s) (s.advance dt).kept := by
  unfold execDmaTimeout
  generalize s.advance dt = s
  (repeat' (first | rw [keeps_next] | apply whenOn_keeps | refine (State.ingestOp_kept _ _ _ ?_).trans ?_ | refine (State.jobOp_kept _ _ _ _ ?_).trans ?_ | refine (State.keyOp_kept _ _ _ ?_).trans ?_ | refine (State.storeOp_kept _ _ _ _ ?_).trans ?_ | refine (State.tableOp_kept _ _ _ ?_).trans ?_ | with_reducible rfl | (simp (disch := first | assumption | (simp only [away]; omega) | simp only [onRing_away, ringEnabled_away, ringErr_away, ringCause_away, ringArmed_away, ringProd_away, ringCons_away]) only [keeps_next, State.ite_kept, ite_self, State.drawFault_kept, State.finish_kept, State.loadKey_kept]; done) | split | apply foldl_kept_of | apply foldl_kept_snd_of | apply foldl_kept_fst_of | intro _ _ | dsimp only | simp (disch := first | assumption | (simp only [away]; omega) | simp only [onRing_away, ringEnabled_away, ringErr_away, ringCause_away, ringArmed_away, ringProd_away, ringCons_away]) only [keeps_next, State.ite_kept, ite_self, State.drawFault_kept, State.finish_kept, State.loadKey_kept]))

theorem execLoRegisterRead_kept (dt : Nat) (off : BitVec 25) (s : State) : keeps (execLoRegisterRead dt off s) (s.advance dt).kept := by
  unfold execLoRegisterRead
  generalize s.advance dt = s
  simp (disch := first | assumption | (simp only [away]; omega) | simp only [onRing_away, ringEnabled_away, ringErr_away, ringCause_away, ringArmed_away, ringProd_away, ringCons_away]) only [keeps_next, State.ite_kept, ite_self, State.hostRead_kept]

theorem execBar0BadAccess_kept (dt : Nat) (off : BitVec 25) (bytes : Nat) (isWrite : Bool) (s : State) : keeps (execBar0BadAccess dt off bytes isWrite s) (s.advance dt).kept := by
  unfold execBar0BadAccess
  generalize s.advance dt = s
  (try dsimp only); (repeat' split) <;> simp (disch := first | assumption | (simp only [away]; omega) | simp only [onRing_away, ringEnabled_away, ringErr_away, ringCause_away, ringArmed_away, ringProd_away, ringCons_away]) only [keeps_next, State.ite_kept, ite_self, State.emit_kept]

theorem execFireInhibitAssert_kept (dt : Nat) (lowNs : Nat) (s : State) : keeps (execFireInhibitAssert dt lowNs s) (s.advance dt).kept := by
  unfold execFireInhibitAssert
  generalize s.advance dt = s
  (try dsimp only); (repeat' split) <;> simp (disch := first | assumption | (simp only [away]; omega) | simp only [onRing_away, ringEnabled_away, ringErr_away, ringCause_away, ringArmed_away, ringProd_away, ringCons_away]) only [keeps_next, State.ite_kept, ite_self, State.assertInhibit_kept, State.drawNat_kept]

theorem execFireInhibitRelease_kept (dt : Nat) (highNs : Nat) (s : State) : keeps (execFireInhibitRelease dt highNs s) (s.advance dt).kept := by
  unfold execFireInhibitRelease
  generalize s.advance dt = s
  (try dsimp only); (repeat' split) <;> simp (disch := first | assumption | (simp only [away]; omega) | simp only [onRing_away, ringEnabled_away, ringErr_away, ringCause_away, ringArmed_away, ringProd_away, ringCons_away]) only [keeps_next, State.ite_kept, ite_self, State.endInhibit_kept, State.modPower_kept]

theorem execInhibitBlockRepeat_kept (dt : Nat) (s : State) : keeps (execInhibitBlockRepeat dt s) (s.advance dt).kept := by
  unfold execInhibitBlockRepeat
  generalize s.advance dt = s
  (try dsimp only); (repeat' split) <;> simp (disch := first | assumption | (simp only [away]; omega) | simp only [onRing_away, ringEnabled_away, ringErr_away, ringCause_away, ringArmed_away, ringProd_away, ringCons_away]) only [keeps_next, State.ite_kept, ite_self, State.inhibitAll_kept]

end Sys2Proof.Machine
end

