-- ==== Sys2Proof/Laws/Regs.lean ====
section
/-! SUPPORT. Reading a register field after a write of one: the same field, another field of the word, another word. -/

namespace Sys2Proof.Machine

/-- The bits of a word whose field is replaced. -/
theorem insertField_bit (x : BitVec 32) (lo w v i : Nat) (h : lo + w ≤ 32) :
    (insertField x lo w v).getLsbD i = if lo ≤ i ∧ i < lo + w then v.testBit (i - lo) else x.getLsbD i := by
  unfold insertField
  simp only [BitVec.getLsbD_or, BitVec.getLsbD_and, BitVec.getLsbD_not, BitVec.getLsbD_ofNat, Nat.testBit_shiftLeft, Nat.testBit_two_pow_sub_one,
    Nat.testBit_mod_two_pow]
  by_cases h1 : lo ≤ i
  · by_cases h2 : i < lo + w
    · have h3 : i < 32 := by omega
      have h4 : i - lo < w := by omega
      simp [h1, h2, h3, h4]
    · have h4 : ¬ i - lo < w := by omega
      by_cases h3 : i < 32
      · simp [h2, h3, h4]
      · have : x.getLsbD i = false := BitVec.getLsbD_of_ge _ _ (by omega)
        simp [h2, h3, this]
  · by_cases h3 : i < 32
    · simp [h1, h3]
    · have : x.getLsbD i = false := BitVec.getLsbD_of_ge _ _ (by omega)
      simp [h1, h3, this]

/-- The bits of a field's value. -/
theorem field_bit (x : BitVec 32) (lo w i : Nat) : (x.toNat / 2 ^ lo % 2 ^ w).testBit i = (decide (i < w) && x.getLsbD (lo + i)) := by
  rw [Nat.testBit_mod_two_pow, Nat.testBit_div_two_pow, BitVec.testBit_toNat, Nat.add_comm]

/-- A field reads as what was last written to it, cut to its width. -/
theorem State.get_set_self (s : State) (f : Fld) (v : Nat) (h : f.lo + f.w ≤ 32) : (s.set f v).get f = v % 2 ^ f.w := by
  refine Nat.eq_of_testBit_eq fun i => ?_
  have hr : (s.set f v).reg f.off = insertField (s.reg f.off) f.lo f.w v := Tab.get_set_self _ _ _ _
  unfold State.get
  rw [hr, field_bit, insertField_bit _ _ _ _ _ h, Nat.testBit_mod_two_pow]
  by_cases hi : i < f.w
  · simp [hi]
  · simp [hi]

/-- A field of another register stays. -/
theorem State.get_set_ne (s : State) (f g : Fld) (v : Nat) (h : g.off ≠ f.off) : (s.set f v).get g = s.get g := by
  have hr : (s.set f v).reg g.off = s.reg g.off := Tab.get_set_ne _ _ _ _ _ h
  unfold State.get; rw [hr]

/-- A field beside it in the same register stays. -/
theorem State.get_set_beside (s : State) (f g : Fld) (v : Nat) (h : f.lo + f.w ≤ 32) (hd : g.lo + g.w ≤ f.lo ∨ f.lo + f.w ≤ g.lo) :
    (s.set f v).get g = s.get g := by
  by_cases ho : g.off = f.off
  · refine Nat.eq_of_testBit_eq fun i => ?_
    have hr : (s.set f v).reg f.off = insertField (s.reg f.off) f.lo f.w v := Tab.get_set_self _ _ _ _
    unfold State.get
    rw [ho, hr, field_bit, field_bit, insertField_bit _ _ _ _ _ h]
    by_cases hi : i < g.w
    · have : ¬ (f.lo ≤ g.lo + i ∧ g.lo + i < f.lo + f.w) := by omega
      simp [hi, this]
    · simp [hi]
  · exact s.get_set_ne f g v ho

/-- Every other register stays as it is. -/
theorem State.reg_set_ne (s : State) (f : Fld) (off v : Nat) (h : off ≠ f.off) : (s.set f v).reg off = s.reg off :=
  Tab.get_set_ne _ _ _ _ _ h

/-- A one-bit field that was raised reads as 1. -/
theorem State.on_raise_self (s : State) (f : Fld) (h : f.lo + 1 ≤ 32) (hw : f.w = 1) : (s.raise f).on f = true := by
  show ((s.set f 1).get f == 1) = true
  rw [State.get_set_self _ _ _ (by omega), hw]; rfl

/-- A field is below its bound. -/
theorem State.get_lt (s : State) (f : Fld) : s.get f < 2 ^ f.w := Nat.mod_lt _ (Nat.two_pow_pos _)

/-- The register file keeps its canonical form (addresses rising, no word at its reset value listed). -/
theorem State.wf_setReg (s : State) (off : Nat) (v : BitVec 32) (h : Tab.wf resetVal s.regs = true) :
    Tab.wf resetVal (s.setReg off v).regs = true := Tab.wf_set _ _ _ _ h

end Sys2Proof.Machine
end

