-- ==== Sys2Proof/Laws/KeepsHost.lean ====
section
/-! SUPPORT. The commands that the kept words do not all survive: resets, SETUP_LOCK and host writes. What each leaves of them. -/

namespace Sys2Proof.Machine

/-- The queue, the beat and the words of IDREV and CAPS. -/
def State.ident (s : State) : List Instr × Nat × BitVec 32 × BitVec 32 := (s.pending, s.beat, s.reg 0x0, s.reg 0x4)

theorem ident_of_kept {s t : State} (h : t.kept = s.kept) : t.ident = s.ident := by
  simp only [State.kept, Prod.mk.injEq] at h
  obtain ⟨h1, h2, h3, h4, -, -⟩ := h
  simp only [State.ident, h1, h2, h3, h4]

theorem locked_of_kept {s t : State} (h : t.kept = s.kept) : t.locked = s.locked := by
  simp only [State.kept, Prod.mk.injEq] at h
  obtain ⟨-, -, -, -, h5, -⟩ := h
  simp only [State.locked, State.on, State.get, Reg.SETUP_LOCK_lock, h5]

theorem State.setReg_ident (s : State) (off : Nat) (v : BitVec 32) (h0 : off ≠ 0) (h4 : off ≠ 4) : (s.setReg off v).ident = s.ident := by
  simp only [State.ident, s.reg_setReg_ne off _ v h0.symm, s.reg_setReg_ne off _ v h4.symm]
  rfl

/-- SETUP_LOCK.lock written 1 (R489): only the lock bit of the kept words changes. -/
theorem State.lockSetup_kept (s : State) (fails : List (Fin 6)) :
    (s.lockSetup fails).kept = (s.raise Reg.SETUP_LOCK_lock).kept := by
  unfold State.lockSetup
  extract_lets s1 s2
  rw [State.settleLanes_kept, State.trainStore_kept]
  rfl

theorem State.lockSetup_ident (s : State) (fails : List (Fin 6)) : (s.lockSetup fails).ident = s.ident := by
  rw [ident_of_kept (s.lockSetup_kept fails)]
  exact s.setReg_ident _ _ (by decide) (by decide)

theorem State.lockSetup_locked (s : State) (fails : List (Fin 6)) : (s.lockSetup fails).locked = true := by
  rw [locked_of_kept (s.lockSetup_kept fails)]
  exact s.on_raise_self _ (by decide) rfl

/-- The identity words are read-only: a host write of them changes nothing (R9). -/
theorem State.writeWord_ident (s : State) (off : Nat) (v : BitVec 32) : (s.writeWord off v).ident = s.ident := by
  have fix : ∀ fresh off x, off = 0x0 ∨ off = 0x4 → (fieldsAt off).foldl (writeField s.locked fresh v) x = x := by
    intro fresh off x h
    have hn : ∀ f ∈ fieldsAt off, f.acc = .ro := by
      rcases h with rfl | rfl <;> decide
    generalize fieldsAt off = l at hn
    induction l generalizing x with
    | nil => rfl
    | cons f t ih =>
      have : writeField s.locked fresh v x f = x := by unfold writeField; rw [hn f (by simp)]
      rw [List.foldl_cons, this]
      exact ih x fun g hg => hn g (by simp [hg])
  unfold State.writeWord
  have hr : ∀ o, o = 0x0 ∨ o = 0x4 →
      (s.setReg off ((fieldsAt off).foldl (writeField s.locked (s.freshBits off) v) (s.reg off))).reg o = s.reg o := by
    intro o ho
    by_cases h : o = off
    · subst h; rw [fix _ _ _ ho, State.reg_setReg_self]
    · exact s.reg_setReg_ne _ _ _ h
  simp only [State.ident, hr 0x0 (.inl rfl), hr 0x4 (.inr rfl)]
  rfl

theorem State.writeReg_kept (s : State) (off : Nat) (v : BitVec 32) (h8 : off ≠ 0x8) (hc : off ≠ 0x1C) :
    (s.writeReg off v).kept = s.kept := by
  unfold State.writeReg
  split
  · contradiction
  · split
    · simp
    · split
      · split <;> simp
      · split
        · split <;> simp
        · split
          · by_cases h : away off
            · exact s.writeWord_kept _ _ h
            · have ho : off = 0x0 ∨ off = 0x4 := by unfold away at h; omega
              have hi := s.writeWord_ident off v
              simp only [State.ident, Prod.mk.injEq] at hi
              obtain ⟨h1, h2, h3, h4⟩ := hi
              have h5 : (s.writeWord off v).reg 0x8 = s.reg 0x8 := s.reg_setReg_ne _ _ _ (by omega)
              have h6 : (s.writeWord off v).reg 0x1C = s.reg 0x1C := s.reg_setReg_ne _ _ _ (by omega)
              simp only [State.kept, h1, h2, h3, h4, h5, h6]
          · have h : away off := away_of_le (by omega)
            split
            · exact s.writeTiming_kept _ _ h
            · split
              · exact s.writeHeads_kept _ _ h
              · exact s.writeRest_kept _ _ h

/-- A host write leaves the queue, the beat and the identity words alone. -/
theorem State.writeReg_ident (s : State) (off : Nat) (v : BitVec 32) : (s.writeReg off v).ident = s.ident := by
  by_cases h8 : off = 0x8
  · subst h8
    unfold State.writeReg
    simp only [if_true]
    split
    · exact s.lockSetup_ident _
    · rfl
  · by_cases hc : off = 0x1C
    · subst hc
      exact s.writeWord_ident _ _
    · exact ident_of_kept (s.writeReg_kept _ _ h8 hc)

/-- It never clears the lock. -/
theorem State.writeReg_locked (s : State) (off : Nat) (v : BitVec 32) (h : s.locked = true) : (s.writeReg off v).locked = true := by
  by_cases h8 : off = 0x8
  · subst h8
    unfold State.writeReg
    simp [h]
  · by_cases hc : off = 0x1C
    · subst hc
      have : (s.writeWord 0x1C v).reg 0x8 = s.reg 0x8 := s.reg_setReg_ne _ _ _ (by decide)
      simp only [State.locked, State.on, State.get, Reg.SETUP_LOCK_lock] at h ⊢
      have e : s.writeReg 0x1C v = s.writeWord 0x1C v := rfl
      rw [e, this]; exact h
    · rw [locked_of_kept (s.writeReg_kept _ _ h8 hc)]; exact h

/-- Only a write of GLB_SCRATCH changes it. -/
theorem State.writeReg_scratch (s : State) (off : Nat) (v : BitVec 32) (hc : off ≠ 0x1C) : (s.writeReg off v).reg 0x1C = s.reg 0x1C := by
  by_cases h8 : off = 0x8
  · subst h8
    unfold State.writeReg
    simp only [if_true]
    split
    · have := s.lockSetup_kept []
      simp only [State.kept, Prod.mk.injEq] at this
      rw [this.2.2.2.2.2]
      exact s.reg_setReg_ne _ _ _ (by decide)
    · rfl
  · have := s.writeReg_kept off v h8 hc
    simp only [State.kept, Prod.mk.injEq] at this
    exact this.2.2.2.2.2

/-- A host write through the pairs does nothing but write registers one after the other. -/
theorem State.hostWriteReg_rel (P : State → State → Prop) (hr : ∀ s, P s s) (ht : ∀ a b c, P a b → P b c → P a c)
    (hk : ∀ s t : State, t.kept = s.kept → P s t) (hw : ∀ (s : State) off v, P s (s.writeReg off v)) (s : State) (off : Nat) (v : BitVec 32) :
    P s (s.hostWriteReg off v) := by
  unfold State.hostWriteReg State.hostWrite
  split
  · exact hr s
  · split
    · exact hk _ _ (s.raise_kept _ (by simp [away, Reg.GLB_STATUS_off_access]))
    · split
      · exact hk _ _ rfl
      · split
        · dsimp only
          split
          · exact ht _ _ _ (ht _ _ _ (hk s { s with held := Tab.del s.held (off - 4) } rfl) (hw _ _ _)) (hw _ _ _)
          · exact hw _ _ _
        · exact hw _ _ _

theorem State.hostWriteReg_ident (s : State) (off : Nat) (v : BitVec 32) : (s.hostWriteReg off v).ident = s.ident :=
  State.hostWriteReg_rel (fun s t => t.ident = s.ident) (fun _ => rfl) (fun _ _ _ h1 h2 => h2.trans h1)
    (fun _ _ h => ident_of_kept h) State.writeReg_ident s off v

theorem State.hostWriteReg_locked (s : State) (off : Nat) (v : BitVec 32) (h : s.locked = true) : (s.hostWriteReg off v).locked = true :=
  State.hostWriteReg_rel (fun s t => s.locked = true → t.locked = true) (fun _ h => h) (fun _ _ _ h1 h2 h => h2 (h1 h))
    (fun _ _ h h' => (locked_of_kept h).trans h') State.writeReg_locked s off v h

/-- After a reset: the identity words at their reset values, the queue and the beat untouched. -/
theorem State.coldReset_ident (s : State) : s.coldReset.ident = (s.pending, s.beat, resetVal 0x0, resetVal 0x4) := rfl

/-- The identity words have no warm reset (R12). -/
theorem State.warmReset_ident (s : State) : s.warmReset.ident = s.ident := by
  have hr : ∀ o, (∀ f ∈ fieldsAt o, f.cls &&& 2 = 0) → s.warmReset.reg o = s.reg o := by
    intro o h
    exact s.reg_resetRegs 2 (fun _ => true) o h
  simp only [State.ident, hr 0x0 (by decide), hr 0x4 (by decide)]
  rfl

end Sys2Proof.Machine
end

