-- ==== Sys2Proof/Laws/KeepsAll.lean ====
section
/-! SUPPORT. Every ordinary command answers a next state and leaves the queue, the identity words, the lock and the scratch word alone; the
beat moves on by its distance. -/

namespace Sys2Proof.Machine

theorem exec_keeps (c : Instr) (hc : c.ordinary = true) (s : State) : keeps (exec c s) (s.advance c.dt).kept := by
  cases c with
  | registerWrite _ _ _ => exact absurd hc (by simp [Instr.ordinary])
  | bar0BadAccess dt off bytes isWrite => exact execBar0BadAccess_kept dt off bytes isWrite s
  | loRegisterRead dt off => exact execLoRegisterRead_kept dt off s
  | hiRegisterWrite _ _ _ => exact absurd hc (by simp [Instr.ordinary])
  | setupLock _ _ _ => exact absurd hc (by simp [Instr.ordinary])
  | readyEntry dt => exact execReadyEntry_kept dt s
  | powerOnReset _ _ => exact absurd hc (by simp [Instr.ordinary])
  | warmReset _ _ _ => exact absurd hc (by simp [Instr.ordinary])
  | hostReset dt kind => exact execHostReset_kept dt kind s
  | powerFault _ _ => exact absurd hc (by simp [Instr.ordinary])
  | thermalTrip _ _ _ => exact absurd hc (by simp [Instr.ordinary])
  | secAlarm dt src active => exact execSecAlarm_kept dt src active s
  | enclosureAlarm dt lowNs => exact execEnclosureAlarm_kept dt lowNs s
  | glitchAlarm dt d active => exact execGlitchAlarm_kept dt d active s
  | clockMonitorAlarm dt active => exact execClockMonitorAlarm_kept dt active s
  | debugUnlockAttempt dt => exact execDebugUnlockAttempt_kept dt s
  | secUnlock dt v => exact execSecUnlock_kept dt v s
  | wake dt v => exact execWake_kept dt v s
  | aliveToggle dt => exact execAliveToggle_kept dt s
  | fireInhibitAssert dt lowNs => exact execFireInhibitAssert_kept dt lowNs s
  | fireInhibitRelease dt highNs => exact execFireInhibitRelease_kept dt highNs s
  | inhibitBlockRepeat dt => exact execInhibitBlockRepeat_kept dt s
  | encEnable dt n cfg => exact execEncEnable_kept dt n cfg s
  | encoderEdge dt levels => exact execEncoderEdge_kept dt levels s
  | indexLatch dt levels => exact execIndexLatch_kept dt levels s
  | indexDriftWrite dt n v => exact execIndexDriftWrite_kept dt n v s
  | trigEnable dt n cfg => exact execTrigEnable_kept dt n cfg s
  | trigCapture dt levels => exact execTrigCapture_kept dt levels s
  | trigPop dt n => exact execTrigPop_kept dt n s
  | observerTick dt k => exact execObserverTick_kept dt k s
  | posValid dt => exact execPosValid_kept dt s
  | sourceFailed dt k => exact execSourceFailed_kept dt k s
  | obsSnapshot dt => exact execObsSnapshot_kept dt s
  | obsReadmit dt => exact execObsReadmit_kept dt s
  | obsResync dt => exact execObsResync_kept dt s
  | cmpArm dt n => exact execCmpArm_kept dt n s
  | cmpDisarm dt n => exact execCmpDisarm_kept dt n s
  | cmpCrossing dt n => exact execCmpCrossing_kept dt n s
  | cmpPulseCommit dt n => exact execCmpPulseCommit_kept dt n s
  | cmpPulseEnd dt n => exact execCmpPulseEnd_kept dt n s
  | cmpTimePulse dt n => exact execCmpTimePulse_kept dt n s
  | tb3RateUpdate dt => exact execTb3RateUpdate_kept dt s
  | tbSnapshot dt => exact execTbSnapshot_kept dt s
  | stepTb3 dt => exact execStepTb3_kept dt s
  | ptpSyncRx dt d h origin => exact execPtpSyncRx_kept dt d h origin s
  | ptpFollowUpRx dt d h origin => exact execPtpFollowUpRx_kept dt d h origin s
  | ptpDelayReqSend dt d => exact execPtpDelayReqSend_kept dt d s
  | ptpDelayRespRx dt d h received => exact execPtpDelayRespRx_kept dt d h received s
  | ptpAnnounceRx dt d h data => exact execPtpAnnounceRx_kept dt d h data s
  | ptpPdelayReqSend dt d => exact execPtpPdelayReqSend_kept dt d s
  | ptpPdelayReqRx dt d h => exact execPtpPdelayReqRx_kept dt d h s
  | ptpPdelayRespRx dt d h followUp stamp => exact execPtpPdelayRespRx_kept dt d h followUp stamp s
  | ptpIgnoredRx dt d h => exact execPtpIgnoredRx_kept dt d h s
  | ptpHoldover dt d => exact execPtpHoldover_kept dt d s
  | tb3Switch dt => exact execTb3Switch_kept dt s
  | domainEligibleRestore dt => exact execDomainEligibleRestore_kept dt s
  | wcPublish dt => exact execWcPublish_kept dt s
  | wcMessageRx dt port carrier data => exact execWcMessageRx_kept dt port carrier data s
  | wcStale dt => exact execWcStale_kept dt s
  | ethFrameRx dt port dest bad carrier => exact execEthFrameRx_kept dt port dest bad carrier s
  | originSet dt => exact execOriginSet_kept dt s
  | bindSend dt h => exact execBindSend_kept dt h s
  | lineSend dt h => exact execLineSend_kept dt h s
  | sheetMissing dt => exact execSheetMissing_kept dt s
  | streamEnd dt => exact execStreamEnd_kept dt s
  | drainComplete dt => exact execDrainComplete_kept dt s
  | tableTakesEffect dt kind index sub => exact execTableTakesEffect_kept dt kind index sub s
  | ceilingRecompute dt => exact execCeilingRecompute_kept dt s
  | leadWrite dt v => exact execLeadWrite_kept dt v s
  | sliceBeginLine dt q => exact execSliceBeginLine_kept dt q s
  | blockFetch dt q wait => exact execBlockFetch_kept dt q wait s
  | blockVerify dt q => exact execBlockVerify_kept dt q s
  | spareAuditLine dt crc => exact execSpareAuditLine_kept dt crc s
  | sliceLineTimeout dt n => exact execSliceLineTimeout_kept dt n s
  | sliceTakeover dt => exact execSliceTakeover_kept dt s
  | spareTake dt n => exact execSpareTake_kept dt n s
  | spareRestore dt n => exact execSpareRestore_kept dt n s
  | sliceBistDone dt pass => exact execSliceBistDone_kept dt pass s
  | recutStart dt => exact execRecutStart_kept dt s
  | recutDone dt => exact execRecutDone_kept dt s
  | rasterBankRelease dt kind q sub => exact execRasterBankRelease_kept dt kind q sub s
  | seamAssemble dt h => exact execSeamAssemble_kept dt h s
  | mapDataSend dt h => exact execMapDataSend_kept dt h s
  | mapCommitSend dt h => exact execMapCommitSend_kept dt h s
  | bankSpareSwitch dt q => exact execBankSpareSwitch_kept dt q s
  | laneEnable dt n => exact execLaneEnable_kept dt n s
  | trainingBlockRx dt n rx converged => exact execTrainingBlockRx_kept dt n rx converged s
  | trainTimeout dt n => exact execTrainTimeout_kept dt n s
  | laneRetrain dt n => exact execLaneRetrain_kept dt n s
  | laneDown dt n cause => exact execLaneDown_kept dt n cause s
  | laneBerWarn dt n rx => exact execLaneBerWarn_kept dt n rx s
  | sleepTx dt n => exact execSleepTx_kept dt n s
  | sleepRx dt n => exact execSleepRx_kept dt n s
  | wakeTx dt n => exact execWakeTx_kept dt n s
  | wakeRx dt n => exact execWakeRx_kept dt n s
  | sleepNoticeRx dt n rx => exact execSleepNoticeRx_kept dt n rx s
  | signalDetectWake dt n => exact execSignalDetectWake_kept dt n s
  | relockTimeout dt n => exact execRelockTimeout_kept dt n s
  | eyeStart dt n => exact execEyeStart_kept dt n s
  | eyeStop dt n compared errors => exact execEyeStop_kept dt n compared errors s
  | eyeScanDone dt n errors => exact execEyeScanDone_kept dt n errors s
  | statusRx dt lane rx => exact execStatusRx_kept dt lane rx s
  | measureRx dt lane rx => exact execMeasureRx_kept dt lane rx s
  | memreadRx dt lane rx => exact execMemreadRx_kept dt lane rx s
  | nodeEventRx dt lane rx => exact execNodeEventRx_kept dt lane rx s
  | downstreamPassthrough dt lane rx => exact execDownstreamPassthrough_kept dt lane rx s
  | syncRequestSend dt a => exact execSyncRequestSend_kept dt a s
  | syncResponseRx dt lane rx => exact execSyncResponseRx_kept dt lane rx s
  | nodeIdentify dt a => exact execNodeIdentify_kept dt a s
  | identifyStepTimeout dt a => exact execIdentifyStepTimeout_kept dt a s
  | nodeLost dt a => exact execNodeLost_kept dt a s
  | ringBreak dt str hop => exact execRingBreak_kept dt str hop s
  | ringRestored dt str hop => exact execRingRestored_kept dt str hop s
  | resistScan dt op => exact execResistScan_kept dt op s
  | dropCheck dt op => exact execDropCheck_kept dt op s
  | dropGateEdge dt q level => exact execDropGateEdge_kept dt q level s
  | gateBlocked dt q => exact execGateBlocked_kept dt q s
  | spitPlan dt op => exact execSpitPlan_kept dt op s
  | keepWetSpit dt a => exact execKeepWetSpit_kept dt a s
  | warmLevelUpdate dt a => exact execWarmLevelUpdate_kept dt a s
  | headModelUpdate dt a => exact execHeadModelUpdate_kept dt a s
  | headSenseCorrection dt a => exact execHeadSenseCorrection_kept dt a s
  | chipModelUpdate dt powerMw => exact execChipModelUpdate_kept dt powerMw s
  | chipSensorCorrection dt sensors => exact execChipSensorCorrection_kept dt sensors s
  | throttleUpdate dt => exact execThrottleUpdate_kept dt s
  | headAutoRelease dt a => exact execHeadAutoRelease_kept dt a s
  | headRelease dt v => exact execHeadRelease_kept dt v s
  | csiFrameStart dt p vc corrected => exact execCsiFrameStart_kept dt p vc corrected s
  | csiFrameEnd dt p vc corrected => exact execCsiFrameEnd_kept dt p vc corrected s
  | csiLongPacket dt p h payload crcOk => exact execCsiLongPacket_kept dt p h payload crcOk s
  | frameTimeout dt p => exact execFrameTimeout_kept dt p s
  | cameraSilent dt p => exact execCameraSilent_kept dt p s
  | flushStamps dt p => exact execFlushStamps_kept dt p s
  | camCommit dt p => exact execCamCommit_kept dt p s
  | pipelineTile dt => exact execPipelineTile_kept dt s
  | regionClose dt p => exact execRegionClose_kept dt p s
  | foremanRecord dt => exact execForemanRecord_kept dt s
  | feedForwardUpdate dt => exact execFeedForwardUpdate_kept dt s
  | fmHold dt loop q => exact execFmHold_kept dt loop q s
  | fmNozClear dt v => exact execFmNozClear_kept dt v s
  | ingest dt op data => exact execIngest_kept dt op data s
  | storePrecompressed dt op data => exact execStorePrecompressed_kept dt op data s
  | blockFree dt op => exact execBlockFree_kept dt op s
  | blockRelease dt h => exact execBlockRelease_kept dt h s
  | issueDoorbell dt g v => exact execIssueDoorbell_kept dt g v s
  | completionDoorbell dt g v => exact execCompletionDoorbell_kept dt g v s
  | eventDoorbell dt v => exact execEventDoorbell_kept dt v s
  | statsDoorbell dt v => exact execStatsDoorbell_kept dt v s
  | bar2BadWrite dt off bytes => exact execBar2BadWrite_kept dt off bytes s
  | ringEnable dt r v => exact execRingEnable_kept dt r v s
  | descriptorFetch dt desc dma => exact execDescriptorFetch_kept dt desc dma s
  | completionWrite dt op ok => exact execCompletionWrite_kept dt op ok s
  | dmaTimeout dt op => exact execDmaTimeout_kept dt op s
  | ringInterrupt dt r => exact execRingInterrupt_kept dt r s
  | eventPost dt code args ok => exact execEventPost_kept dt code args ok s
  | statsRecordWrite dt ok => exact execStatsRecordWrite_kept dt ok s
  | tableLoad dt op data => exact execTableLoad_kept dt op data s
  | jobQueue dt op list handles => exact execJobQueue_kept dt op list handles s
  | jobStop dt op => exact execJobStop_kept dt op s
  | headQuery dt op => exact execHeadQuery_kept dt op s
  | motionMove dt op => exact execMotionMove_kept dt op s
  | capture dt op => exact execCapture_kept dt op s
  | keyLoad dt op data => exact execKeyLoad_kept dt op data s
  | retire dt op => exact execRetire_kept dt op s
  | pageRetired dt page errors => exact execPageRetired_kept dt page errors s
  | spareBank dt op => exact execSpareBank_kept dt op s
  | logRead dt op => exact execLogRead_kept dt op s
  | tallyCtrl dt op => exact execTallyCtrl_kept dt op s
  | powerState dt op => exact execPowerState_kept dt op s
  | codewordRead dt r => exact execCodewordRead_kept dt r s
  | partialWrite dt t op => exact execPartialWrite_kept dt t op s
  | dramScrub dt errors wait => exact execDramScrub_kept dt errors wait s
  | sramScrub dt errors => exact execSramScrub_kept dt errors s
  | renewSend dt => exact execRenewSend_kept dt s
  | healthSend dt => exact execHealthSend_kept dt s
  | leaseMessageRx dt viaNet data => exact execLeaseMessageRx_kept dt viaNet data s
  | tallyFence dt => exact execTallyFence_kept dt s
  | leaseLate dt => exact execLeaseLate_kept dt s
  | tallyLapseTake dt => exact execTallyLapseTake_kept dt s
  | pairStartTimeout dt => exact execPairStartTimeout_kept dt s
  | arbiterTick dt k => exact execArbiterTick_kept dt k s
  | handoverTimeout dt => exact execHandoverTimeout_kept dt s
  | mirrorSend dt full => exact execMirrorSend_kept dt full s
  | mirrorRx dt lane number item => exact execMirrorRx_kept dt lane number item s
  | mirrorLost dt cause => exact execMirrorLost_kept dt cause s
  | mirrorSynced dt => exact execMirrorSynced_kept dt s
  | relayDownRx dt lane rx => exact execRelayDownRx_kept dt lane rx s
  | relayUpRx dt lane rx => exact execRelayUpRx_kept dt lane rx s
  | deputyHalt dt => exact execDeputyHalt_kept dt s
  | doubleFault dt a => exact execDoubleFault_kept dt a s
  | winderTick dt => exact execWinderTick_kept dt s
  | winderEnable dt n v => exact execWinderEnable_kept dt n v s
  | rampRegisterWrite dt n decel v => exact execRampRegisterWrite_kept dt n decel v s
  | chopperTrip dt n phaseB level => exact execChopperTrip_kept dt n phaseB level s
  | chopperOffEnd dt n phaseB => exact execChopperOffEnd_kept dt n phaseB s
  | clearFault dt n v => exact execClearFault_kept dt n v s
  | holdDelayExpire dt n => exact execHoldDelayExpire_kept dt n s
  | switchEdge dt n sw level => exact execSwitchEdge_kept dt n sw level s
  | ssiRead dt k ready data low => exact execSsiRead_kept dt k ready data low s
  | glbCauseWrite dt v => exact execGlbCauseWrite_kept dt v s
  | glbIntEnWrite dt v => exact execGlbIntEnWrite_kept dt v s
  | ethLinkChange dt port up => exact execEthLinkChange_kept dt port up s
  | pcieLinkTrained dt => exact execPcieLinkTrained_kept dt s
  | domainPowerReturn dt d trainFails => exact execDomainPowerReturn_kept dt d trainFails s
  | mirrorAckTimeout dt => exact execMirrorAckTimeout_kept dt s
  | tallyCtrlTimeout dt => exact execTallyCtrlTimeout_kept dt s
  | dropWindowEnd dt q => exact execDropWindowEnd_kept dt q s
  | blockLockAcquired dt n rx => exact execBlockLockAcquired_kept dt n rx s

end Sys2Proof.Machine
end

