-- ==== Sys2Proof/Laws/Memory.lean ====
section
/-! SUPPORT. The image store (Machine/MemCore.lean, Machine/Memory.lean): reading what was written, and the canonical form, which every
operation over it keeps. -/

namespace Sys2Proof.Machine

/-! ### Entries -/

/-- The entries of bytes from an address lie from it on, below its end, and none is 0. -/
theorem entries_mem {a : Nat} {bs : List (BitVec 8)} {e : Nat × BitVec 8} (h : e ∈ entries a bs) :
    a ≤ e.1 ∧ e.1 < a + bs.length ∧ e.2 ≠ 0#8 := by
  induction bs generalizing a with
  | nil => simp [entries] at h
  | cons b t ih =>
    simp only [entries] at h
    split at h
    · obtain ⟨h1, h2, h3⟩ := ih h; simp only [List.length_cons]; exact ⟨by omega, by omega, h3⟩
    · rename_i hb
      simp only [List.mem_cons] at h
      rcases h with rfl | h
      · exact ⟨Nat.le_refl _, by simp, hb⟩
      · obtain ⟨h1, h2, h3⟩ := ih h; simp only [List.length_cons]; exact ⟨by omega, by omega, h3⟩

/-- Keys that rise, put before keys that rise from beyond them. -/
theorem Tab.above_append {b c : Nat} (x y : List (Nat × BitVec 8)) (hx : Tab.above b x = true) (hc : ∀ e ∈ x, e.1 < c) (hb : b ≤ c)
    (hy : Tab.above c y = true) : Tab.above b (x ++ y) = true := by
  induction x generalizing b with
  | nil => exact Tab.above_mono y hb hy
  | cons e t ih =>
    obtain ⟨k, v⟩ := e
    simp only [Tab.above, Bool.and_eq_true, decide_eq_true_eq, List.cons_append] at *
    exact ⟨hx.1, ih hx.2 (fun e he => hc e (List.mem_cons_of_mem _ he)) (hc _ (List.mem_cons_self ..))⟩

theorem Tab.above_filter {b : Nat} (m : List (Nat × BitVec 8)) (p : Nat × BitVec 8 → Bool) (h : Tab.above b m = true) :
    Tab.above b (m.filter p) = true := by
  induction m generalizing b with
  | nil => rfl
  | cons e t ih =>
    obtain ⟨k, v⟩ := e
    simp only [Tab.above, Bool.and_eq_true, decide_eq_true_eq] at h
    simp only [List.filter_cons]
    split
    · simp only [Tab.above, Bool.and_eq_true, decide_eq_true_eq]; exact ⟨h.1, ih h.2⟩
    · exact Tab.above_mono _ (by omega) (ih h.2)

/-- Keys that rise and are at least a bound rise from it. -/
theorem Tab.above_raise {b c : Nat} (m : List (Nat × BitVec 8)) (h : Tab.above b m = true) (hc : ∀ e ∈ m, c ≤ e.1) : Tab.above c m = true := by
  cases m with
  | nil => rfl
  | cons e t =>
    simp only [Tab.above, Bool.and_eq_true, decide_eq_true_eq] at *
    exact ⟨hc _ (List.mem_cons_self ..), h.2⟩

theorem entries_above (a : Nat) (bs : List (BitVec 8)) : Tab.above a (entries a bs) = true := by
  induction bs generalizing a with
  | nil => rfl
  | cons b t ih =>
    simp only [entries]
    split
    · exact Tab.above_mono _ (Nat.le_succ a) (ih (a + 1))
    · simp only [Tab.above, Bool.and_eq_true, decide_eq_true_eq]; exact ⟨Nat.le_refl _, ih (a + 1)⟩

/-! ### Reading what was written -/

theorem Tab.get_append_left {x y : List (Nat × BitVec 8)} {d : Nat → BitVec 8} {k : Nat} (h : ∀ e ∈ y, e.1 ≠ k) :
    Tab.get d (x ++ y) k = Tab.get d x k := by
  induction x with
  | nil =>
    induction y with
    | nil => rfl
    | cons e t ih =>
      have he := h e (List.mem_cons_self ..)
      simp only [List.nil_append, Tab.get] at *
      rw [if_neg (Ne.symm he)]
      exact ih fun e' he' => h e' (List.mem_cons_of_mem _ he')
  | cons e t ih => simp only [List.cons_append, Tab.get, ih]

theorem Tab.get_append_right {x y : List (Nat × BitVec 8)} {d : Nat → BitVec 8} {k : Nat} (h : ∀ e ∈ x, e.1 ≠ k) :
    Tab.get d (x ++ y) k = Tab.get d y k := by
  induction x with
  | nil => rfl
  | cons e t ih =>
    have he := h e (List.mem_cons_self ..)
    simp only [List.cons_append, Tab.get]
    rw [if_neg (Ne.symm he)]
    exact ih fun e' he' => h e' (List.mem_cons_of_mem _ he')

theorem Tab.get_filter_key {m : List (Nat × BitVec 8)} {d : Nat → BitVec 8} {k : Nat} (p : Nat → Bool) (h : p k = true) :
    Tab.get d (m.filter fun e => p e.1) k = Tab.get d m k := by
  induction m with
  | nil => rfl
  | cons e t ih =>
    obtain ⟨k0, v⟩ := e
    simp only [List.filter_cons]
    by_cases hk : k = k0
    · subst hk; simp [h, Tab.get]
    · split
      · simp only [Tab.get, if_neg hk, ih]
      · simp only [Tab.get, if_neg hk, ih]

theorem get_entries (a : Nat) (bs : List (BitVec 8)) (i : Nat) :
    Tab.get (fun _ => 0#8) (entries a bs) (a + i) = bs.getD i 0#8 := by
  induction bs generalizing a i with
  | nil => simp [entries, Tab.get]
  | cons b t ih =>
    have hlt : ∀ e ∈ entries (a + 1) t, e.1 ≠ a := fun e he => by have := (entries_mem he).1; omega
    simp only [entries]
    cases i with
    | zero =>
      split
      · rename_i hb
        have := Tab.get_append_left (x := []) (d := fun _ => 0#8) (k := a) hlt
        simp only [List.nil_append, Tab.get] at this
        simp [this, hb]
      · simp [Tab.get]
    | succ j =>
      have hj := ih (a + 1) j
      rw [show a + 1 + j = a + (j + 1) by omega] at hj
      split
      · simpa using hj
      · simp only [Tab.get]
        rw [if_neg (by omega)]
        simpa using hj

/-- A read of a written address gives the byte written. -/
theorem get_putBytes_in (m : List (Nat × BitVec 8)) (a i : Nat) (bs : List (BitVec 8)) (h : i < bs.length) :
    Tab.get (fun _ => 0#8) (putBytes m a bs) (a + i) = bs.getD i 0#8 := by
  unfold putBytes
  rw [Tab.get_append_left, Tab.get_append_right]
  · exact get_entries a bs i
  · intro e he; have := (List.mem_filter.mp he).2; simp only [decide_eq_true_eq] at this; omega
  · intro e he; have := (List.mem_filter.mp he).2; simp only [decide_eq_true_eq] at this; omega

/-- A write leaves every other address as it was. -/
theorem get_putBytes_out (m : List (Nat × BitVec 8)) (a k : Nat) (bs : List (BitVec 8)) (h : k < a ∨ a + bs.length ≤ k) :
    Tab.get (fun _ => 0#8) (putBytes m a bs) k = Tab.get (fun _ => 0#8) m k := by
  have ne : ∀ e ∈ entries a bs, e.1 ≠ k := fun e he => by have := entries_mem he; omega
  unfold putBytes
  rcases h with h | h
  · rw [Tab.get_append_left, Tab.get_append_left ne]
    · exact Tab.get_filter_key (fun x => decide (x < a)) (by simpa using h)
    · intro e he; have := (List.mem_filter.mp he).2; simp only [decide_eq_true_eq] at this; omega
  · rw [List.append_assoc, Tab.get_append_right, Tab.get_append_right ne]
    · exact Tab.get_filter_key (fun x => decide (a + bs.length ≤ x)) (by simpa using h)
    · intro e he; have := (List.mem_filter.mp he).2; simp only [decide_eq_true_eq] at this; omega

/-! ### The canonical form -/

/-- A write keeps the canonical form. -/
theorem Memory.wf_putBytes (m : List (Nat × BitVec 8)) (a : Nat) (bs : List (BitVec 8)) (h : Memory.wf m = true) :
    Memory.wf (putBytes m a bs) = true := by
  simp only [Memory.wf, Tab.wf, Bool.and_eq_true, List.all_eq_true, decide_eq_true_eq] at *
  have e1 : Tab.above 0 (m.filter fun e => decide (e.1 < a)) = true := Tab.above_filter _ _ h.1
  have e2 : Tab.above (a + bs.length) (m.filter fun e => decide (a + bs.length ≤ e.1)) = true :=
    Tab.above_raise _ (Tab.above_filter _ _ h.1) fun e he => by simpa using (List.mem_filter.mp he).2
  have e3 : Tab.above a (entries a bs ++ m.filter fun e => decide (a + bs.length ≤ e.1)) = true :=
    Tab.above_append _ _ (entries_above a bs) (fun e he => (entries_mem he).2.1) (by omega) e2
  refine ⟨?_, fun e he => ?_⟩
  · unfold putBytes
    rw [List.append_assoc]
    exact Tab.above_append _ _ e1 (fun e he => by simpa using (List.mem_filter.mp he).2) (Nat.zero_le _) e3
  · simp only [putBytes, List.mem_append] at he
    rcases he with (he | he) | he
    · exact h.2 e (List.mem_filter.mp he).1
    · exact (entries_mem he).2.2
    · exact h.2 e (List.mem_filter.mp he).1

theorem Memory.wf_reset : Memory.wf State.reset.mem.dram = true := rfl

/-- Below the first key an address reads as unlisted. -/
theorem Tab.get_of_above {b k : Nat} {m : List (Nat × BitVec 8)} {d : Nat → BitVec 8} (h : Tab.above b m = true) (hk : k < b) :
    Tab.get d m k = d k := by
  induction m generalizing b with
  | nil => rfl
  | cons e t ih =>
    obtain ⟨k0, v⟩ := e
    simp only [Tab.above, Bool.and_eq_true, decide_eq_true_eq] at h
    simp only [Tab.get]
    rw [if_neg (by omega)]
    exact ih h.2 (by omega)

/-! ### The operations -/

@[simp] theorem State.set_mem (s : State) (f : Fld) (v : Nat) : (s.set f v).mem = s.mem := rfl
@[simp] theorem State.raise_mem (s : State) (f : Fld) : (s.raise f).mem = s.mem := rfl
@[simp] theorem State.bump_mem (s : State) (f : Fld) (n : Nat) : (s.bump f n).mem = s.mem := rfl

theorem State.sendVector_mem (s : State) (v : Nat) : (s.sendVector v).mem = s.mem := by
  unfold State.sendVector; simp only []; split <;> rfl

theorem State.raiseCause_mem (s : State) (i : Nat) : (s.raiseCause i).mem = s.mem := by
  unfold State.raiseCause; simp only []; split
  · rw [State.sendVector_mem]; rfl
  · rfl

theorem State.moderate_mem (s : State) (k : Nat) (u : Bool) : (s.moderate k u).mem = s.mem := by
  unfold State.moderate; split
  · rfl
  · simp only []; split
    · rw [State.sendVector_mem]; rfl
    · rfl

theorem State.writeEntry_mem (s : State) (k : Nat) (e : List (BitVec 8)) (u : Bool) : (s.writeEntry k e u).mem = s.mem := by
  unfold State.writeEntry; simp only []; rw [State.moderate_mem]; rfl

theorem State.ringEvent_mem (s : State) (e : EventRec) : (s.ringEvent e).mem = s.mem := by
  unfold State.ringEvent; split
  · split
    · exact s.writeEntry_mem _ _ _
    · unfold State.loseEvent; rw [State.raiseCause_mem]; rfl
  · rfl

/-- Posting an event leaves the store alone. -/
@[simp] theorem State.post_mem (s : State) (code : Nat) (args : List EArg) : (s.post code args).mem = s.mem := by
  unfold State.post; simp only []; rw [State.ringEvent_mem, State.raiseCause_mem]; rfl

/-- An error log leaves the store's bytes alone. -/
@[simp] theorem State.logError_dram (s : State) (dram : Bool) (ty source position location : Nat) :
    (s.logError dram ty source position location).mem.dram = s.mem.dram := by
  have key (t : State) (b : Bool) (r : Fld) (k : Nat) (args : List EArg) :
      (if b then (let s2 := t.raise r; if s2.memMayPost k then (s2.memPosted k).post 0x0907 args else s2) else t).mem.dram = t.mem.dram := by
    cases b
    · rfl
    · simp only [if_true]
      split
      · rw [State.post_mem]; rfl
      · rfl
  cases dram
  · exact key _ _ _ _ _
  · exact key _ _ _ _ _

theorem State.decodeErrors_mem (s : State) (errs : List Nat) (real : Nat → Bool) (n : Nat) : (s.decodeErrors errs real n).2.mem = s.mem := by
  unfold State.decodeErrors
  split
  · rfl
  · rfl
  · split <;> rfl

theorem State.decodePoisoned_mem (s : State) (n : Nat) : (s.decodePoisoned n).2.mem = s.mem := by
  unfold State.decodePoisoned; split <;> rfl

@[simp] theorem State.dramOutcome_mem (s : State) (w : Nat) (e : SymbolErrors) : (s.dramOutcome w e).2.mem = s.mem := by
  unfold State.dramOutcome; simp only []; split
  · exact s.decodePoisoned_mem _
  · exact s.decodeErrors_mem _ _ _

/-- Writing a page keeps the canonical form. -/
theorem State.writePage_wf (s : State) (p : Nat) (bs : List (BitVec 8)) (h : Memory.wf s.mem.dram = true) :
    Memory.wf (s.writePage p bs).mem.dram = true := Memory.wf_putBytes _ _ _ h

theorem State.flipData_wf (s : State) (w : Nat) (e : SymbolErrors) (h : Memory.wf s.mem.dram = true) :
    Memory.wf (s.flipData w e).mem.dram = true := Memory.wf_putBytes _ _ _ h

/-- Noting the outcome of a read keeps it. -/
theorem State.noteDram_wf (s : State) (w source : Nat) (e : SymbolErrors) (o : ReadOutcome) (h : Memory.wf s.mem.dram = true) :
    Memory.wf (s.noteDram w source e o).mem.dram = true := by
  cases o with
  | clean =>
    simp only [State.noteDram]; split
    · exact State.flipData_wf _ _ _ h
    · exact h
  | corrected p =>
    have key (t : State) (ht : Memory.wf t.mem.dram = true) : Memory.wf
        (if t.memMayPost (s.channelOf w) then (t.memPosted (s.channelOf w)).post 0x0901 [.n (s.channelOf w), .addr (32 * w), .n p] else t).mem.dram = true := by
      split
      · rw [State.post_mem]; exact ht
      · exact ht
    simp only [State.noteDram]
    apply key
    rw [State.logError_dram]
    split
    · exact State.flipData_wf _ _ _ h
    · exact h
  | addressError => simp only [State.noteDram, State.post_mem, State.logError_dram]; exact h
  | uncorrectable => simp only [State.noteDram, State.post_mem]; exact (congrArg Memory.wf (State.logError_dram _ _ _ _ _ _)).trans h
  | poison => exact h

theorem State.poisonDram_wf (s : State) (w source : Nat) (e : SymbolErrors) (h : Memory.wf s.mem.dram = true) :
    Memory.wf (s.poisonDram w source e).mem.dram = true := by
  simp only [State.poisonDram, State.post_mem, State.logError_dram]; exact State.flipData_wf _ _ _ h

theorem State.mergeDram_wf (s : State) (w : Nat) (e : SymbolErrors) (h : Memory.wf s.mem.dram = true) :
    Memory.wf (s.mergeDram w e).1.mem.dram = true := by
  have hm : (s.dramOutcome w e).2.mem = s.mem := s.dramOutcome_mem w e
  unfold State.mergeDram
  generalize s.dramOutcome w e = x at hm
  obtain ⟨o, s1⟩ := x
  have h1 : Memory.wf s1.mem.dram = true := by rw [show s1.mem = s.mem from hm]; exact h
  cases o with
  | clean => exact State.noteDram_wf _ _ _ _ _ h1
  | corrected p => exact State.noteDram_wf _ _ _ _ _ h1
  | addressError => exact State.poisonDram_wf _ _ _ _ h1
  | uncorrectable => exact State.poisonDram_wf _ _ _ _ h1
  | poison => exact h1

/-- A fold of a step that keeps a property keeps it. -/
theorem foldl_keeps {α β : Type} (p : α → Prop) (f : α → β → α) (hf : ∀ a b, p a → p (f a b)) (l : List β) (a : α) (h : p a) :
    p (l.foldl f a) := by
  induction l generalizing a with
  | nil => exact h
  | cons b t ih => exact ih _ (hf a b h)

theorem State.mergeUnit_wf (s : State) (unit : Nat) (errors : BurstErrors) (h : Memory.wf s.mem.dram = true) :
    Memory.wf (s.mergeUnit unit errors).1.mem.dram = true := by
  unfold State.mergeUnit
  refine foldl_keeps (fun a : State × Bool => Memory.wf a.1.mem.dram = true) _ (fun a k ha => ?_) (List.range 4) (s, false) h
  exact State.mergeDram_wf _ _ _ ha

/-- A partial write keeps it. -/
theorem State.partialDram_wf (s : State) (addr : Nat) (data : List (BitVec 8)) (errors : BurstErrors)
    (h : Memory.wf s.mem.dram = true) : Memory.wf (s.partialDram addr data errors).1.mem.dram = true := by
  unfold State.partialDram
  simp only []
  split
  · exact h
  · split
    · exact Memory.wf_putBytes _ _ _ h
    · apply Memory.wf_putBytes
      exact State.mergeUnit_wf _ _ _ h

theorem State.scrubDram_wf (s : State) (x : Nat × SymbolErrors) (h : Memory.wf s.mem.dram = true) :
    Memory.wf (s.scrubDram x).1.mem.dram = true := by
  unfold State.scrubDram
  split
  · have hm : (s.dramOutcome x.1 x.2).2.mem = s.mem := s.dramOutcome_mem x.1 x.2
    generalize s.dramOutcome x.1 x.2 = y at hm
    obtain ⟨o, s1⟩ := y
    have h1 : Memory.wf s1.mem.dram = true := by rw [show s1.mem = s.mem from hm]; exact h
    cases o with
    | clean => exact State.noteDram_wf _ _ _ _ _ h1
    | corrected p => exact State.noteDram_wf _ _ _ _ _ h1
    | addressError => exact State.poisonDram_wf _ _ _ _ h1
    | uncorrectable => exact State.poisonDram_wf _ _ _ _ h1
    | poison => exact h1
  · exact h

theorem State.copyRead_wf (s : State) (w : Nat) (e : SymbolErrors) (h : Memory.wf s.mem.dram = true) :
    Memory.wf (s.copyRead w e).2.mem.dram = true := by
  unfold State.copyRead
  have hm := s.dramOutcome_mem w e
  generalize s.dramOutcome w e = y at hm
  obtain ⟨o, s1⟩ := y
  have h1 : Memory.wf s1.mem.dram = true := by rw [show s1.mem = s.mem from hm]; exact h
  have h2 := State.noteDram_wf s1 w 4 e o h1
  simp only []
  split
  · exact State.flipData_wf _ _ _ h2
  · exact h2

theorem State.copyReads_wf (s : State) (page : Nat) (errors : List (Nat × BurstErrors)) (h : Memory.wf s.mem.dram = true) :
    Memory.wf (s.copyReads page errors).1.mem.dram = true := by
  unfold State.copyReads
  refine foldl_keeps (fun a : State × Nat × List Nat => Memory.wf a.1.mem.dram = true) _ (fun a k ha => ?_) _ _ h
  simp only []
  have h2 := a.1.copyRead_wf (128 * page + k) ((errors.filter (·.1 == k / 4)).flatMap (·.2.symbols (k % 4))) ha
  generalize a.1.copyRead (128 * page + k) ((errors.filter (·.1 == k / 4)).flatMap (·.2.symbols (k % 4))) = y at h2
  obtain ⟨o, s1⟩ := y
  cases o <;> exact h2

end Sys2Proof.Machine
end

