-- ==== Sys2Proof/Tests/Slice0.lean ====
section
/-! SUPPORT. Tests of the model: for each statement with hypotheses a state and operands that meet them (witness_<name>), an ill-formed
command for each check of WellFormed.lean, and single steps and formulas against the spec's own tables and worked examples. -/

open Sys2Proof Sys2Proof.Machine

namespace Sys2Proof.Tests

/-! ### States -/

/-- A state with some register fields set. -/
def with_ (s : State) (l : List (Fld × Nat)) : State := l.foldl (fun a e => a.set e.1 e.2) s

def wReset : State := State.reset
/-- SETUP, locked, every domain powered. -/
def wSetup : State := with_ wReset [(Reg.PWR_STATE_state, stSetup), (Reg.PWR_DOMAINS_powered, 0x3FF), (Reg.SETUP_LOCK_lock, 1)]
def wUnlocked : State := wSetup.clear Reg.SETUP_LOCK_lock
def wReady : State := wSetup.set Reg.PWR_STATE_state stReady
def wMayReady : State := with_ wSetup [(Reg.MEM_STATUS_ready, 1), (Reg.OBS_STATUS_pos_valid, 1)]
def wDeep : State := with_ wReady [(Reg.PWR_STATE_state, stDeep), (Reg.PWR_STATE_deep_cause, 1)]
/-- Encoder 2 counts at once. -/
def wEnc : State := with_ wReady [(Reg.ENCn_CFG_enable 2, 1), (Reg.ENCn_CFG_filter_n 2, 0), (Reg.ENCn_CFG_z_filter_n 2, 0)]
def wEncGate : State := wEnc.set (Reg.ENCn_CFG_z_gate 2) 0
/-- Its first levels are accepted in beat 1. -/
def wEncFirst : State :=
  (with_ wEnc [(Reg.ENCn_CFG_filter_n 2, 1), (Reg.ENCn_CFG_z_filter_n 2, 1)]).onEnc 2 fun e => { e with initialA := true, initialB := true, initialZ := true }
/-- A of encoder 2 is high and not accepted yet. -/
def wEncGlitch : State := (wEnc.set (Reg.ENCn_CFG_filter_n 2) 9).setBall 6 ⟨true, 0, 0⟩
def wEncDrift : State := wEnc.onEnc 2 fun e => { e with driftAt := some (0, 3) }
def wTrig : State := with_ wReady [(Reg.TRIGn_CFG_enable 3, 1), (Reg.TRIGn_CFG_edge 3, 2), (Reg.TRIGn_CFG_filter_n 3, 0), (Reg.ENCn_CFG_enable 0, 1)]
def wTrigFirst : State := (wTrig.set (Reg.TRIGn_CFG_filter_n 3) 1).onTrig 3 fun t => { t with initial := true }
def wTrigOne : State := wTrig.onTrig 3 fun t => { t with fifo := [⟨5, 6, true⟩] }
def wTrigFull : State := wTrig.modInputs fun i => { i with trig := [(3, { fifo := List.replicate 16 ⟨0, 0, true⟩ })] }
def wObs : State :=
  { with_ wReady [(Reg.ENCn_CFG_enable 0, 1), (Reg.OBS_STATUS_active, 0), (Reg.OBS_STATUS_pos_valid, 1)] with obs := { inst := [(0, { running := true })] } }
def wCmp : State :=
  { with_ wReady [(Reg.CMPn_STATUS_state 5, 1), (Reg.CMPn_STATUS_state 6, 1), (Reg.CMPn_STATUS_state 7, 1), (Reg.CMPn_CFG_mode 9, 2), (Reg.CMPn_TARGET_LO 9, 1000)] with
    obs := { cmp := [(5, { mode := 2 }), (6, { mode := 1, due := some 0 }), (7, { due := some 0 }), (8, { active := true })] } }
/-- AUTO on domain A, which is not LOCKED; domain B may be chosen. -/
def wTime : State := with_ wReady [(Reg.TB3_CFG_select, 3), (Reg.TB_STATUS_src, 1), (Reg.PTPd_STATUS_state 0, 1), (Reg.PTPd_STATUS_state 1, 2), (Reg.PTPd_STATUS_eligible 1, 1)]
def wTimeB : State := with_ wReady [(Reg.TB3_CFG_select, 3), (Reg.TB_STATUS_src, 2), (Reg.PTPd_STATUS_state 1, 1), (Reg.PTPd_STATUS_state 0, 2), (Reg.PTPd_STATUS_eligible 0, 1)]
def wHdr : PtpHeader := ⟨0, 0#8, 7#64, 1#16, 5#16, 0, 0, false, .ethernet 0x88F7#16⟩
def wMaster : Foreign := ⟨7#64, 1#16, ⟨0#8, 0#8, 0#8, 0#16, 0#8, 7#64, 0#16⟩, 0, 0⟩
/-- Domain 0 locked to the sender of wHdr, end-to-end delay. -/
def wPtp : State :=
  { with_ wReady [(Reg.PTPd_STATUS_state 0, 2), (Reg.PTP0_CFG_enable, 1), (Reg.PTP0_CFG_profile, 0), (Reg.PTP0_CFG_domain_number, 0), (Reg.ETHp_CFG_enable 0, 1)] with
    time := { ptpA := { foreign := [wMaster], request := some (5, 0), lastSync := some (0, 0) } } }
/-- Domain 1 locked on port 1, peer delay. -/
def wPtpB : State :=
  { with_ wReady [(Reg.PTPd_STATUS_state 1, 2), (Reg.PTP1_CFG_enable, 1), (Reg.PTP1_CFG_profile, 1), (Reg.PTP1_CFG_port, 1), (Reg.PTP1_CFG_domain_number, 0),
      (Reg.ETHp_CFG_enable 1, 1)] with
    time := { ptpB := { foreign := [wMaster], waitFollow := some (5, 0, 0), request := some (5, 0), waitResp := some (5, 0, 0) } } }
/-- Publishes and follows web coordinates. -/
def wWc : State :=
  { with_ wReady [(Reg.WCP_CFG_enable, 1), (Reg.WCS_CFG_enable, 1), (Reg.PTPd_STATUS_state 0, 2), (Reg.ETHp_CFG_enable 0, 1), (Reg.WC_NET_CFG_ethertype, 0), (Reg.OBS_STATUS_active, 0)] with
    time := { lastAccepted := some 0 } }
def wWcBytes : List (BitVec 8) := 1#8 :: List.replicate 47 0#8
def zeros (n : Nat) : List (BitVec 8) := List.replicate n 0#8
/-- A placement bank of ten plane records and n head records: the heads named are enabled on their planes (Tables 05-2, 05-3). -/
def placeBank (n : Nat) (hs : List (Nat × Nat)) : List (BitVec 8) :=
  ((List.range 10).flatMap fun q => zeros 10 ++ [if hs.any (·.2 == q) then 1#8 else 0#8] ++ zeros 5) ++
  ((List.range n).flatMap fun a => match hs.find? (·.1 == a) with
    | some (_, q) => zeros 4 ++ leBytes 4 (2 ^ 23 + q * 2 ^ 17) ++ zeros 8
    | none => zeros 16)
def wPlace : List (BitVec 8) := placeBank 6 [(3, 0), (4, 0), (5, 1)]
/-- wReady with a placement bank in force. -/
def wPlaced (d : List (BitVec 8)) : State := wReady.setBanks tPlacement 0 0 [⟨0, d, []⟩]
def wJob : Job := ⟨1, 0, 0, 1, 0, 0, [⟨100, []⟩], 0⟩
def wSpan : Span := ⟨0, 10, 1, 0, 0, 0, [], true⟩
def wOrigin : State :=
  { with_ (wPlaced wPlace) [(Reg.OBS_STATUS_pos_valid, 1), (Reg.LS_CPL_LO, 65536)] with sched := { (wPlaced wPlace).sched with jobs := [wJob] } }
/-- A stream has its origin; the position is frozen at 100 counts, one line each. -/
def wStream (d : List (BitVec 8)) : State :=
  { with_ (wPlaced d) [(Reg.PWR_STATE_state, stPrinting), (Reg.LS_STATUS_origin_set, 1), (Reg.OBS_STATUS_active, 6), (Reg.TALLY_STATUS_held, 1)] with
    obs := { frozen := 100 * 65536 } }
def wSheet : State :=
  { with_ (wStream wPlace) [(Reg.LS_SHEET_GAP_max_gap_lines, 5)] with
    sched := { (wStream wPlace).sched with cpl := 2 ^ 32, streamCfg := 4, jobs := [wJob], spans := [wSpan] } }
def wEnd : State :=
  { with_ (wStream wPlace) [(Reg.LS_COMMIT_LINE_LO, 20)] with
    obs := {}
    sched := { (wStream wPlace).sched with
      anyBegun := true, last := some 9,
      heads := [(4, { ready := [⟨7, [1, 2], 8⟩] }), (5, { ready := [⟨6, [1, 2], 0⟩] })] }
    seam := { maps := [(5, { acked := [0] })] } }
/-- Draining after line 9, head 5 holding head line 73, one beyond the last that is bound. -/
def wBeyond : State :=
  { wEnd.set Reg.PWR_STATE_state stDraining with sched := { wEnd.sched with heads := [(5, { ready := [⟨73, [1, 2], 0⟩] })] } }
def wStaged : Staged := ⟨tTone, 2, 0, [], 0, 0, some 0, none, none, []⟩
def wTable : State := { wEnd with sched := { wEnd.sched with staged := [wStaged] } }
def wBlock : StoredBlock := ⟨5, 0, 0, 0, 16, 8, 128, 128, [1], false, [], false⟩
def wSpan2 : Span := ⟨0, 100, 1, 0, 0, 0, [{}, {}, { present := true, handles := [5] }], true⟩
def wPlace2 : List (BitVec 8) := placeBank 6 [(3, 2), (5, 1)]
/-- A slice prints plane 2: a chain of one stored block. -/
def wSlice : State :=
  { with_ ((wStream wPlace2).setBanks tTone 2 1 [⟨9, [1#8], []⟩, ⟨0, [], []⟩] |>.setBanks tSkew 0 0 [⟨0, [], []⟩])
      [(Reg.SEC_KEY_STATE_state, 1), (Reg.NODEa_STATE_state 5, 2)] with
    obs := {}
    sched := { ((wStream wPlace2).setBanks tTone 2 1 [⟨9, [1#8], []⟩, ⟨0, [], []⟩] |>.setBanks tSkew 0 0 [⟨0, [], []⟩]).sched with spans := [wSpan2], last := some 99 }
    store := { blocks := [(5, wBlock)] }
    raster := { planes := [(1, { delivered := 10 })] } }
def wUnserved : State := { wSlice with raster := { wSlice.raster with unserved := [1] } }
def wBuf : BlockBuf := ⟨0, 0, 5, 0, 16, false, 0, [], [], 0⟩
def wVerify : State := wSlice.setPlane 2 { blocks := [wBuf] }
def wAudit : State := { (wStream wPlace2).set Reg.RS_SPARE_STATUS_state spAudit with raster := { planes := [(0, { crcs := [(4, 77, 0)] })] } }
/-- Slice 2 serves plane 0, slice 0 is the spare. -/
def wFail : State :=
  { with_ (wStream wPlace2) [(Reg.RS_MAP_LO_map, 0x765431A2), (Reg.RS_SPARE_STATUS_state, spIdle)] with
    raster := { planes := [(0, { busy := some (5, 0) }), (1, { delivered := 66 })] } }
def wMap : State :=
  { (wStream wPlace2).setBanks tSkew 0 0 [] with
    sched := { ((wStream wPlace2).setBanks tSkew 0 0 []).sched with staged := [⟨tSkew, 0, 0, [], 3, 0, some 3, none, none, []⟩] }
    link := { nodes := [(5, { known := true })] } }
/-- Lane 6 is enabled and OFF. -/
def wLane : State := with_ wReady [(Reg.LANEn_CFG_enable 6, 1), (Reg.LANEn_CFG_rate 6, 0), (Reg.LANEn_CFG_max_attempts 6, 1)]
def wTrain : BitVec 56 := BitVec.ofNat 56 (0xA + 23 * 2 ^ 48)
def wNotice : BitVec 56 := BitVec.ofNat 56 (0xB + 32 * 2 ^ 48)
/-- Blocks on a lane whose receiver has had 58 zeros before. -/
def wBlocks (bs : List LaneBlock) : LaneRx := ⟨0#58, (scrambleAll 0 bs).2⟩
def wIdles : LaneRx := wBlocks (List.replicate 64 idleBlock)
def wLaneUp : State := wLane.setLaneState 6 lnUp
def wLocked : State := wLaneUp.raise (Reg.LANEn_STATUS_block_lock 6)
/-- String 6 with four nodes, hop 2 up and hop 3 down, lane 12 up; node 50 is identifying. -/
def wLink : State :=
  { with_ wReady [(Reg.LANEn_CFG_enable 12, 1), (Reg.LANEn_STATUS_state 12, lnUp), (Reg.LINKs_CFG_node_count 6, 4), (Reg.NODEa_STATE_state 50, 1),
      (Reg.LINKs_STATUS_hop_up 6, 4), (Reg.LINKs_STATUS_reachable 6, 4), (Reg.TALLY_STATUS_held, 1)] with
    link := { nodes := [(50, { step := 2, memory := zeros 4 })] } }
/-- The receiver of lane 12 is in block lock. -/
def wRx : State := wLink.raise (Reg.LANEn_STATUS_block_lock 12)
def wStatus : List (BitVec 8) := packet 8 0 0 6 2 0 (beBytes 40 0)
def wMeasure : List (BitVec 8) := packet 9 0 0 6 2 0 ([1#8] ++ zeros 19)
def wMemread : List (BitVec 8) := packet 10 0 0 6 2 0 ([0#8, 0#8, 4#8, 2#8] ++ zeros 16)
def wEvent : List (BitVec 8) := packet 11 0 0 6 2 0 ([2#8] ++ zeros 19)
def wResponse : List (BitVec 8) := packet 5 0 0 6 2 0 ([1#8, 1#8, 0#8, 0#8, 0#8, 0#8, 0#8, 9#8] ++ zeros 24)
def wLinkCold : State :=
  { wLink.set Reg.PWR_STATE_state stCold with link := { nodes := [(50, { step := 2, memory := zeros 4, syncReq := some (9, 0) })] } }
/-- The event ring is live with room, issue ring 2 holds descriptors for completion ring 1, which waits for the host. -/
def wRing : State :=
  { with_ wReady [(Reg.HR_EVT_MASK_mask, 0xFFFFFFFF), (ringEnabled 16, 1), (Reg.HR_ISQi_STATUS_enabled 2, 1), (Reg.HR_ISQi_PROD 2, 10),
      (Reg.HR_ISQi_CONS 2, 4), (Reg.HR_ISQi_CFG_cq 2, 1), (ringEnabled 1, 1), (ringArmed 1, 1), (ringProd 1, 7), (ringCons 1, 4), (ringEnabled 17, 1)] with
    power := { pcieUp := true }
    rings := {
      flight := [⟨2, 7, 1, zeros 64, true, true, some (0, [])⟩, ⟨2, 8, 3, zeros 64, true, true, some (0, [])⟩]
      waiting := [(1, [(0, 1), (0, 1), (0, 1)])], statQ := [[1#8, 2#8]] } }
/-- The operation of a descriptor, fetched and not begun. -/
def opF (d : List (BitVec 8)) : Flight := ⟨1, 0, 1, slice d 0 64, false, false, none⟩
/-- READY in single configuration with the tally, a loaded key, free pages and a motion channel; one operation in flight. -/
def wOp (d : List (BitVec 8)) : State :=
  { with_ wReady [(Reg.TALLY_STATUS_held, 1), (Reg.SEC_KEY_STATE_state, 1), (Reg.CR_AREA_PAGES, 16), (Reg.WCn_CFG_enable 0, 1), (Reg.CAMp_CFG_pixels 0, 16)] with
    rings := { flight := [opF d] } }
/-- A descriptor: its opcode, three zero bytes, and fields from byte 16 on. -/
def desc (opcode : BitVec 8) (fields : List (BitVec 8)) : List (BitVec 8) := opcode :: (zeros 15 ++ fields)
def wIngest : List (BitVec 8) := desc 0x01#8 (zeros 4 ++ leBytes 4 1 ++ [1#8])
def wIngestCrc : List (BitVec 8) := desc 0x01#8 ([0#8, 0#8, 0#8, 1#8] ++ leBytes 4 1 ++ leBytes 4 1 ++ leBytes 4 1)
def wStore : List (BitVec 8) := desc 0x02#8 (zeros 4 ++ leBytes 4 33)
def wHostBlock : List (BitVec 8) := [0#8, 1#8, 0#8, 0#8] ++ leBytes 4 1 ++ leBytes 4 1 ++ leBytes 4 1 ++ zeros 8 ++ [1#8] ++ zeros 8
def wFree : List (BitVec 8) := desc 0x03#8 (leBytes 4 1 ++ leBytes 4 5)
def wRetire : List (BitVec 8) := desc 0x38#8 (leBytes 4 4)
def wJobQ : List (BitVec 8) := desc 0x10#8 (leBytes 8 1 ++ leBytes 2 1)
def wPanels : List (BitVec 8) := leBytes 4 100 ++ zeros 172
def wMaskLoad : List (BitVec 8) := desc 0x08#8 (leBytes 4 7 ++ leBytes 4 16384)
def wTableLoad : List (BitVec 8) := desc 0x08#8 (leBytes 4 11 ++ leBytes 4 160)
def wTableBad : List (BitVec 8) := [0#8, 0#8, 0#8, 4#8]
def wSpare : List (BitVec 8) := desc 0x39#8 [1#8, 7#8]
def wQuery : List (BitVec 8) := desc 0x18#8 []
def wLog : List (BitVec 8) := desc 0x40#8 [1#8]
def wKey : List (BitVec 8) := desc 0x30#8 [0#8, 2#8]
def wKeyLoad : List (BitVec 8) := desc 0x30#8 [0#8, 1#8]
def wTally : List (BitVec 8) := desc 0x48#8 [2#8]
def wHand : List (BitVec 8) := desc 0x48#8 [1#8]
def wPower : List (BitVec 8) := desc 0x50#8 [1#8]
def wScan : List (BitVec 8) := desc 0x19#8 ([1#8] ++ zeros 31 ++ [1#8, 0#8, 0#8, 0#8, 1#8])
def wDrop : List (BitVec 8) := desc 0x1A#8 ([1#8] ++ zeros 31 ++ [0#8, 1#8, 1#8])
def wSpitOf (kind : BitVec 8) : List (BitVec 8) :=
  desc 0x1B#8 ([kind, 0#8, 1#8, 1#8] ++ leBytes 2 1 ++ leBytes 2 1 ++ [1#8, 1#8, 0#8, 0#8] ++ leBytes 4 minSpit)
def wSpit : List (BitVec 8) := wSpitOf 1#8
def wSpit2 : List (BitVec 8) := wSpitOf 2#8
def wMove : List (BitVec 8) := desc 0x20#8 (zeros 4 ++ leBytes 4 1000 ++ leBytes 4 256)
def wCap : List (BitVec 8) := desc 0x28#8 ([0#8, 0#8] ++ leBytes 2 1 ++ zeros 12 ++ leBytes 4 65536)
def wOpJobs (d : List (BitVec 8)) : State := (wOp d).modSched fun c => { c with jobs := List.replicate 64 wJob }
def wOpStream (d : List (BitVec 8)) : State := with_ (wOp d) [(Reg.PWR_STATE_state, stPrinting), (Reg.LS_STATUS_origin_set, 1)]
def wOpBlocks (d : List (BitVec 8)) : State := { wOp d with store := { blocks := [(5, wBlock)] } }
def wGoing : StoredBlock := { wBlock with handle := 7, freeing := true }
def wOpGoing (d : List (BitVec 8)) : State := { wOp d with store := { blocks := [(7, wGoing)] } }
def wOpMoving (d : List (BitVec 8)) : State := { wOp d with mem := { migrations := [⟨1, 0, 9, 10, 0, 0⟩] } }
def wOpPair (d : List (BitVec 8)) : State := (wOp d).set Reg.PAIR_CFG_config 1
/-- A gate operation on plane 4 with one window, and the same waiting for a clear beam. -/
def wGateOp (from_ : Option Nat) : GateOp :=
  ⟨1, 0, 4, 1, [], 0, 0, [], [], [], [⟨0, 0, 0, 0⟩], from_, (0, 0, 0, 0), (0, 0, 0, 0), 0, 0, 0, 0, false⟩
def wGate : State := { wReady.raise (Reg.DGq_CFG_enable 4) with care := { gates := [wGateOp none] } }
def wGateWait : State := { wGate with care := { gates := [wGateOp (some 0)] } }
/-- Its gate ball has shown an interruption since beat 0. -/
def wGateBall : State := { wGate with care := { wGate.care with gateBalls := [(4, ⟨true, 0, 0⟩)] } }
/-- It waits for a beam that is interrupted. -/
def wGateLit : State :=
  { wGateWait.raise (Reg.DGq_STATUS_level 4) with care := { wGateWait.care with gateBalls := [(4, ⟨true, 0, 0⟩)] } }
def wWet : State :=
  { with_ (wReady.setBanks tPlacement 0 0 [⟨0, placeBank 8 [(7, 0)], []⟩]) [(Reg.NODEa_STATE_state 7, 2), (Reg.TALLY_STATUS_held, 1)] with
    care := { plans := [(0, { enable := true, idleMs := 1 })] } }
def wHeat : State :=
  { with_ wReady [(Reg.NODEa_STATE_state 0, 2), (Reg.NODEa_STATE_class_code 0, 768), (Reg.TALLY_STATUS_held, 1), (Reg.HC_WARM_warm_target, 100),
      (Reg.HC_CFG_auto_release, 1)] with
    link := { nodes := [(0, { held := true })] } }
/-- The LANE domain is off. -/
def wDeepLane : State := wReady.set Reg.PWR_DOMAINS_powered 0
def wHeatSense : State := { wHeat with care := { heads := [(0, { sense := some (640, 0) })] } }
def wParams : List Nat := [0x320A0400, 0x040000C8, 0x00008080, 0, 0, 0, 0]
def wFrame : CamFrame := ⟨1, wParams, false, none, none, none, [0], [true], [false], [], 0, false, false, 0, 0, 0, (0, 0, 0), 16, []⟩
def wOccurrence : Occurrence := ⟨0, [], 0, 0, 0, 0, 1, 0, 0, 0, 0, 0, [], [], true⟩
def wLine : CamLine := ⟨0, 1, 0, 0, 0, 0, none, [], [], 0⟩
def wCam : State := { with_ wReady [(Reg.CAMp_STATUS_state 1, 1), (Reg.CAMp_CFG_trilinear 1, 0), (Reg.CAMp_CFG_data_type 1, 0)] with assay := { ports := [(1, {})] } }
def wCamFrame : State := { wCam with assay := { ports := [(1, { frames := [wFrame], fifo := [⟨0, 0, 0, 0⟩], lastStamp := 60000000 })] } }
def wCamLine : State := { wCam with assay := { ports := [(1, { frames := [wFrame], buffer := [wLine], occ := [wOccurrence] })] } }
/-- The Foreman of a stream that prints with the tally. -/
def wFm : State := wStream []
def wFmRec : State := { wFm with fm := { queue := [2#8 :: zeros 63] } }
def wFmFf : State := wFm.set ⟨Reg.FM_CFG_noz_mode.off, 6, 2⟩ 1
def wFmHold : State :=
  with_ ((wStream []).setBanks tPlan 0 0 [⟨0, [1#8, 2#8] ++ zeros 30, []⟩]) [(⟨Reg.FM_CFG_noz_mode.off, 0, 2⟩, 1), (Reg.CAMp_STATUS_silent 2, 1)]
def wMem : State := with_ wReady [(Reg.MEM_STATUS_ready, 1), (Reg.MEM_SCRUB_dram_en, 1), (Reg.MEM_SCRUB_sram_en, 1)]
/-- Pins 37 and 38 err in beats that carry codeword 1. -/
def wTwoPins : BurstErrors := ⟨[(37, 1#16), (38, 1#16)], []⟩
def wMemBad : State := { wMem with mem := { poison := [8] }, rings := { flight := [⟨1, 0, 1, zeros 64, false, false, none⟩] } }
/-- End A of a pair with the tally, renewed at beat 0. -/
def wPair : State := { with_ wReady [(Reg.PAIR_CFG_config, 1), (Reg.TALLY_STATUS_held, 1)] with tally := { renewed := some 0 } }
def wStandby : State := { with_ wReady [(Reg.PAIR_CFG_config, 1), (Reg.PWR_STATE_state, stCold)] with tally := { renewed := some 0 } }
def wStandbyFit : State :=
  with_ wStandby [(Reg.OBS_STATUS_pos_valid, 1), (Reg.TB_STATUS_tb3_aligned, 1), (Reg.LANEn_STATUS_state 64, lnUp), (Reg.TALLY_STATUS_mirror_current, 1)]
def wPairB : State := with_ wReady [(Reg.PAIR_CFG_config, 1), (Reg.PAIR_CFG_end, 1)]
/-- A lease message (Table 17-3) of an opcode and flags, all other fields 0 but its sequence 1. -/
def lease (op flags : BitVec 8) : List (BitVec 8) :=
  let m := [3#8, op, 0#8, 0#8, 0#8, 1#8, flags] ++ zeros 33
  m ++ beBytes 4 (crc32c m)
def wRenew : List (BitVec 8) := lease 1#8 0#8
def wGrant : List (BitVec 8) := lease 3#8 6#8
def wArbDev : State := with_ wReady [(Reg.PAIR_CFG_config, 2), (Reg.TALLY_STATUS_held, 1)]
def wArb : State :=
  { (wReady.set Reg.PAIR_CFG_config 3).setReg 0xC00048 0x10000#32 with tally := { arb := [(2, { a := some ⟨0, 1, 1, 1⟩ })] } }
def wMir : State := { with_ wPair [(Reg.LANEn_STATUS_state 65, lnUp)] with tally := { unacked := [(3, 0)] } }
def wMirRx : State := with_ wStandby [(Reg.LANEn_STATUS_state 65, lnUp), (Reg.LANEn_STATUS_block_lock 65, 1), (Reg.LANEn_STATUS_state 12, lnUp)]
def wRelay : List (BitVec 8) := packet 0xE 0 0 6 0 0 (zeros 16)
def wRelayUp : List (BitVec 8) := packet 0xF 0 0 6 0 0 (zeros 16)
def wDouble : State := { wReady.set (Reg.NODEa_STATE_state 50) 2 with tally := { running := [⟨0x0512, 6, 50⟩], waiting := [⟨0x0513, 6, 48⟩] } }
def wWind : State := with_ wReady [(Reg.WCn_CFG_enable 3, 1), (Reg.WCn_STATUS_state 3, 1), (Reg.SSIk_CFG_enable 6, 1), (Reg.SSIk_CFG_clk 6, 0)]
/-- The positive limit switch of channel 3 shows another level than the one accepted. -/
def wWindSw : State := (wWind.set (Reg.WCn_SW_filter_us 3) 0).setSwitch 3 1 { level := true }
/-- Phase B of channel 3 carries the run current. -/
def wWindChop : State :=
  { with_ wReady [(Reg.WCn_CFG_enable 3, 1), (Reg.WCn_STATUS_state 3, 1), (Reg.WCn_CURRENT_run 3, 200), (Reg.WCn_CFG_oc_cycles 3, 1)] with
    wind := { ch := [(3, { settled := false })] } }

/-! ### Well-formed commands -/

/-- A header of a long packet of two bytes. -/
def csi2 : CsiHeader := ⟨.ok, 0, 0#6, 2#16⟩
/-- Facts of a start-up whose checks pass, with the readings of n sensors. -/
def wBoot (n : Nat) : BootFacts := ⟨0, true, true, false, List.replicate n 0#16⟩
/-- Requests that name plane 1 twice. -/
def twice : StoreWait := ⟨[(1, 1), (1, 2)], 0, 0, 0, 0⟩
def noWait : StoreWait := ⟨[(1, 1)], 0, 0, 0, 0⟩
/-- Bursts that name a pin twice, and a virtual address symbol twice. -/
def pinTwice : BurstErrors := ⟨[(1, 1#16), (1, 2#16)], []⟩
def virtTwice : BurstErrors := ⟨[], [(1, 2, 1#8), (1, 2, 3#8)]⟩
def noErrors : BurstErrors := ⟨[], []⟩

theorem test_wellFormed_offsets :
    Instr.wellFormed (.registerWrite 0 0x1C#25 0#32) = true ∧ Instr.wellFormed (.registerWrite 0 0x1D#25 0#32) = false ∧
    Instr.wellFormed (.hiRegisterWrite 0 2#25 0#32) = false ∧ Instr.wellFormed (.loRegisterRead 0 3#25) = false ∧
    Instr.wellFormed (.bar0BadAccess 0 1#25 4 true) = true ∧ Instr.wellFormed (.bar0BadAccess 0 4#25 4 true) = false ∧
    Instr.wellFormed (.bar0BadAccess 0 1#25 0 true) = false ∧ Instr.wellFormed (.bar2BadWrite 0 0#17 4) = true ∧
    Instr.wellFormed (.bar2BadWrite 0 8#17 8) = false ∧ Instr.wellFormed (.bar2BadWrite 0 0#17 0) = false := by decide

theorem test_wellFormed_packets :
    Instr.wellFormed (.leaseMessageRx 0 true (zeros 44)) = true ∧ Instr.wellFormed (.leaseMessageRx 0 true (zeros 46)) = true ∧
    Instr.wellFormed (.leaseMessageRx 0 true (zeros 45)) = false ∧ Instr.wellFormed (.csiLongPacket 0 1 csi2 (zeros 2) true) = true ∧
    Instr.wellFormed (.csiLongPacket 0 1 csi2 (zeros 3) true) = false := by decide

theorem test_wellFormed_lists :
    Instr.wellFormed (.powerOnReset 0 (wBoot 6)) = true ∧ Instr.wellFormed (.powerOnReset 0 (wBoot 5)) = false ∧
    Instr.wellFormed (.warmReset 0 0 (wBoot 5)) = false ∧ Instr.wellFormed (.thermalTrip 0 true (wBoot 7)) = false ∧
    Instr.wellFormed (.blockFetch 0 1 noWait) = true ∧ Instr.wellFormed (.blockFetch 0 1 twice) = false ∧
    Instr.wellFormed (.chipModelUpdate 0 (List.replicate 9 0)) = false ∧ Instr.wellFormed (.chipSensorCorrection 0 (List.replicate 7 0#16)) = false ∧
    Instr.wellFormed (.descriptorFetch 0 (zeros 63) .ok) = false ∧ Instr.wellFormed (.keyLoad 0 ⟨1, 0⟩ (zeros 71)) = false ∧
    Instr.wellFormed (.keyLoad 0 ⟨1, 0⟩ []) = true ∧ Instr.wellFormed (.eventPost 0 0x0512#16 (zeros 27) true) = true ∧
    Instr.wellFormed (.eventPost 0 0x0512#16 (zeros 28) true) = false ∧ Instr.wellFormed (.eventPost 0 0x0E01#16 [] true) = false ∧
    Instr.wellFormed (.eventPost 0 0x0001#16 [] true) = false ∧ Instr.wellFormed (.eyeStop 0 6 4 5) = false ∧
    Instr.wellFormed (.ssiRead 0 6 true (List.replicate 34 true) false) = false := by decide

theorem test_wellFormed_words :
    Instr.wellFormed (.codewordRead 0 (.dram 5 wTwoPins)) = true ∧ Instr.wellFormed (.codewordRead 0 (.dram 5 pinTwice)) = false ∧
    Instr.wellFormed (.codewordRead 0 (.dram (96 * 2 ^ 25) noErrors)) = false ∧ Instr.wellFormed (.codewordRead 0 (.dram 5 virtTwice)) = false ∧
    Instr.wellFormed (.codewordRead 0 (.sram 0#24 [289] .other)) = true ∧ Instr.wellFormed (.codewordRead 0 (.sram 0#24 [290] .other)) = false ∧
    Instr.wellFormed (.codewordRead 0 (.sram 0#24 [3, 3] .other)) = false ∧ Instr.wellFormed (.partialWrite 0 (.dram 120 (zeros 8) noErrors) none) = true ∧
    Instr.wellFormed (.partialWrite 0 (.dram 120 (zeros 9) noErrors) none) = false ∧ Instr.wellFormed (.partialWrite 0 (.dram 0 [] noErrors) none) = false ∧
    Instr.wellFormed (.partialWrite 0 (.dram 0 (zeros 1) pinTwice) none) = false ∧ Instr.wellFormed (.partialWrite 0 (.sram 0#24 [290] .other) none) = false ∧
    Instr.wellFormed (.dramScrub 0 [(1, pinTwice)] noWait) = false ∧ Instr.wellFormed (.dramScrub 0 [(1, wTwoPins)] twice) = false ∧
    Instr.wellFormed (.pageRetired 0 1 [(1, virtTwice)]) = false ∧ Instr.wellFormed (.sramScrub 0 [(0#24, [290], .other)]) = false := by decide

theorem test_wellFormed_mirror :
    Instr.wellFormed (.mirrorRx 0 65 0 (.nozzle 255 1 8191 0 0 0 0)) = true ∧ Instr.wellFormed (.mirrorRx 0 65 0 (.nozzle 256 1 0 0 0 0 0)) = false ∧
    Instr.wellFormed (.mirrorRx 0 65 0 (.nozzle 0 2 0 0 0 0 0)) = false ∧ Instr.wellFormed (.mirrorRx 0 65 0 (.nozzle 0 0 8192 0 0 0 0)) = false ∧
    Instr.wellFormed (.mirrorRx 0 65 0 (.checkpoint 10 0 0 0 0)) = false ∧ Instr.wellFormed (.mirrorRx 0 65 0 (.block 1 16 0 1 1 1 1 [])) = false ∧
    Instr.wellFormed (.mirrorRx 0 65 0 (.block 1 0 0 0 1 1 1 [])) = false ∧ Instr.wellFormed (.mirrorRx 0 65 0 (.block 1 0 0 36 1 1 1 [])) = false := by decide

/-- Data longer than the host may name: a block of more than 1 MiB with its header, and a list of more than 256 MiB. -/
theorem test_wellFormed_hostData (d : List Byte) (h : d.length = 268435457) :
    Instr.wellFormed (.ingest 0 ⟨1, 0⟩ d) = false ∧ Instr.wellFormed (.storePrecompressed 0 ⟨1, 0⟩ d) = false ∧
    Instr.wellFormed (.tableLoad 0 ⟨1, 0⟩ d) = false ∧ Instr.wellFormed (.jobQueue 0 ⟨1, 0⟩ d []) = false ∧
    Instr.wellFormed (.jobQueue 0 ⟨1, 0⟩ [] [d]) = false := by
  simp [Instr.wellFormed, hostDataOk, h]

theorem witness_hostData : ∃ d : List Byte, d.length = 268435457 := ⟨List.replicate 268435457 0#8, List.length_replicate ..⟩

/-! ### Tests from the spec's tables and worked examples -/

theorem test_reset_boot : State.reset.dev = stBoot := by decide

/-- RESET_N released with all start-up checks passed enters SETUP (Table 19-2). -/
theorem test_powerOn_setup :
    (match exec (.powerOnReset 0 (wBoot 6)) State.reset with | .next t => t.dev | _ => 9) = stSetup := by decide +kernel

/-- Table 20-8: IDREV, and the addresses of CMP17_STATUS and of the status of lane 26. -/
theorem test_registerMap :
    State.reset.reg 0 = 0xD1640A00#32 ∧ (Reg.CMPn_STATUS_state 17).off = 0x104458 ∧ (Reg.LANEn_STATUS_state 26).off = 0x41A008 := by decide

/-- Table 20-8: GLB_SCRATCH is written and survives a host reset's class H. -/
theorem test_scratch_survives :
    (match exec (.registerWrite 0 0x1C#25 0x5A17#32) wReady with | .next t => t.reg 0x1C | _ => 0#32) = 0x5A17#32 := by decide

/-- Table 02-4, index 3: 2 counts of drift on a drift of 1. -/
def wIndex (ref count : Int) (drift : Nat) : State :=
  ((with_ wEnc [(Reg.ENCn_CPR_cpr 2, 8000), (Reg.ENCn_INDEX_TOL_tolerance 2, 16), (Reg.ENCn_STATUS_index_valid 2, 1),
    (Reg.ENCn_INDEX_DRIFT_drift 2, drift)]).setI2 (Reg.ENCn_COUNT_LO 2) (Reg.ENCn_COUNT_HI 2) count).onEnc 2 fun e => { e with ref := ref }

theorem test_indexDrift_within :
    ((wIndex 1216001 1224003 1).indexLatch 2 0).get (Reg.ENCn_INDEX_DRIFT_drift 2) = 3 ∧
    ((wIndex 1216001 1224003 1).indexLatch 2 0).on (Reg.ENCn_STATUS_index_slip 2) = false := by decide +kernel

/-- Table 02-4, index 4: 44 counts are a slip, and leave the drift. -/
theorem test_indexDrift_slip :
    ((wIndex 1224003 1232047 3).indexLatch 2 0).get (Reg.ENCn_INDEX_DRIFT_drift 2) = 3 ∧
    ((wIndex 1224003 1232047 3).indexLatch 2 0).on (Reg.ENCn_STATUS_index_slip 2) = true ∧
    (((wIndex 1224003 1232047 3).indexLatch 2 0).enc 2).ref = 1232047 := by decide +kernel

/-- Table 03-4: W = 4, HW = 10,002; 4.0 counts behind is within the window, 4.1 is a reversal, and it ends at HW. -/
def wBack (pos : Int) (reversed : Nat) : State :=
  { with_ (wStream []) [(Reg.OBS_CFG_rev_window, 4), (Reg.OBS_STATUS_reversal, reversed)] with obs := { frozen := pos, hw := 10002 * 65536, hwSet := true } }

theorem test_reversal_trace :
    (wBack (9998 * 65536) 0).reversal.on Reg.OBS_STATUS_reversal = false ∧ (wBack (9998 * 65536 - 6554) 0).reversal.on Reg.OBS_STATUS_reversal = true ∧
    (wBack (10000 * 65536) 1).reversal.on Reg.OBS_STATUS_reversal = true ∧ (wBack (10002 * 65536) 1).reversal.on Reg.OBS_STATUS_reversal = false := by decide +kernel

/-- Table 05-9: xh of head line 152,187 of the worked head is 2,606,502.4271 counts. -/
def wNozzlePlace : List (BitVec 8) := zeros 48 ++ leBytes 8 (94488 * 65536) ++ zeros 104 ++ leBytes 4 0x05895400 ++ leBytes 4 (3 * 2 ^ 17)
def wNozzle : State :=
  { wReady.set2 Reg.LS_ORIGIN_LO Reg.LS_ORIGIN_HI (2000000 * 65536) with sched := { cpl := 0x355555555 } }

theorem test_xh : (wNozzle.xh wNozzlePlace 0 152187 * 10000 + 32768) / 65536 = 26065024271 := by decide

/-- Table 09-19: the BIND packet for head 106. -/
def wBind : State :=
  { with_ wReady [(Reg.LANEn_STATUS_state 26, lnUp), (Reg.TALLY_EPOCH, 7)] with link := { strings := [(13, { offset := 4000000 * 65536 })] } }
def wT0 : Nat := 12345002778 * 65536 + 0x2000
def wBound (i d : Nat) : Bound := ⟨152183 + i, wT0 + d, 0x002112AB⟩

theorem test_bind_packet :
    ((wBind.sendBind 106 0 0 [wBound 0 0, wBound 1 0x2112AAAB, wBound 2 0x42255555, wBound 3 0x63380000, wBound 4 0x844AAAAB]).out.map
      fun o => match o with | .lanePacket l d _ => (l, d.length, d.take 38) | _ => (0, 0, [])) =
    [(26, 70, [0x20#8, 0x6A#8, 0#8, 0#8, 0#8, 0x3C#8, 0x05#8, 0#8, 0#8, 0#8, 0#8, 7#8, 0#8, 0#8, 0#8, 0x02#8, 0x52#8, 0x77#8,
      0x00#8, 0x02#8, 0xDF#8, 0x94#8, 0xC2#8, 0x1A#8, 0x20#8, 0x00#8, 0#8, 0#8, 0#8, 0#8, 0x00#8, 0x21#8, 0x12#8, 0xAB#8,
      0x21#8, 0x12#8, 0xAA#8, 0xAB#8])] := by decide +kernel

/-- Table 07-5: the two skew entries of the worked stitch column. -/
theorem test_skew_entries :
    skDelay 0x630C = 12 ∧ skPhase 0x630C = 12 ∧ skClass 0x630C = 6 ∧ skDisable 0x630C = false ∧ skDelay 0x82C9 = 9 ∧ skPhase 0x82C9 = 11 ∧
    skClass 0x82C9 = 8 := by decide

/-- Table 06-5: pixels 116, 120, 128, 140 scaled cross-web. -/
theorem test_scaling : ((scaleX true true [116, 120, 128, 140]).drop 2).take 5 = [119, 122, 126, 131, 137] := by decide

/-- Table 06-6: column 52,000 (here 2) lost; its tone goes to its neighbours, with their trims. -/
def wTones : Nat → Option ToneCol
  | 0 => some ⟨true, 0, 1911, false⟩
  | 1 => some ⟨true, 10, 1959, false⟩
  | 2 => some ⟨false, 0, 2023, false⟩
  | 3 => some ⟨true, 1004, 2104, false⟩
  | 4 => some ⟨true, 0, 2200, false⟩
  | _ => none

theorem test_redistribution : (List.range 5).map (redistributed (3 + 16 + 256 * 256) wTones) = [2163, 2747, 0, 2806, 2452] := by decide

/-- Chapter 12's worked example: drop rank 7 at 57.6 °C with κ 5,000 and t_ref 45 gives a feed-forward term of −51. -/
def wRank : State :=
  { with_ wReady [(Reg.FM_FFq_kappa 3, 5000), (Reg.FM_FFq_t_ref 3, 45)] with link := { nodes := [(106, { ranks := (7, 0) })] } }

theorem test_feedForward : wRank.ffValue 0 106 0 3 (576 * 2 ^ 32) 10 = -51 := by decide

/-- Chapter 12's worked example: base trim 10 with the terms −51 and 5 is written as −36. -/
theorem test_trim_terms : trimEntry 10 (-51 + 5) = (wrap 10 (-36), false) := by decide

/-- Table 14-9: phase 0 at entry 1,020 of 512, phase 1 again at 1,024. -/
theorem test_phase : phaseOf 1020 512 = 0 ∧ phaseOf 1024 512 = 1 := by decide

/-- The catalogue check values of the CRC-32C polynomial of R219. -/
theorem test_crc32c : crc32c [0x31#8, 0x32#8, 0x33#8, 0x34#8, 0x35#8, 0x36#8, 0x37#8, 0x38#8, 0x39#8] = 0xE3069283 := by decide +kernel

/-- Table 18-6: from 1,000 full steps/s a deceleration of 20,000 full steps/s² stops within 25 full steps. -/
theorem test_stopDist : stopDist (wSpeed 256000) (wAccel 20000) 0 = some (25 * 2 * 10 ^ 18) := by decide +kernel

/-- A locked RWL field ignores a write (R9, R516). -/
theorem test_locked_ignores :
    (match exec (.registerWrite 0 (BitVec.ofNat 25 (Reg.ENCn_CPR_cpr 2).off) 8000#32) wReady with | .next t => t.get (Reg.ENCn_CPR_cpr 2) | _ => 1) =
      wReady.get (Reg.ENCn_CPR_cpr 2) ∧
    (match exec (.registerWrite 0 (BitVec.ofNat 25 (Reg.ENCn_CPR_cpr 2).off) 8000#32) wUnlocked with | .next t => t.get (Reg.ENCn_CPR_cpr 2) | _ => 1) =
      8000 := by decide

/-- A descriptor of a reserved opcode completes with BAD_DESCRIPTOR (R6). -/
theorem test_bad_opcode :
    (match exec (.keyLoad 0 ⟨1, 0⟩ []) (wOp (desc 0x30#8 [16#8, 1#8])) with
      | .next t => (t.flight 1 0).map fun f => f.ended.map (·.1) | _ => none) = some (some 0x10) := by decide +kernel


/-- Each pair has a shadow of its own (R510): reading the LO register of one leaves the shadow of another. -/
theorem test_shadow_per_pair :
    (match exec (.loRegisterRead 0 0x100018#25) (wReady.fillShadow [0x100014] fun _ => 7#32) with
      | .next t => some (t.shadowOf 0x100014) | _ => none) = some 7#32 := by decide

/-- The arguments of MEM_TRAIN_FAIL and SLOT_EMPTY by Table 15-8: a channel and a tone class are other values, of 4 bytes. -/
theorem test_event_args : (packArgs [.n 5]).length = 4 ∧ (packArgs [.b 1, .n 2, .b 3]).length = 6 := by decide
theorem timeDiff_small (x : Int) (h : x.natAbs ≤ 131072) : (timeDiff x).natAbs ≤ 131072 := by
  have e : (2 : Nat) ^ 80 = 1208925819614629174706176 := rfl
  have f : (2 : Nat) ^ (80 - 1) = 604462909807314587353088 := rfl
  simp only [timeDiff, signed, wrap, e, f]
  split <;> omega

/-- Whatever the error of the stamp of a packet received, it is below step_us. -/
theorem wPtp_offset :
    (timeDiff ((wPtp.advance 0).rxStamp 0 - ((0 : Int) * 65536 + wHdr.correction) - (wPtp.ptp 0).pathDelay)).natAbs ≤
      max 1 (wPtp.get (Reg.PTPd_SERVO_step_us 0)) * 1000 * 65536 := by
  have a : (wPtp.advance 0).stamp80 0 = 0 := by decide +kernel
  have b : (wPtp.advance 0).get (Reg.PTP_PORTp_DELAY_rx_delay ((wPtp.advance 0).ptpPort 0)) = 0 := by decide +kernel
  have c : wHdr.correction = 0 := by decide +kernel
  have d : (wPtp.ptp 0).pathDelay = 0 := by decide +kernel
  have e : (wPtp.advance 0).on (Reg.ETHp_CFG_speed ((wPtp.advance 0).ptpPort 0)) = true := by decide +kernel
  rw [State.rxStamp, State.pmaStamp, a, b, c, d, e]
  have h := timeDiff_small (clampI (-65536) 65536 (Config.ptpErr ((wPtp.advance 0).ptpPort 0) (wPtp.advance 0).beat))
    (by simp only [clampI]; omega)
  have g : 1 ≤ max 1 (wPtp.get (Reg.PTPd_SERVO_step_us 0)) := Nat.le_max_left ..
  have k : ∀ x : Int, ((0 : Nat) : Int) + x - 4096 * ((0 : Nat) : Int) - ((0 : Int) * 65536 + 0) - 0 = x := by intro x; omega
  rw [k, if_pos rfl]
  generalize max 1 (wPtp.get (Reg.PTPd_SERVO_step_us 0)) = m at g ⊢
  exact Nat.le_trans h (by omega)

/-! ### What meets the hypotheses of the statements -/

theorem witness_IdleBeat :
  wReset.pending = [] := by decide

theorem witness_QueueAndBeat : exec (.aliveToggle 3) wReset = .next (wReset.advance 3) := rfl

theorem witness_HardwiredKept :
  wReset.reg 0x0 = 0xD1640A00#32 ∧ wReset.reg 0x4 = resetVal 0x4 := by decide

theorem witness_LockKept :
  wSetup.locked = true ∧ (Instr.clearsLock (.sleepTx 0 1)) = false ∧ (Instr.clearsLock (.powerFault 0 1)) = false := by decide

theorem witness_ScratchKept :
  Instr.ordinary (.winderTick 0) = true ∧ Instr.ordinary (.wake 0 1#32) = true := by decide

theorem witness_AccessCodes :
  (⟨0, 32, .rw, 0x0, 3⟩ : FieldRow) ∈ fieldsAt 0x1C ∧ (fieldsAt 0x1C).Pairwise (fun a b => a.mask &&& b.mask = 0#32) ∧
  (⟨0, 1, .w1s, 0x0, 3⟩ : FieldRow) ∈ fieldsAt 0x8 ∧ (fieldsAt 0x8).Pairwise (fun a b => a.mask &&& b.mask = 0#32) := by decide

theorem witness_HostWrites :
  wSetup.dev ≠ stBoot ∧ wReset.dev = stBoot ∧ wReady.dev ≠ stBoot ∧ (wReady.set Reg.PWR_DOMAINS_powered 1).domainOff 0x100000 = true ∧
  (wReady.set Reg.PWR_DOMAINS_powered 1).dev ≠ stBoot := by decide

theorem witness_RegisterPairs :
  wReady.dev ≠ stBoot ∧ wReady.domainOff 0x143004 = false ∧ among writtenPairs 0x143004 = true ∧
  ({ wReady with held := [(0x143004, 7#32)] }).held.find? (fun e => e.1 == 0x143004) = some (0x143004, 7#32) ∧
  among writtenPairs 0x143008 = false ∧ wReady.domainOff 0x100010 = false ∧ hiOf 0x100010 = some 0x100014 ∧
  loShown 0x100010 = false := by decide

theorem witness_IdrevReads :
  wReset.reg 0x0 = 0xD1640A00#32 ∧ wReset.reg 0x4 = resetVal 0x4 := by decide

theorem witness_InterruptEnable :
  wReady.dev ≠ stBoot ∧ (let a := wReady.advance 0; ((a.writeWord 0x14 0#32).reg 0x14 &&& ~~~ a.reg 0x14 &&& a.reg 0x10) = 0#32) ∧
  (let a := ((wReady.setReg 0x10 1#32).advance 0); ((a.writeWord 0x14 1#32).reg 0x14 &&& ~~~ a.reg 0x14 &&& a.reg 0x10) ≠ 0#32) := by decide

theorem witness_Resets :
  wReady.power.tripHeld = false ∧ ({ wReady with power := { tripHeld := true } }).power.tripHeld = true := by decide

theorem witness_SetupAndReady :
  wUnlocked.dev = stSetup ∧ wUnlocked.locked = false ∧ wSetup.locked = true ∧ wSetup.dev ≠ stBoot ∧ wMayReady.mayBeReady = true ∧
  (wMayReady.set Reg.PAIR_CFG_config 3).mayBeReady = true ∧ (wMayReady.set Reg.PAIR_CFG_config 3).config ≠ 0 ∧
  wMayReady.config = 0 ∧ wMayReady.held_ = false ∧ wMayReady.nextEpoch none < 0xFFFFFFFF := by decide

theorem witness_DomainPower :
  wReady.powered 4 = true ∧ (⟨3, by decide⟩ : Fin 10).val ≠ 0 ∧ ({ wReady with power := { domainReset := [4] } }).power.domainReset.contains 4 = true ∧
  wDeep.dev = stDeep ∧ wDeep.get Reg.PWR_STATE_deep_cause = 1 ∧ wReady.dev ≠ stBoot ∧ wReady.dev ≠ stDeep ∧ wReady.powered 2 = true ∧ wDeep.dev = stDeep ∧
  wReady.power.aliveAt + 49500 ≤ (wReady.advance 50000).beat := by decide

theorem witness_SecurityAlarms :
  wReady.response 3 = 2 ∧ (wReady.set Reg.SEC_RESP_resp 0x15555555).response 5 = 1 ∧ wReady.on (activeBit 13) = false ∧
  1000000 * max 1 (wReady.get Reg.SEC_ENCL_CFG_filter_ms) ≤ 200000000000 := by decide

theorem witness_SecUnlock :
  wReady.dev ≠ stBoot ∧ ((List.range 14).any fun i => wReady.on (activeBit i) && wReady.response i == 1) = false ∧
  ((List.range 14).any fun i => (((wReady.set Reg.SEC_RESP_resp 0x15555555).raise (activeBit 3)).on (activeBit i)) &&
    ((wReady.set Reg.SEC_RESP_resp 0x15555555).raise (activeBit 3)).response i == 1) = true ∧
  ((wReady.set Reg.SEC_RESP_resp 0x15555555).raise (activeBit 3)).dev ≠ stBoot := by decide

theorem witness_FireInhibit :
  wReady.inhibiting = false ∧ ({ wReady with link := { inhibitPin := true } }).inhibiting = true ∧
  ({ wReady with link := { inhibitPin := true } }).link.inhibitPin = true ∧
  ({ wReady with link := { inhibitPin := true } }).link.inhibitReversal = false ∧ wReady.tally.haltInhibit = false := by decide

theorem witness_EncoderEnable :
  wUnlocked.dev ≠ stBoot ∧ wUnlocked.domainOff (Reg.ENCn_CFG_enable 2).off = false ∧ wUnlocked.on (Reg.ENCn_CFG_enable 2) = false ∧
  (wUnlocked.writeWord (Reg.ENCn_CFG_enable 2).off 1#32).on (Reg.ENCn_CFG_enable 2) = true ∧
  wEncFirst.powered 2 = true ∧ wEncFirst.on (Reg.ENCn_CFG_enable 2) = true ∧ wEncFirst.nextAccept (wEncFirst.beat + 1 - 1) = none ∧
  (wEncFirst.enc 2).initialA = true ∧ (wEncFirst.enc 2).initialB = true ∧ (wEncFirst.enc 2).initialZ = true ∧
  (let u := (wEncFirst.advance 1).showBalls 0#20; u.accepts 6 1 = true ∧ u.accepts 7 1 = true ∧ u.accepts 8 1 = true) := by decide +kernel

theorem witness_BallSamples :
  wEnc.nextAccept (wEnc.beat + 1 - 1) = none ∧ wEnc.powered 2 = true ∧ (∀ i, i < 20 → ((wEnc.advance 1).showBalls 0#20).accepts i 1 = false) ∧
  wEncGlitch.powered 2 = true ∧ wEncGlitch.waits 6 = true ∧ wEncGlitch.waits 7 = false ∧ wEncGlitch.initialOf 6 = false ∧
  (wEncGlitch.ball 6).level ≠ (0#20).getLsbD 6 := by decide +kernel

theorem witness_EncoderCount :
  wEnc.powered 2 = true ∧ wEnc.on (Reg.ENCn_CFG_enable 2) = true ∧ wEnc.nextAccept (wEnc.beat + 1 - 1) = none ∧ (wEnc.enc 2).initialA = false ∧
  (wEnc.enc 2).initialB = false ∧
  (let u := (wEnc.advance 1).showBalls 0x40#20; u.accepts 6 1 ≠ u.accepts 7 1 ∧ (quadPhase (u.ball 6).level (wEnc.on (Reg.ENCn_STATUS_level_b 2)) + 4 -
    quadPhase (wEnc.on (Reg.ENCn_STATUS_level_a 2)) (wEnc.on (Reg.ENCn_STATUS_level_b 2))) % 4 = 1) ∧
  (let u := (wEnc.advance 1).showBalls 0x80#20; u.accepts 6 1 ≠ u.accepts 7 1 ∧ (quadPhase (wEnc.on (Reg.ENCn_STATUS_level_a 2)) (u.ball 7).level + 4 -
    quadPhase (wEnc.on (Reg.ENCn_STATUS_level_a 2)) (wEnc.on (Reg.ENCn_STATUS_level_b 2))) % 4 = 3) := by decide +kernel

theorem witness_QuadratureError :
  wEnc.powered 2 = true ∧ wEnc.on (Reg.ENCn_CFG_enable 2) = true ∧ wEnc.nextAccept (wEnc.beat + 1 - 1) = none ∧ (wEnc.enc 2).initialA = false ∧
  (wEnc.enc 2).initialB = false ∧ (let u := (wEnc.advance 1).showBalls 0xC0#20; u.accepts 6 1 = true ∧ u.accepts 7 1 = true) := by decide +kernel

theorem witness_IndexLatch :
  wEncGate.powered 2 = true ∧ wEncGate.on (Reg.ENCn_CFG_enable 2) = true ∧ wEncGate.nextAccept (wEncGate.beat + 1 - 1) = none ∧
  (wEncGate.enc 2).initialZ = false ∧ (let u := (wEncGate.advance 1).showBalls 0x100#20; u.accepts 8 1 = true ∧
    (u.ball 8).level ≠ wEncGate.on (Reg.ENCn_CFG_z_polarity 2)) ∧ wEncGate.get (Reg.ENCn_CFG_z_gate 2) = 0 ∧ wEncGate.get (Reg.ENCn_CPR_cpr 2) = 0 ∧
  (wEncGate.set (Reg.ENCn_CPR_cpr 2) 8000).get (Reg.ENCn_CPR_cpr 2) ≠ 0 ∧ (wEncGate.raise (Reg.ENCn_STATUS_index_valid 2)).on (Reg.ENCn_STATUS_index_valid 2) = true ∧
  wReady.dev ≠ stBoot ∧ wReady.domainOff (Reg.ENCn_INDEX_DRIFT_drift 2).off = false ∧ (wReady.enc 2).driftAt = none ∧
  (wEncDrift.enc 2).driftAt = some (wEncDrift.beat + 0, 3) ∧ wEncDrift.dev ≠ stBoot ∧ wEncDrift.domainOff (Reg.ENCn_INDEX_DRIFT_drift 2).off = false := by decide +kernel

theorem witness_Triggers :
  wUnlocked.dev ≠ stBoot ∧ wUnlocked.domainOff (Reg.TRIGn_CFG_enable 3).off = false ∧ wUnlocked.on (Reg.TRIGn_CFG_enable 3) = false ∧
  (wUnlocked.writeWord (Reg.TRIGn_CFG_enable 3).off 1#32).on (Reg.TRIGn_CFG_enable 3) = true ∧
  wTrig.powered 2 = true ∧ wTrig.on (Reg.TRIGn_CFG_enable 3) = true ∧ wTrig.nextAccept (wTrig.beat + 1 - 1) = none ∧ (wTrig.trig 3).initial = false ∧
  ((wTrig.advance 1).showBalls 0x8000#20).accepts 15 1 = true ∧ (wTrig.trig 3).lockout = none ∧ wTrig.get (Reg.TRIGn_CFG_edge 3) = 2 ∧
  wTrig.on (Reg.ENCn_CFG_enable (wTrig.get (Reg.TRIGn_CFG_enc_src 3))) = true ∧ (wTrig.trig 3).fifo.length < 16 ∧
  wTrigFirst.powered 2 = true ∧ wTrigFirst.on (Reg.TRIGn_CFG_enable 3) = true ∧ (wTrigFirst.trig 3).initial = true ∧
  wTrigFirst.nextAccept (wTrigFirst.beat + 1 - 1) = none ∧ ((wTrigFirst.advance 1).showBalls 0#20).accepts 15 1 = true ∧
  (wTrigFull.trig 3).fifo.length = 16 ∧ wTrigFull.powered 2 = true ∧ wTrigFull.on (Reg.TRIGn_CFG_enable 3) = true ∧
  wTrigFull.nextAccept (wTrigFull.beat + 1 - 1) = none ∧ ((wTrigFull.advance 1).showBalls 0x8000#20).accepts 15 1 = true ∧
  (wTrigFull.trig 3).initial = false ∧ (wTrigFull.trig 3).lockout = none ∧
  wTrigFull.get (Reg.TRIGn_CFG_edge 3) = 2 ∧ wTrigFull.on (Reg.ENCn_CFG_enable (wTrigFull.get (Reg.TRIGn_CFG_enc_src 3))) = true ∧
  wTrigFull.dev ≠ stBoot ∧ wTrigFull.domainOff (Reg.TRIGn_POP_pop 3).off = false ∧ (wTrigOne.trig 3).fifo.length = 1 ∧
  wTrigOne.dev ≠ stBoot ∧ wTrigOne.domainOff (Reg.TRIGn_POP_pop 3).off = false := by decide +kernel

theorem witness_Observer :
  (wObs.advance 5000).powered 2 = true ∧ ((wObs.advance 5000).inst 0).running = true ∧
  0 < stampDiff ((wObs.advance 5000).tb3 / 1000 * 1000 * 65536) ((wObs.advance 5000).inst 0).tu ∧
  wObs.reference = some 0 ∧ (∃ w, wObs.settling = some w ∧ (w : Int) ≤ stampDiff (wObs.advance 100000000000).now ((wObs.advance 100000000000).inst 0).started) ∧
  wObs.edgeIn 0 ((wObs.advance 5000).tb3 / 1000 * 1000) = false ∧ wObs.edgeWaits 0 ((wObs.advance 5000).tb3 / 1000 * 1000) = false ∧ (∃ j < 4, wObs.named j = true ∧ wObs.alive j = true) ∧
  wObs.obs.lost = false ∧ (wObs.clear (Reg.ENCn_CFG_enable 0)).live 0 = true ∧ (wObs.clear (Reg.ENCn_CFG_enable 0)).alive 0 = false ∧
  wReady.dev ≠ stBoot ∧ wReady.domainOff Reg.OBS_CTRL_snapshot.off = false ∧
  ({ wObs with obs := { wObs.obs with lost := true } }).order.find? (fun j => ({ wObs with obs := { wObs.obs with lost := true } }).live j) = some 0 ∧
  wObs.dev ≠ stBoot ∧ wObs.domainOff Reg.OBS_CTRL_resync.off = false := by decide

theorem witness_CompareUnits :
  wReady.dev ≠ stBoot ∧ wReady.domainOff (Reg.CMPn_CTRL_arm 5).off = false ∧ (wReady.set (Reg.CMPn_CFG_mode 5) 3).get (Reg.CMPn_CFG_mode 5) = 3 ∧
  (wReady.raise (Reg.CMPn_CFG_target_kind 5)).get (Reg.CMPn_CFG_mode 5) = 0 ∧ (wReady.raise (Reg.CMPn_CFG_target_kind 5)).get (Reg.CMPn_CFG_dir 5) ≠ 3 ∧
  wReady.streaming = false ∧ (with_ wReady [(Reg.CMPn_CFG_target_kind 5, 1), (Reg.CMPn_CFG_mode 5, 1)]).get (Reg.CMPn_CFG_plane 5) < 10 ∧
  (wReady.set (Reg.CMPn_CFG_dir 5) 2).get (Reg.CMPn_CFG_mode 5) = 0 ∧ (wReady.set (Reg.CMPn_CFG_dir 5) 2).get (Reg.CMPn_CFG_target_kind 5) = 0 ∧
  (wReady.set (Reg.CMPn_CFG_dir 5) 2).get (Reg.CMPn_CFG_dir 5) = 2 ∧
  (wReady.raise (Reg.CMPn_CFG_target_kind 5)).get (Reg.CMPn_CFG_target_kind 5) = 1 ∧
  wCmp.powered 2 = true ∧ wCmp.armed 5 = true ∧ wCmp.cmpHeld 5 = false ∧ (wCmp.cmp 5).mode = 2 ∧ 0 ≤ wCmp.past (wCmp.cmp 5) ∧
  wCmp.on (Reg.CMPn_CFG_periodic 5) = false ∧ stampDiff 0 wCmp.now ≤ 1000 * 65536 ∧ wCmp.on (Reg.CMPn_CFG_periodic 6) = false ∧ wCmp.cmpHeld 6 = false ∧
  wCmp.come 0 = true ∧ (wCmp.raise Reg.OBS_STATUS_pos_valid).on Reg.OBS_STATUS_pos_valid = true ∧
  (wCmp.cmp 6).mode = 1 ∧ (wCmp.cmp 6).due = some 0 ∧ wCmp.armed 6 = true ∧ (wCmp.cmp 7).mode = 0 ∧ (wCmp.cmp 7).due = some 0 ∧
  wCmp.armed 7 = true ∧ wCmp.cmpHeld 7 = false ∧ wCmp.on (Reg.CMPn_CFG_periodic 7) = false ∧
  (wCmp.cmp 8).active = true ∧ (wCmp.cmp 8).until_ = 0 ∧ wCmp.get (Reg.CMPn_CFG_mode 9) = 2 ∧ wCmp.get (Reg.CMPn_CFG_target_kind 9) = 0 ∧
  (wCmp.advance 0).tb3 < wCmp.get2 (Reg.CMPn_TARGET_LO 9) (Reg.CMPn_TARGET_HI 9) ∧
  wCmp.get2 (Reg.CMPn_TARGET_LO 9) (Reg.CMPn_TARGET_HI 9) < (wCmp.advance 0).tb3 + 2 ^ 62 := by decide

theorem witness_TimeBases :
  wReady.powered 2 = true ∧ wReady.dev = stReady ∧ wReady.domainOff Reg.TB_CTRL_snapshot.off = false ∧
  wReady.domainOff Reg.TB_CTRL_step_tb3.off = false ∧ wReady.time.tb.length = 4 ∧ wReady.time.rate.length = 4 ∧
  wSetup.dev ≠ stReady ∧ (wReady.enter stPrinting).dev ≠ stSetup ∧ (wReady.enter stPrinting).dev ≠ stReady ∧
  wTime.powered 2 = true ∧ wTime.get Reg.TB3_CFG_select = 3 ∧ wTime.get Reg.TB_STATUS_src = 1 ∧ wTime.domain 0 ≠ 2 ∧ wTime.choosable 1 = true ∧
  wTimeB.powered 2 = true ∧ wTimeB.get Reg.TB3_CFG_select = 3 ∧ wTimeB.get Reg.TB_STATUS_src = 2 ∧ wTimeB.domain 1 ≠ 2 ∧ wTimeB.choosable 0 = true ∧
  wReady.get Reg.TB3_CFG_select ≠ 3 ∧
  (let s := { wTime with time := { wTime.time with disagreeing := true, agreeSince := some 0 } }
   s.time.disagreeing = true ∧ (s.advance 1000000000).domainDiff.natAbs ≤ s.disagreeNs * 2 ^ 48 ∧ 0 + 1000000000 ≤ s.beat + 1000000000) := by decide

theorem witness_PtpSync :
  wPtp.powered 2 = true ∧ wPtp.powered 4 = true ∧ wPtp.ptpHears 0 wHdr = true ∧ (wPtp.advance 0).fromMaster 0 wHdr = true ∧ wPtp.domain 0 = 2 ∧
  ({ wHdr with twoStep := true }).twoStep = true ∧ wHdr.twoStep = false ∧
  (timeDiff ((wPtp.advance 0).rxStamp 0 - ((0 : Int) * 65536 + wHdr.correction) - (wPtp.ptp 0).pathDelay)).natAbs ≤ max 1 (wPtp.get (Reg.PTPd_SERVO_step_us 0)) * 1000 * 65536 ∧
  (wPtpB.ptp 1).waitFollow = some (5, 0, 0) ∧ wPtpB.powered 2 = true ∧ wPtpB.powered 4 = true ∧ wPtpB.ptpHears 1 { wHdr with port := 1 } = true ∧
  (wPtpB.advance 0).fromMaster 1 { wHdr with port := 1 } = true ∧ 5 = wHdr.seq.toNat ∧ wPtpB.domain 1 = 2 ∧
  (timeDiff (0 - ((0 : Int) * 65536 + 0 + wHdr.correction) - (wPtpB.ptp 1).pathDelay)).natAbs ≤ max 1 (wPtpB.get (Reg.PTPd_SERVO_step_us 1)) * 1000 * 65536 ∧
  (wPtp.advance 100000000000).masterLost 0 = true := by
  (repeat' apply And.intro) <;> first | exact wPtp_offset | decide +kernel

theorem witness_PtpDelay :
  wPtp.powered 2 = true ∧ wPtp.powered 4 = true ∧ wPtp.domainRuns 0 = true ∧ wPtp.profile 0 = 0 ∧ (wPtp.ptp 0).lastSync.isSome = true ∧
  wPtp.on (Reg.ETHp_CFG_enable (wPtp.ptpPort 0)) = true ∧ (wPtp.ptp 0).request = some (5, 0) ∧ (wPtp.ptp 0).lastSync = some (0, 0) ∧
  wPtp.ptpHears 0 wHdr = true ∧ (wPtp.advance 0).fromMaster 0 wHdr = true ∧ wHdr.seq.toNat = 5 ∧
  wPtpB.domainRuns 1 = true ∧ wPtpB.profile 1 ≠ 0 ∧ wPtpB.on (Reg.ETHp_CFG_enable (wPtpB.ptpPort 1)) = true ∧
  wPtpB.ptpHears 1 { wHdr with port := 1 } = true ∧ (wPtpB.ptp 1).request = some (5, 0) ∧ (wPtpB.ptp 1).waitResp = some (5, 0, 0) ∧
  wPtpB.powered 2 = true ∧ wPtpB.powered 4 = true := by decide

theorem witness_WebCoordinates :
  wWc.powered 2 = true ∧ wWc.powered 4 = true ∧ wWc.on Reg.WCP_CFG_enable = true ∧ wWc.active ≠ 4 ∧ wWc.active ≠ 7 ∧ wWc.domainGood (wWc.get Reg.WCP_CFG_domain) = true ∧
  wWc.on (Reg.ETHp_CFG_enable (wWc.ptpPort (wWc.get Reg.WCP_CFG_domain))) = true ∧ (wWc.set Reg.OBS_STATUS_active 4).active = 4 ∧
  wWc.time.pubSuspended = false ∧ wWc.on Reg.WCS_CFG_enable = true ∧ wWc.wcCarrier (.ethernet 0#16) = true ∧ 48 ≤ wWcBytes.length ∧
  beAt wWcBytes 0 1 = 1 ∧ beAt (1#8 :: 0#8 :: 0#8 :: 1#8 :: wWcBytes) 2 2 ≠ wWc.get Reg.WCS_ID_publisher_id ∧ beAt (1#8 :: 0#8 :: 0#8 :: 1#8 :: wWcBytes) 0 1 = 1 ∧
  beAt wWcBytes 2 2 = wWc.get Reg.WCS_ID_publisher_id ∧ beAt wWcBytes 44 4 ≠ crc32c (wWcBytes.take 44) ∧ bit (beAt wWcBytes 1 1) 0 = false ∧ bit (beAt (1#8 :: wWcBytes) 1 1) 0 = true ∧
  wWc.on Reg.WCS_STATUS_stale = false ∧ wWc.time.lastAccepted = some 0 ∧ 0 + wWc.get Reg.WCS_CFG_stale_us * 1000 < wWc.beat + 1000000000 ∧
  wWc.domainGood 1 = false ∧ ({ wWc with time := { wWc.time with lastDomain := 1 } }).domainGood
    ({ wWc with time := { wWc.time with lastDomain := 1 } }).time.lastDomain = false ∧ wWc.beat ≤ 0 + wWc.get Reg.WCS_CFG_stale_us * 1000 := by decide +kernel

theorem witness_EthernetPorts :
  wPtp.powered 4 = true ∧ wPtp.on (Reg.ETHp_CFG_enable 0) = true ∧ wPtp.ethMine 0 .broadcast = true ∧ wPtp.ethKeeps (.ethernet 0x88F7) = true ∧
  wPtp.ethMine 0 (.unicast 5) = false ∧ wPtp.on (Reg.ETHp_STATUS_link_up 0) ≠ true := by decide

theorem witness_StreamLife :
  wOrigin.powered 2 = true ∧ wOrigin.sched.jobs.head? = some wJob ∧ wOrigin.dev = stReady ∧ wOrigin.on Reg.OBS_STATUS_pos_valid = true ∧
  wOrigin.cplReg ≠ 0 ∧ (wOrigin.tableNow tPlacement 0 0).isSome = true ∧ wJob.startKind ≠ 2 ∧
  (wOrigin.advance 0).originFor wJob = some (wOrigin.webPos + linesToPos wOrigin.startMargin wOrigin.cplReg, false) ∧
  (wOrigin.advance 0).originFor { wJob with startKind := 2 } = none ∧
  (wSheet.advance 0).lastSpan = some wSpan ∧ (wSheet.advance 0).streaming = true ∧ (wSheet.advance 0).sheetWait = true ∧
  wSheet.get Reg.LS_SHEET_GAP_max_gap_lines ≠ 0 ∧ wSheet.sched.missingPosted = false ∧
  wSpan.start + wSpan.len - 1 + wSheet.get Reg.LS_SHEET_GAP_max_gap_lines < (wSheet.advance 0).refLine ∧
  wEnd.lastLine = some 9 ∧ wEnd.dev = stPrinting ∧ wEnd.streaming = true ∧ (((9 : Nat) : Int) < wEnd.committedI) ∧
  (wEnd.enter stDraining).lastLine = some 9 ∧ (wEnd.enter stDraining).dev = stDraining ∧ ((wEnd.enter stDraining).advance 0).drained 72 = true ∧
  wReady.dev ≠ stBoot ∧ wReady.domainOff Reg.LS_LEAD_lead.off = false ∧ wReady.bufferShort 512 = false ∧ wReady.streaming = false ∧
  wEnd.streaming = true ∧ wTable.sched.staged = [wStaged] ∧ wStaged.line = some 0 ∧ 0 ≤ (wTable.advance 0).progress wStaged.kind wStaged.index ∧
  (wEnd.advance 0).progress wStaged.kind wStaged.index < 1 ∧ (wReady.dev = stReady ∧ wReady.on Reg.OBS_STATUS_pos_valid = false) ∧
  ({ wReady with link := { wReady.link with nodes := [(3, { known := true, status := zeros 24 })] } }).bufferShort 512 = true := by decide +kernel

theorem witness_BindAndLines :
  (wEnd.advance 0).bindSource = some 0 ∧ plEn wEnd.placementNow 3 = true ∧ ((wEnd.advance 0).retireHead 3).bindCase 3 (((wEnd.advance 0).retireHead 3).head 3).next = .wait ∧
  wReady.streaming = false ∧ wEnd.powered 7 = true ∧ wEnd.held_ = true ∧ wEnd.dev = stPrinting ∧ (wEnd.str 0).returning = 0 ∧
  wEnd.tally.takenFrom = none ∧ (wEnd.head 3).ready = [] ∧ (wEnd.head 4).ready = [⟨7, [1, 2], 8⟩] ∧ bit 8 3 = true ∧ (wEnd.head 4).lateRun = none ∧
  (wEnd.advance 0).beyondEnd 7 = false ∧ (wEnd.advance 0).beyondEnd 6 = false ∧ wBeyond.powered 7 = true ∧ wBeyond.held_ = true ∧ wBeyond.dev = stDraining ∧
  (wBeyond.str 0).returning = 0 ∧ wBeyond.tally.takenFrom = none ∧ (wBeyond.head 5).ready = [⟨73, [1, 2], 0⟩] ∧ (wBeyond.advance 0).beyondEnd 73 = true ∧
  (wEnd.head 5).ready = [⟨6, [1, 2], 0⟩] ∧ bit 0 3 = false ∧ (wEnd.advance 0).isLate 5 6 = false ∧ (wEnd.advance 0).mapWait 5 6 = none ∧
  0 ≤ posDiff (wEnd.advance 0).webPos (wEnd.planeLine wEnd.placementNow (plPlane wEnd.placementNow 5)
    ((((6 : Nat) : Int) - wEnd.lead) * 65536 + plDown wEnd.placementNow 5)) := by decide

theorem witness_SpeedCeiling :
  wReady.powered 2 = true ∧ wReady.power.printOk = false ∧ ({ wReady with power := { printOk := true } }).power.printOk = true := by decide

theorem witness_SliceLines :
  wEnd.powered 6 = true ∧ (wSlice.advance 0).mayBegin_ 2 (wSlice.plane 2).next = true ∧
  wSlice.streaming = true ∧ wSlice.slicing = true ∧ wSlice.planeServed 2 = true ∧
  (wSlice.chainAhead 2).find? (fun e => !((wSlice.plane 2).blocks.any fun b => b.span == e.1.start && b.pos == e.2.1)) = some (wSpan2, 0, wBlock, 0) ∧
  wSlice.takenOver 2 = false ∧ wBlock.pages ≠ [] ∧ wSlice.keyUsable wSpan2.keySlot = true ∧ wSlice.blockBad wBlock = false ∧
  (wVerify.plane 2).blocks.find? (fun b => !b.verified) = some wBuf ∧ wVerify.sched.spans.find? (fun p => p.start == wBuf.span) = some wSpan2 ∧
  wSlice.banksOf tTone 2 1 = [⟨9, [1#8], []⟩, ⟨0, [], []⟩] ∧ (wSlice.advance 0).headsPassed 2 (9 + 191) = true ∧
  wSlice.asmFrom 5 = some 0 ∧ wUnserved.asmFrom 5 = some 0 ∧ wEnd.asmFrom 5 = none ∧ wSlice.asmFrom 4 = some 0 ∧ (wSlice.advance 0).mayAssemble 4 0 = false ∧
  (wSlice.advance 0).mayAssemble 5 (wSlice.head 5).asm = true ∧ (wSlice.advance 0).planeServed (plPlane ((wSlice.advance 0).placementFor (wSlice.head 5).asm) 5) = true ∧
  (wUnserved.advance 0).mayAssemble 5 (wUnserved.head 5).asm = true ∧
  (wUnserved.advance 0).planeServed (plPlane ((wUnserved.advance 0).placementFor (wUnserved.head 5).asm) 5) = false := by decide +kernel

theorem witness_SpareSlice :
  wAudit.powered 6 = true ∧ wAudit.get Reg.RS_SPARE_STATUS_state = spAudit ∧ (wAudit.plane wAudit.raster.auditPlane).crcs = [(4, 77, 0)] ∧
  wAudit.raster.auditRecheck = 0 ∧ (77#32).toNat = 77 ∧ (78#32).toNat ≠ 77 ∧
  wFail.powered 6 = true ∧ wFail.planeOf 2 = some 0 ∧ (wFail.plane 0).busy = some (5, 0) ∧ 0 + 100000 ≤ wFail.beat + 100000 ∧ wFail.planeServed 0 = true ∧
  wFail.spareFree = true ∧ (wFail.raise Reg.RS_SPARE_CFG_auto_takeover).on Reg.RS_SPARE_CFG_auto_takeover = true ∧
  (wFail.clear Reg.RS_SPARE_CFG_auto_takeover).on Reg.RS_SPARE_CFG_auto_takeover = false ∧
  wFail.dev ≠ stBoot ∧ wFail.domainOff Reg.RS_SPARE_CTRL_take.off = false ∧ wFail.domainOff Reg.RS_SPARE_CTRL_restore.off = false ∧
  wFail.raster.failed.contains 2 = false ∧ ({ wFail with raster := { wFail.raster with failed := [4] } }).raster.failed.contains 4 = true ∧
  wFail.raster.bist = none ∧ ({ wFail with raster := { wFail.raster with bist := some (4, 0), failed := [4] } }).raster.bist = some (4, 0) ∧
  ({ wFail with raster := { wFail.raster with takeover := some (0, 2, 5) } }).raster.takeover = some (0, 2, 5) ∧
  ({ wFail with raster := { wFail.raster with recuts := [⟨0, 1, 2, 3, 4, none⟩] } } : State).raster.recuts.find? (fun c => c.slice.isNone && (wFail.planeServed c.plane || wFail.spareSlice.isSome) && !wFail.resourceBusy (planeResource c.plane)) = some ⟨0, 1, 2, 3, 4, none⟩ ∧
  wFail.spareSlice = some 0 ∧ (wFail.set Reg.RS_SPARE_STATUS_state spServing).spareFree = false ∧ (wFail.plane 1).busy = none ∧ wFail.planeServed 1 = true ∧
  wFail.deputyHalted = false ∧ wFail.planeOf 15 = none ∧ ({ wAudit with raster := { wAudit.raster with auditRecheck := 1 } }).raster.auditRecheck ≠ 0 ∧
  ({ wFail with raster := { wFail.raster with recuts := [⟨0, 1, 2, 3, 4, some 0⟩] } }).raster.recuts.find? (fun (c : Recut) => c.slice.isSome) = some ⟨0, 1, 2, 3, 4, some 0⟩ := by decide

theorem witness_MapsAndBanks :
  wMap.powered 7 = true ∧ plEn wMap.placementNewest 5 = true ∧ (wMap.node 5).known = true ∧ wMap.mapBank 5 = some ([], [], some 3) ∧ wMap.mapPending 5 = false ∧
  (wMap.setMap 5 { unseen := true }).mapPending 5 = true ∧
  (wMap.map 5).pending ≠ some (fireMap 5 [] [] (wMap.columnsOf wMap.placementNewest 5)) ∧
  ((wMap.setMap 5 { pending := some [1#8] }).advance 0).fixLines.map 5 = { pending := some [1#8] } ∧
  ((wMap.setMap 5 { pending := some [1#8] }).advance 0).fixLines.mapBank 5 = some ([], [], some 3) ∧
  wFail.powered 6 = true ∧ ({ wFail with seam := { wFail.seam with copying := [(1, 7, some 2, 0, 0)] } }).seam.copying.find? (fun c => c.1 == 1) =
    some (1, 7, some 2, 0, 0) ∧ 2 + 64 ≤ (wFail.plane 1).delivered := by decide

theorem witness_LaneTraining :
  (wLane.advance 0).laneOn 6 = true ∧ wLane.locked = true ∧ wLane.laneState 6 = lnOff ∧ crc8Ok (0#56).toNat = true ∧ (0#56).toNat % 16 ≠ 0xA ∧
  (wBlocks []).blocks.isEmpty = true ∧ (wLane.advance 0).listens 6 = false ∧ (wLaneUp.advance 0).brings 6 wIdles [.locked] ∧
  (wLocked.advance 0).brings 6 (wBlocks [orderedBlock wTrain.toNat]) [.ordered wTrain.toNat] ∧
  (wLocked.advance 0).brings 6 (wBlocks (List.replicate 16 ⟨0#2, 0#64⟩)) (List.replicate 16 .badHeader ++ [.lost]) ∧
  crc8Ok wTrain.toNat = true ∧ wTrain.toNat % 16 = 0xA ∧ bit wTrain.toNat 22 = false ∧ wLocked.on (Reg.LANEn_STATUS_block_lock 6) = true ∧
  (wLane.setLaneState 6 lnTraining).laneState 6 = lnTraining ∧ (wLane.setLaneState 6 lnTraining).txAsleep 6 = false ∧ wLocked.laneState 6 = lnUp ∧
  (wLane.setLaneState 6 lnTraining).beat < ((wLane.setLaneState 6 lnTraining).lane 6).berFrom + 125000 ∧
  ((wLane.setLaneState 6 lnTraining).lane 6).trainAt + 1000000 * max 1 (wLane.get (Reg.LANEn_CFG_train_timeout_ms 6)) ≤ wLane.beat + 1000000000 ∧
  max 1 ((wLane.setLaneState 6 lnTraining).get (Reg.LANEn_CFG_max_attempts 6)) ≤ (wLane.setLaneState 6 lnTraining).get (Reg.LANEn_STATUS_attempts 6) + 1 ∧
  (wLane.set (Reg.LANEn_CFG_max_attempts 6) 9).get (Reg.LANEn_STATUS_attempts 6) + 1 < max 1 ((wLane.set (Reg.LANEn_CFG_max_attempts 6) 9).get (Reg.LANEn_CFG_max_attempts 6)) ∧
  wLane.dev ≠ stBoot ∧ wLane.domainOff (Reg.LANEn_CTRL_retrain 6).off = false ∧ (wLane.setLaneState 6 lnDown).laneState 6 = lnDown ∧
  ((wLocked.onLane 6 fun l => { l with relockFrom := some 0 }).lane 6).relockFrom = some 0 ∧ wLane.on (Reg.LANEn_STATUS_signal 6) = false ∧
  (wLaneUp.raise (Reg.LANEn_STATUS_signal 6)).on (Reg.LANEn_STATUS_signal 6) = true ∧
  ((wLaneUp.raise (Reg.LANEn_STATUS_far_tx_asleep 6)).on (Reg.LANEn_STATUS_far_tx_asleep 6)) = true ∧
  (wLaneUp.lane 6).berAt = none ∧ 0 + 10000 ≤ wLane.beat + 10000 := by (repeat' apply And.intro) <;> decide +kernel

theorem witness_LaneSleep :
  wLane.dev ≠ stBoot ∧ wLane.domainOff (Reg.LANEn_CTRL_retrain 6).off = false ∧ wLaneUp.dev ≠ stBoot ∧ wLaneUp.domainOff (Reg.LANEn_CTRL_retrain 6).off = false ∧
  wLaneUp.laneState 6 = lnUp ∧ wLaneUp.on (Reg.LANEn_STATUS_tx_asleep 6) = false ∧ wLaneUp.on (Reg.LANEn_STATUS_rx_asleep 6) = false ∧
  wLaneUp.laneInUse 6 = false ∧ (wLaneUp.setBanks tPlacement 0 0 [⟨0, wPlace, []⟩]).laneInUse 0 = true ∧
  ((wLaneUp.raise (Reg.LANEn_STATUS_tx_asleep 6)).raise (Reg.LANEn_STATUS_rx_asleep 6)).on (Reg.LANEn_STATUS_tx_asleep 6) = true ∧
  ((wLaneUp.raise (Reg.LANEn_STATUS_far_tx_asleep 6)).raise (Reg.LANEn_STATUS_rx_asleep 6)).on (Reg.LANEn_STATUS_rx_asleep 6) = true ∧
  ((wLaneUp.raise (Reg.LANEn_STATUS_far_tx_asleep 6)).raise (Reg.LANEn_STATUS_rx_asleep 6)).on (Reg.LANEn_STATUS_far_tx_asleep 6) = true ∧
  crc8Ok wNotice.toNat = true ∧ wNotice.toNat % 16 = 0xB ∧ wLaneUp.txAsleep 6 = false ∧ (wLane.setLaneState 6 lnTraining).laneState 6 = lnTraining ∧
  (wLocked.advance 0).brings 6 (wBlocks [orderedBlock wNotice.toNat]) [.ordered wNotice.toNat] ∧ (wBlocks []).blocks.isEmpty = true ∧ (wLane.advance 0).listens 6 = false ∧ (wLaneUp.lane 6).notices = 0 ∧
  ((wLaneUp.onLane 6 fun l => { l with notices := 1 }).lane 6).notices ≠ 0 ∧ wLaneUp.on (Reg.LANEn_STATUS_eye_busy 6) = false ∧
  (wLaneUp.raise (Reg.LANEn_STATUS_eye_busy 6)).on (Reg.LANEn_STATUS_eye_busy 6) = true := by decide +kernel

theorem witness_LinkPackets :
  (wRx.advance 0).brings 12 (wBlocks (packetBlocks wStatus)) [.packet wStatus] ∧ (wBlocks []).blocks.isEmpty = true ∧ (wLane.advance 0).listens 12 = false ∧
  wRx.on (Reg.LANEn_STATUS_block_lock 12) = true ∧ wRx.laneUp 12 = true ∧ wRx.usesEnd ((⟨12, by decide⟩ : Fin 68).val % 2) = true ∧ wRx.tally.relays = [] ∧
  Machine.packetOk wStatus = true ∧ wStatus.length ≤ 280 ∧ pkType wStatus = 8 ∧ pkString wStatus = 6 ∧ pkNode wStatus = 2 ∧ 2 < wRx.nodeCount 6 ∧
  Machine.packetOk [] = false ∧ Machine.packetOk (packet 1 0 0 6 2 0 []) = true ∧ pkType (packet 1 0 0 6 2 0 []) = 1 ∧ (packet 1 0 0 6 2 0 []).length ≤ 280 ∧
  Machine.packetOk wMeasure = true ∧ pkType wMeasure = 9 ∧ pkString wMeasure = 6 ∧ leAt wMeasure 6 1 = 1 ∧ beAt wMeasure 10 2 ≤ 128 ∧
  Machine.packetOk wMemread = true ∧ pkType wMemread = 10 ∧ pkString wMemread = 6 ∧ pkNode wMemread = 2 ∧ wRx.get (Reg.NODEa_STATE_state 50) = 1 ∧
  (wRx.node 50).step = 2 ∧ (wRx.node 50).memory.length = leAt wMemread 8 1 ∧ leAt wMemread 8 1 + leAt wMemread 9 1 < 256 ∧
  Machine.packetOk wEvent = true ∧ pkType wEvent = 11 ∧ pkString wEvent = 6 ∧ ([1, 5, 8, 9, 13] : List Nat).contains (leAt wEvent 6 1) = false ∧
  Machine.packetOk wResponse = true ∧ pkType wResponse = 5 ∧ leAt wResponse 6 1 = 1 ∧ pkString wResponse = 6 ∧ wLinkCold.dev = stCold ∧
  wLinkCold.laneUp 12 = true ∧ wLinkCold.usesEnd 0 = true ∧ (wLinkCold.node 50).syncReq = some (9, 0) ∧ beAt wResponse 12 2 = 9 ∧ leAt wResponse 7 1 % 2 = 1 := by decide +kernel

theorem witness_NodesAndHops :
  wLink.powered 7 = true ∧ wLink.held_ = true ∧ (wLink.set (Reg.NODEa_STATE_state 50) 2).served 50 = true ∧
  (⟨50, by decide⟩ : Fin 256).val % 8 < wLink.nodeCount ((⟨50, by decide⟩ : Fin 256).val / 8) ∧
  bit (wLink.get (Reg.LINKs_STATUS_reachable ((⟨50, by decide⟩ : Fin 256).val / 8))) ((⟨50, by decide⟩ : Fin 256).val % 8) = true ∧
  (wLink.set (Reg.NODEa_STATE_state 50) 5).get (Reg.NODEa_STATE_state 50) = 5 ∧ ((wLink.onNode 50 fun n => { n with retry := true }).node 50).retry = true ∧
  ((wLink.tally.running ++ wLink.tally.waiting).any fun c => c.resource == 6) = false ∧ wLink.deputyHalted = false ∧ (wLink.node 50).reachAt + 300000 ≤ wLink.beat + 300000 ∧
  bit ((wLink.onStr 6 fun x => { x with broken := 8 }).str 6).broken 3 = true ∧ (wLink.raise Reg.TALLY_STATUS_deputy_halted).deputyHalted = true ∧
  (wLink.node 50).step ≠ 0 ∧ (wLink.node 50).stepAt + 1000000 ≤ wLink.beat + 1000000 ∧ (wLink.node 50).tries < 3 ∧
  ((wLink.onNode 50 fun n => { n with tries := 3 }).node 50).tries = 3 ∧ (wLink.node 50).heardA = none ∧ (wLink.node 50).heardB = none ∧
  wLink.hopUp 6 2 = true ∧ wLink.hopUp 6 3 = false ∧ (2 : Nat) ≤ wLink.nodeCount 6 ∧ wLink.nodeCount 6 ≠ 0 := by decide

theorem witness_EventPost :
  1 ≤ (0x0512#16).toNat / 256 ∧ (0x0512#16).toNat / 256 ≤ 13 ∧ bit (wRing.get Reg.HR_EVT_MASK_mask) ((0x0512#16).toNat / 256 - 1) = true ∧
  wRing.ringLive 16 = true ∧ wRing.ringUsed 16 < (wRing.ringSize 16 : Int) ∧
  bit ((wRing.clear (ringEnabled 16)).get Reg.HR_EVT_MASK_mask) ((0x0512#16).toNat / 256 - 1) = true ∧
  (wRing.clear (ringEnabled 16)).ringLive 16 = false ∧
  bit ((wRing.clear Reg.HR_EVT_MASK_mask).get Reg.HR_EVT_MASK_mask) ((0x0512#16).toNat / 256 - 1) = false := by decide +kernel

theorem witness_RingDoorbells :
  wRing.on (Reg.HR_ISQi_STATUS_enabled 2) = true ∧ wRing.on (Reg.HR_ISQi_STATUS_enabled 3) = false ∧ wRing.on (ringEnabled 3) = false ∧
  0 ≤ countDiff ((12#64).toNat % 2 ^ 32) (wRing.get (Reg.HR_ISQi_CONS 2)) ∧
  countDiff ((12#64).toNat % 2 ^ 32) (wRing.get (Reg.HR_ISQi_CONS 2)) ≤ wRing.issueSize 2 ∧
  0 ≤ countDiff ((12#64).toNat % 2 ^ 32) (wRing.get (Reg.HR_ISQi_PROD 2)) ∧ countDiff ((3#64).toNat % 2 ^ 32) (wRing.get (Reg.HR_ISQi_CONS 2)) < 0 ∧
  wRing.on (ringEnabled 1) = true ∧ 0 ≤ countDiff ((6#64).toNat % 2 ^ 32) (wRing.get (ringCons 1)) ∧
  0 ≤ countDiff (wRing.get (ringProd 1)) ((6#64).toNat % 2 ^ 32) ∧ consume (countDiff ((7#64).toNat % 2 ^ 32) (wRing.get (ringCons 1))).toNat (wRing.waiting 1) = [] ∧
  countDiff (wRing.get (ringProd 1)) ((9#64).toNat % 2 ^ 32) < 0 ∧ isDoorbell 16 4 = false ∧ isDoorbell 8 8 = true ∧ (2 ^ 32 + 6 : Nat) / 2 ^ 32 % 2 ^ 31 ≠ 0 ∧
  wRing.dev ≠ stBoot ∧ wRing.domainOff (ringCfg (.issue 3)) = false ∧ wRing.on (ringOn (.issue 3)) = false ∧
  (wRing.writeWord (ringCfg (.issue 3)) 1#32).on ⟨ringCfg (.issue 3), 0, 1⟩ = true ∧ wRing.domainOff (ringCfg (.consumer .event)) = false ∧
  wRing.on (ringOn (.consumer .event)) = true ∧ (wRing.writeWord (ringCfg (.consumer .event)) 0#32).on ⟨ringCfg (.consumer .event), 0, 1⟩ = false ∧
  (wRing.writeWord (ringCfg (.consumer .event)) 0x1F#32).get (ringSizeField (.consumer .event)) ≠ wRing.get (ringSizeField (.consumer .event)) := by decide +kernel

theorem witness_RingTransfers :
  wRing.powered 3 = true ∧ wRing.power.pcieUp = true ∧ (wRing.chooseIssue).map (·.1) = some 2 ∧ opcodes.contains (leAt [0x10#8] 0 1) = true ∧
  opcodes.contains (leAt [0x77#8] 0 1) = false ∧ wRing.flight 2 wRing.rings.fetches = none ∧
  (wRing.flight 2 7).map (·.ended) = some (some (0, [])) ∧ (wRing.flight 2 7).map (·.cq) = some 1 ∧ wRing.ringLive 1 = true ∧
  wRing.ringLive 3 = false ∧ (wRing.flight 2 8).map (·.cq) = some 3 ∧ (wRing.flight 2 8).map (·.ended) = some (some (0, [])) ∧
  wRing.on (ringArmed 1) = true ∧ wRing.waiting 1 = [(0, 1), (0, 1), (0, 1)] ∧ wRing.on (ringArmed 16) = false ∧
  wRing.rings.statQ = [[1#8, 2#8]] ∧ wRing.ringLive 17 = true ∧ wRing.ringUsed 17 + 2 ≤ (wRing.ringSize 17 : Int) ∧
  (wRing.clear (ringEnabled 17)).ringLive 17 = false ∧
  (wOp wIngest).opRuns ⟨1, 0⟩ (opF wIngest) 0x01 [(16, 9), (28, 16)] false ∧ (wOp wIngest).holdsTally ∧ ingestBad (opF wIngest) = false := by decide +kernel

theorem witness_OperationsRefused :
  (wOp (0x11#8 :: 4#8 :: [])).flight 1 0 = some (opF (0x11#8 :: 4#8 :: [])) ∧ (wOp (0x11#8 :: 4#8 :: [])).mayBegin 1 0 = true ∧
  (wOp (0x11#8 :: 4#8 :: [])).opWaits 0x11 = false ∧ 4 ≤ (opF (0x11#8 :: 4#8 :: [])).fld 1 1 ∧
  ((wOp [0x11#8]).clear Reg.SETUP_LOCK_lock).locked = false ∧ earlyOp 0x11 = false ∧
  ((wOp [0x11#8]).clear Reg.TALLY_STATUS_held).opRuns ⟨1, 0⟩ (opF [0x11#8]) 0x11 [] false ∧ ((wOp [0x11#8]).clear Reg.TALLY_STATUS_held).held_ = false := by decide

theorem witness_JobOperations :
  (wOp wJobQ).opRuns ⟨1, 0⟩ (opF wJobQ) 0x10 [(16, 10), (28, 20)] false ∧ (wOp wJobQ).holdsTally ∧ (wOp wJobQ).jobFieldsBad (opF wJobQ) = false ∧
  (wOp wJobQ).jobFault ((opF wJobQ).fld 19 1) wPanels (0, 0) 0 (readPanels wPanels (List.range ((opF wJobQ).fld 24 2)) []) = none ∧
  (wOp wJobQ).sched.jobs.length < 64 ∧ (wOp wJobQ).streaming = false ∧ 64 ≤ (wOpJobs wJobQ).sched.jobs.length ∧
  (wOpJobs wJobQ).jobFault ((opF wJobQ).fld 19 1) wPanels (0, 0) 0 (readPanels wPanels (List.range ((opF wJobQ).fld 24 2)) []) = none ∧
  (wOp [0x11#8]).opRuns ⟨1, 0⟩ (opF [0x11#8]) 0x11 [] false ∧ (wOp [0x11#8]).holdsTally ∧ (wOp [0x11#8]).streaming = false ∧
  (wOpStream [0x11#8]).opRuns ⟨1, 0⟩ (opF [0x11#8]) 0x11 [] false ∧ (wOpStream [0x11#8]).holdsTally ∧ (wOpStream [0x11#8]).streaming = true ∧
  (wOpStream [0x11#8]).sched.last = none ∧ (wOpStream [0x11#8]).dev ≠ stDraining ∧
  (wOp wMaskLoad).opRuns ⟨1, 0⟩ (opF wMaskLoad) 0x08 [(16, 3), (20, 12)] true ∧ (wOp wMaskLoad).holdsTally ∧
  (wOp wMaskLoad).tableFieldsBad (opF wMaskLoad) = false ∧ (opF wMaskLoad).fld 16 1 = tMask ∧ (wOp wMaskLoad).streaming = false ∧
  (wOp wTableLoad).opRuns ⟨1, 0⟩ (opF wTableLoad) 0x08 [(16, 3), (20, 12)] true ∧ (wOp wTableLoad).tableFieldsBad (opF wTableLoad) = false ∧
  ((wOp wTableLoad).tableBad ((opF wTableLoad).fld 16 1) ((opF wTableLoad).fld 17 1) (slice wTableBad 0 ((opF wTableLoad).fld 20 4))).map (·.seam) = some none ∧
  (wOp wSpare).opRuns ⟨1, 0⟩ (opF wSpare) 0x39 [(16, 2)] false ∧ (wOp wSpare).holdsTally ∧ (opF wSpare).fld 16 1 ≤ 9 ∧ (opF wSpare).fld 17 1 ≤ 15 ∧
  ((wOp wSpare).raise (Reg.SEAM_PLANEq_spare_in_use ((opF wSpare).fld 16 1))).on (Reg.SEAM_PLANEq_spare_in_use ((opF wSpare).fld 16 1)) = true ∧
  (wOp wSpare).streaming = false ∧ (wOp wSpare).seam.copying = [] ∧ (wOp wSpare).deputyHalted = false ∧ (wOpStream wSpare).streaming = true ∧ (wOpStream wSpare).on (Reg.SEAM_PLANEq_spare_in_use ((opF wSpare).fld 16 1)) = false ∧
  (wOpStream wSpare).seam.copying.any (·.1 == (opF wSpare).fld 16 1) = false := by (repeat' apply And.intro) <;> decide +kernel

theorem witness_StoreOperations :
  (wOp wIngest).opRuns ⟨1, 0⟩ (opF wIngest) 0x01 [(16, 9), (28, 16)] false ∧ (wOp wIngest).holdsTally ∧ ingestBad (opF wIngest) = false ∧
  (wOp wIngest).keyUsable ((opF wIngest).fld 18 1) = true ∧ blockPages (opF wIngest).rawLen ≤ (wOp wIngest).freePages ∧
  (wOp wIngest).freeIndex.1.isSome = true ∧ bit ((opF wIngest).fld 19 1) 0 = false ∧ (wOp wIngest).mirrors = false ∧
  bit ((opF wIngestCrc).fld 19 1) 0 = true ∧ (wOp wIngestCrc).opRuns ⟨1, 0⟩ (opF wIngestCrc) 0x01 [(16, 9), (28, 16)] false ∧
  crc32c (slice [] 0 (opF wIngestCrc).rawLen) ≠ (opF wIngestCrc).fld 28 4 ∧
  (wOp wStore).opRuns ⟨1, 0⟩ (opF wStore) 0x02 [(18, 1), (20, 4), (32, 8)] false ∧ (opF wStore).fld 18 1 ≤ 15 ∧ 33 ≤ (opF wStore).fld 20 4 ∧
  (opF wStore).fld 20 4 ≤ 1048608 ∧ hostHeaderBad wHostBlock (opF wStore) = false ∧ (wOp wStore).keyUsable ((opF wStore).fld 18 1) = true ∧
  blockPages (tbPayLen (slice wHostBlock 0 ((opF wStore).fld 20 4))) ≤ (wOp wStore).freePages ∧
  (unblock (slice wHostBlock 0 ((opF wStore).fld 20 4)) true).isSome = true ∧
  (wOpBlocks wFree).opRuns ⟨1, 0⟩ (opF wFree) 0x03 [(16, 1), (20, 44)] false ∧ (wOpBlocks wFree).holdsTally ∧ freeBad (opF wFree) = false ∧
  (opF wFree).fld 16 1 = 1 ∧ ((wOpBlocks wFree).liveBlock ((opF wFree).freeHandle 0)).map (·.freeing) = some false ∧
  (wOp wFree).liveBlock ((opF wFree).freeHandle 0) = none ∧ ((wOpGoing wFree).advance 5).liveBlock (7#32).toNat = some wGoing ∧
  ((wOpGoing wFree).advance 5).mayRelease wGoing = true ∧
  (wOp wRetire).opRuns ⟨1, 0⟩ (opF wRetire) 0x38 [(16, 4)] false ∧ (opF wRetire).fld 16 4 < (wOp wRetire).storePages ∧
  (wOp wRetire).mem.retired.length < 4096 ∧ (wOp wRetire).pageFree ((opF wRetire).fld 16 4) = true ∧
  ((wOpMoving wRetire).advance 0).migrating 9 = some ⟨1, 0, 9, 10, 0, 0⟩ ∧ ((wOpMoving wRetire).advance 0).migrating 8 = none := by (repeat' apply And.intro) <;> decide +kernel

theorem witness_QueryOperations :
  (wOp wQuery).opRuns ⟨1, 0⟩ (opF wQuery) 0x18 [(16, 2), (24, 8), (32, 4)] false ∧ (opF wQuery).fld 17 1 = 0 ∧
  (wOp wQuery).served ((opF wQuery).fld 16 1) = false ∧
  ((wOp wQuery).set (Reg.NODEa_STATE_state ((opF wQuery).fld 16 1)) 2).served ((opF wQuery).fld 16 1) = true ∧
  (wOp wLog).opRuns ⟨1, 0⟩ (opF wLog) 0x40 [(16, 2), (20, 4), (24, 8), (32, 4)] false ∧ (opF wLog).fld 16 1 = 1 ∧ (opF wLog).fld 17 1 ≤ 1 ∧
  (wOp wKey).opRuns ⟨1, 0⟩ (opF wKey) 0x30 [(16, 2), (24, 8)] false ∧ (opF wKey).fld 16 1 ≤ 15 ∧ (opF wKey).fld 17 1 = 2 ∧
  (wOp wKey).keyNamed ((opF wKey).fld 16 1) = false ∧ (List.range 16).any (fun j => (wOp wKey).keyState j == 2) = false ∧
  (wOpJobs wKey).keyNamed ((opF wKey).fld 16 1) = true ∧
  (List.range 16).any (fun j => ((wOp wKey).setKeyState 5 2).keyState j == 2) = true ∧
  (wOp wKeyLoad).opRuns ⟨1, 0⟩ (opF wKeyLoad) 0x30 [(16, 2), (24, 8)] false ∧ (opF wKeyLoad).fld 17 1 = 1 ∧ (wOp wKeyLoad).power.fuseOk = true ∧
  (wOp wTally).opRuns ⟨1, 0⟩ (opF wTally) 0x48 [(16, 1)] false ∧ (opF wTally).fld 16 1 = 2 ∧
  (wOpPair wHand).opRuns ⟨1, 0⟩ (opF wHand) 0x48 [(16, 1)] false ∧ (opF wHand).fld 16 1 = 1 ∧ (wOpPair wHand).inPair = true ∧
  (wOpPair wHand).tally.handover = none ∧ (wOp wPower).opRuns ⟨1, 0⟩ (opF wPower) 0x50 [(16, 1)] false ∧ (opF wPower).fld 16 1 = 1 ∧
  (wOp wPower).dev = stReady := by (repeat' apply And.intro) <;> decide +kernel

theorem witness_CareOperations :
  (wOp wScan).opRuns ⟨1, 0⟩ (opF wScan) 0x19 [(16, 32), (48, 1), (49, 1), (52, 4)] false ∧ (wOp wScan).holdsTally ∧
  rowsOk ((opF wScan).fld 48 1) = true ∧ (opF wScan).fld 49 1 ≤ 1 ∧ 1 ≤ (opF wScan).fld 52 4 ∧ (opF wScan).fld 52 4 ≤ 10000000 ∧
  ((opF wScan).heads 16).any (fun a => (wOp wScan).served a) = false ∧
  ((opF wScan).heads 16).any (fun a => ((wOp wScan).set (Reg.NODEa_STATE_state 0) 2).served a) = true ∧
  (wOp wDrop).opRuns ⟨1, 0⟩ (opF wDrop) 0x1A [(16, 32), (48, 1), (49, 1), (50, 1)] false ∧ (opF wDrop).fld 48 1 ≤ 9 ∧
  rowsOk ((opF wDrop).fld 49 1) = true ∧ 1 ≤ (opF wDrop).fld 50 1 ∧ (opF wDrop).fld 50 1 ≤ 4 ∧
  ((opF wDrop).heads 16).any (fun a => plEn (wOp wDrop).placementNow a && plPlane (wOp wDrop).placementNow a != (opF wDrop).fld 48 1) = false ∧
  (wOp wDrop).get (Reg.DGq_WINDOW_tof_slow ((opF wDrop).fld 48 1)) ≤
    (wOp wDrop).get (Reg.DGq_WINDOW_tof_min ((opF wDrop).fld 48 1)) + (wOp wDrop).gatePace ((opF wDrop).fld 48 1) ∧
  (wOp wDrop).dev ≠ stPrinting ∧ ((opF wDrop).heads 16).any (fun a => ((wOp wDrop).set (Reg.NODEa_STATE_state 0) 2).served a) = true ∧
  (wOp wSpit).opRuns ⟨1, 0⟩ (opF wSpit) 0x1B [(16, 1), (17, 1), (18, 1), (19, 1), (20, 2), (22, 2), (24, 1), (25, 1), (28, 4)] false ∧
  (opF wSpit).fld 17 1 ≤ 9 ∧ 1 ≤ (opF wSpit).fld 19 1 ∧ (opF wSpit).fld 19 1 ≤ 3 ∧ 1 ≤ (opF wSpit).fld 24 1 ∧ rowsOk ((opF wSpit).fld 25 1) = true ∧
  minSpit ≤ (opF wSpit).fld 28 4 ∧ (opF wSpit).fld 16 1 = 1 ∧ (opF wSpit).fld 18 1 = 1 ∧ 1 ≤ (opF wSpit).fld 20 2 ∧ 1 ≤ (opF wSpit).fld 22 2 ∧
  (opF wSpit2).fld 16 1 = 2 ∧ (wOp wSpit2).opRuns ⟨1, 0⟩ (opF wSpit2) 0x1B [(16, 1), (17, 1), (18, 1), (19, 1), (20, 2), (22, 2), (24, 1), (25, 1), (28, 4)] false ∧
  (wOp wMove).opRuns ⟨1, 0⟩ (opF wMove) 0x20 [(16, 2), (20, 20)] false ∧ (wOp wMove).motionBad (opF wMove) = false ∧
  (wOp wMove).limitAhead ((opF wMove).fld 16 1) ⟨1, 0, (opF wMove).fld 17 1, signed 32 ((opF wMove).fld 20 4), (opF wMove).fld 24 4, (opF wMove).fld 28 4,
    (opF wMove).fld 32 4, (opF wMove).fld 36 4, none, false, none, 0, false⟩ = none ∧
  (wOp wCap).opRuns ⟨1, 0⟩ (opF wCap) 0x28 [(16, 4), (24, 12)] true ∧ (opF wCap).fld 16 1 ≤ 3 ∧ (opF wCap).fld 17 1 ≤ 2 ∧ 1 ≤ (opF wCap).fld 18 2 ∧
  (opF wCap).fld 18 2 * (wOp wCap).captureLine ((opF wCap).fld 16 1) ≤ (opF wCap).fld 32 4 ∧
  (wOp wCap).get (Reg.CAMp_STATUS_state ((opF wCap).fld 16 1)) = 0 ∧
  ((wOp wCap).set (Reg.CAMp_STATUS_state ((opF wCap).fld 16 1)) 1).get (Reg.CAMp_STATUS_state ((opF wCap).fld 16 1)) ≠ 0 := by (repeat' apply And.intro) <;> decide +kernel

theorem witness_DropGate :
  wGate.powered 7 = true ∧ wGate.on (Reg.DGq_CFG_enable 4) = true ∧ (wGate.gateBall 4).level = wGate.on (Reg.DGq_STATUS_level 4) ∧ (wGate.gateBall 4).level ≠ true ∧
  (wGate.set (Reg.DGq_CFG_filter_n 4) 3).get (Reg.DGq_CFG_filter_n 4) ≠ 0 ∧ (wGate.set (Reg.DGq_CFG_filter_n 4) 0).get (Reg.DGq_CFG_filter_n 4) = 0 ∧
  (wGateBall.gateBall 4).level ≠ wGateBall.on (Reg.DGq_STATUS_level 4) ∧ (wGateBall.gateBall 4).since + wGateBall.get (Reg.DGq_CFG_filter_n 4) ≤ (wGateBall.advance 4096).beat ∧
  wGate.on (Reg.DGq_CFG_polarity 4) = false ∧ wReady.gate 4 = none ∧ (wGate.gate 4).map (·.waitFrom) = some none ∧
  (wGate.gate 4).map (·.windows.length) = some 1 ∧
  (wGate.gate 4).map (fun g => g.windows.all fun w => !before (wGate.advance 100000).now (wrap 80 (w.start + ((wGate.gatePace 4 * tenNs : Nat) : Int)))) = some true ∧
  (wGate.gate 4).map (fun g => g.windows.all fun w => !before (wGate.advance 0).now (wrap 80 (w.start + ((wGate.gatePace 4 * tenNs : Nat) : Int)))) = some false ∧
  (wGateWait.gate 4).map (·.waitFrom) = some (some 0) ∧ ((wGateWait.advance 200000).gateSettle 4).beamReady 4 = true ∧
  ((wGateLit.advance 10000000).gateSettle 4).beamReady 4 = false ∧
  plEn wWet.placementNow 7 = true ∧ (wWet.wetPlan (plPlane wWet.placementNow 7)).enable = true ∧ ((wWet.advance 5000000).retireHead 7).eligible 7 = true ∧
  (wWet.model 7).spat = none ∧ (wWet.model 7).fired + (wWet.wetPlan (plPlane wWet.placementNow 7)).idleMs * 1000000 ≤ 5000000 := by decide

theorem witness_HeadHeat :
  wHeat.powered 7 = true ∧ wHeat.served 0 = true ∧ wHeat.held_ = true ∧ wHeat.get (Reg.HC_HEADa_STATE_warm_level 0) ≠ wHeat.warmLevel 0 ∧
  wHeat.headClassOf 0 ≠ none ∧ wHeat.dev ≠ stCold ∧ (wHeat.advance 0).senseNow 0 = none ∧ (wHeatSense.advance 0).senseNow 0 = some 640 ∧
  wHeatSense.served 0 = true ∧ (wHeatSense.enter stCold).dev = stCold ∧ (wHeatSense.model 0).sense = some (640, 0) ∧ wHeat.dev ≠ stBoot ∧
  wHeat.care.chip.length = 6 ∧ (wHeat.node 0).recoveryHold = none ∧ wHeat.on Reg.HC_CFG_auto_release = true ∧ wHeat.holding 0 = true ∧
  wHeat.streaming = false ∧ wDeepLane.powered 7 = false ∧ ((wHeat.onNode 0 fun n => { n with recoveryHold := some 1 }).node 0).recoveryHold = some 1 ∧
  wHeat.resourceBusy 1 = false ∧ wHeat.waitingOn 1 = none ∧ wHeat.on (Reg.HC_HEADa_STATE_held 0) = false ∧ wDouble.resourceBusy 6 = true ∧
  (wHeat.raise Reg.LS_STATUS_origin_set).streaming = true ∧ (wHeat.raise Reg.LS_STATUS_origin_set).nextParting = none ∧ (wHeat.headClassOf 0).map (fun c => decide ((wHeat.advance 0).headTemp 0 ≤
    c.tShut * 2 ^ 26 - (clampN 2 40 (wHeat.get Reg.HC_THERMAL_CFG_head_margin) : Int) * 2 ^ 32)) = some true ∧
  wHeat.domainOff Reg.HC_HEAD_RELEASE_head.off = false ∧ (0x100#32).getLsbD 8 = true ∧ (0x100#32).toNat % 256 = 0 := by decide

theorem witness_CameraFrames :
  wCam.camOn 1 = true ∧ (wCam.cam 1).captures = [] ∧ wCam.camChannels 1 = 1 ∧ (wCam.cam 1).open_ = none ∧
  (wCamFrame.cam 1).open_ = some wFrame ∧ wFrame.started.length = 1 ∧ wCamFrame.camOn 1 = true ∧ (wCamFrame.cam 1).captures = [] ∧
  (wFrame.ended.set 0 true).all id = true ∧ wFrame.counts.getD 0 0 < prmLines wFrame.params ∧ wFrame.cut = false ∧
  (wCamFrame.cam 1).level + 2 * wCamFrame.get (Reg.CAMp_CFG_pixels 1) ≤ 2097152 ∧ ((wCamFrame.advance 0).firePort 1).cam 1 = wCamFrame.cam 1 ∧ (wCamFrame.cam 1).fifo = [⟨0, 0, 0, 0⟩] ∧
  (fun e : CamStamp => decide (1000 * prmLatency wFrame.params < signed 64 (wrap 64 (((wCamFrame.advance 0).tb3 : Int) - e.t)))) ⟨0, 0, 0, 0⟩ = false ∧
  (wCamFrame.cam 1).frames = [wFrame] ∧ wFrame.refs = [] ∧ wCamFrame.camChannels 1 = 1 ∧ wCamFrame.on (Reg.CAMp_CFG_data_type 1) = false ∧
  (wCamFrame.cam 1).lastPacket + 1000000 * prmTimeout wFrame.params ≤ wCamFrame.beat + 1000000000 ∧ wCamFrame.on (Reg.CAMp_STATUS_silent 1) = false ∧
  (wCamFrame.cam 1).lastRef + 1000000 * prmSilent (wCamFrame.cam 1).live ≤ wCamFrame.beat + 60000000 ∧
  (wCamFrame.cam 1).stampsFrom + 1000000 * prmSilent (wCamFrame.cam 1).live ≤ wCamFrame.beat + 60000000 ∧
  wCamFrame.beat + 60000000 < (wCamFrame.cam 1).lastStamp + 1000000 * prmSilent (wCamFrame.cam 1).live ∧
  wCam.dev ≠ stBoot ∧ wCam.domainOff (Reg.CAMp_CTRL_flush_stamps 1).off = false ∧ wCam.domainOff (Reg.CAMp_CTRL_commit 1).off = false ∧
  (((List.range 4).map fun i => (wCamLine.assay.next + i) % 4).find? fun p => wCamLine.camOn p && !(wCamLine.cam p).buffer.isEmpty) = some 1 ∧
  (wCamLine.cam 1).buffer.length = 1 ∧ wCamLine.powered 8 = true ∧ (wCamLine.cam 1).occ.findIdx? (·.closed) = some 0 := by decide +kernel

theorem witness_ForemanLoops :
  wFm.powered 10 = true ∧ wFm.fm.queue = [] ∧ wFmRec.powered 10 = true ∧ wFmRec.fm.queue.length = 1 ∧ recUsable (wFmRec.fm.queue.headD []) = true ∧
  wFmRec.fmWorks = true ∧ recKind (wFmRec.fm.queue.headD []) = 2 ∧ wFm.fmMode 4 = 0 ∧ wFmFf.fmMode 4 ≠ 0 ∧ wFmFf.fmWorks = true ∧ wFmFf.fm.ffAt = none ∧
  wFmFf.powered 10 = true ∧ wFmHold.fmWorks = true ∧ wFmHold.fmMode 1 ≠ 0 ∧ wFmHold.loopPorts 1 0 = [2] ∧ wFmHold.fm.held.contains 16 = false ∧
  wFmHold.on (Reg.CAMp_STATUS_silent 2) = true ∧ wFmHold.powered 10 = true ∧ wFm.dev ≠ stBoot ∧ wFm.domainOff Reg.FM_NOZ_CLEAR_go.off = false ∧
  bit (0x800000#32).toNat 23 = true ∧ bit (0x800000#32).toNat 22 = false := by decide

theorem witness_MemoryReads :
  wMem.inStore 5 = true ∧ errorSymbols ((⟨[(43, 3#16)], []⟩ : BurstErrors).symbols 1) = [7] ∧ errorSymbols ((⟨[], [(1, 2, 3#8)]⟩ : BurstErrors).symbols 1) = [38] ∧
  errorSymbols (wTwoPins.symbols 1) = [1, 2] ∧
  wMem.memRuns = true ∧ (wMem.set Reg.PWR_DOMAINS_powered 0).memRuns = false ∧ (∀ j, j < 4 → j ≠ 1 → errorSymbols (wTwoPins.symbols j) = []) ∧ wMem.inStore (4 * 1 + 1) = true ∧
  wMem.mem.poison.contains 5 = false ∧ wMemBad.inStore 8 = true ∧ wMemBad.mem.poison.contains 8 = true ∧ wMem.sramPoisoned 7 .other = false ∧ wMem.inStore (1 <<< 60) = false ∧ ([3].filter (· < 290)).eraseDups = [3] ∧ ([3, 9].filter (· < 290)).eraseDups = [3, 9] ∧
  wMem.inStore (4 * (256 / 128)) = true ∧ (List.range 4).any (fun k => wMemBad.mem.poison.contains (4 * (256 / 128) + k)) = true ∧
  wMemBad.inStore (4 * (256 / 128)) = true ∧ (wMemBad.flight 1 0).map (·.ended) = some none ∧ (wMemBad.flight 1 0).map (·.cq) = some 1 ∧
  wMem.on Reg.MEM_SCRUB_dram_en = true ∧ wMem.on Reg.MEM_STATUS_ready = true ∧ wMem.on Reg.MEM_SCRUB_sram_en = true ∧
  (wMem.clear Reg.MEM_SCRUB_dram_en).on Reg.MEM_SCRUB_dram_en = false := by decide +kernel

theorem witness_MemoryForm :
  Memory.wf State.reset.mem.dram = true := by decide

theorem witness_TallyCommands :
  wPair.powered 10 = true ∧ wPair.inPair = true ∧ wPair.held_ = true ∧ wPair.deputyHalted = false ∧ wPair.config = 1 ∧ (wPair.advance 0).callsRelease = false ∧
  wStandby.powered 10 = true ∧ wStandby.inPair = true ∧ wStandby.held_ = false ∧ wStandby.dev = stCold ∧ wStandby.config = 1 ∧
  (wStandby.advance 150000).leaseOld 150000 = true ∧ wStandby.tally.latePosted = false ∧ (wStandby.advance 300000).leaseOld 300000 = true ∧
  ((wStandby.advance 300000).refresh).nextEpoch none < 0xFFFFFFFF ∧ ((wStandbyFit.advance 300000).refresh).fit = true ∧ wStandbyFit.held_ = false ∧
  wStandbyFit.dev = stCold ∧ wStandbyFit.config = 1 ∧ (wStandbyFit.advance 300000).leaseOld 300000 = true ∧ wStandbyFit.powered 10 = true ∧
  (wPair.advance 250000).leaseOld 250000 = true ∧
  (wPairB.advance 1000000000).powered 10 = true ∧ wPairB.config = 1 ∧ wPairB.get Reg.PAIR_CFG_end = 1 ∧ wPairB.dev = stReady ∧ wPairB.held_ = false ∧
  wPairB.tally.started = false ∧ wPairB.tally.readyAt + 1000000000 ≤ wPairB.beat + 1000000000 ∧ wPairB.nextEpoch none < 0xFFFFFFFF ∧
  wPairB.leaseOk true wRenew ∧ wPairB.inPair = true ∧ beAt wRenew 2 2 = wPairB.get Reg.PAIR_CFG_pair_id ∧ leAt wRenew 1 1 = opRenew ∧
  leAt wRenew 6 1 % 2 ≠ wPairB.get Reg.PAIR_CFG_end ∧ bits (leAt wRenew 6 1) 2 1 ≠ 3 ∧ wPairB.tally.handover = none ∧
  wArbDev.leaseOk true wGrant ∧ wArbDev.config = 2 ∧ leAt wGrant 1 1 = opGrant ∧ bits (leAt wGrant 6 1) 2 1 = 3 ∧ wArbDev.held_ = true ∧
  beAt wGrant 34 2 = wArbDev.get Reg.PAIR_ARB_ID_arbiter_id ∧ beAt wGrant 32 2 = wArbDev.get Reg.PAIR_CFG_end ∧
  beAt wGrant 2 2 = wArbDev.get Reg.PAIR_CFG_pair_id ∧ wArbDev.powered 10 = true ∧
  wArb.powered 10 = true ∧ wArb.config = 3 ∧ bit (wArb.arbReg 2) 16 = true ∧ wArb.dev = stReady ∧
  (Tab.get (fun _ => ({} : ArbPair)) wArb.tally.arb 2).holder = 0 ∧ (Tab.get (fun _ => ({} : ArbPair)) wArb.tally.arb 2).released = false ∧
  (Tab.get (fun _ => ({} : ArbPair)) wArb.tally.arb 2).a = some ⟨0, 1, 1, 1⟩ ∧
  ({ wPair with tally := { wPair.tally with handover := some (1, 0, 0) } }).held_ = true := by (repeat' apply And.intro) <;> decide +kernel

theorem witness_MirrorAndDeputy :
  wMir.powered 10 = true ∧ wMir.mirrors = true ∧ wMir.held_ = true ∧ wMir.inPair = true ∧ wMir.laneUp 65 = true ∧ wMir.tally.mirrorLost = none ∧
  (wMirRx.powered 10 = true ∧ wMirRx.laneUp 65 = true ∧ wMirRx.inPair = true ∧ wMirRx.dev = stCold ∧ wMirRx.held_ = false) ∧
  ({ wMir with tally := { wMir.tally with mirrorLost := some (2, 0) } }).mirrors = true ∧
  wMir.tally.unacked = [(3, 0)] ∧ wMirRx.laneUp (laneOf 6 (wMirRx.get Reg.PAIR_CFG_end)) = true ∧ wMirRx.txAsleep 65 = false ∧
  wMirRx.txAsleep (laneOf 6 (wMirRx.get Reg.PAIR_CFG_end)) = false ∧ (wMirRx.advance 0).brings 65 (wBlocks (packetBlocks wRelay)) [.packet wRelay] ∧
  (wBlocks []).blocks.isEmpty = true ∧ wMirRx.on (Reg.LANEn_STATUS_block_lock 65) = true ∧ Machine.packetOk wRelay = true ∧ pkType wRelay = 0xE ∧
  pkString wRelay = 6 ∧ Machine.packetOk wRelayUp = true ∧ pkType wRelayUp = 0xF ∧ wMir.deputyHalted = false ∧ wMir.dev ≠ stBoot ∧ wMir.dev ≠ stDeep ∧
  wReady.config = 0 ∧ wReady.deputyHalted = false ∧ wReady.streaming = false ∧
  wDouble.powered 10 = true ∧ [50 / 8, planeResource (plPlane wDouble.placementNow 50)].findSome? wDouble.waitingOn = some ⟨0x0513, 6, 48⟩ ∧
  wDouble.runningOn 6 = some ⟨0x0512, 6, 50⟩ ∧ wDouble.holding 50 = false ∧ wDouble.served 50 = true := by decide +kernel

theorem witness_WinderChannels :
  wWind.windWorks = true ∧ wWind.windDriven 3 = true ∧ wWind.get (Reg.WCn_STATUS_state 3) = 1 ∧ (wWind.winder 3).move = none ∧ (wWind.winder 3).next = none ∧
  wWind.windDriven 4 = false ∧ wUnlocked.dev ≠ stBoot ∧ wUnlocked.domainOff (Reg.WCn_CFG_enable 4).off = false ∧ wUnlocked.on (Reg.WCn_CFG_enable 4) = false ∧
  (wUnlocked.writeWord (Reg.WCn_CFG_enable 4).off 1#32).on (Reg.WCn_CFG_enable 4) = true ∧ wWind.domainOff (Reg.WCn_DECEL 3).off = false ∧
  wWindChop.chops 3 true = true ∧ ((wWindChop.winder 3).phase true).off = false ∧ ((wWindChop.winder 3).phase true).since + wWindChop.chopBlank 3 < wWindChop.beat + 100000 ∧
  wWindChop.on (Reg.WCn_CHOP_trip_pol 3) = false ∧ ((wWindChop.winder 3).phase true).since + wWindChop.chopBlank 3 = wWindChop.beat + wWindChop.chopBlank 3 ∧
  wWindChop.get (Reg.WCn_CFG_oc_cycles 3) ≠ 0 ∧ wWindChop.get (Reg.WCn_CFG_oc_cycles 3) ≤ ((wWindChop.winder 3).phase true).ocRun + 1 ∧ wWindChop.windWorks = true ∧
  (wWindChop.winder 3).move = none ∧ (wWindChop.winder 3).next = none ∧
  ((wWindChop.onChop 3 true fun c => { c with off := true }).winder 3).phaseB.off = true ∧
  (wWind.set (Reg.WCn_STATUS_state 3) 4).get (Reg.WCn_STATUS_state 3) = 4 ∧ wWind.domainOff (Reg.WCn_CTRL_clear_fault 3).off = false ∧
  ((wWind.onWinder 3 fun w => { w with endedAt := some 0 }).winder 3).endedAt = some 0 ∧ (wWind.windSwitch 3 1).level = (wWind.windSwitch 3 1).acc ∧
  (wWindSw.windSwitch 3 1).level ≠ (wWindSw.windSwitch 3 1).acc ∧ (wWindSw.winder 3).move = none ∧ wWindSw.get (Reg.WCn_SW_filter_us 3) ≤ (wWindSw.windSwitch 3 1).run ∧
  (wWindSw.windSwitch 3 1).run < (wWindSw.set (Reg.WCn_SW_filter_us 3) 9).get (Reg.WCn_SW_filter_us 3) ∧ (wWind.advance 0).ssiDue 6 = true ∧
  ((wWind.onSsi 6 fun x => { x with readAt := some 0 }).advance 0).ssiDue 6 = false ∧
  wWind.on (Reg.SSIk_CFG_enable 6) = true ∧ wWind.get (Reg.SSIk_CFG_clk 6) ≤ 4 ∧ wWind.on (Reg.SSIk_CFG_err_bit 6) = false ∧
  wWind.on (Reg.SSIk_CFG_check_en 6) = false := by decide

end Sys2Proof.Tests
end

/-! SUPPORT. Proofs of the statements of scope: host accesses by the access codes (R5, R9 to R11) and operations refused before they
take effect (R6, R391, R489). -/

namespace Sys2Proof.Machine

/-! ### One field of a host write (R9 to R11) -/

/-- A host write leaves alone the bits that lie outside a field. -/
theorem writeField_and_of_disjoint (locked : Bool) (fresh v x : BitVec 32) (f : FieldRow) (m : BitVec 32) (h : f.mask &&& m = 0#32) :
    writeField locked fresh v x f &&& m = x &&& m := by
  ext i hi
  have hb : (f.mask[i] && m[i]) = false := by rw [← BitVec.getElem_and, h, BitVec.getElem_zero]
  unfold writeField
  cases hm : m[i] with
  | false => simp [hm]
  | true =>
    have hf : f.mask[i] = false := by simpa [hm] using hb
    cases f.acc <;> cases locked <;> simp [hf]

/-- What a host write makes of a field's own bits, from what the field held. -/
theorem writeField_and_mask (locked : Bool) (fresh v x y : BitVec 32) (f : FieldRow) (h : y &&& f.mask = x &&& f.mask) :
    writeField locked fresh v y f &&& f.mask =
      match f.acc with
      | .rw => v &&& f.mask
      | .rwl => if locked then x &&& f.mask else v &&& f.mask
      | .w1c => x &&& f.mask &&& ~~~ (v &&& ~~~ fresh)
      | .w1s => (x ||| v) &&& f.mask
      | .ro => x &&& f.mask
      | .wo => x &&& f.mask := by
  have taken : (y &&& ~~~ f.mask ||| v &&& f.mask) &&& f.mask = v &&& f.mask := by
    ext i hi
    cases hf : f.mask[i] <;> simp [hf]
  unfold writeField
  cases f.acc with
  | rw => exact taken
  | rwl =>
    cases locked with
    | false => exact taken
    | true => exact h
  | w1c =>
    rw [← h]
    ext i hi
    cases hf : f.mask[i] <;> simp [hf]
  | w1s =>
    ext i hi
    have hbit : (y[i] && f.mask[i]) = (x[i] && f.mask[i]) := by rw [← BitVec.getElem_and, h, BitVec.getElem_and]
    cases hf : f.mask[i] with
    | false => simp [hf]
    | true =>
      have hyx : y[i] = x[i] := by simpa [hf] using hbit
      simp [hf, hyx]
  | ro => exact h
  | wo => exact h

/-! ### A whole register -/

/-- Writes of fields that lie outside a mask leave its bits alone. -/
theorem foldl_writeField_and_of_disjoint (locked : Bool) (fresh v m : BitVec 32) (l : List FieldRow) (x : BitVec 32)
    (h : ∀ g ∈ l, g.mask &&& m = 0#32) : l.foldl (writeField locked fresh v) x &&& m = x &&& m := by
  induction l generalizing x with
  | nil => rfl
  | cons g t ih =>
    rw [List.foldl_cons, ih _ fun a ha => h a (List.mem_cons_of_mem _ ha)]
    exact writeField_and_of_disjoint _ _ _ _ _ _ (h g List.mem_cons_self)

/-- The bits of several fields together. -/
def fieldsMask (l : List FieldRow) : BitVec 32 := l.foldr (fun f m => f.mask ||| m) 0#32

/-- A write of a register that has W1C fields only clears the bits written 1 that are not fresh (R10). -/
theorem foldl_writeField_w1c (locked : Bool) (fresh v : BitVec 32) (l : List FieldRow) (x : BitVec 32) (h : ∀ g ∈ l, g.acc = .w1c) :
    l.foldl (writeField locked fresh v) x = x &&& ~~~ (v &&& fieldsMask l &&& ~~~ fresh) := by
  induction l generalizing x with
  | nil =>
    have hm : fieldsMask [] = 0#32 := rfl
    rw [hm, BitVec.and_zero, BitVec.zero_and, List.foldl_nil, ← BitVec.allOnes_sub_eq_not, BitVec.sub_zero, BitVec.and_allOnes]
  | cons g t ih =>
    have hg : writeField locked fresh v x g = x &&& ~~~ (v &&& g.mask &&& ~~~ fresh) := by
      unfold writeField; rw [h g List.mem_cons_self]
    have hm : fieldsMask (g :: t) = g.mask ||| fieldsMask t := rfl
    rw [List.foldl_cons, ih _ fun a ha => h a (List.mem_cons_of_mem _ ha), hg, hm]
    simp only [BitVec.and_or_distrib_left, BitVec.and_or_distrib_right, BitVec.not_or, BitVec.and_assoc]

/-- The word a host write leaves in its register. -/
theorem State.writeWord_reg_self (s : State) (off : Nat) (v : BitVec 32) :
    (s.writeWord off v).reg off = (fieldsAt off).foldl (writeField s.locked (s.freshBits off) v) (s.reg off) :=
  s.reg_setReg_self _ _

/-- A host write changes no other register. -/
theorem State.writeWord_sameRegsBut (s : State) (off : Nat) (v : BitVec 32) : s.sameRegsBut (s.writeWord off v) [off] :=
  fun off' h => s.reg_setReg_ne off off' _ (by simpa using h)

/-- Settles O10: the fields before and behind the one looked at lie outside its mask, so its bits are what its own write makes of them. -/
theorem accessCodes : Obligations.AccessCodes := by
  intro s off v f hf hdisj
  obtain ⟨before, behind, hl⟩ := List.append_of_mem hf
  rw [hl, List.pairwise_append, List.pairwise_cons] at hdisj
  obtain ⟨-, ⟨hbehind, -⟩, hbefore⟩ := hdisj
  rw [s.writeWord_reg_self, hl, List.foldl_append, List.foldl_cons,
    foldl_writeField_and_of_disjoint _ _ _ _ _ _ fun g hg => by rw [BitVec.and_comm]; exact hbehind g hg]
  exact writeField_and_mask _ _ _ _ _ _
    (foldl_writeField_and_of_disjoint _ _ _ _ _ _ fun g hg => hbefore g hg f List.mem_cons_self)

/-! ### Where a host access takes effect (R488, R513) -/

@[simp] theorem State.advance_reg (s : State) (n off : Nat) : (s.advance n).reg off = s.reg off := rfl
@[simp] theorem State.advance_out (s : State) (n : Nat) : (s.advance n).out = s.out := rfl

theorem State.hostWrite_of_boot {s : State} (off : Nat) (f : State → State) (h : s.dev = stBoot) : s.hostWrite off f = s := if_pos h

theorem State.hostWrite_of_domainOff {s : State} {off : Nat} (f : State → State) (h : s.dev ≠ stBoot) (hd : s.domainOff off = true) :
    s.hostWrite off f = s.raise Reg.GLB_STATUS_off_access := by
  unfold State.hostWrite; rw [if_neg h, if_pos hd]

theorem State.hostWrite_of_domainOn {s : State} {off : Nat} (f : State → State) (h : s.dev ≠ stBoot) (hd : s.domainOff off = false) :
    s.hostWrite off f = f s := by
  unfold State.hostWrite; rw [if_neg h, hd]; rfl

/-- The block of the global registers lies in the AON domain, which is never off (Table 20-1). -/
theorem State.domainOff_global (s : State) {off : Nat} (h : off < 0x10000) : s.domainOff off = false := by
  have hb : blockOf off = some ⟨0x0, 0x10000, 1, rowsGlobal⟩ := by
    unfold blockOf blocks
    exact List.find?_cons_of_pos (by simpa using h)
  unfold State.domainOff; rw [hb]; rfl

/-! ### Host writes -/

/-- In BOOT a register write is ignored, pairs and all (R488). -/
theorem State.hostWriteReg_of_boot {s : State} (off : Nat) (v : BitVec 32) (h : s.dev = stBoot) : s.hostWriteReg off v = s :=
  State.hostWrite_of_boot off _ h

/-- In a switched-off domain a register write only sets off_access, pairs and all (R513). -/
theorem State.hostWriteReg_of_domainOff {s : State} {off : Nat} (v : BitVec 32) (h : s.dev ≠ stBoot) (hd : s.domainOff off = true) :
    s.hostWriteReg off v = s.raise Reg.GLB_STATUS_off_access := State.hostWrite_of_domainOff _ h hd

/-- A host write of GLB_SCRATCH has no further effect. -/
theorem State.hostWriteReg_scratch {s : State} (v : BitVec 32) (h : s.dev ≠ stBoot) : s.hostWriteReg 0x1C v = s.writeWord 0x1C v :=
  State.hostWrite_of_domainOn _ h (s.domainOff_global (by decide))

/-- GLB_SCRATCH is one RW field of 32 bits. -/
theorem State.writeWord_scratch (s : State) (v : BitVec 32) : (s.writeWord 0x1C v).reg 0x1C = v := by
  have h := accessCodes s 0x1C v ⟨0, 32, .rw, 0x0, 3⟩ (by decide) (by decide)
  have hm : FieldRow.mask ⟨0, 32, .rw, 0x0, 3⟩ = BitVec.allOnes 32 := by decide
  simpa only [hm, BitVec.and_allOnes] using h

/-- GLB_CAUSE has W1C fields only, at 0x31FFF. -/
theorem State.writeWord_cause (s : State) (v : BitVec 32) :
    (s.writeWord 0x10 v).reg 0x10 = s.reg 0x10 &&& ~~~ (v &&& 0x31FFF#32 &&& ~~~ s.freshBits 0x10) := by
  have hm : fieldsMask (fieldsAt 0x10) = 0x31FFF#32 := by decide
  rw [s.writeWord_reg_self, foldl_writeField_w1c _ _ _ _ _ (by decide), hm]

theorem exec_registerWrite (dt : Nat) (off : BitVec 25) (v : BitVec 32) (s : State) :
    exec (.registerWrite dt off v) s = .next ((s.advance dt).hostWriteReg (off.toNat / 4 * 4) v) := rfl

theorem exec_hiRegisterWrite (dt : Nat) (off : BitVec 25) (v : BitVec 32) (s : State) :
    exec (.hiRegisterWrite dt off v) s = .next ((s.advance dt).hostWriteReg (off.toNat / 4 * 4) v) := rfl

theorem exec_glbCauseWrite (dt : Nat) (v : BitVec 32) (s : State) :
    exec (.glbCauseWrite dt v) s = .next ((s.advance dt).hostWrite 0x10 fun s => s.writeWord 0x10 v) := rfl

/-- Settles O11, part by part: GLB_SCRATCH, GLB_CAUSE, BOOT, a switched-off domain. -/
theorem hostWrites : Obligations.HostWrites := by
  refine ⟨fun dt v s h => ?_, fun dt v s h => ?_, fun dt off v s h => ?_, fun dt off v s h hd => ?_⟩
  · refine ⟨(s.advance dt).writeWord 0x1C v, ?_, State.writeWord_scratch _ v, (s.advance dt).writeWord_sameRegsBut 0x1C v, rfl⟩
    exact (exec_registerWrite ..).trans (congrArg _ (State.hostWriteReg_scratch v h))
  · refine ⟨(s.advance dt).writeWord 0x10 v, ?_, State.writeWord_cause _ v, (s.advance dt).writeWord_sameRegsBut 0x10 v, rfl⟩
    rw [exec_glbCauseWrite, State.hostWrite_of_domainOn (s := s.advance dt) _ h (State.domainOff_global _ (by decide))]
  · rw [exec_registerWrite, exec_hiRegisterWrite, State.hostWriteReg_of_boot (s := s.advance dt) _ _ h]
    exact ⟨rfl, rfl⟩
  · rw [exec_registerWrite, exec_hiRegisterWrite, State.hostWriteReg_of_domainOff (s := s.advance dt) _ h hd]
    exact ⟨rfl, rfl⟩

/-! ### The identity words (R1, R514) -/

/-- Every register is at its reset value after reset. -/
theorem State.reset_reg (off : Nat) : State.reset.reg off = resetVal off := rfl

/-- Settles O6: both words are the reset values of Tables 20-3 and 20-4. -/
theorem hardwiredAtReset : Obligations.HardwiredAtReset := by
  refine ⟨⟨?_, rfl⟩, ?_⟩
  · rw [State.reset_reg]; decide
  · rw [State.reset_reg]; decide

/-- A host read of IDREV, BOOT or not, gives out the register's word. -/
theorem State.hostRead_idrev_out (s : State) : (s.hostRead 0x0).out = s.out ++ [.regRead 0x0 (s.reg 0x0)] := by
  have hboot : bootReads 0x0 = true := rfl
  have hon : s.domainOff 0x0 = false := s.domainOff_global (by decide)
  unfold State.hostRead
  simp only [hboot, hon, Bool.not_true, Bool.and_false]
  rfl

/-- Settles O13: BOOT lets the host read IDREV, its domain is never off, and it shows no shadow. -/
theorem idrevReads : Obligations.IdrevReads := by
  rintro dt s ⟨hid, -⟩
  exact ⟨(s.advance dt).hostRead 0x0, rfl, (State.hostRead_idrev_out _).trans (by rw [State.advance_reg, hid, State.advance_out])⟩

/-! ### The flight record of an operation -/

/-- An operation in flight carries the ring and the number it is found under. -/
theorem State.key_of_flight {s : State} {ring n : Nat} {f : Flight} (h : s.flight ring n = some f) : f.ring = ring ∧ f.n = n := by
  simpa using List.find?_some h

/-- A record replaced is found in the place of the one before. -/
theorem State.flight_setFlight {s : State} {ring n : Nat} {f g : Flight} (h : s.flight ring n = some f) (hr : g.ring = ring) (hn : g.n = n) :
    (s.setFlight g).flight ring n = some g := by
  have hkey : (fun x : Flight => x.ring == ring && x.n == n) ∘ (fun x => if x.ring == g.ring && x.n == g.n then g else x) =
      fun x => x.ring == ring && x.n == n := by
    funext x
    simp only [Function.comp_apply, hr, hn]
    split
    · simp_all
    · rfl
  have hf := List.find?_some h
  show List.find? _ (List.map _ _) = _
  rw [List.find?_map, hkey, show s.rings.flight.find? _ = some f from h]
  simp only [Option.map_some, hr, hn]
  rw [if_pos hf]

/-- An operation whose turn has come has not ended (R381). -/
theorem State.ended_of_mayBegin {s : State} {ring n : Nat} {f : Flight} (h : s.flight ring n = some f) (hb : s.mayBegin ring n = true) :
    f.ended = none := by
  unfold State.flight at h
  unfold State.mayBegin at hb
  rw [List.find?_eq_bind_findIdx?_getElem?] at h
  split at hb
  case h_1 => cases hb
  case h_2 i hi =>
    rw [hi, Option.bind_some] at h
    simp only [h, Bool.and_eq_true, Option.isNone_iff_eq_none] at hb
    obtain ⟨⟨⟨-, hopen⟩, -⟩, -⟩ := hb
    exact hopen

theorem State.beginOp_of_flight {s : State} {ring n : Nat} {f : Flight} (h : s.flight ring n = some f) :
    s.beginOp ring n = s.setFlight { f with begun := true } := by
  unfold State.beginOp; rw [h]

/-- An operation in flight that has not ended and whose completion is not discarded ends in its record alone. -/
theorem State.endOp_of_flight {s : State} {ring n : Nat} {f : Flight} (h : s.flight ring n = some f) (he : f.ended = none) (hc : f.cq ≠ 16)
    (st : Nat) (res : List (Nat × List (BitVec 8))) :
    s.endOp ring n st res = s.setFlight { f with begun := true, ended := some (st, resBytes res) } := by
  unfold State.endOp; simp only [h, he, if_neg hc]

/-! ### Operations that end without effect (R6, R391, R489) -/

/-- From s to t operation r ends with a status and result fields, and nothing but flight records changes. -/
def State.onlyEnds (s t : State) (r : OpRef) (st : Nat) (res : List (Nat × List (BitVec 8))) : Prop :=
  t.opEnds r st res ∧ t = { s with rings := t.rings } ∧ t.rings.log = s.rings.log ∧ t.rings.fetches = s.rings.fetches

/-- Beginning an operation whose turn has come and ending it at once only ends it. -/
theorem State.onlyEnds_begin_end {s : State} {r : OpRef} {f : Flight} (h : s.flight r.ring r.n = some f) (hb : s.mayBegin f.ring f.n = true)
    (hc : f.cq ≠ 16) (st : Nat) (res : List (Nat × List (BitVec 8))) :
    s.onlyEnds ((s.beginOp f.ring f.n).endOp f.ring f.n st res) r st res := by
  obtain ⟨hr, hn⟩ := State.key_of_flight h
  rw [hr, hn] at hb ⊢
  have hopen : f.ended = none := State.ended_of_mayBegin h hb
  have hbegun : (s.setFlight { f with begun := true }).flight r.ring r.n = some { f with begun := true } := State.flight_setFlight h hr hn
  rw [State.beginOp_of_flight h, State.endOp_of_flight hbegun hopen hc]
  exact ⟨⟨_, State.flight_setFlight hbegun hr hn, rfl⟩, rfl, rfl, rfl⟩

/-- Reserved flag bits are part of what R6 wants to be 0. -/
theorem Flight.reservedOk_of_flags {f : Flight} (h : 4 ≤ f.fld 1 1) (used : List (Nat × Nat)) (eff : Bool) : f.reservedOk used eff = false := by
  have : ¬ f.fld 1 1 < 4 := by omega
  simp [Flight.reservedOk, this]

section RunOp

variable {s : State} {r : OpRef} {f : Flight} {opcode : Nat} {used : List (Nat × Nat)} {eff : Bool} {bad : Flight → Bool}
  {always : Flight → List (Nat × List (BitVec 8))} {tally : Bool} {body : Flight → State → State}

/-- An operation whose turn has come is refused, or wants the tally, or is carried out, in this order. -/
theorem State.runOp_of_turn (hf : s.flight r.ring r.n = some f) (hop : f.opcode = opcode) (hb : s.mayBegin f.ring f.n = true)
    (hw : s.opWaits opcode = false) :
    s.runOp r opcode used eff bad always tally body =
      if !f.reservedOk used eff || (!s.locked && !earlyOp opcode) || bad f then (s.beginOp f.ring f.n).endOp f.ring f.n stBad (always f)
      else if tally && (!s.held_ || s.dev = stCold || s.config = 3) then (s.beginOp f.ring f.n).endOp f.ring f.n stAborted (always f)
      else body f (s.beginOp f.ring f.n) := by
  have hturn : (f.opcode ≠ opcode || !s.mayBegin f.ring f.n || s.opWaits opcode) = false := by simp [hop, hb, hw]
  unfold State.runOp
  simp only [hf, hturn, Bool.false_eq_true, if_false]

/-- An operation whose turn has come and that has a reserved flag, or that comes before SETUP_LOCK and may not, only ends, with
BAD_DESCRIPTOR, whatever its own work is. -/
theorem State.runOp_refused (hf : s.flight r.ring r.n = some f) (hop : f.opcode = opcode) (hb : s.mayBegin f.ring f.n = true)
    (hw : s.opWaits opcode = false) (hc : f.cq ≠ 16) (href : 4 ≤ f.fld 1 1 ∨ s.locked = false ∧ earlyOp opcode = false) :
    s.onlyEnds (s.runOp r opcode used eff bad always tally body) r stBad (always f) := by
  have hbad : (!f.reservedOk used eff || (!s.locked && !earlyOp opcode) || bad f) = true := by
    rcases href with hflags | ⟨hlock, hearly⟩
    · simp [Flight.reservedOk_of_flags hflags]
    · simp [hlock, hearly]
  rw [State.runOp_of_turn hf hop hb hw, if_pos hbad]
  exact State.onlyEnds_begin_end hf hb hc _ _

/-- An operation about to be carried out that needs the tally, on a device that does not hold it, only ends, with ABORTED_BY_TALLY
(R391). -/
theorem State.runOp_aborted (h : s.opRuns r f opcode used eff) (hgood : bad f = false) (htally : s.held_ = false) :
    s.onlyEnds (s.runOp r opcode used eff bad always true body) r stAborted (always f) := by
  obtain ⟨hf, hop, hb, hw, hres, hlock, hc⟩ := h
  have hok : ¬ (!f.reservedOk used eff || (!s.locked && !earlyOp opcode) || bad f) = true := by
    rcases hlock with hlock | hearly
    · simp [hres, hlock, hgood]
    · simp [hres, hearly, hgood]
  rw [State.runOp_of_turn hf hop hb hw, if_neg hok, if_pos (by simp [htally])]
  exact State.onlyEnds_begin_end hf hb hc _ _

end RunOp

/-! ### The commands of Table 15-1 -/

/-- On s a command carries out operation r of an opcode from the state u: what it does before leads to u. -/
def RunsOp (c : Instr) (s u : State) (r : OpRef) (opcode : Nat) : Prop :=
  ∃ used eff bad always tally body, exec c s = .next (u.runOp r opcode used eff bad always tally body)

/-- A command that only draws free values before it carries out an operation gives no more than the operation's end when it is refused. -/
theorem RunsOp.refused {c : Instr} {s u : State} {dt : Nat} {r : OpRef} {opcode : Nat} {f : Flight} (h : RunsOp c s u r opcode)
    (hu : u = { s.advance dt with free := u.free }) (hf : s.flight r.ring r.n = some f) (hop : f.opcode = opcode)
    (hb : s.mayBegin f.ring f.n = true) (hw : s.opWaits opcode = false) (hc : f.cq ≠ 16)
    (href : 4 ≤ f.fld 1 1 ∨ s.locked = false ∧ earlyOp opcode = false) :
    Gives (exec c s) fun t => (∃ res, t.opEnds r stBad res) ∧ t = { s.advance dt with rings := t.rings, free := t.free } ∧
      t.rings.log = s.rings.log ∧ t.rings.fetches = s.rings.fetches := by
  obtain ⟨free, rfl⟩ : ∃ free, u = { s.advance dt with free := free } := ⟨_, hu⟩
  obtain ⟨used, eff, bad, always, tally, body, he⟩ := h
  obtain ⟨hends, hsame, hlog, hfetches⟩ := State.runOp_refused (s := { s.advance dt with free := free }) (used := used) (eff := eff)
    (bad := bad) (always := always) (tally := tally) (body := body) hf hop hb hw hc href
  exact ⟨_, he, ⟨_, hends⟩, hsame.trans (by rw [hsame]), hlog, hfetches⟩

/-- MOTION_MOVE draws no more than a free number before its operation. -/
theorem State.motionFree_snd (s : State) (r : OpRef) : (s.motionFree r).2 = { s with free := (s.motionFree r).2.free } := by
  unfold State.motionFree
  split <;> rfl

/-- A port whose captures have all had a line within the last second has no late one. -/
theorem State.lateCaptures_of_none {s : State} {p : Nat}
    (h : ∀ x ∈ (s.cam p).captures, s.beat < max x.lastAt (s.cam p).lastRef + 1000000000) : s.lateCaptures p = s := by
  have hnone : (s.cam p).captures.filter (fun x => decide (max x.lastAt (s.cam p).lastRef + 1000000000 ≤ s.beat)) = [] :=
    List.filter_eq_nil_iff.mpr fun x hx => by simpa using h x hx
  unfold State.lateCaptures; rw [hnone]; rfl

/-- Where no capture is late, CAPTURE carries out its operation at once. -/
theorem runsOp_capture {s : State} {dt : Nat} (r : OpRef)
    (h : ∀ p, p < 4 → ∀ x ∈ (s.cam p).captures, s.beat + dt < max x.lastAt (s.cam p).lastRef + 1000000000) :
    RunsOp (.capture dt r) s (s.advance dt) r 0x28 := by
  have hport (p : Nat) (hp : p < 4) : (s.advance dt).lateCaptures p = s.advance dt := State.lateCaptures_of_none (h p hp)
  have hlate : (List.range 4).foldl (fun (u : State) p => u.lateCaptures p) (s.advance dt) = s.advance dt := by
    rw [show List.range 4 = [0, 1, 2, 3] from rfl]
    simp only [List.foldl_cons, List.foldl_nil, hport 0 (by decide), hport 1 (by decide), hport 2 (by decide), hport 3 (by decide)]
  have hrun : RunsOp (.capture dt r) s ((List.range 4).foldl (fun (u : State) p => u.lateCaptures p) (s.advance dt)) r 0x28 :=
    ⟨_, _, _, _, _, _, rfl⟩
  rwa [hlate] at hrun

theorem exec_jobStop_runOp (s : State) (dt : Nat) (r : OpRef) :
    ∃ body, exec (.jobStop dt r) s = .next ((s.advance dt).runOp r 0x11 [] false (fun _ => false) noResult true body) := ⟨_, rfl⟩

/-- Settles O47: each command of Table 15-1 carries out its operation from the present state with the beats passed, but for free values
drawn; there runOp refuses it before its own work. -/
theorem operationsRefused : Obligations.OperationsRefused := by
  refine ⟨fun dt r f s c op hf hop hb hw hc href hcmd => ?_, fun dt r f s hruns htally => ?_⟩
  · suffices h : ∃ u, RunsOp c s u r op ∧ u = { s.advance dt with free := u.free } by
      obtain ⟨u, hrun, hu⟩ := h
      exact hrun.refused hu hf hop hb hw hc href
    rcases hcmd with ⟨d, rfl, rfl⟩ | ⟨d, rfl, rfl⟩ | ⟨rfl, rfl⟩ | ⟨d, rfl, rfl⟩ | ⟨l, hs, rfl, rfl⟩ | ⟨rfl, rfl⟩ | ⟨rfl, rfl⟩ |
      ⟨rfl, rfl⟩ | ⟨rfl, rfl⟩ | ⟨rfl, rfl⟩ | ⟨rfl, rfl⟩ | ⟨rfl, rfl, hcap⟩ | ⟨d, rfl, rfl⟩ | ⟨rfl, rfl⟩ | ⟨rfl, rfl⟩ | ⟨rfl, rfl⟩ |
      ⟨rfl, rfl⟩ | ⟨rfl, rfl⟩
    rotate_left 4
    · -- JOB_QUEUE, after the free numbers of its result
      exact ⟨(s.advance dt).drawFault.2, ⟨_, _, _, _, _, _, rfl⟩, rfl⟩
    rotate_left 5
    · -- MOTION_MOVE, after a free number for a channel that does not exist
      exact ⟨_, ⟨_, _, _, _, _, _, rfl⟩, State.motionFree_snd _ r⟩
    · -- CAPTURE, with no capture late
      exact ⟨s.advance dt, runsOp_capture r hcap, rfl⟩
    all_goals exact ⟨s.advance dt, ⟨_, _, _, _, _, _, rfl⟩, rfl⟩
  · obtain ⟨body, he⟩ := exec_jobStop_runOp s dt r
    obtain ⟨hends, hsame, -, -⟩ := State.runOp_aborted (s := s.advance dt) (body := body) (always := noResult) (bad := fun _ => false)
      hruns rfl htally
    exact ⟨_, he, hends, hsame⟩

end Sys2Proof.Machine

/-! SUPPORT. Proof of the statement of FIRE_INHIBIT_N (R21, R227, R532): what sending FIRE INHIBIT blocks and retiring bound lines leave
alone, and the blocks that go out on the active lanes. -/

namespace Sys2Proof.Machine

/-! ### Sending inhibit blocks (R226) -/

/-- From s to t nothing happened but outputs, free values drawn, sequence numbers counted and scramblers moved on. -/
def State.onlySends (s t : State) : Prop :=
  t = { s with out := t.out, free := t.free, link := { s.link with inhibitSeq := t.link.inhibitSeq, scrambler := t.link.scrambler } }

theorem State.onlySends.trans {s t u : State} (h : s.onlySends t) (h' : t.onlySends u) : s.onlySends u :=
  Eq.trans h' (by rw [h])

theorem State.laneSend_onlySends (s : State) (n : Nat) (blocks : List LaneBlock) (o : List LaneBlock → Output) :
    s.onlySends (s.laneSend n blocks o) := by
  unfold State.laneSend
  split <;> rfl

theorem State.sendInhibit_onlySends (s : State) (assert : Bool) (lane : Nat) : s.onlySends (s.sendInhibit assert lane) := by
  unfold State.sendInhibit
  refine State.onlySends.trans ?_ (State.laneSend_onlySends _ _ _ _)
  rfl

theorem State.inhibitAll_onlySends (s : State) (assert : Bool) : s.onlySends (s.inhibitAll assert) :=
  foldl_keeps s.onlySends _ (fun _ n h => h.trans (State.sendInhibit_onlySends _ assert n)) _ s rfl

section
variable {s t : State} (h : s.onlySends t)
include h

theorem State.onlySends.sched : t.sched = s.sched := by rw [h]
theorem State.onlySends.inhibitPin : t.link.inhibitPin = s.link.inhibitPin := by rw [h]

theorem State.onlySends.on (f : Fld) : t.on f = s.on f := by rw [h]; rfl

end

/-- A lane awake gives out its blocks, scrambled after a free number of idle blocks and inverted as tx_invert says. -/
theorem State.laneSend_out {s : State} {n : Nat} (blocks : List LaneBlock) (o : List LaneBlock → Output) (h : s.txAsleep n = false) :
    (s.laneSend n blocks o).out =
      s.out ++ [o ((scrambleAll (afterIdles (Config.freeNat s.free) (Tab.get (fun _ => 0) s.link.scrambler n)) blocks).2.map
        (invertBlock (s.on (Reg.LANEn_CFG_tx_invert n))))] := by
  unfold State.laneSend; rw [h]; rfl

theorem State.laneSend_inhibitSeq (s : State) (n : Nat) (blocks : List LaneBlock) (o : List LaneBlock → Output) :
    (s.laneSend n blocks o).link.inhibitSeq = s.link.inhibitSeq := by
  unfold State.laneSend
  split <;> rfl

theorem State.laneSend_scrambler_ne (s : State) {n m : Nat} (blocks : List LaneBlock) (o : List LaneBlock → Output) (h : m ≠ n) :
    Tab.get (fun _ => 0) (s.laneSend n blocks o).link.scrambler m = Tab.get (fun _ => 0) s.link.scrambler m := by
  unfold State.laneSend
  split
  · rfl
  · exact Tab.get_set_ne _ _ _ _ _ h

/-- An asserting block leaves a lane awake as the lane's state has it. -/
theorem State.sendInhibit_out {s : State} {n : Nat} (h : s.txAsleep n = false) :
    (s.sendInhibit true n).out = s.out ++ [s.inhibitOut n (Config.freeNat s.free)] :=
  State.laneSend_out (s := s.modLink _) _ _ h

/-- A block on another lane moves neither the sequence number nor the scrambler of this one. -/
theorem State.inhibitOut_sendInhibit_ne (s : State) {n m : Nat} (assert : Bool) (h : m ≠ n) :
    (s.sendInhibit assert n).inhibitOut m = s.inhibitOut m := by
  have hseq : Tab.get (fun _ => 0) (s.sendInhibit assert n).link.inhibitSeq m = Tab.get (fun _ => 0) s.link.inhibitSeq m := by
    unfold State.sendInhibit
    rw [State.laneSend_inhibitSeq]
    exact Tab.get_set_ne _ _ _ _ _ h
  have hscr : Tab.get (fun _ => 0) (s.sendInhibit assert n).link.scrambler m = Tab.get (fun _ => 0) s.link.scrambler m :=
    State.laneSend_scrambler_ne (s.modLink _) _ _ h
  funext idles
  simp only [State.inhibitOut, hseq, hscr, (s.sendInhibit_onlySends assert n).on]

/-- Blocks sent on different lanes awake leave in the order of the lanes, each as its lane would have sent it first. -/
theorem State.foldl_sendInhibit_out (lanes : List Nat) (hnodup : lanes.Nodup) (s : State) (hawake : ∀ n ∈ lanes, s.txAsleep n = false) :
    ∃ idles : Nat → Nat, (lanes.foldl (fun u n => u.sendInhibit true n) s).out = s.out ++ lanes.map fun n => s.inhibitOut n (idles n) := by
  induction lanes generalizing s with
  | nil => exact ⟨id, (List.append_nil _).symm⟩
  | cons n rest ih =>
    obtain ⟨hn, hrest⟩ := List.nodup_cons.mp hnodup
    have hkeep := s.sendInhibit_onlySends true n
    obtain ⟨idles, hout⟩ := ih hrest (s.sendInhibit true n) fun m hm => (hkeep.on _).trans (hawake m (.tail _ hm))
    refine ⟨fun m => if m = n then Config.freeNat s.free else idles m, ?_⟩
    have hlater : (rest.map fun m => (s.sendInhibit true n).inhibitOut m (idles m)) =
        rest.map fun m => s.inhibitOut m (if m = n then Config.freeNat s.free else idles m) :=
      List.map_congr_left fun m hm => by
        have hne : m ≠ n := fun e => hn (e ▸ hm)
        rw [State.inhibitOut_sendInhibit_ne s true hne, if_neg hne]
    rw [List.foldl_cons, hout, State.sendInhibit_out (hawake n (.head _)), hlater, List.map_cons]
    simp only [if_true, List.append_assoc, List.singleton_append]

theorem State.txAsleep_of_active {s : State} {n : Nat} (h : n ∈ s.activeLanes) : s.txAsleep n = false := by
  have hp := (List.mem_filter.mp h).2
  simp only [Bool.and_eq_true, Bool.not_eq_true'] at hp
  exact hp.2

/-- Every active lane sends one asserting block. -/
theorem State.inhibitAll_out (s : State) :
    ∃ idles : Nat → Nat, (s.inhibitAll true).out = s.out ++ s.activeLanes.map fun n => s.inhibitOut n (idles n) :=
  State.foldl_sendInhibit_out _ (List.nodup_range.filter _) s fun _ => State.txAsleep_of_active

/-! ### The registers a lane is sent by -/

theorem State.sameRegsBut.get {s t : State} {offs : List Nat} (h : s.sameRegsBut t offs) {f : Fld} (hf : f.off ∉ offs) :
    t.get f = s.get f := by
  unfold State.get; rw [h _ hf]

/-- The registers that the beginning of an inhibit may change: the skip count and LINK_INHIBIT. -/
def inhibitOffs : List Nat := [Reg.LS_SKIP_COUNT.off, Reg.LINK_INHIBIT_sending.off]

/-- No register of PAIR_CFG or of a lane is among them. -/
theorem not_mem_inhibitOffs {off : Nat} (h : off = 0xC00000 ∨ ∃ n, off = 0x400000 + 0x1000 * n ∨ off = 0x400008 + 0x1000 * n) :
    off ∉ inhibitOffs := by
  simp only [inhibitOffs, Reg.LS_SKIP_COUNT, Reg.LINK_INHIBIT_sending, List.mem_cons, List.not_mem_nil, or_false]
  obtain rfl | ⟨n, rfl | rfl⟩ := h <;> omega

section
variable {s t : State} (h : s.sameRegsBut t inhibitOffs)
include h

theorem State.activeLanes_congr : t.activeLanes = s.activeLanes := by
  have hconfig : t.get Reg.PAIR_CFG_config = s.get Reg.PAIR_CFG_config := h.get (not_mem_inhibitOffs (.inl rfl))
  have hend : t.get Reg.PAIR_CFG_end = s.get Reg.PAIR_CFG_end := h.get (not_mem_inhibitOffs (.inl rfl))
  have hstate (n : Nat) : t.get (Reg.LANEn_STATUS_state n) = s.get (Reg.LANEn_STATUS_state n) :=
    h.get (not_mem_inhibitOffs (.inr ⟨n, .inr rfl⟩))
  have hasleep (n : Nat) : t.get (Reg.LANEn_STATUS_tx_asleep n) = s.get (Reg.LANEn_STATUS_tx_asleep n) :=
    h.get (not_mem_inhibitOffs (.inr ⟨n, .inr rfl⟩))
  simp only [State.activeLanes, State.usesEnd, State.inPair, State.config, State.laneUp, State.laneState, State.txAsleep, State.on,
    hconfig, hend, hstate, hasleep]

theorem State.inhibitOut_congr (hseq : t.link.inhibitSeq = s.link.inhibitSeq) (hscr : t.link.scrambler = s.link.scrambler) :
    t.inhibitOut = s.inhibitOut := by
  have hinv (n : Nat) : t.get (Reg.LANEn_CFG_tx_invert n) = s.get (Reg.LANEn_CFG_tx_invert n) :=
    h.get (not_mem_inhibitOffs (.inr ⟨n, .inl rfl⟩))
  funext n idles
  simp only [State.inhibitOut, State.on, hseq, hscr, hinv]

end

/-! ### Retiring bound lines (R112, R116, R273) -/

/-- From s to t nothing happened but to the scheduler's records, the Canary's models and the count of skipped lines. -/
def State.onlyRetires (s t : State) : Prop :=
  t = { s with regs := t.regs, sched := t.sched, care := t.care } ∧ s.sameRegsBut t [Reg.LS_SKIP_COUNT.off]

theorem State.onlyRetires.refl (s : State) : s.onlyRetires s := ⟨rfl, fun _ _ => rfl⟩

theorem State.onlyRetires.trans {s t u : State} (h : s.onlyRetires t) (h' : t.onlyRetires u) : s.onlyRetires u :=
  ⟨Eq.trans h'.1 (by rw [h.1]), fun off hoff => (h'.2 off hoff).trans (h.2 off hoff)⟩

theorem State.onlyRetires.ite {s t : State} {c : Prop} [Decidable c] (h : s.onlyRetires t) : s.onlyRetires (if c then t else s) := by
  split
  · exact h
  · exact .refl s

/-- A fold of steps that each only retire only retires. -/
theorem State.onlyRetires_foldl {β : Type} {f : State → β → State} (hf : ∀ (u : State) (b : β), u.onlyRetires (f u b)) (l : List β) (s : State) :
    s.onlyRetires (l.foldl f s) :=
  foldl_keeps s.onlyRetires f (fun u b h => h.trans (hf u b)) l s (.refl s)

theorem State.modSched_onlyRetires (s : State) (f : Sched → Sched) : s.onlyRetires (s.modSched f) := ⟨rfl, fun _ _ => rfl⟩

theorem State.onHead_onlyRetires (s : State) (a : Nat) (f : HeadSched → HeadSched) : s.onlyRetires (s.onHead a f) := ⟨rfl, fun _ _ => rfl⟩

theorem State.bump_skipCount_onlyRetires (s : State) (n : Nat) : s.onlyRetires (s.bump Reg.LS_SKIP_COUNT n) :=
  ⟨rfl, fun off hoff => s.reg_set_ne _ off _ fun e => hoff (e ▸ .head _)⟩

theorem State.noteSkip_onlyRetires (s : State) (reason : Nat) (l : Int) : s.onlyRetires (s.noteSkip reason l) := by
  unfold State.noteSkip
  split
  · exact .refl s
  · split
    · exact s.modSched_onlyRetires _
    · exact (s.bump_skipCount_onlyRetires 1).trans (State.modSched_onlyRetires _ _)

theorem State.heatLine_onlyRetires (s : State) (a : Nat) (b : Bound) : s.onlyRetires (s.heatLine a b) := by
  unfold State.heatLine
  split
  · exact .refl s
  · exact ⟨rfl, fun _ _ => rfl⟩

theorem State.retireHead_onlyRetires (s : State) (a : Nat) : s.onlyRetires (s.retireHead a) := by
  unfold State.retireHead
  simp only
  split
  · exact .refl s
  · -- the lines gone heat the head, they leave its record, and those inside the inhibit are skipped
    have hleave (fired : Bound → Bool) (gone : List Bound) (f : HeadSched → HeadSched) :
        s.onlyRetires ((gone.foldl (fun u b => if fired b then u.heatLine a b else u) s).onHead a f) :=
      (State.onlyRetires_foldl (fun u b => .ite (u.heatLine_onlyRetires a b)) gone s).trans (State.onHead_onlyRetires _ a f)
    split
    · exact hleave _ _ _
    · exact (hleave _ _ _).trans (State.onlyRetires_foldl (fun u b => .ite (u.noteSkip_onlyRetires _ _)) _ _)

theorem State.retireBound_onlyRetires (s : State) : s.onlyRetires s.retireBound :=
  State.onlyRetires_foldl (fun u (e : Nat × HeadSched) => u.retireHead_onlyRetires e.1) _ s

@[simp] theorem State.retireBound_link (s : State) : s.retireBound.link = s.link := by rw [s.retireBound_onlyRetires.1]
@[simp] theorem State.retireBound_tally (s : State) : s.retireBound.tally = s.tally := by rw [s.retireBound_onlyRetires.1]

theorem State.retireBound_sameRegsBut (s : State) : s.sameRegsBut s.retireBound [Reg.LS_SKIP_COUNT.off] := s.retireBound_onlyRetires.2

/-! ### The inhibit begins and ends (R21, R227) -/

/-- The state in which the asserting blocks of an inhibit that begins leave: the lines bound so far retired, its cause recorded. -/
def State.inhibitBegun (s : State) (set : Link → Link) : State :=
  let u := s.retireBound.modLink set
  (u.modSched fun c => { c with inhibitFrom := some (u.now, u.inhibitReason) }).raise Reg.LINK_INHIBIT_sending

theorem State.startInhibit_of_first {s : State} (set : Link → Link) (h : s.inhibiting = false) :
    s.startInhibit set = (s.inhibitBegun set).inhibitAll true := by
  unfold State.startInhibit; rw [h]; rfl

theorem State.inhibitBegun_sameRegsBut (s : State) (set : Link → Link) : s.sameRegsBut (s.inhibitBegun set) inhibitOffs :=
  fun off hoff => by
    obtain ⟨hskip, hsending⟩ : off ≠ Reg.LS_SKIP_COUNT.off ∧ off ≠ Reg.LINK_INHIBIT_sending.off := by simpa [inhibitOffs] using hoff
    calc (s.inhibitBegun set).reg off
      _ = s.retireBound.reg off := State.reg_set_ne _ _ off 1 hsending
      _ = s.reg off := s.retireBound_sameRegsBut off (by simpa using hskip)

theorem State.inhibitBegun_link (s : State) (set : Link → Link) : (s.inhibitBegun set).link = set s.link :=
  congrArg set s.retireBound_link

/-- What leaves when the pin begins an inhibit: what the lines already bound give out, then a block on every active lane. -/
theorem State.inhibitBegun_blocks (s : State) {set : Link → Link} (hseq : ∀ l, (set l).inhibitSeq = l.inhibitSeq)
    (hscr : ∀ l, (set l).scrambler = l.scrambler) :
    ∃ idles : Nat → Nat, ((s.inhibitBegun set).inhibitAll true).out =
      s.retireBound.out ++ s.activeLanes.map fun n => s.inhibitOut n (idles n) := by
  obtain ⟨idles, hout⟩ := (s.inhibitBegun set).inhibitAll_out
  have hregs := s.inhibitBegun_sameRegsBut set
  have hlink := s.inhibitBegun_link set
  rw [State.activeLanes_congr hregs, State.inhibitOut_congr hregs (by rw [hlink, hseq]) (by rw [hlink, hscr])] at hout
  exact ⟨idles, hout⟩

/-- The state in which the release blocks of an inhibit that ends leave. -/
def State.inhibitOver (s : State) (set : Link → Link) : State :=
  ((s.retireBound.modLink set).modSched fun c => { c with inhibitFrom := none }).clear Reg.LINK_INHIBIT_sending

/-- With no cause left, the end of an inhibit only sends its release blocks. -/
theorem State.endInhibit_of_last {s : State} (set : Link → Link) (h : (s.retireBound.modLink set).inhibiting = false) :
    (s.inhibitOver set).onlySends (s.endInhibit set) := by
  unfold State.endInhibit
  simp only [h]
  exact foldl_keeps (s.inhibitOver set).onlySends _ (fun u _ hu => hu.trans (u.inhibitAll_onlySends false)) _ _ rfl

theorem State.inhibitOver_on_sending (s : State) (set : Link → Link) : (s.inhibitOver set).on Reg.LINK_INHIBIT_sending = false := by
  unfold State.inhibitOver State.clear State.on
  rw [State.get_set_self _ _ _ (by decide)]; rfl

/-! ### The commands -/

theorem exec_fireInhibitAssert_of_accepted {low : Nat} (dt : Nat) (s : State) (h : 2 ≤ low) :
    exec (.fireInhibitAssert dt low) s = .next (s.advance dt).assertInhibit := by
  show execFireInhibitAssert dt low s = _
  unfold execFireInhibitAssert; rw [if_pos h]

theorem exec_inhibitBlockRepeat (dt : Nat) (s : State) :
    exec (.inhibitBlockRepeat dt) s = .next (if s.inhibiting then (s.advance dt).inhibitAll true else s.advance dt) := by
  show (if s.inhibiting then _ else _) = _
  split <;> rfl

theorem exec_fireInhibitRelease_of_short {high : Nat} (dt : Nat) (s : State) (h : high < 2) :
    exec (.fireInhibitRelease dt high) s = .next (s.advance dt) := if_pos h

theorem exec_fireInhibitRelease_of_pin {high : Nat} (dt : Nat) {s : State} (h : 2 ≤ high) (hpin : s.link.inhibitPin = true) :
    exec (.fireInhibitRelease dt high) s = .next (((s.advance dt).endInhibit fun l => { l with inhibitPin := false }).modPower
      fun p => { p with fireInhibit := false }) :=
  (if_neg (by omega)).trans (if_pos hpin)

/-- Settles O20: the accepted pin raises LINK_INHIBIT.sending over the retired lines and sends on every active lane, whose registers,
sequence numbers and scramblers retiring leaves alone; the release takes the last cause away. -/
theorem fireInhibit : Obligations.FireInhibit := by
  refine ⟨fun dt low s hlow hfirst => ?_, fun dt s => ?_, fun dt s hinh => ?_, fun dt s hnone => ?_, fun dt high s hhigh hpin hrev hhalt => ?_,
    fun dt high s hshort => exec_fireInhibitRelease_of_short dt s hshort⟩
  · -- the pin is accepted low and is the first cause
    refine ⟨_, exec_fireInhibitAssert_of_accepted dt s hlow, ?_⟩
    unfold State.assertInhibit
    rw [State.startInhibit_of_first (s := s.advance dt) _ hfirst]
    have hsent := ((s.advance dt).inhibitBegun fun l => { l with inhibitPin := true }).inhibitAll_onlySends true
    refine ⟨?_, ?_, rfl, (s.advance dt).inhibitBegun_blocks (fun _ => rfl) fun _ => rfl⟩
    · exact (hsent.on _).trans (State.on_raise_self _ _ (by decide) rfl)
    · exact hsent.inhibitPin.trans (congrArg Link.inhibitPin (State.inhibitBegun_link _ _))
  · -- a low level of 0 ns draws a free value and no more
    exact ⟨{ s.advance dt with free := s.free + 1 }, rfl, rfl, rfl, rfl, rfl, rfl⟩
  · -- one more block on each active lane
    rw [exec_inhibitBlockRepeat, if_pos hinh]
    exact ⟨_, rfl, (s.advance dt).inhibitAll_out⟩
  · rw [exec_inhibitBlockRepeat, hnone]; rfl
  · -- the pin was the last cause
    refine ⟨_, exec_fireInhibitRelease_of_pin dt hhigh hpin, ?_⟩
    have hlast : ((s.advance dt).retireBound.modLink fun l => { l with inhibitPin := false }).inhibiting = false := by
      simp [State.inhibiting, State.advance, hrev, hhalt]
    have hsent := State.endInhibit_of_last _ hlast
    exact ⟨(hsent.on _).trans (State.inhibitOver_on_sending _ _), hsent.inhibitPin, rfl, congrArg Sched.inhibitFrom hsent.sched⟩

end Sys2Proof.Machine

/-! SUPPORT. Proof of the statement of the observer (R53, R56, R62, R64, R82): what leaves the observer alone, what only moves compare
units, and what starts no source. -/

namespace Sys2Proof.Machine

/-! ### What leaves the observer and its registers alone -/

/-- From s to t nothing happened to the observer, the compare units and the registers of chapters 02 to 04 (Table 20-1). -/
def State.sameWeb (s t : State) : Prop := t.obs = s.obs ∧ ∀ off, 0x100000 ≤ off → off < 0x180000 → t.reg off = s.reg off

theorem State.sameWeb_of_eq {s t : State} (hobs : t.obs = s.obs) (hregs : t.regs = s.regs) : s.sameWeb t :=
  ⟨hobs, fun off _ _ => congrArg (Tab.get resetVal · off) hregs⟩

theorem State.sameWeb.refl (s : State) : s.sameWeb s := State.sameWeb_of_eq rfl rfl

theorem State.sameWeb.trans {s t u : State} (h : s.sameWeb t) (h' : t.sameWeb u) : s.sameWeb u :=
  ⟨h'.1.trans h.1, fun off hlo hhi => (h'.2 off hlo hhi).trans (h.2 off hlo hhi)⟩

theorem State.sameWeb.ite {s t : State} {c : Prop} [Decidable c] (h : s.sameWeb t) : s.sameWeb (if c then t else s) := by
  split
  · exact h
  · exact .refl s

theorem State.sameWeb_foldl {β : Type} {f : State → β → State} (hf : ∀ (u : State) (b : β), u.sameWeb (f u b)) (l : List β) (s : State) :
    s.sameWeb (l.foldl f s) :=
  foldl_keeps s.sameWeb f (fun u b h => h.trans (hf u b)) l s (.refl s)

theorem State.sameWeb.get {s t : State} (h : s.sameWeb t) {f : Fld} (hlo : 0x100000 ≤ f.off) (hhi : f.off < 0x180000) :
    t.get f = s.get f := by
  unfold State.get; rw [h.2 _ hlo hhi]

theorem State.onlySends.sameWeb {s t : State} (h : s.onlySends t) : s.sameWeb t := by
  rw [h]; exact State.sameWeb_of_eq rfl rfl

theorem State.onlyRetires.sameWeb {s t : State} (h : s.onlyRetires t) : s.sameWeb t :=
  ⟨by rw [h.1], fun off _ hhi => h.2 off (by simp only [Reg.LS_SKIP_COUNT, List.mem_singleton]; omega)⟩

/-- A register outside chapters 02 to 04 may change. -/
theorem State.set_sameWeb (s : State) {f : Fld} (v : Nat) (h : f.off < 0x100000 ∨ 0x180000 ≤ f.off) : s.sameWeb (s.set f v) :=
  ⟨rfl, fun off hlo hhi => s.reg_set_ne f off v (by omega)⟩

theorem State.raise_sameWeb (s : State) {f : Fld} (h : f.off < 0x100000 ∨ 0x180000 ≤ f.off) : s.sameWeb (s.raise f) :=
  s.set_sameWeb 1 h

/-! ### Events (R387, R410, R518) -/

theorem State.sendVector_sameWeb (s : State) (v : Nat) : s.sameWeb (s.sendVector v) := by
  unfold State.sendVector
  simp only
  split <;> exact State.sameWeb_of_eq rfl rfl

theorem State.raiseCause_sameWeb (s : State) (i : Nat) : s.sameWeb (s.raiseCause i) := by
  have hraise : s.sameWeb (s.raise ⟨Reg.GLB_CAUSE_classes.off, i, 1⟩) :=
    s.raise_sameWeb (.inl (by decide : Reg.GLB_CAUSE_classes.off < 0x100000))
  unfold State.raiseCause
  simp only
  split
  · exact hraise.trans (State.sendVector_sameWeb _ _)
  · exact hraise

/-- The registers of the rings the host consumes lie behind those of the head link. -/
theorem onRing_off_ge (k : Nat) (f : Fld) : 0x180000 ≤ (onRing k f).off := by
  simp only [onRing, ringBase]
  split
  · omega
  · split <;> omega

theorem State.moderate_sameWeb (s : State) (k : Nat) (urgent : Bool) : s.sameWeb (s.moderate k urgent) := by
  unfold State.moderate
  split
  · exact .refl s
  · exact ((s.set_sameWeb 0 (.inr (onRing_off_ge _ _))).trans (State.sendVector_sameWeb _ _)).ite

theorem State.writeEntry_sameWeb (s : State) (k : Nat) (entry : List (BitVec 8)) (urgent : Bool) : s.sameWeb (s.writeEntry k entry urgent) := by
  unfold State.writeEntry
  refine State.sameWeb.trans ?_ (State.moderate_sameWeb _ _ _)
  exact State.set_sameWeb (s.emit _) _ (.inr (onRing_off_ge k _))

theorem State.loseEvent_sameWeb (s : State) : s.sameWeb s.loseEvent :=
  ((s.set_sameWeb _ (.inr (by decide))).trans (State.raise_sameWeb _ (.inr (by decide)))).trans (State.raiseCause_sameWeb _ _)

theorem State.ringEvent_sameWeb (s : State) (e : EventRec) : s.sameWeb (s.ringEvent e) := by
  unfold State.ringEvent
  refine State.sameWeb.ite ?_
  split
  · exact s.writeEntry_sameWeb _ _ _
  · exact s.loseEvent_sameWeb

/-- Posting an event touches the log, the rings, GLB_CAUSE and the registers of the host rings. -/
theorem State.post_sameWeb (s : State) (code : Nat) (args : List EArg) : s.sameWeb (s.post code args) :=
  State.sameWeb.trans (State.raiseCause_sameWeb (s.logEvent _) _) (State.ringEvent_sameWeb _ _)

/-! ### PRINT_OK, the inhibit, partings -/

theorem State.ceilingLow_sameWeb (s : State) : s.sameWeb s.ceilingLow := by
  have hset : s.sameWeb (((s.set Reg.LS_CEILING_ceiling 0).set Reg.LS_CEILING_code 6).set Reg.LS_CEIL_DETAIL_detail 0) :=
    ((s.set_sameWeb 0 (.inr (by decide))).trans (State.set_sameWeb _ 6 (.inr (by decide)))).trans (State.set_sameWeb _ 0 (.inr (by decide)))
  exact hset.trans (State.sameWeb_of_eq rfl rfl)

theorem State.refresh_sameWeb (s : State) : s.sameWeb s.refresh := by
  unfold State.refresh
  simp only
  generalize s.lowCause = c
  have hcause : s.sameWeb ((s.set Reg.GLB_STATUS_low_cause c).modPower fun p => { p with printOk := c == 0 }) :=
    (s.set_sameWeb c (.inl (by decide))).trans (State.sameWeb_of_eq rfl rfl)
  have hshown := hcause.trans (State.set_sameWeb (f := Reg.TALLY_STATUS_self_fit) _ (b2n s.fit) (.inr (by decide)))
  split
  · exact hshown
  · refine hshown.trans (State.sameWeb.trans (State.ceilingLow_sameWeb _) ?_)
    refine State.sameWeb.ite (State.sameWeb.trans ?_ (State.raiseCause_sameWeb _ _))
    split
    · exact .refl _
    · exact State.post_sameWeb _ _ _

theorem State.startInhibit_sameWeb (s : State) (set : Link → Link) : s.sameWeb (s.startInhibit set) := by
  have hretired : s.sameWeb (s.retireBound.modLink set) := s.retireBound_onlyRetires.sameWeb
  unfold State.startInhibit
  simp only
  split
  · exact hretired
  · refine State.sameWeb.trans ?_ (State.inhibitAll_onlySends _ true).sameWeb
    refine State.sameWeb.trans ?_ (State.raise_sameWeb _ (.inr (by decide)))
    exact hretired.trans (State.sameWeb_of_eq rfl rfl)

theorem State.endInhibit_sameWeb (s : State) (set : Link → Link) : s.sameWeb (s.endInhibit set) := by
  have hretired : s.sameWeb (s.retireBound.modLink set) := s.retireBound_onlyRetires.sameWeb
  unfold State.endInhibit
  simp only
  split
  · exact hretired
  · refine State.sameWeb.trans ?_ (State.sameWeb_foldl (fun u _ => (u.inhibitAll_onlySends false).sameWeb) _ _)
    refine State.sameWeb.trans ?_ (State.set_sameWeb _ 0 (.inr (by decide)))
    exact hretired.trans (State.sameWeb_of_eq rfl rfl)

theorem State.haltParting_sameWeb (s : State) (starts : List Nat) : s.sameWeb (s.haltParting starts) := by
  unfold State.haltParting
  split
  · exact .ite (State.refresh_sameWeb ((s.modTally _).modPower _))
  · exact .refl s

theorem State.partings_sameWeb (s : State) : s.sameWeb s.partings := by
  unfold State.partings
  refine State.sameWeb.ite ?_
  simp only
  split
  · exact .refl s
  · refine State.sameWeb.trans ?_ (State.haltParting_sameWeb _ _)
    split
    · exact State.sameWeb_foldl (fun u _ => u.post_sameWeb _ _) _ (s.modSched _)
    · exact .refl s

/-! ### Stamps of camera ports (R290) -/

theorem State.postCam_sameWeb (s : State) (p code : Nat) (limited : Bool) (f : Fld) (args : List EArg) (h : 0x180000 ≤ f.off) :
    s.sameWeb (s.postCam p code limited (some f) args) := by
  have hraised : s.sameWeb (((s.onCam p fun c => { c with posted := (code, s.beat) :: c.posted.filter (fun e => e.1 != code) }).raise f).raise
      ⟨Reg.ASSAY_STATUS_ports.off, p, 1⟩) :=
    (State.raise_sameWeb (s.onCam p _) (.inr h)).trans (State.raise_sameWeb _ (.inr (by decide : 0x180000 ≤ Reg.ASSAY_STATUS_ports.off)))
  exact (hraised.trans (State.post_sameWeb _ _ _)).ite

theorem State.pushStamp_sameWeb (s : State) (p : Nat) (x : Int) (t unit : Nat) : s.sameWeb (s.pushStamp p x t unit) := by
  unfold State.pushStamp
  refine State.sameWeb.ite ?_
  simp only
  split
  · refine State.sameWeb.trans ?_ (State.postCam_sameWeb _ _ _ _ _ _ (by simp only [Reg.CAMp_STATUS_lost_seen]; omega))
    exact State.set_sameWeb (s.setCam p _) _ (.inr (by simp only [Reg.CAMp_ERRCNT_B_stamps_lost]; omega))
  · exact State.sameWeb_of_eq rfl rfl

/-! ### What only moves compare units -/

/-- From s to t nothing of the observer changed but records of compare units. -/
def State.onlyCmp (s t : State) : Prop := t.obs = { s.obs with cmp := t.obs.cmp }

theorem State.onlyCmp.refl (s : State) : s.onlyCmp s := rfl

theorem State.onlyCmp.trans {s t u : State} (h : s.onlyCmp t) (h' : t.onlyCmp u) : s.onlyCmp u :=
  Eq.trans h' (by rw [h])

theorem State.onlyCmp.ite {s t : State} {c : Prop} [Decidable c] (h : s.onlyCmp t) : s.onlyCmp (if c then t else s) := by
  split
  · exact h
  · exact .refl s

theorem State.onlyCmp.cond {s t u : State} {c : Prop} [Decidable c] (h : s.onlyCmp t) (h' : s.onlyCmp u) : s.onlyCmp (if c then t else u) := by
  split
  · exact h
  · exact h'

theorem State.onlyCmp_foldl {β : Type} {f : State → β → State} (hf : ∀ (u : State) (b : β), u.onlyCmp (f u b)) (l : List β) (s : State) :
    s.onlyCmp (l.foldl f s) :=
  foldl_keeps s.onlyCmp f (fun u b h => h.trans (hf u b)) l s (.refl s)

theorem State.sameWeb.onlyCmp {s t : State} (h : s.sameWeb t) : s.onlyCmp t := by
  unfold State.onlyCmp; rw [h.1]

theorem State.onlyCmp.inst {s t : State} (h : s.onlyCmp t) : t.obs.inst = s.obs.inst := by rw [h]
theorem State.onlyCmp.last {s t : State} (h : s.onlyCmp t) : t.obs.last = s.obs.last := by rw [h]

theorem State.setCmp_onlyCmp (s : State) (n : Nat) (c : Compare) : s.onlyCmp (s.setCmp n c) := rfl

/-- An event of a unit is posted after its moment was noted. -/
theorem State.onCmp_post_onlyCmp (s : State) (n code : Nat) (f : Compare → Compare) (args : List EArg) :
    s.onlyCmp ((s.onCmp n f).post code args) :=
  (s.setCmp_onlyCmp n _).trans (State.post_sameWeb _ code args).onlyCmp

theorem State.postMissed_onlyCmp (s : State) (n : Nat) (c : Compare) : s.onlyCmp (s.postMissed n c) :=
  (s.onCmp_post_onlyCmp n _ _ _).ite

theorem State.afterPulse_onlyCmp (s : State) (n : Nat) (back : Bool) : s.onlyCmp (s.afterPulse n back) := by
  unfold State.afterPulse
  simp only
  split
  · rfl
  · split
    · rfl
    · exact State.onlyCmp.trans rfl (State.postMissed_onlyCmp _ _ _)

/-- A pulse of unit n at TB3 time t as the unit and its registers show it (R75, R79). -/
def State.pulseShown (s : State) (n t : Nat) : State :=
  let c := s.cmp n
  (((if c.active then s.raise (Reg.CMPn_STATUS_overlap n) else s).setCmp n
    { c with active := true, until_ := s.beat + max 1 (s.get (Reg.CMPn_WIDTH_width n)) }).set2
    (Reg.CMPn_LAST_TIME_LO n) (Reg.CMPn_LAST_TIME_HI n) t).setI2 (Reg.CMPn_LAST_POS_LO n) (Reg.CMPn_LAST_POS_HI n) c.form

/-- A pulse is shown, may leave a stamp with a camera port, and settles what the unit does next. -/
theorem State.pulse_eq_afterPulse (s : State) (n t : Nat) (back : Bool) :
    ∃ u, (s.pulseShown n t).sameWeb u ∧ s.pulse n t back = u.afterPulse n back := by
  refine ⟨_, ?_, rfl⟩
  split
  · exact State.pushStamp_sameWeb _ _ _ _ _
  · exact .refl _

theorem State.pulseShown_onlyCmp (s : State) (n t : Nat) : s.onlyCmp (s.pulseShown n t) := by
  have hraised : s.onlyCmp (if (s.cmp n).active = true then s.raise (Reg.CMPn_STATUS_overlap n) else s) := .ite rfl
  exact hraised.trans (State.setCmp_onlyCmp _ n _)

theorem State.pulse_onlyCmp (s : State) (n t : Nat) (back : Bool) : s.onlyCmp (s.pulse n t back) := by
  obtain ⟨u, hstamp, hpulse⟩ := s.pulse_eq_afterPulse n t back
  rw [hpulse]
  exact ((s.pulseShown_onlyCmp n t).trans hstamp.onlyCmp).trans (u.afterPulse_onlyCmp n back)

theorem State.settleMissed_onlyCmp (s : State) (n : Nat) : s.onlyCmp (s.settleMissed n) := by
  unfold State.settleMissed
  simp only
  split
  · refine State.onlyCmp.trans ?_ (State.pulse_onlyCmp _ _ _ _)
    split
    · exact State.onCmp_post_onlyCmp (s.raise _) _ _ _ _
    · rfl
  · exact State.onlyCmp.trans rfl (State.postMissed_onlyCmp _ _ _)

theorem State.settle_onlyCmp (s : State) (n : Nat) : s.onlyCmp (s.settle n) := by
  unfold State.settle
  simp only
  split
  · exact s.settleMissed_onlyCmp n
  · exact State.onlyCmp.trans rfl (State.postMissed_onlyCmp _ _ _)

theorem State.plan_onlyCmp (s : State) (n : Nat) : s.onlyCmp (s.plan n) := .cond rfl rfl

theorem State.unpredicted_onlyCmp (s : State) (n : Nat) (back : Bool) : s.onlyCmp (s.unpredicted n back) := by
  unfold State.unpredicted
  refine State.onlyCmp.trans ?_ (State.pulse_onlyCmp _ _ _ _)
  split
  · exact State.onCmp_post_onlyCmp (s.raise _) _ _ _ _
  · rfl

theorem State.cmpUpdate_onlyCmp (s : State) (n : Nat) : s.onlyCmp (s.cmpUpdate n) := by
  unfold State.cmpUpdate
  simp only
  refine .cond rfl (.cond rfl (.cond rfl (.cond (.cond rfl ?crossed) (.cond ?missed (.cond ?planned rfl)))))
  case crossed => exact (s.setCmp_onlyCmp n _).trans (State.unpredicted_onlyCmp _ n _)
  case missed => exact (s.setCmp_onlyCmp n _).trans (State.settle_onlyCmp _ n)
  case planned => exact (s.setCmp_onlyCmp n _).trans (State.plan_onlyCmp _ n)

theorem State.cmpWeb_onlyCmp (s : State) : s.onlyCmp s.cmpWeb :=
  State.onlyCmp_foldl (fun u n => (u.cmpUpdate_onlyCmp n).ite) _ s

theorem State.cmpResume_onlyCmp (s : State) : s.onlyCmp s.cmpResume := by
  refine State.onlyCmp_foldl (fun u n => State.onlyCmp.ite ?_) _ s
  simp only
  split
  · exact State.onlyCmp.trans rfl (State.settle_onlyCmp _ n)
  · rfl

/-! ### What starts no source and updates none -/

/-- From s to t no source was updated or started, and each source can run as before. -/
def State.sourcesStay (s t : State) : Prop :=
  ∀ k < 5, (t.inst k).tu = (s.inst k).tu ∧ (t.live k = true → s.live k = true) ∧ t.alive k = s.alive k

theorem State.sourcesStay.refl (s : State) : s.sourcesStay s := fun _ _ => ⟨rfl, id, rfl⟩

theorem State.sourcesStay.trans {s t u : State} (h : s.sourcesStay t) (h' : t.sourcesStay u) : s.sourcesStay u := fun k hk =>
  have ⟨htu, hlive, halive⟩ := h k hk
  have ⟨htu', hlive', halive'⟩ := h' k hk
  ⟨htu'.trans htu, hlive ∘ hlive', halive'.trans halive⟩

theorem State.sourcesStay.cond {s t u : State} {c : Prop} [Decidable c] (h : s.sourcesStay t) (h' : s.sourcesStay u) :
    s.sourcesStay (if c then t else u) := by
  split
  · exact h
  · exact h'

theorem State.sourcesStay_foldl {β : Type} {f : State → β → State} (hf : ∀ (u : State) (b : β), u.sourcesStay (f u b)) (l : List β)
    (s : State) : s.sourcesStay (l.foldl f s) :=
  foldl_keeps s.sourcesStay f (fun u b h => h.trans (hf u b)) l s (.refl s)

theorem State.alive_congr {s t : State} {k : Nat} (henc : t.get (Reg.ENCn_CFG_enable k) = s.get (Reg.ENCn_CFG_enable k))
    (hcfg : t.get Reg.WCS_CFG_enable = s.get Reg.WCS_CFG_enable) (hstale : t.get Reg.WCS_STATUS_stale = s.get Reg.WCS_STATUS_stale) :
    t.alive k = s.alive k := by
  simp only [State.alive, State.on, henc, hcfg, hstale]

theorem State.sameWeb.sourcesStay {s t : State} (h : s.sameWeb t) : s.sourcesStay t := fun k hk => by
  have hinst : t.inst k = s.inst k := by unfold State.inst; rw [h.1]
  have henc : 0x100000 ≤ (Reg.ENCn_CFG_enable k).off ∧ (Reg.ENCn_CFG_enable k).off < 0x180000 := by simp only [Reg.ENCn_CFG_enable]; omega
  exact ⟨by rw [hinst], fun hlive => by rwa [State.live, hinst] at hlive,
    State.alive_congr (h.get henc.1 henc.2) (h.get (by decide) (by decide)) (h.get (by decide) (by decide))⟩

/-- OBS_STATUS shows sources and moves none. -/
theorem State.set_obsStatus_sourcesStay (s : State) (f : Fld) (v : Nat) (h : f.off = Reg.OBS_STATUS_active.off) : s.sourcesStay (s.set f v) := by
  have hne (g : Fld) (hg : g.off ≠ Reg.OBS_STATUS_active.off) : (s.set f v).get g = s.get g := s.get_set_ne f g v (h ▸ hg)
  refine fun k hk => ⟨rfl, id, State.alive_congr (hne _ ?_) (hne _ (by decide)) (hne _ (by decide))⟩
  simp only [Reg.ENCn_CFG_enable, Reg.OBS_STATUS_active]; omega

theorem State.raise_obsStatus_sourcesStay (s : State) (f : Fld) (h : f.off = Reg.OBS_STATUS_active.off) : s.sourcesStay (s.raise f) :=
  s.set_obsStatus_sourcesStay f 1 h

theorem State.modObs_sourcesStay (s : State) {f : Observer → Observer} (h : (f s.obs).inst = s.obs.inst) : s.sourcesStay (s.modObs f) :=
  fun k _ => by
    have hinst : (s.modObs f).inst k = s.inst k := congrArg (fun m => Tab.get (fun _ => ({} : Instance)) m k) h
    unfold State.live
    rw [hinst]
    exact ⟨rfl, id, rfl⟩

theorem State.modSched_sourcesStay (s : State) (f : Sched → Sched) : s.sourcesStay (s.modSched f) :=
  (State.sameWeb_of_eq rfl rfl).sourcesStay

theorem State.inst_setInst_self (s : State) (k : Nat) (i : Instance) : (s.setInst k i).inst k = i := Tab.get_set_self _ _ _ _

theorem State.inst_setInst_ne (s : State) {k j : Nat} (i : Instance) (h : j ≠ k) : (s.setInst k i).inst j = s.inst j :=
  Tab.get_set_ne _ _ _ _ _ h

theorem State.setInst_sourcesStay (s : State) (k : Nat) (i : Instance) (htu : i.tu = (s.inst k).tu)
    (hrun : i.running = true → (s.inst k).running = true) : s.sourcesStay (s.setInst k i) := fun j _ => by
  unfold State.live
  by_cases hj : j = k
  · subst hj; rw [s.inst_setInst_self]; exact ⟨htu, hrun, rfl⟩
  · rw [s.inst_setInst_ne i hj]; exact ⟨rfl, id, rfl⟩

/-! ### Sources hand over (R62 to R64) -/

theorem State.dropPosition_sourcesStay (s : State) : s.sourcesStay s.dropPosition := by
  unfold State.dropPosition
  refine State.sourcesStay.trans (t := s.clear Reg.OBS_STATUS_pos_valid) (s.set_obsStatus_sourcesStay _ 0 rfl) ?_
  refine State.sourcesStay_foldl (fun u n => .cond ?_ (.refl u)) _ _
  exact u.modObs_sourcesStay rfl

theorem State.startSlew_sourcesStay (s : State) (d : Int) : s.sourcesStay (s.startSlew d) := s.modObs_sourcesStay rfl

theorem State.post_sourcesStay (s : State) (code : Nat) (args : List EArg) : s.sourcesStay (s.post code args) :=
  (s.post_sameWeb code args).sourcesStay

theorem State.refresh_sourcesStay (s : State) : s.sourcesStay s.refresh := s.refresh_sameWeb.sourcesStay

theorem State.postSwitch_sourcesStay (s : State) (old new : Nat) (d : Int) : s.sourcesStay (s.postSwitch old new d) :=
  (s.raise_obsStatus_sourcesStay Reg.OBS_STATUS_switched rfl).trans (State.post_sourcesStay _ _ _)

theorem State.losePosition_sourcesStay (s : State) (pos : Int) : s.sourcesStay (s.losePosition pos) := by
  unfold State.losePosition
  simp only
  refine State.sourcesStay.trans ?_ (State.refresh_sourcesStay _)
  refine State.sourcesStay.trans ?_ (State.post_sourcesStay _ _ _)
  refine State.sourcesStay.trans ?_ (State.modSched_sourcesStay _ _)
  refine State.sourcesStay.trans ?_ (State.raise_obsStatus_sourcesStay _ Reg.OBS_STATUS_lost rfl)
  refine State.sourcesStay.trans ?_ (State.dropPosition_sourcesStay _)
  refine State.sourcesStay.trans ?_ (State.set_obsStatus_sourcesStay _ Reg.OBS_STATUS_active 7 rfl)
  exact s.modObs_sourcesStay rfl

theorem State.moveOn_sourcesStay (s : State) (old : Nat) (pos : Int) : s.sourcesStay (s.moveOn old pos) := by
  unfold State.moveOn
  split
  · exact s.losePosition_sourcesStay pos
  · next j _ =>
    simp only
    refine State.sourcesStay.trans ?_ (State.postSwitch_sourcesStay _ _ _ _)
    refine State.sourcesStay.trans ?_ (State.startSlew_sourcesStay _ _)
    refine State.sourcesStay.trans ?_ (State.sourcesStay_foldl (fun u k => .cond ?_ (.refl u)) _ _)
    · refine State.sourcesStay.trans ?_ (State.set_obsStatus_sourcesStay _ Reg.OBS_STATUS_active j rfl)
      exact s.setInst_sourcesStay j _ rfl id
    · exact u.setInst_sourcesStay k _ rfl id

theorem State.setRemoved_sourcesStay (s : State) (k : Nat) (b : Bool) : s.sourcesStay (s.setRemoved k b) :=
  .cond (s.set_obsStatus_sourcesStay _ _ rfl) (s.set_obsStatus_sourcesStay _ _ rfl)

theorem State.stopSource_sourcesStay (s : State) (k : Nat) (failed : Bool) : s.sourcesStay (s.stopSource k failed) := by
  have hstopped : s.sourcesStay (s.setInst k { s.inst k with running := false }) := s.setInst_sourcesStay k _ rfl (by simp)
  have hmarked := hstopped.trans (.cond (c := failed = true) (State.setRemoved_sourcesStay _ k true) (.refl _))
  exact .cond (.cond (hmarked.trans (State.moveOn_sourcesStay _ _ _)) hmarked) (.cond (s.setRemoved_sourcesStay k true) (.refl s))

theorem State.formBlend_sourcesStay (s : State) (tell : Bool) : s.sourcesStay (s.formBlend tell) := by
  have hformed : s.sourcesStay ((s.modObs fun o => { o with pair := (s.primary, s.get Reg.OBS_SRC_secondary) }).set Reg.OBS_STATUS_active 5) :=
    State.sourcesStay.trans (s.modObs_sourcesStay rfl) (State.set_obsStatus_sourcesStay _ Reg.OBS_STATUS_active 5 rfl)
  have hslewing (d : Int) := hformed.trans (State.startSlew_sourcesStay _ d)
  exact .cond (.refl s) (.cond ((hslewing _).trans (State.postSwitch_sourcesStay _ _ _ _)) (hslewing _))

theorem State.followMode_sourcesStay (s : State) : s.sourcesStay s.followMode :=
  State.sourcesStay.trans (.cond (s.moveOn_sourcesStay 5 s.webPos) (.refl s)) (State.formBlend_sourcesStay _ true)

theorem State.checkSource_sourcesStay (s : State) (k : Nat) : s.sourcesStay (s.checkSource k) := by
  unfold State.checkSource
  split
  · exact .refl s
  · refine .cond (.cond ?_ ?_) (.refl s)
    · -- the source that R61 removes
      refine State.sourcesStay.trans ?_ (State.stopSource_sourcesStay _ _ true)
      exact (s.raise_obsStatus_sourcesStay Reg.OBS_STATUS_slip rfl).trans (State.post_sourcesStay _ _ _)
    · -- D_ref's low-pass, after a free value
      exact State.setInst_sourcesStay s.drawInt.2 k _ rfl id

/-! ### A source that cannot run -/

/-- Source k does not run and cannot. -/
abbrev State.idle (s : State) (k : Nat) : Prop := s.live k = false ∧ s.alive k = false

theorem State.sourcesStay.idle {s t : State} (h : s.sourcesStay t) {k : Nat} (hk : k < 5) (hidle : s.idle k) : t.idle k := by
  obtain ⟨-, hlive, halive⟩ := h k hk
  obtain ⟨hstopped, hcannot⟩ := hidle
  refine ⟨Bool.eq_false_iff.mpr fun hrun => ?_, halive.trans hcannot⟩
  rw [hlive hrun] at hstopped; cases hstopped

/-- What starts is another source. -/
theorem State.startSource_idle {s : State} {j k : Nat} (p : Int) (hk : k < 5) (hne : k ≠ j) (h : s.idle k) : (s.startSource j p).idle k := by
  have hset (t : State) (i : Instance) (ht : t.idle k) : (t.setInst j i).idle k := by
    refine ⟨?_, ht.2⟩
    unfold State.live; rw [t.inst_setInst_ne i hne]; exact ht.1
  unfold State.startSource
  simp only
  split
  · exact hset s _ h
  split
  · exact (State.set_obsStatus_sourcesStay _ Reg.OBS_STATUS_active j rfl).idle hk (hset s _ h)
  · exact (State.formBlend_sourcesStay _ _).idle hk (hset _ _ (hset _ _ (hset s _ h)))

/-- R62 starts only sources that can run. -/
theorem State.sources_idle {s : State} {k : Nat} (hk : k < 5) (h : s.idle k) : s.sources.idle k := by
  unfold State.sources
  simp only
  have hstarted : ((s.primary :: s.secondary.toList).foldl (fun (s : State) k =>
      if s.alive k && !s.live k && !s.removed k then s.startSource k (s.encCount k * 65536) else s) s).idle k := by
    refine foldl_keeps (State.idle · k) _ (fun u j hu => ?_) _ s h
    split
    next hstart =>
      have hne : k ≠ j := by rintro rfl; simp [hu.2] at hstart
      exact State.startSource_idle _ hk hne hu
    next => exact hu
  have hstopped := State.sourcesStay_foldl (f := fun (s : State) k =>
      if s.live k && !s.named k then s.stopSource k false else if s.live k && !s.alive k then s.stopSource k true else s)
    (fun u j => .cond (u.stopSource_sourcesStay j false) (.cond (u.stopSource_sourcesStay j true) (.refl u))) (List.range 5)
  have hfollowed := (State.followMode_sourcesStay _).idle hk ((hstopped _).idle hk hstarted)
  split
  · exact hfollowed
  · exact (State.refresh_sourcesStay _).idle hk ((State.dropPosition_sourcesStay _).idle hk hfollowed)

theorem State.stopSource_idle {s : State} {k : Nat} (hk : k < 5) (hlive : s.live k = true) (halive : s.alive k = false) :
    (s.stopSource k true).idle k := by
  have hoff : (s.setInst k { s.inst k with running := false }).idle k :=
    ⟨by unfold State.live; rw [s.inst_setInst_self], halive⟩
  have hmarked := (State.setRemoved_sourcesStay _ k true).idle hk hoff
  unfold State.stopSource
  simp only [hlive, if_true]
  split
  · exact (State.moveOn_sourcesStay _ _ _).idle hk hmarked
  · exact hmarked

/-! ### Updates (R53, R82) -/

theorem State.updateInst_tu (s : State) (k t : Nat) (err : Int → Int) : ((s.updateInst k t err).inst k).tu = t := by
  unfold State.updateInst
  simp only
  rw [State.inst_setInst_self]

theorem State.settleSlew_sourcesStay (s : State) : s.sourcesStay s.settleSlew := .cond (.refl s) (s.startSlew_sourcesStay _)

/-- Reversal moves HW and compare units and no source. -/
theorem State.reversal_inst (s : State) : s.reversal.obs.inst = s.obs.inst := by
  unfold State.reversal
  simp only
  split
  · split
    · rw [(State.cmpResume_onlyCmp _).inst, State.modObs_obs, (State.post_sameWeb _ _ _).1, (State.endInhibit_sameWeb _ _).1]; rfl
    · rfl
  · split
    · rw [(State.startInhibit_sameWeb _ _).1, (State.post_sameWeb _ _ _).1]; rfl
    · split <;> rfl

/-- After an update of source k, its t_u and the last update of the observer show the time of k's update, whatever the checks removed. -/
theorem State.updated_last (s : State) {k : Nat} (hk : k < 5) :
    ((s.updated k).inst k).tu = (s.inst k).tu ∧ (s.updated k).obs.last.t = (s.inst k).tu / 65536 := by
  unfold State.updated
  simp only
  generalize hu : ((List.range 5).foldl (fun s j => if j = k || s.reference == some k then s.checkSource j else s) s).settleSlew.reversal = u
  have htu : (u.inst k).tu = (s.inst k).tu := by
    have hchecked := State.sourcesStay_foldl (fun (v : State) j => .cond (c := (j = k || v.reference == some k) = true)
      (v.checkSource_sourcesStay j) (.refl v)) (List.range 5) s
    rw [← hu, State.inst, State.reversal_inst]
    exact (hchecked.trans (State.settleSlew_sourcesStay _) k hk).1
  have hlater := (u.noteUpdate k).cmpWeb_onlyCmp.trans (State.partings_sameWeb _).onlyCmp
  rw [State.inst, hlater.inst, hlater.last]
  exact ⟨htu, by rw [← htu]; rfl⟩

/-! ### Register pairs -/

theorem signed_mod (w n : Nat) : signed w (n % 2 ^ w) = signed w n := by
  unfold signed; rw [Nat.mod_mod]

theorem State.get_set2_ne (s : State) (lo hi f : Fld) (v : Nat) (h : f.off ≠ lo.off) (h' : f.off ≠ hi.off) :
    (s.set2 lo hi v).get f = s.get f :=
  (State.get_set_ne _ hi f _ h').trans (s.get_set_ne lo f v h)

/-- A pair reads as what was last written to it, cut to its width. -/
theorem State.get2_set2_self (s : State) (lo hi : Fld) (v : Nat) (hlo : lo.lo + lo.w ≤ 32) (hhi : hi.lo + hi.w ≤ 32) (hne : lo.off ≠ hi.off) :
    (s.set2 lo hi v).get2 lo hi = v % 2 ^ (lo.w + hi.w) := by
  unfold State.get2 State.set2
  rw [State.get_set_ne _ hi lo _ hne, State.get_set_self _ _ _ hlo, State.get_set_self _ _ _ hhi, Nat.pow_add, Nat.mod_mul]

theorem State.getI2_setI2_self (s : State) (lo hi : Fld) (v : Int) (hlo : lo.lo + lo.w ≤ 32) (hhi : hi.lo + hi.w ≤ 32) (hne : lo.off ≠ hi.off) :
    (s.setI2 lo hi v).getI2 lo hi = signed (lo.w + hi.w) (wrap (lo.w + hi.w) v) := by
  unfold State.getI2 State.setI2
  rw [State.get2_set2_self _ _ _ _ hlo hhi hne, signed_mod]

theorem State.get2_setI2_ne (s : State) (lo hi lo' hi' : Fld) (v : Int) (h : ∀ f ∈ [lo', hi'], f.off ≠ lo.off ∧ f.off ≠ hi.off) :
    (s.setI2 lo hi v).get2 lo' hi' = s.get2 lo' hi' := by
  have hget (f : Fld) (hf : f ∈ [lo', hi']) : (s.setI2 lo hi v).get f = s.get f := s.get_set2_ne lo hi f _ (h f hf).1 (h f hf).2
  unfold State.get2
  rw [hget lo' (by simp), hget hi' (by simp)]

theorem State.getI2_setI2_ne (s : State) (lo hi lo' hi' : Fld) (v : Int) (h : ∀ f ∈ [lo', hi'], f.off ≠ lo.off ∧ f.off ≠ hi.off) :
    (s.setI2 lo hi v).getI2 lo' hi' = s.getI2 lo' hi' := congrArg (signed _) (s.get2_setI2_ne lo hi lo' hi' v h)

/-! ### Readmission (R62) -/

/-- Keep that a removed source is to be told of at its next start (R62, R541). -/
def State.markReadmitted (s : State) (k : Nat) : State :=
  if s.removed k then s.setInst k { s.inst k with readmitted := true } else s

theorem State.markReadmitted_inst_self (s : State) (k : Nat) :
    (s.markReadmitted k).inst k = { s.inst k with readmitted := s.removed k || (s.inst k).readmitted } := by
  unfold State.markReadmitted
  split
  next h => rw [s.inst_setInst_self, h]; rfl
  next h => rw [Bool.eq_false_iff.mpr h]; rfl

theorem State.markReadmitted_inst_ne (s : State) {k j : Nat} (h : k ≠ j) : (s.markReadmitted j).inst k = s.inst k := by
  unfold State.markReadmitted
  split
  · exact s.inst_setInst_ne _ h
  · rfl

theorem State.markReadmitted_removed (s : State) (k j : Nat) : (s.markReadmitted j).removed k = s.removed k := by
  unfold State.markReadmitted
  split <;> rfl

theorem State.markReadmitted_inputs (s : State) (k : Nat) : (s.markReadmitted k).inputs = s.inputs := by
  unfold State.markReadmitted
  split <;> rfl

theorem State.foldl_markReadmitted_inst (l : List Nat) (s : State) (k : Nat) :
    (l.foldl State.markReadmitted s).inst k =
      { s.inst k with readmitted := decide (k ∈ l) && s.removed k || (s.inst k).readmitted } := by
  induction l generalizing s with
  | nil => simp
  | cons j rest ih =>
    rw [List.foldl_cons, ih, State.markReadmitted_removed]
    by_cases hj : k = j
    · subst hj
      cases hr : s.removed k <;> simp [State.markReadmitted_inst_self, hr]
    · simp [State.markReadmitted_inst_ne _ hj, hj]

/-- Every source removed is marked, and OBS_STATUS shows none removed. -/
def State.readmitted (s : State) : State :=
  ((((List.range 5).foldl State.markReadmitted s).modTime fun t => { t with seqExempt := true }).set Reg.OBS_STATUS_enc_removed 0).clear
    Reg.OBS_STATUS_remote_removed

theorem State.readmit_eq (s : State) : s.readmit = s.readmitted.sources := rfl

theorem State.readmitted_enc_removed (s : State) : s.readmitted.get Reg.OBS_STATUS_enc_removed = 0 := by
  unfold State.readmitted State.clear
  rw [State.get_set_beside _ _ _ _ (by decide) (by decide), State.get_set_self _ _ _ (by decide), Nat.zero_mod]

theorem State.readmitted_remote_removed (s : State) : s.readmitted.on Reg.OBS_STATUS_remote_removed = false := by
  unfold State.readmitted State.clear State.on
  rw [State.get_set_self _ _ _ (by decide)]
  rfl

theorem State.readmitted_inputs (s : State) : s.readmitted.inputs = s.inputs := by
  have hmarked := foldl_keeps (fun u : State => u.inputs = s.inputs) State.markReadmitted
    (fun u k hu => (u.markReadmitted_inputs k).trans hu) (List.range 5) s rfl
  unfold State.readmitted
  generalize (List.range 5).foldl State.markReadmitted s = u at hmarked ⊢
  exact hmarked

theorem State.readmitted_inst (s : State) {k : Nat} (hk : k < 5) :
    s.readmitted.inst k = { s.inst k with readmitted := s.removed k || (s.inst k).readmitted } := by
  have hmarked := State.foldl_markReadmitted_inst (List.range 5) s k
  rw [decide_eq_true (List.mem_range.mpr hk), Bool.true_and] at hmarked
  unfold State.readmitted
  generalize (List.range 5).foldl State.markReadmitted s = u at hmarked ⊢
  exact hmarked

/-! ### Resynchronisation (R64) -/

theorem State.blending_congr {s t : State} (hregs : t.regs = s.regs) (hlive : ∀ k, t.live k = s.live k) : t.blending = s.blending := by
  have hlive' : t.live = s.live := funext hlive
  unfold State.blending State.secondary State.primary State.srcMode State.get State.reg
  rw [hregs, hlive']

theorem State.live_setInst (s : State) (j : Nat) (i : Instance) (h : i.running = (s.inst j).running) (k : Nat) :
    (s.setInst j i).live k = s.live k := by
  unfold State.live
  by_cases hk : k = j
  · subst hk; rw [s.inst_setInst_self, h]
  · rw [s.inst_setInst_ne i hk]

/-- A source that runs gives the position z on at time t (R64). -/
def State.giveOn (z : Int) (t : Nat) (s : State) (j : Nat) : State :=
  if s.live j then s.setInst j { s.inst j with o := (s.inst j).o + z - s.estimate j t, dref := 0, drefAt := t } else s

theorem State.giveOn_regs (z : Int) (t : Nat) (s : State) (j : Nat) : (s.giveOn z t j).regs = s.regs := by
  unfold State.giveOn
  split <;> rfl

theorem State.giveOn_live (z : Int) (t : Nat) (s : State) (j k : Nat) : (s.giveOn z t j).live k = s.live k := by
  unfold State.giveOn
  split
  · refine s.live_setInst j _ ?_ k; rfl
  · rfl

/-- The observer after a resynchronisation, before OBS_STATUS shows what is active. -/
def State.resynced (s : State) : State :=
  ((List.range 5).foldl (State.giveOn s.obs.frozen s.now) s).modObs fun o => { o with
    lost := false, slew := 0, pair := (s.primary, s.get Reg.OBS_SRC_secondary) }

theorem State.resync_of_live {s : State} {k : Nat} (hlost : s.obs.lost = true) (hfirst : s.order.find? (fun j => s.live j) = some k) :
    s.resync = s.resynced.set Reg.OBS_STATUS_active (if s.resynced.blending then 5 else k) := by
  unfold State.resync
  rw [if_pos hlost, hfirst]
  rfl

theorem State.resynced_blending (s : State) : s.resynced.blending = s.blending := by
  have hregs := foldl_keeps (fun u : State => u.regs = s.regs) (State.giveOn s.obs.frozen s.now)
    (fun u j hu => (State.giveOn_regs _ _ u j).trans hu) (List.range 5) s rfl
  have hlive (k : Nat) := foldl_keeps (fun u : State => u.live k = s.live k) (State.giveOn s.obs.frozen s.now)
    (fun u j hu => (State.giveOn_live _ _ u j k).trans hu) (List.range 5) s rfl
  unfold State.resynced
  generalize (List.range 5).foldl (State.giveOn s.obs.frozen s.now) s = u at hregs hlive ⊢
  exact State.blending_congr hregs hlive

/-! ### The commands -/

/-- A command of a block whose domain is powered does its work. -/
theorem State.whenOn_of_powered {s : State} {d : Nat} (f : State → Result) (h : s.powered d = true) : s.whenOn d f = f s := if_pos h

theorem exec_observerTick_of_due {dt : Nat} {k : Fin 5} {s : State} (hon : s.powered 2 = true) (hrun : (s.inst k).running = true)
    (hdue : 0 < stampDiff ((s.advance dt).tb3 / 1000 * 1000 * 65536) (s.inst k).tu)
    (hedge : s.edgeIn k ((s.advance dt).tb3 / 1000 * 1000) = false)
    (hwait : k.val < 4 → s.edgeWaits k ((s.advance dt).tb3 / 1000 * 1000) = false) :
    ∃ err, exec (.observerTick dt k) s =
      .next (((s.advance dt).updateInst k ((s.advance dt).tb3 / 1000 * 1000 * 65536) err).updated k) := by
  refine ⟨if k.val = 4 then errNone else errBand ((s.advance dt).nearCount k ((s.advance dt).encCount k)), ?_⟩
  have hnowait : (decide (k.val < 4) && s.edgeWaits k ((s.advance dt).tb3 / 1000 * 1000)) = false := by
    by_cases hk : k.val < 4
    · rw [hwait hk, Bool.and_false]
    · simp [hk]
  have hcond : ((s.inst k).running && decide (0 < stampDiff ((s.advance dt).tb3 / 1000 * 1000 * 65536) (s.inst k).tu) &&
      !s.edgeIn k ((s.advance dt).tb3 / 1000 * 1000) && !(decide (k.val < 4) && s.edgeWaits k ((s.advance dt).tb3 / 1000 * 1000))) = true := by
    simp only [hrun, hdue, hedge, hnowait, decide_true, Bool.not_false, Bool.and_true]
  show execObserverTick dt k s = _
  unfold execObserverTick
  rw [State.whenOn_of_powered (s := s.advance dt) _ hon]
  simp only [Nat.mul_div_cancel _ (show 0 < 65536 by decide)]
  exact if_pos hcond

theorem exec_posValid_of_settled {dt k w : Nat} {s : State} (hon : s.powered 2 = true) (hk : s.reference = some k) (hw : s.settling = some w)
    (hsettled : (w : Int) ≤ stampDiff (s.advance dt).now (s.inst k).started) (hlost : s.obs.lost = false)
    (hsource : ∃ j < 4, s.named j = true ∧ s.alive j = true) :
    exec (.posValid dt) s = .next ((s.advance dt).raise Reg.OBS_STATUS_pos_valid).refresh := by
  have hany : (List.range 4).any (fun j => s.named j && s.alive j) = true := by
    obtain ⟨j, hj, hnamed, halive⟩ := hsource
    exact List.any_eq_true.mpr ⟨j, List.mem_range.mpr hj, by rw [hnamed, halive]; rfl⟩
  have hcond : (decide ((w : Int) ≤ stampDiff (s.advance dt).now (s.inst k).started) && !s.obs.lost &&
      (List.range 4).any (fun j => s.named j && s.alive j)) = true := by
    simp only [hsettled, hlost, hany, decide_true, Bool.not_false, Bool.and_true]
  have hk' : (s.advance dt).reference = some k := hk
  have hw' : (s.advance dt).settling = some w := hw
  show execPosValid dt s = _
  unfold execPosValid
  rw [State.whenOn_of_powered (s := s.advance dt) _ hon]
  simp only [hk', hw']
  exact if_pos hcond

theorem exec_sourceFailed_of_dead {dt : Nat} {k : Fin 5} {s : State} (hon : s.powered 2 = true) (hlive : s.live k = true)
    (hdead : s.alive k = false) : exec (.sourceFailed dt k) s = .next ((s.advance dt).stopSource k true).sources := by
  have hcond : (s.live k && !s.alive k) = true := by rw [hlive, hdead]; rfl
  show execSourceFailed dt k s = _
  unfold execSourceFailed
  rw [State.whenOn_of_powered (s := s.advance dt) _ hon]
  exact if_pos hcond

theorem exec_obsSnapshot_of_on (dt : Nat) {s : State} (h : s.dev ≠ stBoot) (hd : s.domainOff Reg.OBS_CTRL_snapshot.off = false) :
    exec (.obsSnapshot dt) s = .next (s.advance dt).obsSnapshot :=
  congrArg Host.Outcome.next (State.hostWrite_of_domainOn (s := s.advance dt) (off := Reg.OBS_CTRL_snapshot.off) State.obsSnapshot h hd)

theorem exec_obsReadmit_of_on (dt : Nat) {s : State} (h : s.dev ≠ stBoot) (hd : s.domainOff Reg.OBS_CTRL_readmit.off = false) :
    exec (.obsReadmit dt) s = .next (s.advance dt).readmit :=
  congrArg Host.Outcome.next (State.hostWrite_of_domainOn (s := s.advance dt) (off := Reg.OBS_CTRL_readmit.off) State.readmit h hd)

theorem exec_obsResync_of_on (dt : Nat) {s : State} (h : s.dev ≠ stBoot) (hd : s.domainOff Reg.OBS_CTRL_resync.off = false) :
    exec (.obsResync dt) s = .next (s.advance dt).resync :=
  congrArg Host.Outcome.next (State.hostWrite_of_domainOn (s := s.advance dt) (off := Reg.OBS_CTRL_resync.off) State.resync h hd)

/-- Settles O27: whatever an update removes or fires, no source is updated or started by it; what a readmission or a failed source starts
can run; a snapshot writes pairs that lie apart. That the tick of any source is the last update is the model's choice (log 22). -/
theorem observer : Obligations.Observer := by
  refine ⟨fun dt k s hon hrun hdue hedge hwait => ?_, fun dt k w s hon hk hw hsettled hlost hsource => ?_, fun dt k s hon hlive hdead => ?_,
    fun dt s hboot hd => ?_, fun dt s hboot hd => ?_, fun dt k s hboot hd hlost hfirst => ?_⟩
  · -- the tick's microsecond is t_u, and the last update's
    obtain ⟨err, hexec⟩ := exec_observerTick_of_due hon hrun hdue hedge hwait
    obtain ⟨htu, hlast⟩ := State.updated_last ((s.advance dt).updateInst k ((s.advance dt).tb3 / 1000 * 1000 * 65536) err) k.isLt
    rw [State.updateInst_tu] at htu hlast
    exact ⟨_, hexec, htu, hlast.trans (Nat.mul_div_cancel _ (by decide))⟩
  · -- POS_VALID
    refine ⟨_, exec_posValid_of_settled hon hk hw hsettled hlost hsource, ?_⟩
    have hkept := State.refresh_sameWeb ((s.advance dt).raise Reg.OBS_STATUS_pos_valid)
    have hraised := State.on_raise_self (s.advance dt) Reg.OBS_STATUS_pos_valid (by decide) rfl
    exact ⟨by rwa [State.on, hkept.get (by decide) (by decide)], hkept.1⟩
  · -- the source stops, and R62 starts none that cannot run
    exact ⟨_, exec_sourceFailed_of_dead hon hlive hdead,
      (State.sources_idle k.isLt (State.stopSource_idle (s := s.advance dt) k.isLt hlive hdead)).1⟩
  · -- the five pairs of a snapshot
    refine ⟨_, exec_obsSnapshot_of_on dt hboot hd, ?_⟩
    unfold State.obsSnapshot
    simp only
    refine ⟨?_, ?_, ?_, ?_, ?_, rfl, rfl⟩ <;>
      simp (disch := decide) only [State.get2_setI2_ne, State.get2_set2_self, State.getI2_setI2_ne, State.getI2_setI2_self] <;> rfl
  · -- every source is marked, then OBS_STATUS shows none removed
    exact ⟨(s.advance dt).readmitted, (exec_obsReadmit_of_on dt hboot hd).trans (by rw [State.readmit_eq]), State.readmitted_enc_removed _,
      State.readmitted_remote_removed _, State.readmitted_inputs _, fun k hk => State.readmitted_inst (s.advance dt) hk⟩
  · -- the first running source, or the blend
    refine ⟨_, exec_obsResync_of_on dt hboot hd, ?_⟩
    rw [State.resync_of_live (s := s.advance dt) hlost hfirst, State.resynced_blending]
    exact ⟨rfl, State.get_set_self _ _ _ (by decide)⟩

end Sys2Proof.Machine

/-! SUPPORT. Proof of the statement of the compare units (R69 to R79): arming, disarming, a pulse and its end. -/

namespace Sys2Proof.Machine

/-! ### Records of units and the fields of CMPn_STATUS -/

theorem State.cmp_setCmp_self (s : State) (n : Nat) (c : Compare) : (s.setCmp n c).cmp n = c := Tab.get_set_self _ _ _ _

theorem State.cmp_set (s : State) (f : Fld) (v n : Nat) : (s.set f v).cmp n = s.cmp n := rfl

theorem State.state_set_self (s : State) (n v : Nat) : (s.set (Reg.CMPn_STATUS_state n) v).get (Reg.CMPn_STATUS_state n) = v % 4 :=
  s.get_set_self _ v (by simp [Reg.CMPn_STATUS_state])

theorem State.state_raise_badTarget (s : State) (n : Nat) :
    (s.raise (Reg.CMPn_STATUS_bad_target n)).get (Reg.CMPn_STATUS_state n) = s.get (Reg.CMPn_STATUS_state n) :=
  s.get_set_beside _ _ 1 (by simp [Reg.CMPn_STATUS_bad_target]) (.inl (by simp [Reg.CMPn_STATUS_bad_target, Reg.CMPn_STATUS_state]))

/-! ### Arming (R71, R73, R74, R100) -/

/-- What an arm latches of the registers of unit n (R71): the target of a line index by the banks in force (R74). -/
def State.latched (s : State) (n : Nat) : Compare :=
  let raw := s.getI2 (Reg.CMPn_TARGET_LO n) (Reg.CMPn_TARGET_HI n)
  { s.cmp n with
    mode := s.get (Reg.CMPn_CFG_mode n), src := s.get (Reg.CMPn_CFG_src n), dir := s.get (Reg.CMPn_CFG_dir n)
    kind := s.get (Reg.CMPn_CFG_target_kind n), plane := s.get (Reg.CMPn_CFG_plane n)
    target := if s.get (Reg.CMPn_CFG_mode n) = 2 then (s.get2 (Reg.CMPn_TARGET_LO n) (Reg.CMPn_TARGET_HI n) : Nat)
      else if s.get (Reg.CMPn_CFG_target_kind n) = 1 then
        s.planeLine (s.placementAt (raw / 65536).toNat) (s.get (Reg.CMPn_CFG_plane n)) raw
      else raw
    due := none, committed := false, pulses := 0, dueBack := false }

/-- The registers call for a mode, a direction or a plane that does not exist: the unit stays idle (R8). -/
def State.armReserved (s : State) (n : Nat) : Bool :=
  s.get (Reg.CMPn_CFG_mode n) = 3 || (s.get (Reg.CMPn_CFG_mode n) ≠ 2 && s.get (Reg.CMPn_CFG_dir n) = 3) ||
    (s.get (Reg.CMPn_CFG_mode n) = 1 && s.get (Reg.CMPn_CFG_target_kind n) = 1 && 10 ≤ s.get (Reg.CMPn_CFG_plane n))

/-- They give a line index where the unit can compare none (R74). -/
def State.armBadTarget (s : State) (n : Nat) : Bool :=
  s.get (Reg.CMPn_CFG_target_kind n) = 1 && (s.get (Reg.CMPn_CFG_mode n) ≠ 1 || !s.streaming)

/-- An arm is refused, or the unit is armed and then found missed or planned. -/
theorem State.arm_eq (s : State) (n : Nat) :
    s.arm n =
      let s1 := s.clear (Reg.CMPn_STATUS_skip_count n)
      if s.armReserved n then s1.clear (Reg.CMPn_STATUS_state n)
      else if s.armBadTarget n then (s1.clear (Reg.CMPn_STATUS_state n)).raise (Reg.CMPn_STATUS_bad_target n)
      else
        let s2 := (s1.setCmp n { s.latched n with side := s.sideOf (s.latched n) }).set (Reg.CMPn_STATUS_state n) 1
        if s.get (Reg.CMPn_CFG_mode n) = 1 && !s.on Reg.OBS_STATUS_pos_valid then
          (s2.set (Reg.CMPn_STATUS_state n) 3).postMissed n (s.latched n)
        else if s.missed (s.latched n) then if s.cmpHeld n && s.on (Reg.CMPn_CFG_late_ok n) then s2 else s2.settleMissed n
        else if s.get (Reg.CMPn_CFG_mode n) = 1 && !s.cmpHeld n then s2.plan n
        else s2 := rfl

theorem State.arm_of_reserved {s : State} {n : Nat} (h : s.armReserved n = true) :
    s.arm n = (s.clear (Reg.CMPn_STATUS_skip_count n)).clear (Reg.CMPn_STATUS_state n) := by
  simp only [State.arm_eq, h, if_true]

theorem State.arm_of_badTarget {s : State} {n : Nat} (h : s.armReserved n = false) (hbad : s.armBadTarget n = true) :
    s.arm n = ((s.clear (Reg.CMPn_STATUS_skip_count n)).clear (Reg.CMPn_STATUS_state n)).raise (Reg.CMPn_STATUS_bad_target n) := by
  simp only [State.arm_eq, h, hbad, if_true, Bool.false_eq_true, if_false]

/-- A line index names a plane that exists, and the mode or the want of a stream keeps it from being compared. -/
theorem State.arm_of_lineIndex {s : State} {n : Nat} (hkind : s.get (Reg.CMPn_CFG_target_kind n) = 1)
    (hwhere : s.get (Reg.CMPn_CFG_mode n) = 2 ∨ s.get (Reg.CMPn_CFG_mode n) = 0 ∧ s.get (Reg.CMPn_CFG_dir n) ≠ 3 ∨
      s.get (Reg.CMPn_CFG_mode n) = 1 ∧ s.get (Reg.CMPn_CFG_dir n) ≠ 3 ∧ s.get (Reg.CMPn_CFG_plane n) < 10 ∧ s.streaming = false) :
    s.arm n = ((s.clear (Reg.CMPn_STATUS_skip_count n)).clear (Reg.CMPn_STATUS_state n)).raise (Reg.CMPn_STATUS_bad_target n) := by
  obtain hmode | ⟨hmode, hdir⟩ | ⟨hmode, hdir, hplane, hidle⟩ := hwhere
  · exact State.arm_of_badTarget (by simp [State.armReserved, hmode]) (by simp [State.armBadTarget, hkind, hmode])
  · exact State.arm_of_badTarget (by simp [State.armReserved, hmode, hdir]) (by simp [State.armBadTarget, hkind, hmode])
  · exact State.arm_of_badTarget (by simp [State.armReserved, hmode, hdir, Nat.not_le.mpr hplane]) (by simp [State.armBadTarget, hkind, hidle])

/-- A unit of mode 0 or 2 whose target is not missed is armed with what it latches. -/
theorem State.arm_of_ahead {s : State} {n : Nat} (h : s.armReserved n = false) (hgood : s.armBadTarget n = false)
    (hmode : s.get (Reg.CMPn_CFG_mode n) ≠ 1) (hahead : s.missed (s.latched n) = false) :
    s.arm n = ((s.clear (Reg.CMPn_STATUS_skip_count n)).setCmp n { s.latched n with side := s.sideOf (s.latched n) }).set
      (Reg.CMPn_STATUS_state n) 1 := by
  simp only [State.arm_eq, h, hgood, hmode, hahead, decide_false, Bool.false_and, Bool.false_eq_true, if_false]

theorem State.arm_ahead_armed {s : State} {n : Nat} (h : s.armReserved n = false) (hgood : s.armBadTarget n = false)
    (hmode : s.get (Reg.CMPn_CFG_mode n) ≠ 1) (hahead : s.missed (s.latched n) = false) :
    (s.arm n).armed n = true ∧ (s.arm n).cmp n = { s.latched n with side := s.sideOf (s.latched n) } ∧ (s.arm n).out = s.out := by
  rw [State.arm_of_ahead h hgood hmode hahead]
  rw [State.cmp_set, State.cmp_setCmp_self]
  refine ⟨?_, rfl, rfl⟩
  unfold State.armed
  rw [State.state_set_self]; rfl

/-- TB3 within 2^62 ns before a time has not reached it (R100). -/
theorem State.missed_of_before {s : State} {c : Compare} {target : Nat} (hmode : c.mode = 2) (htgt : c.target = target)
    (hlo : s.tb3 < target) (hhi : target < s.tb3 + 2 ^ 62) : s.missed c = false := by
  have hdiff : posDiff (s.tb3 : Int) target < 0 := by
    simp only [posDiff, signed, wrap]
    split <;> omega
  simp [State.missed, State.past, State.cmpPos, Compare.form, hmode, htgt, hdiff]

/-! ### Pulses (R75, R77, R79) -/

theorem State.afterPulse_of_single {s : State} {n : Nat} (back : Bool) (h : s.on (Reg.CMPn_CFG_periodic n) = false) :
    s.afterPulse n back = (s.setCmp n { s.cmp n with pulses := (s.cmp n).pulses + 1, due := none, committed := false }).set
      (Reg.CMPn_STATUS_state n) 2 := if_pos (by simp [h])

theorem State.pulseShown_periodic (s : State) (n t : Nat) :
    (s.pulseShown n t).on (Reg.CMPn_CFG_periodic n) = s.on (Reg.CMPn_CFG_periodic n) := by
  have hraised : (if (s.cmp n).active then s.raise (Reg.CMPn_STATUS_overlap n) else s).get (Reg.CMPn_CFG_periodic n) =
      s.get (Reg.CMPn_CFG_periodic n) := by
    split
    · exact s.get_set_ne _ _ 1 (by simp [Reg.CMPn_CFG_periodic, Reg.CMPn_STATUS_overlap])
    · rfl
  unfold State.on State.pulseShown State.setI2
  rw [State.get_set2_ne _ _ _ _ _ (by simp [Reg.CMPn_CFG_periodic, Reg.CMPn_LAST_POS_LO]) (by simp [Reg.CMPn_CFG_periodic, Reg.CMPn_LAST_POS_HI]),
    State.get_set2_ne _ _ _ _ _ (by simp [Reg.CMPn_CFG_periodic, Reg.CMPn_LAST_TIME_LO]) (by simp [Reg.CMPn_CFG_periodic, Reg.CMPn_LAST_TIME_HI])]
  exact congrArg (· == 1) hraised

theorem State.pulseShown_cmp (s : State) (n t : Nat) : (s.pulseShown n t).cmp n =
    { s.cmp n with active := true, until_ := s.beat + max 1 (s.get (Reg.CMPn_WIDTH_width n)) } := by
  unfold State.pulseShown State.setI2 State.set2
  rw [State.cmp_set, State.cmp_set, State.cmp_set, State.cmp_set, State.cmp_setCmp_self]

theorem State.pulseShown_lastPos (s : State) (n t : Nat) :
    (s.pulseShown n t).getI2 (Reg.CMPn_LAST_POS_LO n) (Reg.CMPn_LAST_POS_HI n) = signed 64 (wrap 64 (s.cmp n).form) :=
  State.getI2_setI2_self _ _ _ _ (by simp [Reg.CMPn_LAST_POS_LO]) (by simp [Reg.CMPn_LAST_POS_HI])
    (by simp [Reg.CMPn_LAST_POS_LO, Reg.CMPn_LAST_POS_HI])

/-- What a pulse of a unit that is not periodic leaves (R75, R77, R79). -/
structure State.Fired (s t : State) (n : Nat) : Prop where
  cmp : t.cmp n = { s.cmp n with
    active := true, until_ := s.beat + max 1 (s.get (Reg.CMPn_WIDTH_width n)), pulses := (s.cmp n).pulses + 1, due := none, committed := false }
  state : t.get (Reg.CMPn_STATUS_state n) = 2
  lastPos : t.getI2 (Reg.CMPn_LAST_POS_LO n) (Reg.CMPn_LAST_POS_HI n) = signed 64 (wrap 64 (s.cmp n).form)

theorem State.pulse_fired {s : State} {n : Nat} (t : Nat) (back : Bool) (hn : n < 48) (h : s.on (Reg.CMPn_CFG_periodic n) = false) :
    s.Fired (s.pulse n t back) n := by
  obtain ⟨u, hstamp, hpulse⟩ := s.pulse_eq_afterPulse n t back
  have hcmp : u.cmp n = (s.pulseShown n t).cmp n := by unfold State.cmp; rw [hstamp.1]
  have hsingle : u.on (Reg.CMPn_CFG_periodic n) = false := by
    rw [← h, ← s.pulseShown_periodic n t, State.on, State.on,
      hstamp.get (by simp only [Reg.CMPn_CFG_periodic]; omega) (by simp only [Reg.CMPn_CFG_periodic]; omega)]
  rw [hpulse, State.afterPulse_of_single back hsingle]
  refine ⟨?_, ?_, ?_⟩
  · rw [State.cmp_set, State.cmp_setCmp_self, hcmp, State.pulseShown_cmp]
  · rw [State.state_set_self]
  · rw [← s.pulseShown_lastPos n t, State.getI2, State.getI2, State.get2, State.get2,
      State.get_set_ne _ _ _ _ (by simp [Reg.CMPn_STATUS_state, Reg.CMPn_LAST_POS_LO]),
      State.get_set_ne _ _ _ _ (by simp [Reg.CMPn_STATUS_state, Reg.CMPn_LAST_POS_HI]),
      ← hstamp.get (f := Reg.CMPn_LAST_POS_LO n) (by simp only [Reg.CMPn_LAST_POS_LO]; omega) (by simp only [Reg.CMPn_LAST_POS_LO]; omega),
      ← hstamp.get (f := Reg.CMPn_LAST_POS_HI n) (by simp only [Reg.CMPn_LAST_POS_HI]; omega) (by simp only [Reg.CMPn_LAST_POS_HI]; omega)]
    rfl

theorem State.cmpUpdate_of_unarmed {s : State} {n : Nat} (h : s.armed n = false) : s.cmpUpdate n = s := if_pos (by simp [h])

/-- A unit that has fired is not armed, and an update leaves it alone. -/
theorem State.Fired.cmpUpdate {s t : State} {n : Nat} (h : s.Fired t n) : t.cmpUpdate n = t :=
  State.cmpUpdate_of_unarmed (by unfold State.armed; rw [h.state]; rfl)

section
variable {s : State} {n : Nat} (harmed : s.armed n = true) (hfree : s.cmpHeld n = false)
include harmed hfree

theorem State.fireTime_of_reached (hmode : (s.cmp n).mode = 2) (hpast : 0 ≤ s.past (s.cmp n)) : s.fireTime n = s.pulse n s.tb3 false :=
  if_pos (by simp [harmed, hfree, hmode, hpast])

theorem State.fireCrossing_of_beat {d : Nat} (hmode : (s.cmp n).mode = 0) (hdue : (s.cmp n).due = some d) (hd : d ≤ s.beat) :
    s.fireCrossing n = (s.pulse n s.tb3 (s.cmp n).dueBack).cmpUpdate n := by
  unfold State.fireCrossing
  simp only [hdue, harmed, hfree, hmode, hd]
  rfl

theorem State.fireCrossing_of_come {d : Nat} (hmode : (s.cmp n).mode = 1) (hvalid : s.on Reg.OBS_STATUS_pos_valid = true)
    (hdue : (s.cmp n).due = some d) (hd : s.come d = true) :
    s.fireCrossing n = (s.pulse n (d / 65536) (s.cmp n).dueBack).cmpUpdate n := by
  unfold State.fireCrossing
  simp only [hdue, harmed, hfree, hmode, hvalid, hd]
  rfl

end

/-! ### The commands -/

@[simp] theorem State.advance_get (s : State) (dt : Nat) (f : Fld) : (s.advance dt).get f = s.get f := rfl

theorem exec_cmpArm_of_on (dt : Nat) {n : Fin 48} {s : State} (h : s.dev ≠ stBoot) (hd : s.domainOff (Reg.CMPn_CTRL_arm n).off = false) :
    exec (.cmpArm dt n) s = .next ((s.advance dt).arm n) :=
  congrArg Host.Outcome.next (State.hostWrite_of_domainOn (s := s.advance dt) (off := (Reg.CMPn_CTRL_arm n).off) (State.arm · n) h hd)

theorem exec_cmpDisarm_of_on (dt : Nat) {n : Fin 48} {s : State} (h : s.dev ≠ stBoot) (hd : s.domainOff (Reg.CMPn_CTRL_disarm n).off = false) :
    exec (.cmpDisarm dt n) s = .next ((s.advance dt).disarm n) :=
  congrArg Host.Outcome.next (State.hostWrite_of_domainOn (s := s.advance dt) (off := (Reg.CMPn_CTRL_disarm n).off) (State.disarm · n) h hd)

theorem exec_cmpTimePulse_of_on (dt : Nat) (n : Fin 48) {s : State} (h : s.powered 2 = true) :
    exec (.cmpTimePulse dt n) s = .next ((s.advance dt).fireTime n) :=
  State.whenOn_of_powered (s := s.advance dt) (fun s => .next (s.fireTime n)) h

theorem exec_cmpCrossing_of_on (dt : Nat) (n : Fin 48) {s : State} (h : s.powered 2 = true) :
    exec (.cmpCrossing dt n) s = .next ((s.advance dt).fireCrossing n) :=
  State.whenOn_of_powered (s := s.advance dt) (fun s => .next (s.fireCrossing n)) h

/-- A pulse that is due of a unit that is not periodic: in time mode once TB3 reaches the target, in reactive and predictive mode once its
planned moment has come. -/
theorem exec_of_dueUnit {dt : Nat} {n : Fin 48} {s : State} {c : Instr} (hon : s.powered 2 = true) (harmed : s.armed n = true)
    (hfree : s.cmpHeld n = false) (hsingle : s.on (Reg.CMPn_CFG_periodic n) = false)
    (hc : (c = .cmpTimePulse dt n ∧ (s.cmp n).mode = 2 ∧ 0 ≤ (s.advance dt).past (s.cmp n)) ∨
      (c = .cmpCrossing dt n ∧ (s.cmp n).mode = 0 ∧ ∃ d, (s.cmp n).due = some d ∧ d ≤ s.beat + dt) ∨
      (c = .cmpCrossing dt n ∧ (s.cmp n).mode = 1 ∧ s.on Reg.OBS_STATUS_pos_valid = true ∧
        ∃ d, (s.cmp n).due = some d ∧ (s.advance dt).come d = true)) :
    ∃ u, exec c s = .next u ∧ (s.advance dt).Fired u n := by
  have hfired (t : Nat) (back : Bool) := State.pulse_fired (s := s.advance dt) t back n.isLt hsingle
  obtain ⟨rfl, hmode, hpast⟩ | ⟨rfl, hmode, d, hdue, hd⟩ | ⟨rfl, hmode, hvalid, d, hdue, hd⟩ := hc
  · refine ⟨_, exec_cmpTimePulse_of_on dt n hon, ?_⟩
    rw [State.fireTime_of_reached (s := s.advance dt) harmed hfree hmode hpast]
    exact hfired _ _
  · refine ⟨_, exec_cmpCrossing_of_on dt n hon, ?_⟩
    rw [State.fireCrossing_of_beat (s := s.advance dt) harmed hfree hmode hdue hd, (hfired _ _).cmpUpdate]
    exact hfired _ _
  · refine ⟨_, exec_cmpCrossing_of_on dt n hon, ?_⟩
    rw [State.fireCrossing_of_come (s := s.advance dt) harmed hfree hmode hvalid hdue hd, (hfired _ _).cmpUpdate]
    exact hfired _ _

theorem exec_cmpPulseCommit_of_near {dt d : Nat} {n : Fin 48} {s : State} (hon : s.powered 2 = true) (harmed : s.armed n = true)
    (hmode : (s.cmp n).mode = 1) (hdue : (s.cmp n).due = some d) (hnear : stampDiff d (s.advance dt).now ≤ 1000 * 65536) :
    exec (.cmpPulseCommit dt n) s = .next ((s.advance dt).setCmp n { s.cmp n with committed := true }) := by
  have hcond : (s.armed n && decide ((s.cmp n).mode = 1) && decide (stampDiff d (s.advance dt).now ≤ 1000 * 65536)) = true := by
    simp only [harmed, hmode, hnear, decide_true, Bool.and_true]
  show execCmpPulseCommit dt n s = _
  unfold execCmpPulseCommit
  rw [State.whenOn_of_powered (s := s.advance dt) _ hon]
  simp only
  split
  next e he =>
    obtain rfl : d = e := Option.some.inj (hdue.symm.trans he)
    exact if_pos hcond
  next hnone => cases hdue.symm.trans hnone

theorem exec_cmpPulseEnd_of_over {dt : Nat} {n : Fin 48} {s : State} (hon : s.powered 2 = true) (hactive : (s.cmp n).active = true)
    (huntil : (s.cmp n).until_ ≤ s.beat + dt) :
    exec (.cmpPulseEnd dt n) s = .next ((s.advance dt).setCmp n { s.cmp n with active := false }) := by
  have hcond : ((s.cmp n).active && decide ((s.cmp n).until_ ≤ s.beat + dt)) = true := by rw [hactive, decide_eq_true huntil]; rfl
  show execCmpPulseEnd dt n s = _
  unfold execCmpPulseEnd
  rw [State.whenOn_of_powered (s := s.advance dt) _ hon]
  exact if_pos hcond

/-- Settles O28: an arm refused, armed with what it latches, a pulse shown and then settled as that of a unit that is not periodic. That a
refused arm leaves the unit idle, and bad_target comes before a missed target, is the model's choice (log 74). -/
theorem compareUnits : Obligations.CompareUnits := by
  refine ⟨fun dt n s hboot hd => ⟨fun hmode => ?_, fun hkind hwhere => ?_, fun hmode hkind hlo hhi => ?_, fun hmode hdir hkind => ?_⟩,
    fun dt n s hboot hd => ?_, fun dt n s hon harmed hfree hsingle c hc => ?_,
    fun dt n d s hon harmed hmode hdue hnear => exec_cmpPulseCommit_of_near hon harmed hmode hdue hnear,
    fun dt n s hon hactive huntil => exec_cmpPulseEnd_of_over hon hactive huntil⟩
  · -- the reserved mode
    refine ⟨_, exec_cmpArm_of_on dt hboot hd, ?_⟩
    rw [State.arm_of_reserved (s := s.advance dt) (by simp [State.armReserved, hmode])]
    exact ⟨State.state_set_self _ _ 0, rfl⟩
  · -- a line index where none can be compared
    refine ⟨_, exec_cmpArm_of_on dt hboot hd, ?_⟩
    rw [State.arm_of_lineIndex (s := s.advance dt) hkind hwhere]
    refine ⟨State.on_raise_self _ _ (by simp [Reg.CMPn_STATUS_bad_target]) rfl, ?_, rfl⟩
    rw [State.state_raise_badTarget]
    exact State.state_set_self _ _ 0
  · -- a time not yet reached
    have htarget : ((s.advance dt).latched n).target = (s.get2 (Reg.CMPn_TARGET_LO n) (Reg.CMPn_TARGET_HI n) : Nat) := if_pos hmode
    obtain ⟨harmed, hcmp, -⟩ := State.arm_ahead_armed (s := s.advance dt) (n := n) (by simp [State.armReserved, hmode])
      (by simp [State.armBadTarget, hkind]) (by simp [hmode]) (State.missed_of_before hmode htarget hlo hhi)
    exact ⟨_, exec_cmpArm_of_on dt hboot hd, harmed, by rw [hcmp]; exact hmode, by rw [hcmp]; exact htarget⟩
  · -- both directions are never missed
    have hahead : (s.advance dt).missed ((s.advance dt).latched n) = false := by simp [State.missed, State.latched, hmode, hdir]
    obtain ⟨harmed, hcmp, hout⟩ := State.arm_ahead_armed (s := s.advance dt) (n := n) (by simp [State.armReserved, hmode, hdir])
      (by simp [State.armBadTarget, hkind]) (by simp [hmode]) hahead
    refine ⟨_, exec_cmpArm_of_on dt hboot hd, harmed, ?_, ?_, ?_, ?_, ?_, hout⟩ <;> rw [hcmp]
    · exact hmode
    · exact hdir
    · rfl
    · simp [State.latched, hmode, hkind, State.getI2, State.get2]
    · rfl
  · -- idle, with no pulse scheduled
    refine ⟨_, exec_cmpDisarm_of_on dt hboot hd, State.state_set_self _ _ 0, ?_⟩
    unfold State.disarm State.clear State.onCmp
    rw [State.cmp_set, State.cmp_setCmp_self]
    exact ⟨rfl, rfl, rfl⟩
  · -- the pulse of a unit that is due
    obtain ⟨u, hexec, hfired⟩ := exec_of_dueUnit hon harmed hfree hsingle hc
    exact ⟨u, hexec, by rw [hfired.cmp], by rw [hfired.cmp]; rfl, hfired.state, by rw [hfired.cmp], hfired.lastPos⟩

end Sys2Proof.Machine

/-! SUPPORT. Proof of the statement of working time (R91 to R94, R102): what a rate update, a snapshot, a step, a switch of source and the
return of a domain show and leave alone. -/

namespace Sys2Proof.Machine

/-! ### Registers that change and fields that are read back -/

theorem State.sameRegsBut_of_eq {s t : State} (h : t.regs = s.regs) (offs : List Nat) : s.sameRegsBut t offs :=
  fun off _ => congrArg (Tab.get resetVal · off) h

theorem State.sameRegsBut.trans {s t u : State} {offs : List Nat} (h : s.sameRegsBut t offs) (h' : t.sameRegsBut u offs) :
    s.sameRegsBut u offs := fun off hoff => (h' off hoff).trans (h off hoff)

theorem State.sameRegsBut.mono {s t : State} {offs offs' : List Nat} (h : s.sameRegsBut t offs) (hsub : offs ⊆ offs') :
    s.sameRegsBut t offs' := fun off hoff => h off fun hin => hoff (hsub hin)

/-- A field written lies in its own register. -/
theorem State.sameRegsBut.set {s t : State} {offs : List Nat} (h : s.sameRegsBut t offs) (f : Fld) (v : Nat) (hf : f.off ∈ offs) :
    s.sameRegsBut (t.set f v) offs :=
  h.trans fun off hoff => t.reg_set_ne f off v fun e => hoff (e ▸ hf)

/-- A flag reads as it was last set. -/
theorem State.on_setOn_self (s : State) (f : Fld) (b : Bool) (h : f.lo + 1 ≤ 32) (hw : f.w = 1) : (s.setOn f b).on f = b := by
  unfold State.on State.setOn
  rw [State.get_set_self _ _ _ (by omega), hw]
  cases b <;> rfl

/-- A flag beside a field written, or in another register, stays. -/
theorem State.on_set_beside (s : State) (f g : Fld) (v : Nat) (h : f.lo + f.w ≤ 32)
    (hd : g.off ≠ f.off ∨ g.lo + g.w ≤ f.lo ∨ f.lo + f.w ≤ g.lo) : (s.set f v).on g = s.on g := by
  unfold State.on
  obtain hoff | hbeside := hd
  · rw [s.get_set_ne f g v hoff]
  · rw [s.get_set_beside f g v h hbeside]

/-- A number saturated to 32 bits reads back from a field of 32 bits. -/
theorem State.getI_setI_sat32 (s : State) (f : Fld) (x : Int) (h : f.lo + f.w ≤ 32) (hw : f.w = 32) : (s.setI f (sat32 x)).getI f = sat32 x := by
  unfold State.getI State.setI
  rw [State.get_set_self _ _ _ h, signed_mod, hw]
  simp only [signed, wrap, sat32, clampI]
  split <;> omega

/-! ### The rate update (R91) -/

/-- What a rate update shows of TB3 once its rate is set: its offset, and whether it is aligned and slewing. -/
def State.rateShown (s : State) (r : Int) : State :=
  (((s.setRate 3 r).setOn Reg.TB_STATUS_tb3_aligned (decide (s.tb3Offset.natAbs ≤ 10 * 2 ^ 48))).setOn Reg.TB_STATUS_slewing
    (s.tb3Offset != 0)).setI Reg.TB3_OFFSET (sat32 (quot s.tb3Offset (2 ^ 48)))

theorem exec_tb3RateUpdate_of_powered (dt : Nat) {s : State} (hon : s.powered 2 = true) :
    ∃ r, exec (.tb3RateUpdate dt) s = .next ((s.advance dt).rateShown r).refresh.compareDomains :=
  ⟨_, State.whenOn_of_powered (s := s.advance dt) (fun s => .next s.rateTb3.compareDomains) hon⟩

theorem State.rateShown_offset (s : State) (r : Int) : (s.rateShown r).getI Reg.TB3_OFFSET = sat32 (quot s.tb3Offset (2 ^ 48)) :=
  State.getI_setI_sat32 _ _ _ (by decide) rfl

theorem State.rateShown_slewing (s : State) (r : Int) : (s.rateShown r).on Reg.TB_STATUS_slewing = (s.tb3Offset != 0) :=
  (State.on_set_beside _ Reg.TB3_OFFSET _ _ (by decide) (by decide)).trans (State.on_setOn_self _ _ _ (by decide) rfl)

theorem State.rateShown_aligned (s : State) (r : Int) :
    (s.rateShown r).on Reg.TB_STATUS_tb3_aligned = decide (s.tb3Offset.natAbs ≤ 10 * 2 ^ 48) :=
  (State.on_set_beside _ Reg.TB3_OFFSET _ _ (by decide) (by decide)).trans
    ((State.on_set_beside _ Reg.TB_STATUS_slewing _ _ (by decide) (by decide)).trans (State.on_setOn_self _ _ _ (by decide) rfl))

theorem State.rateShown_sameRegsBut (s : State) (r : Int) :
    s.sameRegsBut (s.rateShown r) [Reg.TB3_OFFSET.off, Reg.TB_STATUS_slewing.off] :=
  (((State.sameRegsBut_of_eq (t := s.setRate 3 r) rfl _).set Reg.TB_STATUS_tb3_aligned _ (by decide)).set Reg.TB_STATUS_slewing _
    (by decide)).set Reg.TB3_OFFSET _ (by decide)

/-! ### The snapshot (R102) -/

/-- Copy one time base. -/
def State.snapTb (s : State) (k : Nat) : State :=
  (s.set2 (Reg.TBk_SNAP_LO k) (Reg.TBk_SNAP_HI k) (s.tbNs k)).set (Reg.TBk_SNAP_FRAC_frac k) (s.stamp80 k)

/-- The registers of time base k show v. -/
def State.showsTb (s : State) (k : Nat) (v : Nat × Nat) : Prop :=
  s.get2 (Reg.TBk_SNAP_LO k) (Reg.TBk_SNAP_HI k) = v.1 % 2 ^ 64 ∧ s.get (Reg.TBk_SNAP_FRAC_frac k) = v.2 % 2 ^ 16

theorem State.snapTb_shows_self (s : State) (k : Nat) : (s.snapTb k).showsTb k (s.tbNs k, s.stamp80 k) := by
  refine ⟨?_, State.get_set_self _ _ _ (by simp [Reg.TBk_SNAP_FRAC_frac])⟩
  have hpair := State.get2_set2_self s (Reg.TBk_SNAP_LO k) (Reg.TBk_SNAP_HI k) (s.tbNs k) (by simp [Reg.TBk_SNAP_LO]) (by simp [Reg.TBk_SNAP_HI])
    (by simp [Reg.TBk_SNAP_LO, Reg.TBk_SNAP_HI])
  unfold State.snapTb State.get2
  rw [State.get_set_ne _ _ _ _ (by simp [Reg.TBk_SNAP_LO, Reg.TBk_SNAP_FRAC_frac]),
    State.get_set_ne _ _ _ _ (by simp [Reg.TBk_SNAP_HI, Reg.TBk_SNAP_FRAC_frac])]
  exact hpair

theorem State.snapTb_shows_ne {s : State} {j k : Nat} {v : Nat × Nat} (h : k ≠ j) (hv : s.showsTb k v) : (s.snapTb j).showsTb k v := by
  have hkeep (f : Fld) (hf : f.off ≠ 0x140010 + 0x10 * j ∧ f.off ≠ 0x140014 + 0x10 * j ∧ f.off ≠ 0x140018 + 0x10 * j) :
      (s.snapTb j).get f = s.get f :=
    (State.get_set_ne _ _ f _ hf.2.2).trans (s.get_set2_ne _ _ f _ hf.1 hf.2.1)
  unfold State.showsTb State.get2
  rw [hkeep (Reg.TBk_SNAP_LO k) (by simp only [Reg.TBk_SNAP_LO]; omega), hkeep (Reg.TBk_SNAP_HI k) (by simp only [Reg.TBk_SNAP_HI]; omega),
    hkeep (Reg.TBk_SNAP_FRAC_frac k) (by simp only [Reg.TBk_SNAP_FRAC_frac]; omega)]
  exact hv

theorem State.foldl_snapTb_same (l : List Nat) (s : State) : (l.foldl State.snapTb s).time = s.time ∧ (l.foldl State.snapTb s).out = s.out :=
  foldl_keeps (fun u : State => u.time = s.time ∧ u.out = s.out) State.snapTb (fun _ _ h => h) l s ⟨rfl, rfl⟩

theorem State.foldl_snapTb_shows (l : List Nat) (s : State) {k : Nat} (hk : k ∈ l) :
    (l.foldl State.snapTb s).showsTb k (s.tbNs k, s.stamp80 k) := by
  induction l generalizing s with
  | nil => cases hk
  | cons j rest ih =>
    by_cases hrest : k ∈ rest
    · exact ih (s.snapTb j) hrest
    · obtain rfl : k = j := (List.mem_cons.mp hk).resolve_right hrest
      exact List.foldlRecOn rest State.snapTb (motive := fun u => u.showsTb k (s.tbNs k, s.stamp80 k)) (s.snapTb_shows_self k)
        fun u hu i hi => State.snapTb_shows_ne (ne_of_mem_of_not_mem hi hrest).symm hu

theorem exec_tbSnapshot_of_on (dt : Nat) {s : State} (h : s.dev ≠ stBoot) (hd : s.domainOff Reg.TB_CTRL_snapshot.off = false) :
    exec (.tbSnapshot dt) s = .next ((List.range 4).foldl State.snapTb (s.advance dt)) :=
  congrArg Host.Outcome.next (State.hostWrite_of_domainOn (s := s.advance dt) (off := Reg.TB_CTRL_snapshot.off) State.tbSnapshot h hd)

/-! ### String offsets and the step (R92, R229) -/

theorem State.str_setStr_self (s : State) (n : Nat) (x : LinkString) : (s.setStr n x).str n = x := Tab.get_set_self _ _ _ _

theorem State.str_setStr_ne (s : State) {n m : Nat} (x : LinkString) (h : m ≠ n) : (s.setStr n x).str m = s.str m :=
  Tab.get_set_ne _ _ _ _ _ h

/-- A step of TB3 by d, in 2^-16 ns, as string n takes it (R229). -/
def State.stepOffset (d : Int) (s : State) (n : Nat) : State :=
  if s.nodeCount n = 0 then s
  else if (s.str n).offsetSet then s.setOffset n ((s.str n).offset + d)
  else s.onStr n fun x => { x with offset := (s.str n).offset + d }

/-- The registers that show the offset of string n. -/
def offsetOffs (n : Nat) : List Nat := [(Reg.LINKs_OFFSET_LO n).off, (Reg.LINKs_OFFSET_HI n).off]

theorem State.setOffset_sameRegsBut (s : State) (n : Nat) (v : Int) : s.sameRegsBut (s.setOffset n v) (offsetOffs n) :=
  ((State.sameRegsBut_of_eq (t := s.onStr n _) rfl _).set (Reg.LINKs_OFFSET_LO n) _ (by simp [offsetOffs])).set (Reg.LINKs_OFFSET_HI n) _
    (by simp [offsetOffs])

theorem State.stepOffset_sameRegsBut (d : Int) (s : State) (n : Nat) : s.sameRegsBut (s.stepOffset d n) (offsetOffs n) := by
  unfold State.stepOffset
  split
  · exact State.sameRegsBut_of_eq rfl _
  · split
    · exact s.setOffset_sameRegsBut n _
    · exact State.sameRegsBut_of_eq rfl _

theorem State.stepOffset_nodeCount (d : Int) (s : State) (n m : Nat) : (s.stepOffset d n).nodeCount m = s.nodeCount m := by
  unfold State.nodeCount
  have hoff : (Reg.LINKs_CFG_node_count m).off ∉ offsetOffs n := by
    simp only [offsetOffs, Reg.LINKs_CFG_node_count, Reg.LINKs_OFFSET_LO, Reg.LINKs_OFFSET_HI, List.mem_cons, List.not_mem_nil,
      or_false]
    omega
  rw [(s.stepOffset_sameRegsBut d n).get hoff]

theorem State.stepOffset_time_out (d : Int) (s : State) (n : Nat) : (s.stepOffset d n).time = s.time ∧ (s.stepOffset d n).out = s.out := by
  unfold State.stepOffset
  split
  · exact ⟨rfl, rfl⟩
  · split <;> exact ⟨rfl, rfl⟩

/-- By how much a step by d moves the offset of string n: strings without nodes are not in use. -/
def State.offsetStep (s : State) (d : Int) (n : Nat) : Int := if s.nodeCount n = 0 then 0 else d

theorem State.stepOffset_offset_self (d : Int) (s : State) (n : Nat) :
    ((s.stepOffset d n).str n).offset = (s.str n).offset + s.offsetStep d n := by
  unfold State.stepOffset State.offsetStep
  split
  · exact (Int.add_zero _).symm
  · split
    · exact congrArg LinkString.offset (State.str_setStr_self s n _)
    · exact congrArg LinkString.offset (State.str_setStr_self s n _)

theorem State.stepOffset_str_ne (d : Int) (s : State) {n m : Nat} (h : m ≠ n) : (s.stepOffset d n).str m = s.str m := by
  unfold State.stepOffset
  split
  · rfl
  · split
    · exact State.str_setStr_ne s _ h
    · exact State.str_setStr_ne s _ h

/-- Each string of a list without repetitions takes the step once. -/
theorem State.foldl_stepOffset_offset (d : Int) (l : List Nat) (hnodup : l.Nodup) (s : State) {n : Nat} (hn : n ∈ l) :
    ((l.foldl (State.stepOffset d) s).str n).offset = (s.str n).offset + s.offsetStep d n := by
  induction l generalizing s with
  | nil => cases hn
  | cons m rest ih =>
    obtain ⟨hm, hrest⟩ := List.nodup_cons.mp hnodup
    rw [List.foldl_cons]
    obtain rfl | hlater := List.mem_cons.mp hn
    · rw [← s.stepOffset_offset_self d n]
      exact List.foldlRecOn rest (State.stepOffset d) (motive := fun u => (u.str n).offset = ((s.stepOffset d n).str n).offset) rfl
        fun u hu i hi => (congrArg LinkString.offset (u.stepOffset_str_ne d (ne_of_mem_of_not_mem hi hm).symm)).trans hu
    · have hne : n ≠ m := ne_of_mem_of_not_mem hlater hm
      rw [ih hrest _ hlater, State.stepOffset_str_ne d s hne, State.offsetStep, State.stepOffset_nodeCount, State.offsetStep]

theorem State.foldl_stepOffset_sameRegsBut (d : Int) (l : List Nat) (s : State) :
    s.sameRegsBut (l.foldl (State.stepOffset d) s) (l.flatMap offsetOffs) := by
  induction l generalizing s with
  | nil => exact State.sameRegsBut_of_eq rfl _
  | cons n rest ih =>
    rw [List.foldl_cons, List.flatMap_cons]
    exact ((s.stepOffset_sameRegsBut d n).mono (List.subset_append_left _ _)).trans ((ih _).mono (List.subset_append_right _ _))

/-- TB3 at its source, with the stamps that move with it. -/
def State.tb3Moved (s : State) : State :=
  (s.setTb 3 (wrap 112 ((s.tb 3 : Int) + -s.tb3Offset))).shiftStamps (quot (-s.tb3Offset) (2 ^ 32))

/-- The strings have taken the step too, and it is shown. -/
def State.tb3Stepped (s : State) : State :=
  ((List.range 32).foldl (State.stepOffset (quot (-s.tb3Offset) (2 ^ 32))) s.tb3Moved).raise Reg.TB_STATUS_stepped

theorem State.stepTb3_eq (s : State) :
    s.stepTb3 = (s.tb3Stepped.post 0x0204 [.s (sat32 (quot (-s.tb3Offset) (2 ^ 48)))]).cmpStepped := rfl

theorem State.raise_same (s : State) (f : Fld) : (s.raise f).time = s.time ∧ (s.raise f).out = s.out ∧ (s.raise f).link = s.link :=
  ⟨rfl, rfl, rfl⟩

theorem exec_stepTb3_of_mayStep (dt : Nat) {s : State} (hd : s.domainOff Reg.TB_CTRL_step_tb3.off = false) (h : s.dev = stSetup ∨ s.dev = stReady) :
    exec (.stepTb3 dt) s = .next
      ((s.advance dt).tb3Stepped.post 0x0204 [.s (sat32 (quot (-(s.advance dt).tb3Offset) (2 ^ 48)))]).cmpStepped := by
  have hboot : s.dev ≠ stBoot := by
    obtain h | h := h <;> rw [h] <;> decide
  have hmay : (s.advance dt).mayStep = true := by
    have hdev : (s.advance dt).dev = s.dev := rfl
    unfold State.mayStep
    obtain h | h := h <;> rw [hdev, h] <;> rfl
  have hwrite := State.hostWrite_of_domainOn (s := s.advance dt) (off := Reg.TB_CTRL_step_tb3.off) State.askStep hboot hd
  rw [State.askStep, if_pos hmay, State.stepTb3_eq] at hwrite
  exact congrArg Host.Outcome.next hwrite

theorem exec_stepTb3_of_not_mayStep (dt : Nat) {s : State} (hd : s.domainOff Reg.TB_CTRL_step_tb3.off = false) (hboot : s.dev ≠ stBoot)
    (hsetup : s.dev ≠ stSetup) (hready : s.dev ≠ stReady) : exec (.stepTb3 dt) s = .next (s.advance dt) := by
  have hmay : ¬ (s.advance dt).mayStep = true := by
    have hdev : (s.advance dt).dev = s.dev := rfl
    simp [State.mayStep, hdev, hsetup, hready]
  exact congrArg Host.Outcome.next ((State.hostWrite_of_domainOn (s := s.advance dt) (off := Reg.TB_CTRL_step_tb3.off) State.askStep hboot
    hd).trans (if_neg hmay))

theorem State.tb_setTb_self {s : State} {k : Nat} (v : Nat) (h : k < s.time.tb.length) : (s.setTb k v).tb k = v % tbMod := by
  simp [State.tb, State.setTb, h]

theorem State.tb_setTb_ne (s : State) {k j : Nat} (v : Nat) (h : j ≠ k) : (s.setTb k v).tb j = s.tb j := by
  simp [State.tb, State.setTb, List.getElem?_set_ne h.symm]

/-- A time base less its wrapped distance from another is at the other. -/
theorem wrap_sub_distance (x y : Nat) : wrap 112 ((x : Int) + -signed 112 (wrap 112 ((x : Int) - y))) % tbMod = y % 2 ^ 112 := by
  simp only [wrap, signed, tbMod]
  split <;> omega

theorem State.tb3Stepped_time_out (s : State) : s.tb3Stepped.time = s.tb3Moved.time ∧ s.tb3Stepped.out = s.tb3Moved.out := by
  unfold State.tb3Stepped
  obtain ⟨htime, hout, -⟩ := State.raise_same ((List.range 32).foldl (State.stepOffset (quot (-s.tb3Offset) (2 ^ 32))) s.tb3Moved)
    Reg.TB_STATUS_stepped
  rw [htime, hout]
  refine foldl_keeps (fun u : State => u.time = s.tb3Moved.time ∧ u.out = s.tb3Moved.out) _ (fun u n hu => ?_) _ _ ⟨rfl, rfl⟩
  obtain ⟨htime, hout⟩ := u.stepOffset_time_out (quot (-s.tb3Offset) (2 ^ 32)) n
  exact ⟨htime.trans hu.1, hout.trans hu.2⟩

/-- TB3 alone moves among the time bases. -/
theorem State.tb3Stepped_tb (s : State) (k : Nat) : s.tb3Stepped.tb k = (s.setTb 3 (wrap 112 ((s.tb 3 : Int) + -s.tb3Offset))).tb k := by
  unfold State.tb
  rw [s.tb3Stepped_time_out.1]
  rfl

theorem State.tb3Stepped_tb3 {s : State} (h : s.time.tb.length = 4) : s.tb3Stepped.tb 3 = s.tb s.tb3Source % 2 ^ 112 := by
  rw [State.tb3Stepped_tb, State.tb_setTb_self _ (by omega)]
  exact wrap_sub_distance _ _

theorem State.tb3Stepped_tb_ne (s : State) {k : Nat} (h : k < 3) : s.tb3Stepped.tb k = s.tb k := by
  rw [State.tb3Stepped_tb, s.tb_setTb_ne _ (by omega)]

theorem State.tb3Stepped_offset (s : State) {n : Nat} (h : n < 32) :
    (s.tb3Stepped.str n).offset = (s.str n).offset + s.offsetStep (quot (-s.tb3Offset) (2 ^ 32)) n := by
  have hfold := State.foldl_stepOffset_offset (quot (-s.tb3Offset) (2 ^ 32)) (List.range 32) List.nodup_range s.tb3Moved (List.mem_range.mpr h)
  unfold State.tb3Stepped State.str
  obtain ⟨-, -, hlink⟩ := State.raise_same ((List.range 32).foldl (State.stepOffset (quot (-s.tb3Offset) (2 ^ 32))) s.tb3Moved)
    Reg.TB_STATUS_stepped
  rw [hlink]
  exact hfold

theorem State.tb3Stepped_sameRegsBut (s : State) :
    s.sameRegsBut s.tb3Stepped (Reg.TB_STATUS_stepped.off :: (List.range 32).flatMap offsetOffs) := by
  have hfold := State.foldl_stepOffset_sameRegsBut (quot (-s.tb3Offset) (2 ^ 32)) (List.range 32) s.tb3Moved
  have hmoved : s.sameRegsBut s.tb3Moved (Reg.TB_STATUS_stepped.off :: (List.range 32).flatMap offsetOffs) := State.sameRegsBut_of_eq rfl _
  exact (hmoved.trans (hfold.mono (List.subset_cons_self _ _))).set Reg.TB_STATUS_stepped 1 (.head _)

/-! ### The switch of source (R93) -/

/-- TB3's source and its change shown. -/
def State.srcShown (s : State) (src : Nat) : State := (s.set Reg.TB_STATUS_src src).raise Reg.TB_STATUS_switched

theorem State.switchTb3_eq (s : State) (src : Nat) :
    ∃ e, s.switchTb3 src = (s.srcShown src).post 0x0205 [.b (s.get Reg.TB_STATUS_src), .b src, .s e] :=
  ⟨_, rfl⟩

theorem State.srcShown_src (s : State) (src : Nat) : (s.srcShown src).get Reg.TB_STATUS_src = src % 4 :=
  (State.get_set_beside _ Reg.TB_STATUS_switched _ 1 (by decide) (by decide)).trans (State.get_set_self _ _ _ (by decide))

theorem State.srcShown_switched (s : State) (src : Nat) : (s.srcShown src).on Reg.TB_STATUS_switched = true :=
  State.on_raise_self _ _ (by decide) rfl

theorem State.srcShown_sameRegsBut (s : State) (src : Nat) : s.sameRegsBut (s.srcShown src) [Reg.TB_STATUS_src.off] :=
  ((State.sameRegsBut_of_eq (t := s) rfl _).set Reg.TB_STATUS_src src (by decide)).set Reg.TB_STATUS_switched 1 (by decide)

theorem State.autoSwitch_of_manual {s : State} (h : s.get Reg.TB3_CFG_select ≠ 3) : s.autoSwitch = s := if_pos h

theorem State.autoSwitch_to_B {s : State} (hauto : s.get Reg.TB3_CFG_select = 3) (hsrc : s.get Reg.TB_STATUS_src = 1) (hA : s.domain 0 ≠ 2)
    (hB : s.choosable 1 = true) : s.autoSwitch = s.switchTb3 2 := by
  simp [State.autoSwitch, hauto, hsrc, hA, hB]

theorem State.autoSwitch_to_A {s : State} (hauto : s.get Reg.TB3_CFG_select = 3) (hsrc : s.get Reg.TB_STATUS_src = 2) (hB : s.domain 1 ≠ 2)
    (hA : s.choosable 0 = true) : s.autoSwitch = s.switchTb3 1 := by
  simp [State.autoSwitch, hauto, hsrc, hA, hB]

theorem exec_tb3Switch_of_powered (dt : Nat) {s : State} (h : s.powered 2 = true) : exec (.tb3Switch dt) s = .next (s.advance dt).autoSwitch :=
  State.whenOn_of_powered (s := s.advance dt) (fun s => .next s.autoSwitch) h

/-! ### The return of a domain (R94) -/

theorem State.compareDomains_of_agreeing {s : State} (hdis : s.time.disagreeing = true) (hnear : s.domainDiff.natAbs ≤ s.disagreeNs * 2 ^ 48) :
    s.compareDomains = s.modTime fun t => { t with agreeSince := some (t.agreeSince.getD s.beat) } := by
  have hnot : ¬ s.disagreeNs * 2 ^ 48 < s.domainDiff.natAbs := by omega
  simp only [State.compareDomains, hdis, hnot, decide_false, if_true, Bool.false_eq_true, if_false]

/-- A domain marked ineligible is eligible again. -/
def State.makeEligible (s : State) (d : Nat) : State :=
  if s.on (Reg.PTPd_STATUS_eligible d) then s
  else (s.raise (Reg.PTPd_STATUS_eligible d)).onPtp d fun p => { p with goodSince := s.beat }

theorem State.makeEligible_on_self (s : State) (d : Nat) : (s.makeEligible d).on (Reg.PTPd_STATUS_eligible d) = true := by
  unfold State.makeEligible
  split
  next h => exact h
  next => exact State.on_raise_self s _ (by simp [Reg.PTPd_STATUS_eligible]) rfl

theorem State.makeEligible_on_ne (s : State) {d e : Nat} (h : e ≠ d) :
    (s.makeEligible d).on (Reg.PTPd_STATUS_eligible e) = s.on (Reg.PTPd_STATUS_eligible e) := by
  unfold State.makeEligible
  split
  · rfl
  · exact s.on_set_beside _ _ 1 (by simp [Reg.PTPd_STATUS_eligible]) (.inl (by simp only [Reg.PTPd_STATUS_eligible]; omega))

theorem State.makeEligible_same (s : State) (d : Nat) : (s.makeEligible d).time.disagreeing = s.time.disagreeing ∧
    (s.makeEligible d).time.agreeSince = s.time.agreeSince ∧ (s.makeEligible d).out = s.out := by
  unfold State.makeEligible
  split
  · exact ⟨rfl, rfl, rfl⟩
  · unfold State.onPtp State.modTime
    dsimp only
    split <;> exact ⟨rfl, rfl, rfl⟩

/-- The mark of a disagreement taken off both domains. -/
def State.reconciled (s : State) : State :=
  ((s.modTime fun t => { t with disagreeing := false, agreeSince := none }).makeEligible 0).makeEligible 1

theorem exec_domainEligibleRestore_of_agreed {dt t0 : Nat} {s : State} (hon : s.powered 2 = true) (hdis : s.time.disagreeing = true)
    (hnear : (s.advance dt).domainDiff.natAbs ≤ s.disagreeNs * 2 ^ 48) (hsince : s.time.agreeSince = some t0)
    (hlong : t0 + 1000000000 ≤ s.beat + dt) : exec (.domainEligibleRestore dt) s = .next (s.advance dt).reconciled.autoSwitch := by
  have hcompared := State.compareDomains_of_agreeing (s := s.advance dt) hdis hnear
  have hkept : (s.advance dt).compareDomains.time.agreeSince = some t0 := by
    rw [hcompared]; exact congrArg (fun o => some (Option.getD o _)) hsince
  have hdue : t0 + 1000000000 ≤ (s.advance dt).compareDomains.beat := by rw [hcompared]; exact hlong
  show execDomainEligibleRestore dt s = _
  unfold execDomainEligibleRestore
  rw [State.whenOn_of_powered (s := s.advance dt) _ hon]
  simp only [hkept, if_pos hdue]
  rw [hcompared]
  rfl

theorem State.reconciled_same (s : State) :
    s.reconciled.time.disagreeing = false ∧ s.reconciled.time.agreeSince = none ∧ s.reconciled.out = s.out := by
  obtain ⟨hdis, hsince, hout⟩ := (s.modTime fun t => { t with disagreeing := false, agreeSince := none }).makeEligible_same 0
  obtain ⟨hdis', hsince', hout'⟩ := ((s.modTime fun t => { t with disagreeing := false, agreeSince := none }).makeEligible 0).makeEligible_same 1
  exact ⟨hdis'.trans hdis, hsince'.trans hsince, hout'.trans hout⟩

/-- Settles O29, command by command: what each shows is read back from the fields it wrote, and the strings take a step one by one. The
roundings are the model's (log 7), and so is that TB3 leaves B for A at once when B is not LOCKED, with revert set too (log 26). -/
theorem timeBases : Obligations.TimeBases := by
  refine ⟨fun dt s hon => ?_, fun dt s hboot hd => ?_, fun dt s hd => ⟨fun hdev htb hrate => ?_, exec_stepTb3_of_not_mayStep dt hd⟩,
    fun dt s hon => ⟨fun hmanual => ?_, fun hauto hsrc hA hB => ?_, fun hauto hsrc hB hA => ?_⟩, fun dt t0 s hon hdis hnear hsince hlong => ?_⟩
  · -- the rate update
    obtain ⟨r, hexec⟩ := exec_tb3RateUpdate_of_powered dt hon
    exact ⟨_, hexec, State.rateShown_offset _ r, State.rateShown_aligned _ r, State.rateShown_slewing _ r, rfl,
      (s.advance dt).rateShown_sameRegsBut r, rfl⟩
  · -- the snapshot
    obtain ⟨htime, hout⟩ := (s.advance dt).foldl_snapTb_same (List.range 4)
    exact ⟨_, exec_tbSnapshot_of_on dt hboot hd, fun k hk => (s.advance dt).foldl_snapTb_shows (List.range 4) (List.mem_range.mpr hk), htime,
      hout⟩
  · -- the step
    have hlen : (s.advance dt).time.tb.length = 4 := (List.length_zipWith ..).trans (by rw [htb, hrate]; rfl)
    exact ⟨_, exec_stepTb3_of_mayStep dt hd hdev, State.on_raise_self _ _ (by decide) rfl, State.tb3Stepped_tb3 hlen,
      fun k hk => (s.advance dt).tb3Stepped_tb_ne hk, fun n hn => (s.advance dt).tb3Stepped_offset hn,
      (s.advance dt).tb3Stepped_sameRegsBut, (s.advance dt).tb3Stepped_time_out.2⟩
  · rw [exec_tb3Switch_of_powered dt hon, State.autoSwitch_of_manual (s := s.advance dt) hmanual]
  · -- from A to B
    obtain ⟨e, hswitch⟩ := (s.advance dt).switchTb3_eq 2
    refine ⟨(s.advance dt).srcShown 2, e, ?_, State.srcShown_src _ _, State.srcShown_switched _ _, (s.advance dt).srcShown_sameRegsBut 2, rfl⟩
    rw [exec_tb3Switch_of_powered dt hon, State.autoSwitch_to_B (s := s.advance dt) hauto hsrc hA hB, hswitch, State.advance_get, hsrc]
  · -- from B to A
    obtain ⟨e, hswitch⟩ := (s.advance dt).switchTb3_eq 1
    refine ⟨(s.advance dt).srcShown 1, e, ?_, State.srcShown_src _ _, State.srcShown_switched _ _, (s.advance dt).srcShown_sameRegsBut 1, rfl⟩
    rw [exec_tb3Switch_of_powered dt hon, State.autoSwitch_to_A (s := s.advance dt) hauto hsrc hB hA, hswitch, State.advance_get, hsrc]
  · -- the return of a domain
    obtain ⟨hmark, hclock, hout⟩ := (s.advance dt).reconciled_same
    refine ⟨_, exec_domainEligibleRestore_of_agreed hon hdis hnear hsince hlong, ?_, State.makeEligible_on_self _ 1, hmark, hclock, hout⟩
    exact (State.makeEligible_on_ne _ (by decide)).trans (State.makeEligible_on_self _ 0)

end Sys2Proof.Machine

/-! SUPPORT. Proof of the statement of PTP offsets (R88 to R90): a Sync kept for its Follow_Up, an offset taken from the selected master, and
the loss of the master. -/

namespace Sys2Proof.Machine

/-! ### The record of a domain -/

@[simp] theorem State.ptp_onPtp_self (s : State) (d : Nat) (f : Ptp → Ptp) : (s.onPtp d f).ptp d = f (s.ptp d) := by
  unfold State.onPtp State.ptp State.modTime
  split <;> rfl

@[simp] theorem State.onPtp_tb (s : State) (d : Nat) (f : Ptp → Ptp) : (s.onPtp d f).time.tb = s.time.tb := by
  unfold State.onPtp State.modTime
  dsimp only
  split <;> rfl

@[simp] theorem State.onPtp_get (s : State) (d : Nat) (f : Ptp → Ptp) (g : Fld) : (s.onPtp d f).get g = s.get g := rfl

/-- A field outside PTPd_STATUS leaves the state of the domain alone. -/
theorem State.domain_set_ne (s : State) (f : Fld) (v d : Nat) (h : 0x141008 + 0x100 * d ≠ f.off) : (s.set f v).domain d = s.domain d :=
  s.get_set_ne f _ v h

/-- A command that needs the time bases and the Ethernet ports does its work while both domains are powered. -/
theorem State.whenOn_both {s : State} (f : State → Result) (hon : s.powered 2 = true) (hnet : s.powered 4 = true) :
    (s.whenOn 2 fun s => s.whenOn 4 f) = f s :=
  (State.whenOn_of_powered _ hon).trans (State.whenOn_of_powered f hnet)

/-! ### An offset of a domain that stays LOCKED (R89) -/

/-- A measured offset within step_us: it is shown, the stamps are kept for the delay measurement, and the run of Syncs goes on. -/
def State.offsetTaken (s : State) (d : Nat) (t1 t2 interval : Int) : State :=
  let off := timeDiff (t2 - t1 - (s.ptp d).pathDelay)
  ((s.setI (Reg.PTPd_OFFSET d) (sat32 (nsOf off))).onPtp d fun p => { p with lastSync := some (t1, t2) }).onPtp d fun p => { p with
    lockRun := if off.natAbs ≤ s.get (Reg.PTPd_SERVO_lock_ns d) * 65536 then min 8 (p.lockRun + 1) else 0
    syncBeat := s.beat, syncInterval := interval
    syncStamp := wrap 64 (((p.lastSync.map (·.2)).getD 0) / 65536) }

theorem State.offsetTaken_domain (s : State) (d : Nat) (t1 t2 interval : Int) : (s.offsetTaken d t1 t2 interval).domain d = s.domain d :=
  s.domain_set_ne _ _ d (by simp only [Reg.PTPd_OFFSET]; omega)

/-- In LOCKED the servo sets a rate and no time base. -/
theorem State.servo_of_locked {s : State} {d : Nat} {t1 t2 : Int} (interval : Int) (hlocked : s.domain d = 2)
    (hnear : (timeDiff (t2 - t1 - (s.ptp d).pathDelay)).natAbs ≤ max 1 (s.get (Reg.PTPd_SERVO_step_us d)) * 1000 * 65536) :
    s.servo d t1 t2 interval = ((s.offsetTaken d t1 t2 interval).servoRate d).compareDomains := by
  have hdomain := (s.offsetTaken_domain d t1 t2 interval).trans hlocked
  have hnotlocking : (decide (2 = 1) || decide (2 = 3)) = false := rfl
  unfold State.offsetTaken at hdomain ⊢
  unfold State.servo
  simp only at hdomain ⊢
  simp only [if_neg (Nat.not_lt.mpr hnear), hdomain, hnear, hnotlocking, Bool.false_and, Bool.false_eq_true, if_false, decide_true, Bool.and_true,
    if_true]

theorem State.servoRate_eq (s : State) (d : Nat) :
    ∃ r x, s.servoRate d = (({ s with free := s.free + 1 } : State).setRate d r).setI (Reg.PTPd_RATE d) x := ⟨_, _, rfl⟩

/-- A free rate leaves the domain, its record and its other registers as they are. -/
theorem State.servoRate_same (s : State) (d : Nat) : (s.servoRate d).ptp d = s.ptp d ∧ (s.servoRate d).time.tb = s.time.tb ∧
    (s.servoRate d).out = s.out ∧ ∀ f : Fld, f.off ≠ 0x141014 + 0x100 * d → (s.servoRate d).get f = s.get f := by
  obtain ⟨r, x, hrate⟩ := s.servoRate_eq d
  rw [hrate]
  exact ⟨rfl, rfl, rfl, fun f hf => State.get_set_ne _ (Reg.PTPd_RATE d) f _ hf⟩

theorem State.offsetTaken_offset (s : State) (d : Nat) (t1 t2 interval : Int) :
    (s.offsetTaken d t1 t2 interval).getI (Reg.PTPd_OFFSET d) = sat32 (nsOf (timeDiff (t2 - t1 - (s.ptp d).pathDelay))) :=
  State.getI_setI_sat32 s _ _ (by simp [Reg.PTPd_OFFSET]) rfl

theorem State.offsetTaken_tb (s : State) (d : Nat) (t1 t2 interval : Int) : (s.offsetTaken d t1 t2 interval).time.tb = s.time.tb := by
  unfold State.offsetTaken
  rw [State.onPtp_tb, State.onPtp_tb]
  rfl

theorem State.offsetTaken_ptp (s : State) (d : Nat) (t1 t2 interval : Int) :
    ((s.offsetTaken d t1 t2 interval).ptp d).lastSync = some (t1, t2) ∧
      ((s.offsetTaken d t1 t2 interval).ptp d).waitFollow = (s.ptp d).waitFollow := by
  unfold State.offsetTaken
  rw [State.ptp_onPtp_self, State.ptp_onPtp_self]
  exact ⟨rfl, rfl⟩

/-- No Sync of domain d waits for its Follow_Up any more. -/
def State.unwaited (s : State) (d : Nat) : State := s.onPtp d fun p => { p with waitFollow := none }

/-- What an offset within step_us, from origin time t1 and receive stamp t2, leaves of a LOCKED domain, before the domains are compared. -/
theorem State.servo_gives {s : State} {d : Nat} {t1 t2 off : Int} (interval : Int) (hlocked : s.domain d = 2)
    (hoff : off = timeDiff (t2 - t1 - (s.ptp d).pathDelay))
    (hnear : off.natAbs ≤ max 1 (s.get (Reg.PTPd_SERVO_step_us d)) * 1000 * 65536) :
    ∃ u : State, (s.unwaited d).servo d t1 t2 interval = u.compareDomains ∧ u.getI (Reg.PTPd_OFFSET d) = sat32 (nsOf off) ∧
      (u.ptp d).lastSync = some (t1, t2) ∧ (u.ptp d).waitFollow = none ∧ u.time.tb = s.time.tb ∧ u.domain d = 2 ∧ u.out = s.out := by
  have hrecord : (s.unwaited d).ptp d = { s.ptp d with waitFollow := none } := s.ptp_onPtp_self d _
  have htb : (s.unwaited d).time.tb = s.time.tb := s.onPtp_tb d _
  have hoff' : off = timeDiff (t2 - t1 - ((s.unwaited d).ptp d).pathDelay) := by rw [hrecord]; exact hoff
  obtain ⟨hptp, htb', hout, hget⟩ := ((s.unwaited d).offsetTaken d t1 t2 interval).servoRate_same d
  obtain ⟨hsync, hwait⟩ := (s.unwaited d).offsetTaken_ptp d t1 t2 interval
  refine ⟨_, State.servo_of_locked (s := s.unwaited d) interval hlocked (hoff' ▸ hnear), ?_, ?_, ?_, ?_, ?_, hout⟩
  · rw [hoff', ← State.offsetTaken_offset _ d t1 t2 interval]
    exact congrArg (signed 32) (hget _ (by simp only [Reg.PTPd_OFFSET]; omega))
  · rw [hptp, hsync]
  · rw [hptp, hwait, hrecord]
  · rw [htb', State.offsetTaken_tb, htb]
  · exact (hget _ (by simp only [Reg.PTPd_STATUS_state]; omega)).trans ((State.offsetTaken_domain _ d t1 t2 interval).trans hlocked)

/-! ### The loss of the master (R89) -/

/-- The domain in HOLDOVER, with the master shown that is left. -/
def State.heldOver (s : State) (d : Nat) : State :=
  (((s.set (Reg.PTPd_STATUS_state d) 3).raise (Reg.PTPd_STATUS_holdover_seen d)).onPtp d fun p => { p with lockRun := 0 }).showMaster d

theorem State.showMaster_get_ne (s : State) (d : Nat) {f : Fld} (h : f.off ≠ 0x141018 + 0x100 * d) (h' : f.off ≠ 0x14101c + 0x100 * d) :
    (s.showMaster d).get f = s.get f := s.get_set2_ne _ _ f _ h h'

theorem State.get_raise (s : State) (f g : Fld) : (s.raise f).get g = (s.set f 1).get g := rfl

theorem State.heldOver_domain (s : State) (d : Nat) : (s.heldOver d).domain d = 3 := by
  unfold State.heldOver State.domain
  rw [State.showMaster_get_ne _ _ (by simp only [Reg.PTPd_STATUS_state]; omega) (by simp only [Reg.PTPd_STATUS_state]; omega), State.onPtp_get]
  rw [State.get_raise, State.get_set_beside _ (Reg.PTPd_STATUS_holdover_seen d) _ _ (by simp [Reg.PTPd_STATUS_holdover_seen])
    (.inl (by simp [Reg.PTPd_STATUS_state, Reg.PTPd_STATUS_holdover_seen])), State.get_set_self _ _ _ (by simp [Reg.PTPd_STATUS_state])]
  rfl

theorem State.heldOver_tb (s : State) (d : Nat) : (s.heldOver d).time.tb = s.time.tb :=
  State.onPtp_tb ((s.set (Reg.PTPd_STATUS_state d) 3).raise (Reg.PTPd_STATUS_holdover_seen d)) d fun p => { p with lockRun := 0 }

theorem State.heldOver_seen (s : State) (d : Nat) : (s.heldOver d).on (Reg.PTPd_STATUS_holdover_seen d) = true := by
  unfold State.heldOver State.on
  rw [State.showMaster_get_ne _ _ (by simp only [Reg.PTPd_STATUS_holdover_seen]; omega) (by simp only [Reg.PTPd_STATUS_holdover_seen]; omega),
    State.onPtp_get]
  exact State.on_raise_self _ _ (by simp [Reg.PTPd_STATUS_holdover_seen]) rfl

/-! ### The commands -/

section
variable {dt : Nat} {d : Fin 2} {h : PtpHeader} (origin : BitVec 64) {s : State} (hon : s.powered 2 = true) (hnet : s.powered 4 = true)
  (hears : s.ptpHears d h = true) (hmaster : (s.advance dt).fromMaster d h = true)
include hon hnet hears hmaster

theorem exec_ptpSyncRx_of_master : exec (.ptpSyncRx dt d h origin) s = .next (
    if h.twoStep then (s.advance dt).onPtp d fun p => { p with waitFollow := some (h.seq.toNat, (s.advance dt).rxStamp d, h.correction) }
    else ((s.advance dt).unwaited d).servo d (origin.toNat * 65536 + h.correction)
      ((s.advance dt).rxStamp d) h.logInterval) := by
  have hfor : ((s.advance dt).ptpHears d h && (s.advance dt).fromMaster d h) = true := Bool.and_eq_true_iff.mpr ⟨hears, hmaster⟩
  refine (State.whenOn_both (s := s.advance dt) _ hon hnet).trans ((if_pos hfor).trans ?_)
  exact (apply_ite Host.Outcome.next ..).symm

theorem exec_ptpFollowUpRx_of_master {t2 corr : Int} (hwait : (s.ptp d).waitFollow = some (h.seq.toNat, t2, corr)) :
    exec (.ptpFollowUpRx dt d h origin) s = .next (((s.advance dt).unwaited d).servo d
      (origin.toNat * 65536 + corr + h.correction) t2 h.logInterval) := by
  have hwait' : ((s.advance dt).ptp d).waitFollow = some (h.seq.toNat, t2, corr) := hwait
  have hfor : ((s.advance dt).ptpHears d h && (s.advance dt).fromMaster d h && h.seq.toNat == h.seq.toNat) = true := by
    rw [hmaster, Bool.and_true, beq_self_eq_true, Bool.and_true]; exact hears
  refine (State.whenOn_both (s := s.advance dt) _ hon hnet).trans ?_
  simp only [hwait', if_pos hfor]
  rfl

end

theorem exec_ptpHoldover_of_lost {dt : Nat} {d : Fin 2} {s : State} (hon : s.powered 2 = true) (hlocked : s.domain d = 2)
    (hlost : (s.advance dt).masterLost d = true) :
    exec (.ptpHoldover dt d) s = .next (((s.advance dt).heldOver d).post 0x0202 [.b d, .ns (s.ptp d).syncStamp]).autoSwitch := by
  have hdue : ((s.advance dt).domain d == 2 && (s.advance dt).masterLost d) = true := by
    rw [hlost, Bool.and_true]; exact beq_iff_eq.mpr hlocked
  show execPtpHoldover dt d s = _
  unfold execPtpHoldover
  rw [State.whenOn_of_powered (s := s.advance dt) _ hon]
  exact if_pos hdue

/-- Settles O30: a Sync of the selected master either waits for its Follow_Up or, as that does, gives an offset, which in LOCKED and within
step_us moves no time base. The arithmetic with correction fields and the matching by sequence number are those of IEEE 1588 (log 24); the
servo's rate is free (log 25). -/
theorem ptpSync : Obligations.PtpSync := by
  refine ⟨fun dt d h origin s hon hnet hears hmaster => ⟨fun htwo => ?_, fun off t1 hone hlocked ht1 hoff hnear => ?_⟩,
    fun dt d h origin t2 corr s hwait hon hnet hears hmaster hlocked off t1 ht1 hoff hnear => ?_, fun dt d s hon hlocked hlost => ?_⟩
  · rw [exec_ptpSyncRx_of_master origin hon hnet hears hmaster, if_pos htwo]
  · -- a one-step Sync
    rw [exec_ptpSyncRx_of_master origin hon hnet hears hmaster, hone, if_neg Bool.false_ne_true, ← ht1]
    obtain ⟨u, hservo, hgives⟩ := State.servo_gives (s := s.advance dt) h.logInterval hlocked hoff hnear
    exact ⟨u, congrArg _ hservo, hgives⟩
  · -- the Follow_Up
    rw [exec_ptpFollowUpRx_of_master origin hon hnet hears hmaster hwait, ← ht1]
    obtain ⟨u, hservo, hgives⟩ := State.servo_gives (s := s.advance dt) h.logInterval hlocked hoff hnear
    exact ⟨u, congrArg _ hservo, hgives⟩
  · -- the master is lost
    refine ⟨_, exec_ptpHoldover_of_lost hon hlocked hlost, State.heldOver_domain _ _, State.heldOver_seen _ _, State.heldOver_tb _ _, rfl⟩

end Sys2Proof.Machine

/-! SUPPORT. Proof of the statement of PTP delays (R88, R90, R520): the messages sent and where their fields lie, the delays measured, Announce
messages and those of other types. -/

namespace Sys2Proof.Machine

/-! ### Big-endian fields of messages (R4) -/

theorem leBytes_length (n v : Nat) : (leBytes n v).length = n := by
  induction n generalizing v with
  | zero => rfl
  | succ n ih => exact congrArg (· + 1) (ih _)

@[simp] theorem beBytes_length (n v : Nat) : (beBytes n v).length = n := List.length_reverse.trans (leBytes_length n v)

theorem ofLe_leBytes (n v : Nat) : ofLe (leBytes n v) = v % 256 ^ n := by
  induction n generalizing v with
  | zero => exact (Nat.mod_one v).symm
  | succ n ih =>
    rw [Nat.pow_succ', Nat.mod_mul, ← ih]
    rfl

theorem ofBe_beBytes (n v : Nat) : ofBe (beBytes n v) = v % 256 ^ n := by
  unfold ofBe beBytes
  rw [List.reverse_reverse, ofLe_leBytes]

/-- A number written in n bytes behind others reads back, cut to its width. -/
theorem beAt_beBytes (pre post : List (BitVec 8)) (n v : Nat) : beAt (pre ++ beBytes n v ++ post) pre.length n = v % 256 ^ n := by
  have htake : ((pre ++ beBytes n v ++ post).drop pre.length).take n = beBytes n v := by
    rw [List.append_assoc, List.drop_left, List.take_left' (beBytes_length n v)]
  unfold beAt slice
  simp only [htake, beBytes_length, Nat.sub_self, List.replicate_zero, List.append_nil, ofBe_beBytes]

/-! ### A PTP message (IEEE 1588-2019, R88) -/

/-- The type and the sequence number of a message lie 29 bytes apart. -/
theorem State.ptpMessage_layout (s : State) (d type seq : Nat) (corr : Int) (flags interval : Nat) (body : List (BitVec 8)) :
    ∃ mid post, s.ptpMessage d type seq corr flags interval body =
      beBytes 1 ((if s.profile d = 2 then 1 else 0) * 16 + type) ++ mid ++ beBytes 2 seq ++ post ∧ mid.length = 29 := by
  refine ⟨beBytes 1 0x12 ++ beBytes 2 (34 + body.length) ++ beBytes 1 (s.get (ptpCfg d Reg.PTP0_CFG_domain_number)) ++ beBytes 1 0 ++
    beBytes 2 flags ++ beBytes 8 (wrap 64 corr) ++ beBytes 4 0 ++ beBytes 3 (s.mac (s.ptpPort d) / 2 ^ 24) ++ beBytes 2 0xFFFE ++
    beBytes 3 (s.mac (s.ptpPort d)) ++ beBytes 2 1, beBytes 1 (if type = 1 then 1 else 5) ++ beBytes 1 interval ++ body, ?_, ?_⟩
  · unfold State.ptpMessage
    simp only [List.append_assoc]
  · simp only [List.length_append, beBytes_length]

theorem State.ptpMessage_type (s : State) (d : Nat) {type : Nat} (seq : Nat) (corr : Int) (flags interval : Nat) (body : List (BitVec 8))
    (h : type < 16) : beAt (s.ptpMessage d type seq corr flags interval body) 0 1 % 16 = type := by
  obtain ⟨mid, post, hm, -⟩ := s.ptpMessage_layout d type seq corr flags interval body
  have hat := beAt_beBytes [] (mid ++ beBytes 2 seq ++ post) 1 ((if s.profile d = 2 then 1 else 0) * 16 + type)
  simp only [List.nil_append, List.length_nil, ← List.append_assoc] at hat
  rw [hm, hat]
  split <;> omega

theorem State.ptpMessage_seq (s : State) (d type seq : Nat) (corr : Int) (flags interval : Nat) (body : List (BitVec 8)) :
    beAt (s.ptpMessage d type seq corr flags interval body) 30 2 = seq % 65536 := by
  obtain ⟨mid, post, hm, hlen⟩ := s.ptpMessage_layout d type seq corr flags interval body
  have hat := beAt_beBytes (beBytes 1 ((if s.profile d = 2 then 1 else 0) * 16 + type) ++ mid) post 2 seq
  rw [List.length_append, beBytes_length, hlen] at hat
  rw [hm]
  exact hat

/-! ### Frames sent (R520) -/

theorem State.sendNet_of_enabled {s : State} {p : Nat} (dest : Nat) (c : FrameCarrier) (m : List (BitVec 8))
    (h : s.on (Reg.ETHp_CFG_enable p) = true) : s.sendNet p dest c m =
      (s.emit (.netMessage p ⟨BitVec.ofNat 48 dest, BitVec.ofNat 48 (s.mac p), c, m⟩)).bump (Reg.ETHp_TX_FRAMES p) 1 := if_pos h

/-- From s to t a frame with a message leaves on port p and is counted. -/
structure State.SendsFrame (s t : State) (p : Nat) (body : List (BitVec 8)) : Prop where
  out : ∃ m : NetFrame, t.out = s.out ++ [.netMessage p m] ∧ m.body = body
  regs : s.sameRegsBut t [(Reg.ETHp_TX_FRAMES p).off]
  time : t.time = s.time

theorem State.sendNet_sends {s : State} {p : Nat} (dest : Nat) (c : FrameCarrier) (m : List (BitVec 8))
    (h : s.on (Reg.ETHp_CFG_enable p) = true) : s.SendsFrame (s.sendNet p dest c m) p m := by
  rw [State.sendNet_of_enabled dest c m h]
  exact ⟨⟨_, rfl, rfl⟩, (State.sameRegsBut_of_eq (t := s.emit _) rfl _).set (Reg.ETHp_TX_FRAMES p) _ (.head _), rfl⟩

theorem State.sendPtp_sends {s : State} {d : Nat} (peer event : Bool) (m : List (BitVec 8))
    (h : s.on (Reg.ETHp_CFG_enable (s.ptpPort d)) = true) : s.SendsFrame (s.sendPtp d peer event m) (s.ptpPort d) m := by
  unfold State.sendPtp
  split
  · exact State.sendNet_sends _ _ _ h
  · exact State.sendNet_sends _ _ _ h

/-- A frame sent leaves the port of a domain and its enable bit as they are. -/
theorem State.SendsFrame.port {s t : State} {p : Nat} {m : List (BitVec 8)} (d : Nat) (h : s.SendsFrame t p m) :
    t.ptpPort d = s.ptpPort d ∧ ∀ q, t.on (Reg.ETHp_CFG_enable q) = s.on (Reg.ETHp_CFG_enable q) := by
  refine ⟨h.regs.get ?_, fun q => congrArg (· == 1) (h.regs.get ?_)⟩
  · simp only [ptpCfg, Reg.PTP0_CFG_port, Reg.ETHp_TX_FRAMES, List.mem_singleton]; omega
  · simp only [Reg.ETHp_CFG_enable, Reg.ETHp_TX_FRAMES, List.mem_singleton]; omega

/-! ### Requests (R88, R90) -/

/-- A request leaves with the next sequence number, and its transmit stamp is kept. -/
theorem State.sendRequest_gives {s : State} {d type : Nat} (pad : Nat) (ht : type < 16) (h : s.on (Reg.ETHp_CFG_enable (s.ptpPort d)) = true) :
    (∃ m, (s.sendRequest d type pad).out = s.out ++ [.netMessage (s.ptpPort d) m] ∧ beAt m.body 0 1 % 16 = type ∧
      beAt m.body 30 2 = (s.ptp d).nextSeq % 65536) ∧
    (s.sendRequest d type pad).ptp d = { s.ptp d with
      request := some ((s.ptp d).nextSeq, s.txStamp d), waitResp := none, nextSeq := ((s.ptp d).nextSeq + 1) % 65536 } ∧
    s.sameRegsBut (s.sendRequest d type pad) [(Reg.ETHp_TX_FRAMES (s.ptpPort d)).off] := by
  have hsent : (s.onPtp d fun p => { p with
      request := some ((s.ptp d).nextSeq, s.txStamp d), waitResp := none, nextSeq := ((s.ptp d).nextSeq + 1) % 65536 }).SendsFrame
        (s.sendRequest d type pad) (s.ptpPort d) _ := State.sendPtp_sends _ _ _ h
  obtain ⟨⟨m, hout, hbody⟩, hregs, htime⟩ := hsent
  refine ⟨⟨m, hout, ?_, ?_⟩, ?_, hregs⟩
  · rw [hbody]; exact State.ptpMessage_type s d _ _ _ _ _ ht
  · rw [hbody]; exact State.ptpMessage_seq s d type _ _ _ _ _
  · unfold State.ptp at *
    rw [htime]
    exact s.ptp_onPtp_self d _

/-! ### Delays measured (R88) -/

/-- A delay ends the request and is shown in ns, saturated. -/
theorem State.setDelay_gives (s : State) (d : Nat) (v : Int) :
    (s.setDelay d v).ptp d = { s.ptp d with pathDelay := v, request := none, waitResp := none } ∧
    (s.setDelay d v).get (Reg.PTPd_PATH_DELAY d) = min (2 ^ 32 - 1) (nsOf v).toNat ∧
    s.sameRegsBut (s.setDelay d v) [(Reg.PTPd_PATH_DELAY d).off] ∧ (s.setDelay d v).out = s.out := by
  have hshown := State.get_set_self (s.onPtp d fun p => { p with pathDelay := v, request := none, waitResp := none }) (Reg.PTPd_PATH_DELAY d)
    (min (2 ^ 32 - 1) (nsOf v).toNat) (by simp [Reg.PTPd_PATH_DELAY])
  refine ⟨s.ptp_onPtp_self d fun p => { p with pathDelay := v, request := none, waitResp := none }, hshown.trans (Nat.mod_eq_of_lt ?_), ?_, rfl⟩
  · exact Nat.lt_of_le_of_lt (Nat.min_le_left _ _) (by simp [Reg.PTPd_PATH_DELAY])
  · exact (State.sameRegsBut_of_eq (t := s.onPtp d _) rfl _).set (Reg.PTPd_PATH_DELAY d) _ (.head _)

/-! ### Announce messages (R88) -/

theorem State.showMaster_ptp (s : State) (d : Nat) : (s.showMaster d).ptp d = s.ptp d := rfl
theorem State.showMaster_master (s : State) (d : Nat) : (s.showMaster d).master d = s.master d := rfl

theorem State.showMaster_shows (s : State) (d : Nat) :
    (s.showMaster d).get2 (Reg.PTPd_GM_ID_LO d) (Reg.PTPd_GM_ID_HI d) = ((s.master d).map (·.clockId.toNat)).getD 0 := by
  have hlt : ((s.master d).map (·.clockId.toNat)).getD 0 < 2 ^ 64 := by
    cases s.master d with
    | none => decide
    | some m => exact m.clockId.isLt
  exact (State.get2_set2_self s _ _ _ (by simp [Reg.PTPd_GM_ID_LO]) (by simp [Reg.PTPd_GM_ID_HI])
    (by simp [Reg.PTPd_GM_ID_LO, Reg.PTPd_GM_ID_HI])).trans (Nat.mod_eq_of_lt hlt)

/-- A master heard, in place of what was heard of it before. -/
def State.announced (s : State) (d : Nat) (h : PtpHeader) (data : Announce) : State :=
  s.onPtp d fun p => { p with
    foreign := ⟨h.clockId, h.portNumber, data, s.beat, h.logInterval⟩ ::
      p.foreign.filter fun g => !(g.clockId == h.clockId && g.portNumber == h.portNumber) && !g.stale s.beat }

/-! ### The commands -/

section
variable {dt : Nat} {d : Fin 2} {s : State} (hon : s.powered 2 = true) (hnet : s.powered 4 = true)
include hon hnet

theorem exec_ptpDelayReqSend_of_synced (hrun : s.domainRuns d = true) (hprofile : s.profile d = 0) (hsync : (s.ptp d).lastSync.isSome = true) :
    exec (.ptpDelayReqSend dt d) s = .next ((s.advance dt).sendRequest d 1 0) := by
  have hdue : (s.domainRuns d && s.profile d == 0 && (s.ptp d).lastSync.isSome) = true := by rw [hrun, hprofile, hsync]; rfl
  exact (State.whenOn_both (s := s.advance dt) _ hon hnet).trans (if_pos hdue)

theorem exec_ptpPdelayReqSend_of_running (hrun : s.domainRuns d = true) (hprofile : s.profile d ≠ 0) :
    exec (.ptpPdelayReqSend dt d) s = .next ((s.advance dt).sendRequest d 2 10) := by
  have hdue : (s.domainRuns d && s.profile d != 0) = true := by rw [hrun, bne_iff_ne.mpr hprofile]; rfl
  exact (State.whenOn_both (s := s.advance dt) _ hon hnet).trans (if_pos hdue)

variable {h : PtpHeader} (hears : s.ptpHears d h = true)
include hears

omit hon hnet in
theorem State.hearsPeer (hprofile : s.profile d ≠ 0) : (s.ptpHears d h && s.profile d != 0) = true :=
  Bool.and_eq_true_iff.mpr ⟨hears, bne_iff_ne.mpr hprofile⟩

theorem exec_ptpPdelayReqRx_of_heard (hprofile : s.profile d ≠ 0) : ∃ corr flags flags' interval interval' body body',
    exec (.ptpPdelayReqRx dt d h) s =
      .next (((s.advance dt).sendPtp d true true ((s.advance dt).ptpMessage d 3 h.seq.toNat 0 flags interval body)).sendPtp d true false
        ((s.advance dt).ptpMessage d 10 h.seq.toNat corr flags' interval' body')) := by
  have hfor := State.hearsPeer (s := s.advance dt) hears hprofile
  exact ⟨_, _, _, _, _, _, _, (State.whenOn_both (s := s.advance dt) _ hon hnet).trans (if_pos hfor)⟩

theorem exec_ptpDelayRespRx_of_master (v : BitVec 64) {t1 t2 t3 : Int} (hrequest : (s.ptp d).request = some (h.seq.toNat, t3))
    (hsync : (s.ptp d).lastSync = some (t1, t2)) (hmaster : (s.advance dt).fromMaster d h = true) (hprofile : s.profile d = 0) :
    exec (.ptpDelayRespRx dt d h v) s =
      .next ((s.advance dt).setDelay d (quot (timeDiff (t2 - t1) + timeDiff ((v.toNat : Int) * 65536 - h.correction - t3)) 2)) := by
  have hrequest' : ((s.advance dt).ptp d).request = some (h.seq.toNat, t3) := hrequest
  have hsync' : ((s.advance dt).ptp d).lastSync = some (t1, t2) := hsync
  have hears' : (s.advance dt).ptpHears d h = true := hears
  have hprofile' : (s.advance dt).profile d = 0 := hprofile
  refine (State.whenOn_both (s := s.advance dt) _ hon hnet).trans ?_
  simp only [hrequest', hsync', hears', hmaster, hprofile', beq_self_eq_true, Bool.and_self, if_true]

theorem exec_ptpAnnounceRx_of_heard (a : Announce) :
    exec (.ptpAnnounceRx dt d h a) s = .next (((s.advance dt).announced d h a).showMaster d) := by
  have hears' : (s.advance dt).ptpHears d h = true := hears
  exact (State.whenOn_both (s := s.advance dt) _ hon hnet).trans (if_pos hears')

variable (hprofile : s.profile d ≠ 0)
include hprofile

theorem exec_ptpPdelayRespRx_of_request (v : BitVec 64) {t1 : Int} (hrequest : (s.ptp d).request = some (h.seq.toNat, t1)) :
    exec (.ptpPdelayRespRx dt d h false v) s = .next (
      if h.twoStep then (s.advance dt).onPtp d fun p => { p with
        waitResp := some (h.seq.toNat, (v.toNat : Int) * 65536 - h.correction, (s.advance dt).rxStamp d) }
      else (s.advance dt).setDelay d (quot (timeDiff ((s.advance dt).rxStamp d - t1) - h.correction) 2)) := by
  have hrequest' : ((s.advance dt).ptp d).request = some (h.seq.toNat, t1) := hrequest
  have hfor : (!((s.advance dt).ptpHears d h && (s.advance dt).profile d != 0)) = false :=
    congrArg not (State.hearsPeer hears hprofile)
  refine (State.whenOn_both (s := s.advance dt) _ hon hnet).trans ?_
  simp only [hfor, hrequest', Bool.false_eq_true, if_false, beq_self_eq_true, if_true]
  exact (apply_ite Host.Outcome.next ..).symm

theorem exec_ptpPdelayRespRx_of_followUp (v : BitVec 64) {seq : Nat} {t1 t2 t4 : Int} (hrequest : (s.ptp d).request = some (seq, t1))
    (hwait : (s.ptp d).waitResp = some (h.seq.toNat, t2, t4)) : exec (.ptpPdelayRespRx dt d h true v) s =
      .next ((s.advance dt).setDelay d (quot (timeDiff (t4 - t1) - timeDiff ((v.toNat : Int) * 65536 - t2) - h.correction) 2)) := by
  have hrequest' : ((s.advance dt).ptp d).request = some (seq, t1) := hrequest
  have hwait' : ((s.advance dt).ptp d).waitResp = some (h.seq.toNat, t2, t4) := hwait
  have hfor : (!((s.advance dt).ptpHears d h && (s.advance dt).profile d != 0)) = false :=
    congrArg not (State.hearsPeer hears hprofile)
  refine (State.whenOn_both (s := s.advance dt) _ hon hnet).trans ?_
  simp only [hfor, hrequest', hwait', Bool.false_eq_true, if_false, beq_self_eq_true, if_true]

end

theorem exec_ptpIgnoredRx_of_heard {dt : Nat} {d : Fin 2} {h : PtpHeader} {s : State} (hnet : s.powered 4 = true) (hears : s.ptpHears d h = true) :
    exec (.ptpIgnoredRx dt d h) s = .next ((s.advance dt).bump (Reg.PTPd_STATUS_ignored_count d) 1) := by
  have hears' : (s.advance dt).ptpHears d h = true := hears
  show execPtpIgnoredRx dt d h s = _
  unfold execPtpIgnoredRx
  rw [State.whenOn_of_powered (s := s.advance dt) _ hnet]
  exact if_pos hears'

/-- Settles O31: a request or an answer leaves as a message whose type and sequence number lie where IEEE 1588 has them; a delay measured ends
the request. The message types and the sequence field, the half that is not filtered and the best master are the model's (log 24), and so are
the roundings (log 7). -/
theorem ptpDelay : Obligations.PtpDelay := by
  refine ⟨fun dt d s hon hnet hrun hport => ⟨fun hprofile hsync => ?_, fun hprofile => ?_⟩, fun dt d h s hon hnet hears hprofile hport => ?_,
    fun dt d h v t1 t2 t3 s hon hnet hrequest hsync hears hmaster hprofile => ?_,
    fun dt d h v t1 s hon hnet hears hprofile hrequest => ⟨fun hone => ?_, fun htwo => ?_, fun t2 t4 hwait => ?_⟩,
    fun dt d h a s hon hnet hears => ?_, fun dt d h s hnet hears => ?_⟩
  · -- a Delay_Req
    obtain ⟨hsent, hptp, hregs⟩ := State.sendRequest_gives (s := s.advance dt) (type := 1) 0 (by decide) hport
    refine ⟨_, exec_ptpDelayReqSend_of_synced hon hnet hrun hprofile hsync, hsent, ?_, ?_, ?_, hregs⟩ <;> rw [hptp] <;> rfl
  · -- a Pdelay_Req
    obtain ⟨hsent, hptp, hregs⟩ := State.sendRequest_gives (s := s.advance dt) (type := 2) 10 (by decide) hport
    refine ⟨_, exec_ptpPdelayReqSend_of_running hon hnet hrun hprofile, hsent, ?_, ?_, hregs⟩ <;> rw [hptp] <;> rfl
  · -- a Pdelay_Resp and its follow-up
    obtain ⟨corr, flags, flags', interval, interval', body, body', hexec⟩ := exec_ptpPdelayReqRx_of_heard (dt := dt) hon hnet hears hprofile
    have hresp := State.sendPtp_sends (s := s.advance dt) (d := d) true true
      ((s.advance dt).ptpMessage d 3 h.seq.toNat 0 flags interval body) hport
    obtain ⟨hsame, henable⟩ := hresp.port d
    have hfollow := State.sendPtp_sends (d := d) true false ((s.advance dt).ptpMessage d 10 h.seq.toNat corr flags' interval' body')
      (((henable _).trans (congrArg _ (congrArg _ hsame))).trans hport)
    rw [hsame] at hfollow
    obtain ⟨m1, hout1, hbody1⟩ := hresp.out
    obtain ⟨m2, hout2, hbody2⟩ := hfollow.out
    refine ⟨_, hexec, ⟨m1, m2, ?_, ?_, ?_, ?_, ?_⟩, hfollow.time.trans hresp.time, hresp.regs.trans hfollow.regs⟩
    · rw [hout2, hout1, List.append_assoc]; rfl
    · rw [hbody1, State.ptpMessage_type _ _ _ _ _ _ _ (by decide)]
    · rw [hbody2, State.ptpMessage_type _ _ _ _ _ _ _ (by decide)]
    · rw [hbody1, State.ptpMessage_seq, Nat.mod_eq_of_lt h.seq.isLt]
    · rw [hbody2, State.ptpMessage_seq, Nat.mod_eq_of_lt h.seq.isLt]
  · -- a Delay_Resp
    have hexec := exec_ptpDelayRespRx_of_master hon hnet hears v hrequest hsync hmaster hprofile
    obtain ⟨hptp, hshown, hregs, hout⟩ := (s.advance dt).setDelay_gives d
      (quot (timeDiff (t2 - t1) + timeDiff ((v.toNat : Int) * 65536 - h.correction - t3)) 2)
    exact ⟨_, hexec, by rw [hptp], by rw [hptp], by rw [hshown, hptp], hregs, hout⟩
  · -- a one-step Pdelay_Resp
    have hexec := exec_ptpPdelayRespRx_of_request (dt := dt) hon hnet hears hprofile v hrequest
    rw [hone, if_neg Bool.false_ne_true] at hexec
    obtain ⟨hptp, -, -, hout⟩ := (s.advance dt).setDelay_gives d (quot (timeDiff ((s.advance dt).rxStamp d - t1) - h.correction) 2)
    exact ⟨_, hexec, by rw [hptp], by rw [hptp], hout⟩
  · -- a two-step Pdelay_Resp waits for its follow-up
    have hexec := exec_ptpPdelayRespRx_of_request (dt := dt) hon hnet hears hprofile v hrequest
    rw [if_pos htwo] at hexec
    exact ⟨_, hexec, by rw [State.ptp_onPtp_self], rfl, rfl⟩
  · -- its follow-up
    obtain ⟨hptp, -, -, hout⟩ := (s.advance dt).setDelay_gives d
      (quot (timeDiff (t4 - t1) - timeDiff ((v.toNat : Int) * 65536 - t2) - h.correction) 2)
    exact ⟨_, exec_ptpPdelayRespRx_of_followUp hon hnet hears hprofile v hrequest hwait, by rw [hptp], by rw [hptp], hout⟩
  · -- an Announce
    refine ⟨_, exec_ptpAnnounceRx_of_heard hon hnet hears a, ?_, ?_, rfl⟩
    · rw [State.showMaster_ptp, State.announced, State.ptp_onPtp_self]; rfl
    · rw [State.showMaster_master, State.showMaster_shows]
  · -- a message of another type
    exact exec_ptpIgnoredRx_of_heard hnet hears

end Sys2Proof.Machine

/-! SUPPORT. Proof of the statement of web coordinates (R95 to R98): publishing, the checks of a received message, and what an accepted one
leaves of the remote coordinate while the observer takes it. -/

namespace Sys2Proof.Machine

/-! ### What the observer leaves of chapter 04

An update of the remote source may remove sources, fire compare units, enter reversal and post events. None of that touches the time record
or WCS_STATUS: each operation leaves them alone because its parts do, in the order of the definitions, and the registers it writes lie elsewhere.
-/

/-- The time record and the word of WCS_STATUS. -/
def State.wcView (s : State) : Time × BitVec 32 := (s.time, s.reg 0x14302c)

theorem State.setReg_wcView (s : State) {off : Nat} (v : BitVec 32) (h : off ≠ 0x14302c) : (s.setReg off v).wcView = s.wcView := by
  unfold State.wcView
  rw [s.reg_setReg_ne off _ v h.symm]
  rfl

@[simp] theorem State.set_wcView (s : State) (f : Fld) (v : Nat) (h : f.off ≠ 0x14302c) : (s.set f v).wcView = s.wcView := s.setReg_wcView _ h
@[simp] theorem State.raise_wcView (s : State) (f : Fld) (h : f.off ≠ 0x14302c) : (s.raise f).wcView = s.wcView := s.setReg_wcView _ h
@[simp] theorem State.clear_wcView (s : State) (f : Fld) (h : f.off ≠ 0x14302c) : (s.clear f).wcView = s.wcView := s.setReg_wcView _ h
@[simp] theorem State.setOn_wcView (s : State) (f : Fld) (b : Bool) (h : f.off ≠ 0x14302c) : (s.setOn f b).wcView = s.wcView := s.setReg_wcView _ h
@[simp] theorem State.bump_wcView (s : State) (f : Fld) (n : Nat) (h : f.off ≠ 0x14302c) : (s.bump f n).wcView = s.wcView := s.setReg_wcView _ h

@[simp] theorem State.set2_wcView (s : State) (lo hi : Fld) (v : Nat) (h : lo.off ≠ 0x14302c) (h' : hi.off ≠ 0x14302c) :
    (s.set2 lo hi v).wcView = s.wcView := (State.set_wcView _ _ _ h').trans (s.set_wcView _ _ h)

@[simp] theorem State.setI2_wcView (s : State) (lo hi : Fld) (v : Int) (h : lo.off ≠ 0x14302c) (h' : hi.off ≠ 0x14302c) :
    (s.setI2 lo hi v).wcView = s.wcView := s.set2_wcView lo hi _ h h'

@[simp] theorem State.emit_wcView (s : State) (o : Output) : (s.emit o).wcView = s.wcView := rfl
@[simp] theorem State.modRings_wcView (s : State) (f : Rings → Rings) : (s.modRings f).wcView = s.wcView := rfl
@[simp] theorem State.modPower_wcView (s : State) (f : Power → Power) : (s.modPower f).wcView = s.wcView := rfl
@[simp] theorem State.modTally_wcView (s : State) (f : Tally → Tally) : (s.modTally f).wcView = s.wcView := rfl
@[simp] theorem State.modLink_wcView (s : State) (f : Link → Link) : (s.modLink f).wcView = s.wcView := rfl
@[simp] theorem State.modSched_wcView (s : State) (f : Sched → Sched) : (s.modSched f).wcView = s.wcView := rfl
@[simp] theorem State.modObs_wcView (s : State) (f : Observer → Observer) : (s.modObs f).wcView = s.wcView := rfl
@[simp] theorem State.setCam_wcView (s : State) (p : Nat) (c : CamPort) : (s.setCam p c).wcView = s.wcView := rfl
@[simp] theorem State.onCam_wcView (s : State) (p : Nat) (f : CamPort → CamPort) : (s.onCam p f).wcView = s.wcView := rfl
@[simp] theorem State.setCmp_wcView (s : State) (n : Nat) (c : Compare) : (s.setCmp n c).wcView = s.wcView := rfl
@[simp] theorem State.onCmp_wcView (s : State) (n : Nat) (f : Compare → Compare) : (s.onCmp n f).wcView = s.wcView := rfl
@[simp] theorem State.setInst_wcView (s : State) (k : Nat) (i : Instance) : (s.setInst k i).wcView = s.wcView := rfl
@[simp] theorem State.startSlew_wcView (s : State) (d : Int) : (s.startSlew d).wcView = s.wcView := rfl

@[simp] theorem State.ite_wcView (c : Prop) [Decidable c] (a b : State) : (if c then a else b).wcView = if c then a.wcView else b.wcView :=
  apply_ite State.wcView c a b

/-- A fold of steps that leave it alone leaves it alone. -/
theorem foldl_wcView {β : Type} {f : State → β → State} (h : ∀ u b, (f u b).wcView = u.wcView) (l : List β) (s : State) :
    (l.foldl f s).wcView = s.wcView :=
  foldl_keeps (fun u : State => u.wcView = s.wcView) f (fun u b hu => (h u b).trans hu) l s rfl

/-! Events (R387, R518) -/

@[simp] theorem State.sendVector_wcView (s : State) (v : Nat) : (s.sendVector v).wcView = s.wcView := by simp [State.sendVector]

@[simp] theorem State.raiseCause_wcView (s : State) (i : Nat) : (s.raiseCause i).wcView = s.wcView := by
  simp [State.raiseCause, Reg.GLB_CAUSE_classes]

theorem onRing_off_ne (k : Nat) (f : Fld) : (onRing k f).off ≠ 0x14302c := by
  have := onRing_off_ge k f
  omega

@[simp] theorem State.moderate_wcView (s : State) (k : Nat) (urgent : Bool) : (s.moderate k urgent).wcView = s.wcView := by
  unfold State.moderate
  split
  · rfl
  · simp [ringArmed, onRing_off_ne]

@[simp] theorem State.writeEntry_wcView (s : State) (k : Nat) (entry : List (BitVec 8)) (urgent : Bool) :
    (s.writeEntry k entry urgent).wcView = s.wcView := by
  simp [State.writeEntry, State.setWaiting, ringProd, onRing_off_ne]

@[simp] theorem State.loseEvent_wcView (s : State) : s.loseEvent.wcView = s.wcView := by
  simp [State.loseEvent, Reg.HR_EVT_LOST, Reg.HR_STATUS_evt_lost]

@[simp] theorem State.ringEvent_wcView (s : State) (e : EventRec) : (s.ringEvent e).wcView = s.wcView := by simp [State.ringEvent]

@[simp] theorem State.post_wcView (s : State) (code : Nat) (args : List EArg) : (s.post code args).wcView = s.wcView := by
  simp [State.post, State.logEvent]

/-! PRINT_OK, the inhibit, partings, stamps of camera ports -/

@[simp] theorem State.ceilingLow_wcView (s : State) : s.ceilingLow.wcView = s.wcView := by
  simp [State.ceilingLow, Reg.LS_CEILING_ceiling, Reg.LS_CEILING_code, Reg.LS_CEIL_DETAIL_detail]

@[simp] theorem State.refresh_wcView (s : State) : s.refresh.wcView = s.wcView := by
  simp [State.refresh, Reg.GLB_STATUS_low_cause, Reg.TALLY_STATUS_self_fit]

@[simp] theorem State.retireBound_wcView (s : State) : s.retireBound.wcView = s.wcView := by
  have hreg : s.retireBound.reg 0x14302c = s.reg 0x14302c := s.retireBound_sameRegsBut _ (by decide)
  have htime : s.retireBound.time = s.time := by rw [s.retireBound_onlyRetires.1]
  rw [State.wcView, hreg, htime, State.wcView]

@[simp] theorem State.inhibitAll_wcView (s : State) (assert : Bool) : (s.inhibitAll assert).wcView = s.wcView := by
  rw [s.inhibitAll_onlySends assert]
  rfl

@[simp] theorem State.startInhibit_wcView (s : State) (set : Link → Link) : (s.startInhibit set).wcView = s.wcView := by
  simp [State.startInhibit, Reg.LINK_INHIBIT_sending]

@[simp] theorem State.endInhibit_wcView (s : State) (set : Link → Link) : (s.endInhibit set).wcView = s.wcView := by
  simp [State.endInhibit, Reg.LINK_INHIBIT_sending, foldl_wcView]

@[simp] theorem State.haltParting_wcView (s : State) (starts : List Nat) : (s.haltParting starts).wcView = s.wcView := by
  unfold State.haltParting
  split <;> simp

@[simp] theorem State.partings_wcView (s : State) : s.partings.wcView = s.wcView := by
  simp [State.partings, State.retireJobs, foldl_wcView]

@[simp] theorem State.postCam_wcView (s : State) (p code : Nat) (limited : Bool) (f : Fld) (args : List EArg) (h : f.off ≠ 0x14302c) :
    (s.postCam p code limited (some f) args).wcView = s.wcView := by
  simp [State.postCam, Reg.ASSAY_STATUS_ports, h]

@[simp] theorem State.pushStamp_wcView (s : State) (p : Nat) (x : Int) (t unit : Nat) : (s.pushStamp p x t unit).wcView = s.wcView := by
  have hlost : (Reg.CAMp_STATUS_lost_seen p).off ≠ 0x14302c := by simp only [Reg.CAMp_STATUS_lost_seen]; omega
  have hcount : (Reg.CAMp_ERRCNT_B_stamps_lost p).off ≠ 0x14302c := by simp only [Reg.CAMp_ERRCNT_B_stamps_lost]; omega
  simp [State.pushStamp, hlost, hcount]

/-! Compare units (R70 to R79) -/

@[simp] theorem State.postMissed_wcView (s : State) (n : Nat) (c : Compare) : (s.postMissed n c).wcView = s.wcView := by simp [State.postMissed]

@[simp] theorem State.setCmpState_wcView (s : State) (n v : Nat) : (s.set (Reg.CMPn_STATUS_state n) v).wcView = s.wcView :=
  s.set_wcView _ v (by simp only [Reg.CMPn_STATUS_state]; omega)

@[simp] theorem State.bumpCmpSkips_wcView (s : State) (n k : Nat) : (s.bump (Reg.CMPn_STATUS_skip_count n) k).wcView = s.wcView :=
  s.bump_wcView _ k (by simp only [Reg.CMPn_STATUS_skip_count]; omega)

@[simp] theorem State.afterPulse_wcView (s : State) (n : Nat) (back : Bool) : (s.afterPulse n back).wcView = s.wcView := by
  simp [State.afterPulse]

@[simp] theorem State.pulse_wcView (s : State) (n t : Nat) (back : Bool) : (s.pulse n t back).wcView = s.wcView := by
  have hoverlap (u : State) : (u.raise (Reg.CMPn_STATUS_overlap n)).wcView = u.wcView :=
    u.raise_wcView _ (by simp only [Reg.CMPn_STATUS_overlap]; omega)
  have htime (u : State) (v : Nat) : (u.set2 (Reg.CMPn_LAST_TIME_LO n) (Reg.CMPn_LAST_TIME_HI n) v).wcView = u.wcView :=
    u.set2_wcView _ _ v (by simp only [Reg.CMPn_LAST_TIME_LO]; omega) (by simp only [Reg.CMPn_LAST_TIME_HI]; omega)
  have hpos (u : State) (v : Int) : (u.setI2 (Reg.CMPn_LAST_POS_LO n) (Reg.CMPn_LAST_POS_HI n) v).wcView = u.wcView :=
    u.setI2_wcView _ _ v (by simp only [Reg.CMPn_LAST_POS_LO]; omega) (by simp only [Reg.CMPn_LAST_POS_HI]; omega)
  simp only [State.pulse, State.afterPulse_wcView, State.ite_wcView, State.pushStamp_wcView, hpos, htime, State.setCmp_wcView, hoverlap, ite_self]

@[simp] theorem State.settleMissed_wcView (s : State) (n : Nat) : (s.settleMissed n).wcView = s.wcView := by
  have hlate : (s.raise (Reg.CMPn_STATUS_late_pulse n)).wcView = s.wcView :=
    s.raise_wcView _ (by simp only [Reg.CMPn_STATUS_late_pulse]; omega)
  simp [State.settleMissed, hlate]

@[simp] theorem State.settle_wcView (s : State) (n : Nat) : (s.settle n).wcView = s.wcView := by simp [State.settle]

@[simp] theorem State.plan_wcView (s : State) (n : Nat) : (s.plan n).wcView = s.wcView := by simp [State.plan]

@[simp] theorem State.unpredicted_wcView (s : State) (n : Nat) (back : Bool) : (s.unpredicted n back).wcView = s.wcView := by
  have hflag : (s.raise (Reg.CMPn_STATUS_unpredicted n)).wcView = s.wcView :=
    s.raise_wcView _ (by simp only [Reg.CMPn_STATUS_unpredicted]; omega)
  simp [State.unpredicted, hflag]

@[simp] theorem State.cmpUpdate_wcView (s : State) (n : Nat) : (s.cmpUpdate n).wcView = s.wcView := by simp [State.cmpUpdate]

@[simp] theorem State.cmpWeb_wcView (s : State) : s.cmpWeb.wcView = s.wcView := foldl_wcView (fun u n => by simp) _ s

@[simp] theorem State.cmpResume_wcView (s : State) : s.cmpResume.wcView = s.wcView := foldl_wcView (fun u n => by simp) _ s

@[simp] theorem State.dropPosition_wcView (s : State) : s.dropPosition.wcView = s.wcView :=
  (foldl_wcView (fun u n => by simp) _ _).trans (s.clear_wcView _ (by decide))

/-! Sources (R59 to R67) -/

@[simp] theorem State.postSwitch_wcView (s : State) (old new : Nat) (d : Int) : (s.postSwitch old new d).wcView = s.wcView := by
  simp [State.postSwitch, Reg.OBS_STATUS_switched]

@[simp] theorem State.losePosition_wcView (s : State) (pos : Int) : (s.losePosition pos).wcView = s.wcView := by
  simp [State.losePosition, Reg.OBS_STATUS_active, Reg.OBS_STATUS_lost]

@[simp] theorem State.moveOn_wcView (s : State) (old : Nat) (pos : Int) : (s.moveOn old pos).wcView = s.wcView := by
  unfold State.moveOn
  split
  · exact s.losePosition_wcView pos
  · simp [foldl_wcView, Reg.OBS_STATUS_active]

@[simp] theorem State.setRemoved_wcView (s : State) (k : Nat) (b : Bool) : (s.setRemoved k b).wcView = s.wcView := by
  simp [State.setRemoved, Reg.OBS_STATUS_remote_removed, Reg.OBS_STATUS_enc_removed]

@[simp] theorem State.stopSource_wcView (s : State) (k : Nat) (failed : Bool) : (s.stopSource k failed).wcView = s.wcView := by
  simp [State.stopSource]

@[simp] theorem State.formBlend_wcView (s : State) (tell : Bool) : (s.formBlend tell).wcView = s.wcView := by
  simp [State.formBlend, Reg.OBS_STATUS_active]

@[simp] theorem State.startSource_wcView (s : State) (k : Nat) (p : Int) : (s.startSource k p).wcView = s.wcView := by
  simp [State.startSource, Reg.OBS_STATUS_active]

@[simp] theorem State.checkSource_wcView (s : State) (k : Nat) : (s.checkSource k).wcView = s.wcView := by
  unfold State.checkSource
  split
  · rfl
  · have hdraw : s.drawInt.2.wcView = s.wcView := rfl
    simp [Reg.OBS_STATUS_slip, hdraw]

@[simp] theorem State.drawQuot_wcView (s : State) (num : Int) (den : Nat) : (s.drawQuot num den).2.wcView = s.wcView := by
  unfold State.drawQuot
  split <;> rfl

@[simp] theorem State.updateInst_wcView (s : State) (k t : Nat) (err : Int → Int) : (s.updateInst k t err).wcView = s.wcView := by
  simp [State.updateInst]

@[simp] theorem State.reversal_wcView (s : State) : s.reversal.wcView = s.wcView := by
  simp [State.reversal, Reg.OBS_STATUS_reversal, Reg.OBS_STATUS_reversal_seen, Reg.OBS_STATUS_reversal_count]

@[simp] theorem State.updated_wcView (s : State) (k : Nat) : (s.updated k).wcView = s.wcView := by
  simp [State.updated, State.noteUpdate, State.settleSlew, foldl_wcView]

/-- What the observer makes of an accepted message leaves the time record and WCS_STATUS alone. -/
theorem State.remoteEdge_wcView (s : State) (y : Int) (te : Nat) : (s.remoteEdge y te).wcView = s.wcView := by simp [State.remoteEdge]

/-! ### Publishing (R95, R96) -/

theorem State.wcMessage_length (s : State) (d : Nat) : (s.wcMessage d).length = 48 := by
  simp only [State.wcMessage, compactBytes, List.length_append, beBytes_length]

/-- A message of Table 04-5 leaves on an enabled port in the configured carrier; it is long enough to need no padding. -/
theorem State.sendWc_of_enabled {s : State} {p : Nat} {m : List (BitVec 8)} (h : s.on (Reg.ETHp_CFG_enable p) = true) (hlen : m.length = 48) :
    ∃ f : NetFrame, s.sendWc p m = (s.emit (.netMessage p f)).bump (Reg.ETHp_TX_FRAMES p) 1 ∧ f.carrier = s.wcOut ∧ f.body.take 48 = m ∧
      f.dest = BitVec.ofNat 48 s.wcDest := by
  refine ⟨_, State.sendNet_of_enabled _ _ _ h, rfl, ?_, rfl⟩
  have hpad : List.replicate (46 - m.length) 0#8 = [] := by rw [hlen]; rfl
  rw [hpad, List.append_nil, ite_self]
  exact List.take_of_length_le (Nat.le_of_eq hlen)

/-- Publishing goes on, and the next message has the next sequence number. -/
def State.published (s : State) : State :=
  (s.modTime fun t => { t with pubSuspended := false }).modTime fun t => { t with pubSeq := (t.pubSeq + 1) % 65536 }

section
variable {dt : Nat} {s : State} (hon : s.powered 2 = true) (hnet : s.powered 4 = true) (henable : s.on Reg.WCP_CFG_enable = true)
include hon hnet henable

theorem exec_wcPublish_of_local (hremote : s.active ≠ 4) (hnone : s.active = 7 → s.time.pubSuspended = false)
    (hgood : s.domainGood (s.get Reg.WCP_CFG_domain) = true) : exec (.wcPublish dt) s =
      .next ((s.advance dt).published.sendWc (s.ptpPort (s.get Reg.WCP_CFG_domain)) ((s.advance dt).wcMessage (s.get Reg.WCP_CFG_domain))) := by
  have hgoes : (decide ((s.advance dt).active = 4) || (decide ((s.advance dt).active = 7) && (s.advance dt).time.pubSuspended)) = false := by
    have hactive : (s.advance dt).active = s.active := rfl
    have hsuspended : (s.advance dt).time.pubSuspended = s.time.pubSuspended := rfl
    rw [hactive, hsuspended, decide_eq_false hremote, Bool.false_or]
    by_cases h7 : s.active = 7
    · rw [hnone h7, Bool.and_false]
    · rw [decide_eq_false h7, Bool.false_and]
  have henable' : (!(s.advance dt).on Reg.WCP_CFG_enable) = false := congrArg not henable
  refine (State.whenOn_both (s := s.advance dt) _ hon hnet).trans ?_
  simp only [henable', hgoes, Bool.false_eq_true, if_false]
  exact if_pos hgood

theorem exec_wcPublish_of_remote (hremote : s.active = 4 ∨ s.active = 7 ∧ s.time.pubSuspended = true) : exec (.wcPublish dt) s = .next (
    if s.time.pubSuspended then s.advance dt
    else ((s.advance dt).modTime fun t => { t with pubSuspended := true }).post 0x0209 [.ns (s.advance dt).tb3]) := by
  have hstops : (decide ((s.advance dt).active = 4) || (decide ((s.advance dt).active = 7) && (s.advance dt).time.pubSuspended)) = true := by
    simp only [Bool.or_eq_true, Bool.and_eq_true, decide_eq_true_eq]
    exact hremote
  have henable' : (!(s.advance dt).on Reg.WCP_CFG_enable) = false := congrArg not henable
  refine (State.whenOn_both (s := s.advance dt) _ hon hnet).trans ?_
  simp only [henable', hstops, Bool.false_eq_true, if_false, if_true]
  exact (apply_ite Host.Outcome.next ..).symm

end

/-! ### The checks of a received message (R97) -/

theorem exec_wcMessageRx_of_heard (dt : Nat) (port : Fin 2) {c : NetCarrier} {m : List Byte} {s : State} (hon : s.powered 2 = true)
    (hnet : s.powered 4 = true) (henable : s.on Reg.WCS_CFG_enable = true) (hcarrier : s.wcCarrier c = true) (hlen : 48 ≤ m.length)
    (hversion : beAt m 0 1 = 1) : exec (.wcMessageRx dt port c m) s = .next ((s.advance dt).wcReceive m) := by
  have hfor : ((s.advance dt).on Reg.WCS_CFG_enable && (s.advance dt).wcCarrier c && decide (48 ≤ m.length) && beAt m 0 1 == 1) = true := by
    rw [decide_eq_true hlen, hversion, Bool.and_true, beq_self_eq_true, Bool.and_true]
    exact Bool.and_eq_true_iff.mpr ⟨henable, hcarrier⟩
  exact (State.whenOn_both (s := s.advance dt) _ hon hnet).trans (if_pos hfor)

/-- The checks in their order, each with its counter; the time of a message is taken within 2^47 ns of the present. -/
theorem State.wcReceive_eq {s : State} {m : List (BitVec 8)} {now : Nat} {at_ diff : Int} (hnow : now = s.stamp80 (beAt m 6 1))
    (hat : at_ = (((now / 65536 : Nat) : Int) + signed 48 (wrap 48 ((beAt m 8 6 : Int) - (now / 65536 : Nat)))) * 65536 + beAt m 14 2)
    (hdiff : diff = signed 16 (wrap 16 ((beAt m 4 2 : Int) - s.get Reg.WCS_STATUS_last_sequence))) :
    s.wcReceive m =
      if beAt m 2 2 ≠ s.get Reg.WCS_ID_publisher_id then s.bump Reg.WCS_REJECT_id_reject 1
      else if beAt m 44 4 ≠ crc32c (m.take 44) then s.bump Reg.WCS_REJECT_crc_reject 1
      else if 2 ≤ beAt m 6 1 ∨ s.domainGood (beAt m 6 1) = false then s.bump Reg.WCS_REJECT_domain_reject 1
      else if s.time.seqExempt = false ∧ diff ≤ 0 then s.bump Reg.WCS_REJECT_seq_reject 1
      else if now - at_ < -(1000 * 65536) ∨ (s.get Reg.WCS_CFG_max_age_us * 1000 * 65536 : Nat) < now - at_ then
        s.bump Reg.WCS_REJECT_AGE_age_reject 1
      else s.wcAccept m (wrap 80 (at_ + s.now - now)) := by
  have hns : ((now / 65536 : Nat) : Int) = (now : Int) / 65536 := Int.natCast_ediv ..
  rw [hns] at hat
  subst hat hdiff hnow
  simp only [State.wcReceive, Bool.or_eq_true, Bool.and_eq_true, Bool.not_eq_true', decide_eq_true_eq, hns]

/-! ### An accepted message (R97, R98) -/

/-- An accepted message is the last one. -/
def State.wcNoted (s : State) (m : List (BitVec 8)) : State :=
  (s.set Reg.WCS_STATUS_last_sequence (beAt m 4 2)).modTime fun t => { t with
    seqExempt := false, lastAccepted := some s.beat, lastDomain := beAt m 6 1 }

theorem State.wcAccept_of_invalid {s : State} {m : List (BitVec 8)} (te : Nat) (h : bit (beAt m 1 1) 0 = false) :
    s.wcAccept m te = (s.wcNoted m).goStale 2 := if_neg (by rw [h]; exact Bool.false_ne_true)

/-- The remote coordinate is shown as not stale. -/
def State.freshShown (s : State) : State :=
  if s.on Reg.WCS_STATUS_stale then (s.clear Reg.WCS_STATUS_stale).set Reg.WCS_STATUS_reason 0 else s

theorem State.wcAccept_view {s : State} {m : List (BitVec 8)} (te : Nat) (h : bit (beAt m 1 1) 0 = true) :
    (s.wcAccept m te).wcView = (s.wcNoted m).freshShown.wcView := by
  refine (congrArg State.wcView (if_pos h)).trans ((State.remoteEdge_wcView _ _ _).trans ?_)
  unfold State.freshShown
  rw [State.ite_wcView, State.ite_wcView, State.post_wcView]
  rfl

theorem State.freshShown_stale (s : State) : s.freshShown.on Reg.WCS_STATUS_stale = false := by
  unfold State.freshShown
  split
  next =>
    rw [State.on_set_beside _ Reg.WCS_STATUS_reason _ _ (by decide) (by decide)]
    exact congrArg (· == 1) (State.get_set_self s Reg.WCS_STATUS_stale 0 (by decide))
  next h => exact Bool.eq_false_iff.mpr h

theorem State.freshShown_sequence (s : State) : s.freshShown.get Reg.WCS_STATUS_last_sequence = s.get Reg.WCS_STATUS_last_sequence := by
  unfold State.freshShown
  split
  · rw [State.get_set_beside _ Reg.WCS_STATUS_reason _ _ (by decide) (by decide)]
    exact State.get_set_beside s Reg.WCS_STATUS_stale _ 0 (by decide) (by decide)
  · rfl

theorem State.freshShown_time (s : State) : s.freshShown.time = s.time := by
  unfold State.freshShown
  split <;> rfl

theorem State.wcNoted_sequence (s : State) (m : List (BitVec 8)) :
    (s.wcNoted m).get Reg.WCS_STATUS_last_sequence = beAt m 4 2 % 2 ^ 16 := State.get_set_self s _ _ (by decide)

theorem State.get_of_wcView {s t : State} (h : t.wcView = s.wcView) {f : Fld} (hf : f.off = 0x14302c) : t.get f = s.get f := by
  have hreg : t.reg 0x14302c = s.reg 0x14302c := congrArg Prod.snd h
  unfold State.get
  rw [hf, hreg]

/-! ### Staleness (R62, R98) -/

/-- The coordinate is shown as stale for a reason, and the next message is exempt from the sequence check. -/
def State.staleShown (s : State) (reason : Nat) : State :=
  (((s.raise Reg.WCS_STATUS_stale).set Reg.WCS_STATUS_reason reason).raise Reg.WCS_STATUS_stale_seen).modTime fun t => { t with seqExempt := true }

theorem State.goStale_of_fresh {s : State} (reason : Nat) (h : s.on Reg.WCS_STATUS_stale = false) : s.goStale reason =
    if s.live 4 then (((s.staleShown reason).post 0x0207 [.b reason]).stopSource 4 true).sources
    else (s.staleShown reason).post 0x0207 [.b reason] := by
  have hlive : ((s.staleShown reason).post 0x0207 [.b reason]).live 4 = s.live 4 := by
    unfold State.live State.inst
    rw [(State.post_sameWeb _ _ _).1]
    rfl
  rw [← hlive]
  exact if_neg (by rw [h]; exact Bool.false_ne_true)

theorem State.staleShown_stale (s : State) (reason : Nat) : (s.staleShown reason).on Reg.WCS_STATUS_stale = true :=
  (State.on_set_beside _ Reg.WCS_STATUS_stale_seen _ 1 (by decide) (by decide)).trans
    ((State.on_set_beside _ Reg.WCS_STATUS_reason _ reason (by decide) (by decide)).trans
      (State.on_raise_self s Reg.WCS_STATUS_stale (by decide) rfl))

theorem State.staleShown_reason (s : State) (reason : Nat) : (s.staleShown reason).get Reg.WCS_STATUS_reason = reason % 4 :=
  (State.get_set_beside _ Reg.WCS_STATUS_stale_seen _ 1 (by decide) (by decide)).trans
    (State.get_set_self (s.raise Reg.WCS_STATUS_stale) _ reason (by decide))

theorem State.staleShown_seen (s : State) (reason : Nat) : (s.staleShown reason).on Reg.WCS_STATUS_stale_seen = true :=
  State.on_raise_self ((s.raise Reg.WCS_STATUS_stale).set Reg.WCS_STATUS_reason reason) Reg.WCS_STATUS_stale_seen (by decide) rfl

/-- The timeout is reason 1; without it a domain that is no longer good is reason 3. -/
theorem exec_wcStale_of_due {dt a r : Nat} {s : State} (hon : s.powered 2 = true) (henable : s.on Reg.WCS_CFG_enable = true)
    (ha : (if s.time.lastAccepted.isSome then s.time.lastAccepted else s.time.subscribedAt) = some a)
    (hr : r = if a + s.get Reg.WCS_CFG_stale_us * 1000 < s.beat + dt then 1 else 3)
    (hbad : r = 3 → s.time.lastAccepted.isSome = true ∧ s.domainGood s.time.lastDomain = false) :
    exec (.wcStale dt) s = .next ((s.advance dt).goStale r) := by
  have ha' : (if (s.advance dt).time.lastAccepted.isSome then (s.advance dt).time.lastAccepted else (s.advance dt).time.subscribedAt) = some a := ha
  have henable' : (s.advance dt).on Reg.WCS_CFG_enable = true := henable
  show execWcStale dt s = _
  unfold execWcStale
  rw [State.whenOn_of_powered (s := s.advance dt) _ hon]
  simp only [ha', henable', if_true]
  by_cases hlate : a + s.get Reg.WCS_CFG_stale_us * 1000 < s.beat + dt
  · rw [if_pos hlate] at hr
    subst hr
    exact if_pos hlate
  · rw [if_neg hlate] at hr
    subst hr
    obtain ⟨hsome, hdomain⟩ := hbad rfl
    have hgone : ((s.advance dt).time.lastAccepted.isSome && !(s.advance dt).domainGood (s.advance dt).time.lastDomain) = true :=
      Bool.and_eq_true_iff.mpr ⟨hsome, congrArg not hdomain⟩
    exact (if_neg hlate).trans (if_pos hgone)

/-- Settles O32: publishing by its three cases, the checks in their order, and what an accepted or missing message leaves of the remote
coordinate, which the observer does not touch. The port a message leaves on and the age counted from the enable are the model's (log 27). -/
theorem webCoordinates : Obligations.WebCoordinates := by
  refine ⟨fun dt s hon hnet henable => ⟨fun hremote hnone hgood hport => ?_, fun hremote hfirst => ?_, fun hremote hsuspended => ?_⟩,
    fun dt port c m s hon hnet henable hcarrier hlen hversion now at_ diff hnow hat hdiff => ?_, fun m te s hinvalid => ?_, fun m te s hvalid => ?_,
    fun dt a s hon henable ha hfresh r hr hbad => ?_⟩
  · -- a message is sent
    obtain ⟨f, hsent, hcarrier, hbody, hdest⟩ := State.sendWc_of_enabled (s := (s.advance dt).published) hport
      ((s.advance dt).wcMessage_length (s.get Reg.WCP_CFG_domain))
    have hexec := exec_wcPublish_of_local (dt := dt) hon hnet henable hremote hnone hgood
    rw [hsent] at hexec
    exact ⟨_, hexec, ⟨f, rfl, hcarrier, hbody, hdest⟩, rfl, rfl, rfl⟩
  · -- the suspension is posted once
    rw [exec_wcPublish_of_remote hon hnet henable (.inl hremote), hfirst, if_neg Bool.false_ne_true]
  · rw [exec_wcPublish_of_remote hon hnet henable (hremote.imp_right fun h => ⟨h, hsuspended⟩), if_pos hsuspended]
  · -- the checks
    rw [exec_wcMessageRx_of_heard dt port hon hnet henable hcarrier hlen hversion, State.wcReceive_eq hnow hat hdiff]
    rfl
  · -- a message without the validity flag
    exact ⟨s.wcNoted m, State.wcAccept_of_invalid te hinvalid, s.wcNoted_sequence m, rfl, rfl, rfl⟩
  · -- one with it
    have hview := State.wcAccept_view (s := s) te hvalid
    have htime : (s.wcAccept m te).time = (s.wcNoted m).freshShown.time := congrArg Prod.fst hview
    refine ⟨?_, ?_, ?_⟩
    · rw [State.get_of_wcView hview rfl, State.freshShown_sequence, State.wcNoted_sequence]
    · rw [State.on, State.get_of_wcView hview rfl]
      exact State.freshShown_stale _
    · rw [htime, State.freshShown_time]
      rfl
  · -- no message in time, or its domain gone
    have hreason : r % 4 = r := by
      rw [hr]
      split <;> rfl
    refine ⟨(s.advance dt).staleShown r, ?_, State.staleShown_stale _ r, (State.staleShown_reason _ r).trans hreason, State.staleShown_seen _ r,
      rfl, rfl, rfl⟩
    rw [exec_wcStale_of_due hon henable ha hr hbad, State.goStale_of_fresh (s := s.advance dt) r hfresh]
    rfl

end Sys2Proof.Machine

/-! SUPPORT. Proof of the statement of the speed ceiling (R128, R544): what a recomputation shows and tells. -/

namespace Sys2Proof.Machine

/-! ### The terms shown (R127) -/

/-- Showing the terms writes registers only. -/
theorem State.showTerms_eq (s : State) (ts : List CeilTerm) : s.showTerms ts = { s with regs := (s.showTerms ts).regs } :=
  foldl_keeps (fun u : State => u = { s with regs := u.regs }) _ (fun u x h => by rw [h]; rfl) _ s rfl

/-! ### The ceiling and its code (R128, R544) -/

/-- The ceiling, its code and its detail that a recomputation gives. -/
def State.nextCeiling (s : State) : Nat × Nat × Nat :=
  if s.power.printOk then
    (min (limiting s.ceilTerms).2.rate (s.get Reg.LS_CEILING_ceiling + 1250), (limiting s.ceilTerms).1, (limiting s.ceilTerms).2.detail)
  else (0, 6, 0)

/-- The state that shows the terms, a ceiling, its code and its detail. -/
def State.ceilingShown (s : State) (c code det : Nat) : State :=
  (((s.showTerms s.ceilTerms).set Reg.LS_CEILING_ceiling c).set Reg.LS_CEILING_code code).set Reg.LS_CEIL_DETAIL_detail det

/-- A ceiling that falls falls at once, and one that rises rises by at most a step: the lower of the term and the step up. -/
theorem limitedRise_eq_min (old rate step : Nat) : (if old < rate then min rate (old + step) else rate) = min rate (old + step) := by
  split
  · rfl
  · omega

/-- A recomputation shows the next ceiling, tells a change of its code, drives the output, and goes on to the check of R130 and the
message. -/
theorem State.recomputeCeiling_eq {s : State} {c code det : Nat} (h : (c, code, det) = s.nextCeiling) :
    ∃ p : Nat × Nat, s.recomputeCeiling =
      ((if code = s.get Reg.LS_CEILING_code then s.ceilingShown c code det
        else (s.ceilingShown c code det).post 0x030A [.n c, .b code, .n det]).modSched fun x => { x with pwm := p }).overCeiling.sendCeiling := by
  unfold State.nextCeiling at h
  unfold State.recomputeCeiling
  cases hok : s.power.printOk with
  | false =>
    simp only [hok, Bool.false_eq_true, if_false, Prod.mk.injEq] at h
    obtain ⟨rfl, rfl, rfl⟩ := h
    exact ⟨_, rfl⟩
  | true =>
    simp only [hok, if_true, Prod.mk.injEq] at h
    obtain ⟨rfl, rfl, rfl⟩ := h
    simp only [Bool.not_true, Bool.false_eq_true, if_false, limitedRise_eq_min]
    exact ⟨_, rfl⟩

theorem exec_ceilingRecompute_of_powered (dt : Nat) {s : State} (h : s.powered 2 = true) :
    exec (.ceilingRecompute dt) s = .next (s.advance dt).recomputeCeiling :=
  State.whenOn_of_powered (s := s.advance dt) (fun s => .next s.recomputeCeiling) h

section
variable (s : State) (c code det : Nat)

theorem State.ceilingShown_eq : s.ceilingShown c code det = { s with regs := (s.ceilingShown c code det).regs } := by
  unfold State.ceilingShown
  rw [s.showTerms_eq]; rfl

theorem State.ceilingShown_ceiling : (s.ceilingShown c code det).get Reg.LS_CEILING_ceiling = c % 2 ^ 17 := by
  unfold State.ceilingShown
  rw [State.get_set_ne _ _ _ _ (by decide), State.get_set_beside _ _ _ _ (by decide) (by decide), State.get_set_self _ _ _ (by decide)]; rfl

theorem State.ceilingShown_code : (s.ceilingShown c code det).get Reg.LS_CEILING_code = code % 256 := by
  unfold State.ceilingShown
  rw [State.get_set_ne _ _ _ _ (by decide), State.get_set_self _ _ _ (by decide)]; rfl

theorem State.ceilingShown_detail : (s.ceilingShown c code det).get Reg.LS_CEIL_DETAIL_detail = det % 65536 :=
  State.get_set_self _ _ _ (by decide)

end

/-- Settles O36: a recomputation shows the next ceiling, by PRINT_OK and the lowest term, and tells a change of its code. That a rise counts
from the ceiling shown, with the lowest term's code, is the model's (log 28). -/
theorem speedCeiling : Obligations.SpeedCeiling := by
  intro dt c code det s hon h
  obtain ⟨p, hrecomputed⟩ := State.recomputeCeiling_eq (s := s.advance dt) h
  have hregs := (s.advance dt).ceilingShown_eq c code det
  refine ⟨(s.advance dt).ceilingShown c code det, p, State.ceilingShown_ceiling _ c code det, State.ceilingShown_code _ c code det,
    State.ceilingShown_detail _ c code det, by rw [hregs]; rfl, by rw [hregs]; rfl, ?_⟩
  rw [exec_ceilingRecompute_of_powered dt hon, hrecomputed]
  rfl

end Sys2Proof.Machine

/-! SUPPORT. What posting an event leaves alone (R387, R410, R518), for the statements of the line schedule. -/

namespace Sys2Proof.Machine

/-! ### Events (R387, R410, R518) -/

/-- From s to t nothing happened but to the rings, outputs, bits set in this beat, and registers of the global block and of the host rings
(Table 20-1). -/
def State.onlyPosts (s t : State) : Prop :=
  t = { s with rings := t.rings, regs := t.regs, fresh := t.fresh, out := t.out } ∧
    ∀ off, 0x100000 ≤ off → off < 0xA00000 → t.reg off = s.reg off

theorem State.onlyPosts.refl (s : State) : s.onlyPosts s := ⟨rfl, fun _ _ _ => rfl⟩

theorem State.onlyPosts.trans {s t u : State} (h : s.onlyPosts t) (h' : t.onlyPosts u) : s.onlyPosts u :=
  ⟨Eq.trans h'.1 (by rw [h.1]), fun off hlo hhi => (h'.2 off hlo hhi).trans (h.2 off hlo hhi)⟩

theorem State.onlyPosts.ite {s t : State} {c : Prop} [Decidable c] (h : s.onlyPosts t) : s.onlyPosts (if c then t else s) := by
  split
  · exact h
  · exact .refl s

theorem State.modRings_onlyPosts (s : State) (f : Rings → Rings) : s.onlyPosts (s.modRings f) := ⟨rfl, fun _ _ _ => rfl⟩

theorem State.emit_onlyPosts (s : State) (o : Output) : s.onlyPosts (s.emit o) := ⟨rfl, fun _ _ _ => rfl⟩

theorem State.set_onlyPosts (s : State) {f : Fld} (v : Nat) (h : f.off < 0x100000 ∨ 0xA00000 ≤ f.off) : s.onlyPosts (s.set f v) :=
  ⟨rfl, fun off hlo hhi => s.reg_set_ne f off v (by omega)⟩

theorem State.raise_onlyPosts (s : State) {f : Fld} (h : f.off < 0x100000 ∨ 0xA00000 ≤ f.off) : s.onlyPosts (s.raise f) :=
  ⟨rfl, (s.set_onlyPosts 1 h).2⟩

theorem State.sendVector_onlyPosts (s : State) (v : Nat) : s.onlyPosts (s.sendVector v) := by
  unfold State.sendVector
  simp only
  split
  · exact (s.modRings_onlyPosts _).trans (State.emit_onlyPosts _ _)
  · exact s.emit_onlyPosts _

theorem State.raiseCause_onlyPosts (s : State) (i : Nat) : s.onlyPosts (s.raiseCause i) := by
  have hraise : s.onlyPosts (s.raise ⟨Reg.GLB_CAUSE_classes.off, i, 1⟩) :=
    s.raise_onlyPosts (.inl (by decide : Reg.GLB_CAUSE_classes.off < 0x100000))
  unfold State.raiseCause
  simp only
  split
  · exact hraise.trans (State.sendVector_onlyPosts _ _)
  · exact hraise

/-- The registers of the rings the host consumes are those of the host interface. -/
theorem onRing_off_host (k : Nat) (f : Fld) : 0xA00000 ≤ (onRing k f).off := by
  simp only [onRing, ringBase]
  split
  · omega
  · split <;> omega

theorem State.moderate_onlyPosts (s : State) (k : Nat) (urgent : Bool) : s.onlyPosts (s.moderate k urgent) := by
  unfold State.moderate
  split
  · exact .refl s
  · exact ((s.set_onlyPosts 0 (.inr (onRing_off_host _ _))).trans (State.sendVector_onlyPosts _ _)).ite

theorem State.writeEntry_onlyPosts (s : State) (k : Nat) (entry : List (BitVec 8)) (urgent : Bool) :
    s.onlyPosts (s.writeEntry k entry urgent) := by
  unfold State.writeEntry
  refine State.onlyPosts.trans ?_ (State.moderate_onlyPosts _ _ _)
  refine State.onlyPosts.trans ?_ (State.modRings_onlyPosts _ _)
  exact (s.emit_onlyPosts _).trans (State.set_onlyPosts _ _ (.inr (onRing_off_host k _)))

theorem State.loseEvent_onlyPosts (s : State) : s.onlyPosts s.loseEvent :=
  ((s.set_onlyPosts _ (.inr (by decide))).trans (State.raise_onlyPosts _ (.inr (by decide)))).trans (State.raiseCause_onlyPosts _ _)

theorem State.ringEvent_onlyPosts (s : State) (e : EventRec) : s.onlyPosts (s.ringEvent e) := by
  unfold State.ringEvent
  refine State.onlyPosts.ite ?_
  split
  · exact s.writeEntry_onlyPosts _ _ _
  · exact s.loseEvent_onlyPosts

/-- Posting an event touches the log, the rings, GLB_CAUSE and the registers of the host rings. -/
theorem State.post_onlyPosts (s : State) (code : Nat) (args : List EArg) : s.onlyPosts (s.post code args) :=
  ((s.modRings_onlyPosts _).trans (State.raiseCause_onlyPosts _ _)).trans (State.ringEvent_onlyPosts _ _)

section
variable (s : State) (code : Nat) (args : List EArg)

@[simp] theorem State.post_sched : (s.post code args).sched = s.sched := by rw [(s.post_onlyPosts code args).1]
@[simp] theorem State.post_tally : (s.post code args).tally = s.tally := by rw [(s.post_onlyPosts code args).1]

theorem State.post_head (a : Nat) : (s.post code args).head a = s.head a := by
  unfold State.head; rw [s.post_sched]

/-- A register field outside the global block and the host interface is as before an event. -/
theorem State.post_get {f : Fld} (h : 0x100000 ≤ f.off ∧ f.off < 0xA00000) : (s.post code args).get f = s.get f := by
  unfold State.get; rw [(s.post_onlyPosts code args).2 _ h.1 h.2]

end

end Sys2Proof.Machine

/-! SUPPORT. Proof of the statement of bindings and line data (R110, R112, R119, R120, R175): heads that bind no more, lines discarded as late,
lines sent. -/

namespace Sys2Proof.Machine

/-! ### The records of heads -/

@[simp] theorem State.head_onHead_self (s : State) (a : Nat) (f : HeadSched → HeadSched) : (s.onHead a f).head a = f (s.head a) :=
  Tab.get_set_self _ _ _ _

@[simp] theorem State.bump_head (s : State) (f : Fld) (n a : Nat) : (s.bump f n).head a = s.head a := rfl
@[simp] theorem State.raise_head (s : State) (f : Fld) (a : Nat) : (s.raise f).head a = s.head a := rfl

/-! ### What BIND_SEND sends (R112, R115) -/

/-- A head whose next line has to wait binds no more (R110). -/
theorem State.bindMore_of_wait {s : State} {h : Nat} (fuel : Nat) (hwait : s.bindCase h (s.head h).next = .wait) :
    s.bindMore h fuel = s := by
  cases fuel with
  | zero => rfl
  | succ n =>
    unfold State.bindMore
    simp only [hwait, ite_self]

theorem exec_bindSend_of_wait (dt : Nat) {h : Fin 256} {src : Nat} {s v : State} (hsrc : (s.advance dt).bindSource = some src)
    (hen : plEn s.placementNow h = true) (hv : v = (s.advance dt).retireHead h) (hwait : v.bindCase h (v.head h).next = .wait) :
    exec (.bindSend dt h) s = .next (v.settleRuns.releaseDue.sendBind h
      (if src = 0 then v.settleRuns.releaseDue.nodeEnd h else v.settleRuns.releaseDue.get Reg.PAIR_CFG_end) src
      ((v.settleRuns.releaseDue.head h).bound.take 16)) := by
  have hen' : plEn (s.advance dt).placementNow h = true := hen
  show execBindSend dt h s = _
  unfold execBindSend
  simp only [hsrc, hen', if_true]
  rw [← hv, State.bindMore_of_wait _ hwait]

theorem exec_bindSend_of_idle (dt : Nat) (h : Fin 256) {s : State} (hstream : s.streaming = false) :
    exec (.bindSend dt h) s = .next (s.advance dt) := by
  have hsrc : (s.advance dt).bindSource = none := by
    unfold State.bindSource
    rw [show (s.advance dt).streaming = false from hstream]; rfl
  show execBindSend dt h s = _
  unfold execBindSend
  simp only [hsrc]

/-! ### Late lines (R120, R175) -/

/-- Ending a run of late lines leaves the record of its head without the run. -/
theorem State.closeLate_head (s : State) (h : Nat) : (s.closeLate h).head h = { s.head h with lateRun := none } := by
  unfold State.closeLate
  split
  · next hnone => rw [← hnone]
  · rw [State.post_head, State.raise_head, State.head_onHead_self]

theorem State.closeLate_tally (s : State) (h : Nat) : (s.closeLate h).tally = s.tally := by
  unfold State.closeLate
  split
  · rfl
  · rw [State.post_tally]; rfl

theorem State.closeLate_get (s : State) (h : Nat) {f : Fld} (hf : 0x100000 ≤ f.off ∧ f.off < 0xA00000) (hne : f.off ≠ Reg.LS_STATUS_late.off) :
    (s.closeLate h).get f = s.get f := by
  unfold State.closeLate
  split
  · rfl
  · rw [State.post_get _ _ _ hf, State.get_raise, State.get_set_ne _ _ _ _ hne]; rfl

/-- The state in which a late line of head h is counted: a run that it does not continue has ended. -/
def State.lateOpen (s : State) (h k : Nat) : State :=
  match (s.head h).lateRun with
  | some (first, count, _) => if first + count = k then s else s.closeLate h
  | none => s

/-- The run that line k joins: its first line, the lines before it, and whether FIRE_MAP_LATE was posted for it. -/
def State.lateJoined (s : State) (h k : Nat) : Nat × Nat × Bool := (((s.lateOpen h k).head h).lateRun).getD (k, 0, false)

/-- FIRE_MAP_LATE, once a run, where a late line waited for its map. -/
def State.mapLate (s : State) (h : Nat) (posted : Bool) (waiting : Option Nat) : State :=
  match waiting with
  | some e => if posted then s else (s.raise Reg.SEAM_STATUS_map_late).post 0x0412 [.b h, .li e]
  | none => s

/-- The state before a late line leaves: its run is open and FIRE_MAP_LATE posted. -/
def State.lateTold (s : State) (h k : Nat) (waiting : Option Nat) : State := (s.lateOpen h k).mapLate h (s.lateJoined h k).2.2 waiting

theorem State.discardLate_eq (s : State) (h k : Nat) (waiting : Option Nat) :
    s.discardLate h k waiting = ((s.lateTold h k waiting).onHead h fun c => { c with
      ready := c.ready.drop 1
      lateRun := some ((s.lateJoined h k).1, (s.lateJoined h k).2.1 + 1, (s.lateJoined h k).2.2 || waiting.isSome) }).bump Reg.LS_LATE_COUNT 1 := rfl

/-- From s to t head h keeps its assembled lines and its highest line sent, and the count of late lines and the tally are as before. -/
structure State.SameLines (s t : State) (h : Nat) : Prop where
  ready : (t.head h).ready = (s.head h).ready
  sent : (t.head h).sent = (s.head h).sent
  count : t.get Reg.LS_LATE_COUNT = s.get Reg.LS_LATE_COUNT
  tally : t.tally = s.tally

theorem State.SameLines.refl (s : State) (h : Nat) : s.SameLines s h := ⟨rfl, rfl, rfl, rfl⟩

theorem State.SameLines.trans {s t u : State} {h : Nat} (h1 : s.SameLines t h) (h2 : t.SameLines u h) : s.SameLines u h :=
  ⟨h2.ready.trans h1.ready, h2.sent.trans h1.sent, h2.count.trans h1.count, h2.tally.trans h1.tally⟩

theorem State.closeLate_sameLines (s : State) (h : Nat) : s.SameLines (s.closeLate h) h :=
  ⟨by rw [s.closeLate_head], by rw [s.closeLate_head], s.closeLate_get h (by decide) (by decide), s.closeLate_tally h⟩

theorem State.lateOpen_sameLines (s : State) (h k : Nat) : s.SameLines (s.lateOpen h k) h := by
  unfold State.lateOpen
  split
  · split
    · exact .refl s h
    · exact s.closeLate_sameLines h
  · exact .refl s h

theorem State.mapLate_sameLines (s : State) (h : Nat) (posted : Bool) (waiting : Option Nat) : s.SameLines (s.mapLate h posted waiting) h := by
  unfold State.mapLate
  split
  · split
    · exact .refl s h
    · refine ⟨by rw [State.post_head]; rfl, by rw [State.post_head]; rfl, ?_, by rw [State.post_tally]; rfl⟩
      rw [State.post_get _ _ _ (by decide), State.get_raise, State.get_set_ne _ _ _ _ (by decide)]
  · exact .refl s h

theorem State.lateTold_sameLines (s : State) (h k : Nat) (waiting : Option Nat) : s.SameLines (s.lateTold h k waiting) h :=
  (s.lateOpen_sameLines h k).trans (State.mapLate_sameLines _ _ _ _)

section
variable (s : State) (h k : Nat) (waiting : Option Nat)

theorem State.discardLate_ready : ((s.discardLate h k waiting).head h).ready = (s.head h).ready.drop 1 := by
  rw [State.discardLate_eq, State.bump_head, State.head_onHead_self]
  exact congrArg (List.drop 1) (s.lateTold_sameLines h k waiting).ready

theorem State.discardLate_sent : ((s.discardLate h k waiting).head h).sent = (s.head h).sent := by
  rw [State.discardLate_eq, State.bump_head, State.head_onHead_self]
  exact (s.lateTold_sameLines h k waiting).sent

theorem State.discardLate_count :
    (s.discardLate h k waiting).get Reg.LS_LATE_COUNT = min (2 ^ 32 - 1) (s.get Reg.LS_LATE_COUNT + 1) := by
  have hcount := (s.lateTold_sameLines h k waiting).count
  have hbump (u : State) : (u.bump Reg.LS_LATE_COUNT 1).get Reg.LS_LATE_COUNT = min (2 ^ 32 - 1) (u.get Reg.LS_LATE_COUNT + 1) :=
    (State.get_set_self _ _ _ (by decide)).trans (Nat.mod_eq_of_lt (by simp only [Reg.LS_LATE_COUNT]; omega))
  rw [State.discardLate_eq, hbump]
  exact congrArg (fun n => min (2 ^ 32 - 1) (n + 1)) hcount

theorem State.discardLate_tally : (s.discardLate h k waiting).tally = s.tally := by
  rw [State.discardLate_eq]
  exact (s.lateTold_sameLines h k waiting).tally

end

theorem State.lateOpen_of_first {s : State} {h : Nat} (k : Nat) (hfirst : (s.head h).lateRun = none) : s.lateOpen h k = s := by
  unfold State.lateOpen; rw [hfirst]

theorem State.lateJoined_of_first {s : State} {h : Nat} (k : Nat) (hfirst : (s.head h).lateRun = none) : s.lateJoined h k = (k, 0, false) := by
  unfold State.lateJoined; rw [State.lateOpen_of_first k hfirst, hfirst]; rfl

/-- A line that begins a run and waited for its map raises map_late (R175). -/
theorem State.discardLate_mapLate {s : State} {h : Nat} (k e : Nat) (hfirst : (s.head h).lateRun = none) :
    (s.discardLate h k (some e)).on Reg.SEAM_STATUS_map_late = true := by
  have hnew : (s.lateJoined h k).2.2 = false := by rw [State.lateJoined_of_first k hfirst]
  rw [State.discardLate_eq, State.lateTold, State.lateOpen_of_first k hfirst, hnew]
  calc _ = (((s.raise Reg.SEAM_STATUS_map_late).post 0x0412 [.b h, .li e]).get Reg.SEAM_STATUS_map_late == 1) :=
        congrArg (· == 1) (State.get_set_ne _ _ _ _ (by decide))
    _ = (s.raise Reg.SEAM_STATUS_map_late).on Reg.SEAM_STATUS_map_late := congrArg (· == 1) (State.post_get _ _ _ (by decide))
    _ = true := State.on_raise_self _ _ (by decide) rfl

/-- A line discarded for its slice that begins a run tells nothing: only the count and the record of its head change. -/
theorem State.discardLate_of_first {s : State} {h : Nat} (k : Nat) (hfirst : (s.head h).lateRun = none) :
    s.discardLate h k none = (s.onHead h fun c => { c with ready := c.ready.drop 1, lateRun := some (k, 1, false) }).bump Reg.LS_LATE_COUNT 1 := by
  rw [State.discardLate_eq, State.lateTold, State.lateOpen_of_first k hfirst, State.lateJoined_of_first k hfirst]
  rfl

/-! ### What a LINE packet leaves alone (R119) -/

theorem State.sendNode_onlySends (s : State) (a ty : Nat) (payload : List (BitVec 8)) : s.onlySends (s.sendNode a ty payload) := by
  unfold State.sendNode State.sendBy
  simp only
  split
  · split
    · exact s.laneSend_onlySends _ _ _
    · rfl
  · split
    · exact s.laneSend_onlySends _ _ _
    · rfl

theorem State.onlySends.tally {s t : State} (h : s.onlySends t) : t.tally = s.tally := by rw [h]

/-! ### LINE_SEND case by case (R119, R120, R124, R175) -/

/-- The state in which the oldest assembled line of a head leaves: its run of late lines has ended, and its record has the line as sent. -/
def State.lineLeaves (s : State) (h : Nat) (l : HeadLine) : State :=
  (s.closeLate h).onHead h fun c => { c with
    ready := c.ready.drop 1, sent := some l.k, loads := c.loads ++ [(l.k, (s.lineEnergy h l.codes).1, (s.lineEnergy h l.codes).2)] }

theorem State.lineLeaves_head (s : State) (h : Nat) (l : HeadLine) : (s.lineLeaves h l).head h =
    { s.head h with
      ready := (s.head h).ready.drop 1, sent := some l.k, lateRun := none,
      loads := (s.head h).loads ++ [(l.k, (s.lineEnergy h l.codes).1, (s.lineEnergy h l.codes).2)] } := by
  unfold State.lineLeaves
  rw [State.head_onHead_self, s.closeLate_head]

/-- The web position from which on line k of head h may leave. -/
def State.lineFrom (s : State) (h k : Nat) : Int :=
  s.planeLine s.placementNow (plPlane s.placementNow h) (((k : Int) - s.lead) * 65536 + plDown s.placementNow h)

theorem State.lineSend_of_none {s : State} {h : Nat} (hready : (s.head h).ready = []) : s.lineSend h = s := by
  unfold State.lineSend; rw [hready]

theorem State.lineSend_of_ready {s : State} {h : Nat} {l : HeadLine} {ls : List HeadLine} (hready : (s.head h).ready = l :: ls) :
    s.lineSend h =
      if s.beyondEnd l.k then s
      else if bit l.flags 3 then s.discardLate h l.k none
      else if s.isLate h l.k then s.discardLate h l.k (s.mapWait h l.k)
      else if (s.mapWait h l.k).isSome then s
      else if 0 ≤ posDiff s.webPos (s.lineFrom h l.k) then (s.lineLeaves h l).sendLine h l
      else s := by
  unfold State.lineSend; rw [hready]; rfl

/-- LINE_SEND leaves the tally alone. -/
theorem State.lineSend_tally (s : State) (h : Nat) : (s.lineSend h).tally = s.tally := by
  cases hready : (s.head h).ready with
  | nil => rw [State.lineSend_of_none hready]
  | cons l ls =>
    rw [State.lineSend_of_ready hready]
    split
    · rfl
    split
    · exact s.discardLate_tally _ _ _
    split
    · exact s.discardLate_tally _ _ _
    split
    · rfl
    split
    · exact (State.sendNode_onlySends _ _ _ _).tally.trans (s.closeLate_tally h)
    · rfl

/-- A device that holds the tally, with no string on its way back and no takeover to end, only sends the line. -/
theorem exec_lineSend_of_holder (dt : Nat) {h : Fin 256} {s : State} (hon : s.powered 7 = true) (hheld : s.held_ = true)
    (hdev : s.dev = stPrinting ∨ s.dev = stDraining) (hreturn : (s.str (h.val / 8)).returning = 0) (htaken : s.tally.takenFrom = none) :
    exec (.lineSend dt h) s = .next ((s.advance dt).lineSend h) := by
  have hwork : (!(s.advance dt).held_ || !((s.advance dt).dev = stPrinting || (s.advance dt).dev = stDraining)) = false := by
    show (!s.held_ || !(decide (s.dev = stPrinting) || decide (s.dev = stDraining))) = false
    rw [hheld]
    rcases hdev with hdev | hdev <;> rw [hdev] <;> rfl
  have hstay : ((s.advance dt).str (h.val / 8)).returning = 0 := hreturn
  have hnone : ((s.advance dt).lineSend h).tally.takenFrom = none := by rw [State.lineSend_tally]; exact htaken
  show execLineSend dt h s = _
  unfold execLineSend
  rw [State.whenOn_of_powered (s := s.advance dt) _ hon, if_neg (by rw [hwork]; exact Bool.false_ne_true)]
  simp only [hstay, ne_eq, not_true_eq_false, decide_false, Bool.false_and]
  cases hready : ((s.advance dt).head h).ready with
  | nil => simp only [Bool.false_eq_true, if_false, hnone]
  | cons l ls => simp only [Bool.false_eq_true, if_false, hnone]

/-! ### The statement -/

/-- Settles O35: BIND_SEND binds no further line that has to wait, and LINE_SEND takes the first case that its oldest line meets. That a line
beyond the last one bound is not sent is the model's (log 36). -/
theorem bindAndLines : Obligations.BindAndLines := by
  refine ⟨fun dt h src s hsrc hen v u hv hwait hu => ?_, fun dt h s hstream => exec_bindSend_of_idle dt h hstream,
    fun dt h s hon hheld hdev hreturn htaken => ?_⟩
  · rw [hu]
    exact exec_bindSend_of_wait dt hsrc hen hv hwait
  · rw [exec_lineSend_of_holder dt hon hheld hdev hreturn htaken]
    refine ⟨fun hready => ?_, fun l ls hready hbeyond => ?_, fun l ls hready hin hbehind hfirst => ?_, fun l ls hready hin hslice hlate => ?_,
      fun l ls hready hin hslice htime hwait => ?_, fun l ls hready hin hslice htime hmap hcome => ?_⟩
    · rw [State.lineSend_of_none (s := s.advance dt) hready]
    all_goals rw [State.lineSend_of_ready (s := s.advance dt) hready]
    · -- beyond the end
      rw [if_pos hbeyond]
    · -- its slice was late
      simp only [hin, hbehind, Bool.false_eq_true, if_false, if_true]
      have hdropped : ((s.advance dt).head h).ready.drop 1 = ls := congrArg (List.drop 1) hready
      refine ⟨_, rfl, (State.discardLate_ready _ _ _ _).trans hdropped, State.discardLate_count _ _ _ _, ?_, ?_,
        State.discardLate_sent _ _ _ _⟩
      · rw [State.discardLate_of_first (s := s.advance dt) l.k hfirst]; rfl
      · rw [State.discardLate_of_first (s := s.advance dt) l.k hfirst]
        exact fun off hoff => State.reg_set_ne _ _ _ _ (by simpa using hoff)
    · -- late by its own plane
      simp only [hin, hslice, hlate, Bool.false_eq_true, if_false, if_true]
      have hdropped : ((s.advance dt).head h).ready.drop 1 = ls := congrArg (List.drop 1) hready
      refine ⟨_, rfl, (State.discardLate_ready _ _ _ _).trans hdropped, State.discardLate_sent _ _ _ _, State.discardLate_count _ _ _ _,
        fun hfirst hmap => ?_⟩
      obtain ⟨e, he⟩ := Option.isSome_iff_exists.mp hmap
      rw [he]
      exact State.discardLate_mapLate (s := s.advance dt) l.k e hfirst
    · -- it waits for its map or its moment
      simp only [hin, hslice, htime, Bool.false_eq_true, if_false]
      rcases hwait with hmap | hearly
      · rw [if_pos hmap]
      · have hwhen : ¬ 0 ≤ posDiff (s.advance dt).webPos ((s.advance dt).lineFrom h l.k) := Int.not_le.mpr hearly
        rw [if_neg hwhen, ite_self]
    · -- in time
      have hwhen : 0 ≤ posDiff (s.advance dt).webPos ((s.advance dt).lineFrom h l.k) := hcome
      simp only [hin, hslice, htime, hmap, Option.isSome_none, Bool.false_eq_true, if_false, if_pos hwhen]
      have hleft := (s.advance dt).lineLeaves_head h l
      refine ⟨_, rfl, ?_, ?_, ?_⟩
      · rw [hleft]; exact congrArg (List.drop 1) hready
      · rw [hleft]
      · rw [hleft]

end Sys2Proof.Machine

/-! SUPPORT. Refutations of the statements of the life of a stream (R124) and of the operations on jobs (R401): where a cause holds PRINT_OK
low, both commands hold SPEED_CEIL_PWM low too (R129), and its setting is part of the scheduler's record that the statements want unchanged. -/

namespace Sys2Proof.Machine

/-! ### What driving PRINT_OK does to the scheduler (R129, R517) -/

theorem State.raiseCause_sched (s : State) (i : Nat) : (s.raiseCause i).sched = s.sched := by rw [(s.raiseCause_onlyPosts i).1]

/-- The scheduler's record with SPEED_CEIL_PWM held low. -/
def Sched.heldLow (c : Sched) : Sched := { c with pwm := (0, c.pwm.2) }

/-- Driving PRINT_OK touches the scheduler's record in one place, the setting of SPEED_CEIL_PWM, and only while a cause of low holds. -/
theorem State.refresh_sched (s : State) : s.refresh.sched = if s.lowCause = 0 then s.sched else s.sched.heldLow := by
  unfold State.refresh
  by_cases hcause : s.lowCause = 0
  · simp only [hcause, beq_self_eq_true, if_true]
    rfl
  · simp only [beq_false_of_ne hcause, Bool.false_eq_true, if_false, if_neg hcause]
    split
    · rw [State.raiseCause_sched]
      split
      · rfl
      · rw [State.post_sched]; rfl
    · rfl

/-- A domain power fault that ended a stream is a cause of low (Table 20-6). -/
theorem State.lowCause_of_fault {s : State} (h : s.power.lowFault = true) : s.lowCause ≠ 0 := by
  unfold State.lowCause
  rw [h]
  simp only [b2n, if_true]
  omega

theorem State.refresh_sched_of_fault {s : State} (h : s.power.lowFault = true) : s.refresh.sched = s.sched.heldLow :=
  s.refresh_sched.trans (if_neg (State.lowCause_of_fault h))

/-! ### STREAM_END (R124) -/

/-- The device as it begins to drain. -/
def State.drainBegun (s : State) : State := (s.raise Reg.LS_STATUS_draining).enter stDraining

theorem exec_streamEnd_of_past (dt : Nat) {l : Int} {s : State} (hlast : s.lastLine = some l) (hdev : s.dev = stPrinting)
    (hstream : s.streaming = true) (hpast : l < s.committedI) :
    exec (.streamEnd dt) s = .next ((s.advance dt).drainBegun.post 0x030C [.li (wrap 48 l)]) := by
  have hlast' : (s.advance dt).lastLine = some l := hlast
  have hdue : ((s.advance dt).dev = stPrinting && (s.advance dt).streaming && decide (l < (s.advance dt).committedI)) = true := by
    simp only [Bool.and_eq_true, decide_eq_true_eq]
    exact ⟨⟨hdev, hstream⟩, hpast⟩
  show execStreamEnd dt s = _
  unfold execStreamEnd
  simp only [hlast']
  rw [if_pos hdue]
  rfl

theorem State.drainBegun_sched_of_fault {s : State} (h : s.power.lowFault = true) : s.drainBegun.sched = s.sched.heldLow :=
  State.refresh_sched_of_fault (s := ((s.raise Reg.LS_STATUS_draining).set Reg.PWR_STATE_state stDraining).showPorts) h

/-- PRINTING, the last line 0 of the stream below the committed line 1; a power fault is a cause of low, but PRINT_OK and
SPEED_CEIL_PWM are not driven low yet. -/
def faultyStream : State :=
  { ((State.reset.set Reg.PWR_STATE_state stPrinting).set Reg.LS_STATUS_origin_set 1).set Reg.LS_COMMIT_LINE_LO 1 with
    power := { lowFault := true, printOk := true }
    sched := { anyBegun := true, last := some 0, pwm := (1, 50000) } }

/-- Refutes O34: at faultyStream STREAM_END enters DRAINING and so drives PRINT_OK, whose cause of low holds SPEED_CEIL_PWM low: the scheduler's
record does not stay as it was. -/
theorem not_streamLife : ¬ Obligations.StreamLife := by
  rintro ⟨-, -, -, hend, -⟩
  have hlast : faultyStream.lastLine = some 0 := rfl
  have hdev : faultyStream.dev = stPrinting := by decide
  have hstream : faultyStream.streaming = true := by decide
  have hpast : 0 < faultyStream.committedI := by decide
  obtain ⟨u, hexec, -, hsame⟩ := hend 0 0 faultyStream hlast hdev hstream hpast
  rw [exec_streamEnd_of_past 0 hlast hdev hstream hpast] at hexec
  have hlow : u.sched = faultyStream.sched.heldLow :=
    calc u.sched = (u.post 0x030C [.li (wrap 48 0)]).sched := (u.post_sched _ _).symm
      _ = ((faultyStream.advance 0).drainBegun.post 0x030C [.li (wrap 48 0)]).sched := congrArg State.sched (Host.Outcome.next.inj hexec).symm
      _ = (faultyStream.advance 0).drainBegun.sched := State.post_sched _ _ _
      _ = faultyStream.sched.heldLow := State.drainBegun_sched_of_fault rfl
  have hpwm : ((0, 50000) : Nat × Nat) = (1, 50000) := congrArg Sched.pwm (hlow.symm.trans hsame)
  exact absurd hpwm (by decide)

/-! ### JOB_STOP (R401) -/

/-- An operation whose fields are good, on a device that may do the work that needs the tally, is carried out. -/
theorem State.runOp_carriedOut {s : State} {r : OpRef} {f : Flight} {opcode : Nat} {used : List (Nat × Nat)} {eff : Bool}
    {bad : Flight → Bool} {always : Flight → List (Nat × List (BitVec 8))} {tally : Bool} {body : Flight → State → State}
    (h : s.opRuns r f opcode used eff) (hgood : bad f = false) (htally : s.holdsTally) :
    s.runOp r opcode used eff bad always tally body = body f (s.beginOp f.ring f.n) := by
  obtain ⟨hf, hop, hb, hw, hres, hlock, -⟩ := h
  obtain ⟨hheld, hcold, harbiter⟩ := htally
  have hok : (!f.reservedOk used eff || (!s.locked && !earlyOp opcode) || bad f) = false := by
    rcases hlock with hlock | hearly
    · simp only [hres, hlock, hgood, Bool.not_true, Bool.false_and, Bool.or_false]
    · simp only [hres, hearly, hgood, Bool.not_true, Bool.and_false, Bool.or_false]
  have hmay : (tally && (!s.held_ || s.dev = stCold || s.config = 3)) = false := by
    simp only [hheld, hcold, harbiter, Bool.not_true, decide_false, Bool.or_false, Bool.and_false]
  rw [State.runOp_of_turn hf hop hb hw, if_neg (ne_true_of_eq_false hok), if_neg (ne_true_of_eq_false hmay)]

/-- The state in which a JOB_STOP without a stream ends: no job is queued. -/
def State.jobsGone (s : State) : State := (s.modSched fun c => { c with jobs := [], edge := none }).refresh

theorem exec_jobStop_of_idle (dt : Nat) {r : OpRef} {f : Flight} {s : State} (hruns : s.opRuns r f 0x11 [] false) (htally : s.holdsTally)
    (hidle : s.streaming = false) :
    exec (.jobStop dt r) s =
      .next (((s.advance dt).beginOp f.ring f.n).jobsGone.finish f stOk [(4, leBytes 6 (2 ^ 48 - 1))]) := by
  have hstay : ((s.advance dt).beginOp f.ring f.n).streaming = false := by
    obtain ⟨hf, -⟩ := hruns
    obtain ⟨hring, hn⟩ := State.key_of_flight hf
    rw [hring, hn, State.beginOp_of_flight (s := s.advance dt) hf]
    exact hidle
  show execJobStop dt r s = _
  unfold execJobStop
  rw [State.runOp_carriedOut (s := s.advance dt) hruns rfl htally, if_neg (ne_true_of_eq_false hstay)]
  rfl

theorem State.beginOp_same (s : State) (ring n : Nat) : (s.beginOp ring n).power = s.power ∧ (s.beginOp ring n).sched = s.sched := by
  unfold State.beginOp
  split <;> exact ⟨rfl, rfl⟩

theorem State.finish_sched (s : State) (f : Flight) (status : Nat) (result : List (Nat × List (BitVec 8))) :
    (s.finish f status result).sched = s.sched := by
  unfold State.finish State.endOp
  split
  · split
    · split <;> rfl
    · rfl
  · rfl

/-- A JOB_STOP about to be carried out: its opcode, and 63 bytes of 0. -/
def stopFlight : Flight := ⟨0, 0, 0, 0x11#8 :: List.replicate 63 0#8, false, false, none⟩

/-- READY, locked, with the tally and the operation in flight; a power fault is a cause of low, but PRINT_OK and SPEED_CEIL_PWM
are not driven low yet. -/
def faultyIdle : State :=
  { ((State.reset.set Reg.PWR_STATE_state stReady).set Reg.SETUP_LOCK_lock 1).set Reg.TALLY_STATUS_held 1 with
    rings := { flight := [stopFlight] }
    power := { lowFault := true, printOk := true }
    sched := { pwm := (1, 50000) } }

theorem faultyIdle_runs : faultyIdle.opRuns ⟨0, 0⟩ stopFlight 0x11 [] false := by decide

/-- Refutes O48: at faultyIdle JOB_STOP empties the queue and then drives PRINT_OK, whose cause of low holds SPEED_CEIL_PWM low: more of the
scheduler's record changes than its jobs and its edge. -/
theorem not_jobOperations : ¬ Obligations.JobOperations := by
  rintro ⟨-, hstop, -⟩
  have htally : faultyIdle.holdsTally := by decide
  have hidle : faultyIdle.streaming = false := by decide
  obtain ⟨hnoStream, -⟩ := hstop 0 ⟨0, 0⟩ stopFlight faultyIdle faultyIdle_runs htally
  obtain ⟨t, hexec, hsame, -⟩ := hnoStream hidle
  rw [exec_jobStop_of_idle 0 faultyIdle_runs htally hidle] at hexec
  obtain ⟨hpower, hsched⟩ := (faultyIdle.advance 0).beginOp_same stopFlight.ring stopFlight.n
  have hlow : t.sched = { faultyIdle.sched with jobs := [], edge := none }.heldLow := by
    rw [← Host.Outcome.next.inj hexec, State.finish_sched]
    refine (State.refresh_sched_of_fault ?_).trans ?_
    · exact congrArg Power.lowFault hpower
    · exact congrArg (fun c : Sched => { c with jobs := [], edge := none }.heldLow) hsched
  have hpwm : ((0, 50000) : Nat × Nat) = (1, 50000) := congrArg Sched.pwm (hlow.symm.trans hsame)
  exact absurd hpwm (by decide)

end Sys2Proof.Machine

/-! SUPPORT. What leaves the raster slices' record alone: registers, events, and a table that takes effect (R125). -/

namespace Sys2Proof.Machine

/-! ### Operations that leave the slices' record alone -/

@[simp] theorem State.advance_raster (s : State) (n : Nat) : (s.advance n).raster = s.raster := rfl
@[simp] theorem State.set_raster (s : State) (f : Fld) (v : Nat) : (s.set f v).raster = s.raster := rfl
@[simp] theorem State.raise_raster (s : State) (f : Fld) : (s.raise f).raster = s.raster := rfl
@[simp] theorem State.clear_raster (s : State) (f : Fld) : (s.clear f).raster = s.raster := rfl
@[simp] theorem State.setOn_raster (s : State) (f : Fld) (b : Bool) : (s.setOn f b).raster = s.raster := rfl
@[simp] theorem State.bump_raster (s : State) (f : Fld) (n : Nat) : (s.bump f n).raster = s.raster := rfl
@[simp] theorem State.set2_raster (s : State) (lo hi : Fld) (v : Nat) : (s.set2 lo hi v).raster = s.raster := rfl
@[simp] theorem State.setI_raster (s : State) (f : Fld) (v : Int) : (s.setI f v).raster = s.raster := rfl
@[simp] theorem State.emit_raster (s : State) (o : Output) : (s.emit o).raster = s.raster := rfl
@[simp] theorem State.setBanks_raster (s : State) (k i b : Nat) (l : List Bank) : (s.setBanks k i b l).raster = s.raster := rfl
@[simp] theorem State.setSpare_raster (s : State) (st plane : Nat) : (s.setSpare st plane).raster = s.raster := rfl
@[simp] theorem State.writeRing_raster (s : State) (q line : Nat) (l : SliceLine) : (s.writeRing q line l).raster = s.raster := rfl
@[simp] theorem State.onHead_raster (s : State) (a : Nat) (f : HeadSched → HeadSched) : (s.onHead a f).raster = s.raster := rfl
@[simp] theorem State.setReturns_raster (s : State) (f : Option Nat → Option Nat) : (s.setReturns f).raster = s.raster := rfl
@[simp] theorem State.unstage_raster (s : State) (g : Staged) : (s.unstage g).raster = s.raster := rfl
@[simp] theorem State.setFmSince_raster (s : State) (loop who line : Nat) : (s.setFmSince loop who line).raster = s.raster := rfl

@[simp] theorem State.post_raster (s : State) (code : Nat) (args : List EArg) : (s.post code args).raster = s.raster := by
  rw [(s.post_onlyPosts code args).1]

@[simp] theorem State.ite_raster (c : Prop) [Decidable c] (a b : State) : (if c then a else b).raster = if c then a.raster else b.raster :=
  apply_ite State.raster c a b

/-- A fold of steps that leave the slices' record alone leaves it alone. -/
theorem foldl_raster {β : Type} {f : State → β → State} (h : ∀ u b, (f u b).raster = u.raster) (l : List β) (s : State) :
    (l.foldl f s).raster = s.raster :=
  foldl_keeps (·.raster = s.raster) f (fun u b hu => (h u b).trans hu) l s rfl

@[simp] theorem State.setSlice_raster (s : State) (q n : Nat) : (s.setSlice q n).raster = s.raster := by
  simp [State.setSlice]

@[simp] theorem State.noteCopyStart_raster (s : State) (q line : Nat) : (s.noteCopyStart q line).raster = s.raster := by
  simp [State.noteCopyStart]

@[simp] theorem State.deputyFault_raster (s : State) : s.deputyFault.raster = s.raster := by
  unfold State.deputyFault
  have hretired : s.retireBound.raster = s.raster := by rw [s.retireBound_onlyRetires.1]
  have hsends (u : State) : (u.inhibitAll true).raster = u.raster := by rw [u.inhibitAll_onlySends true]
  simp [hsends, hretired]

/-! ### A table that takes effect (R125, R183, R327, R343) -/

@[simp] theorem State.endOp_raster (s : State) (ring n status : Nat) (result : List (Nat × List (BitVec 8))) :
    (s.endOp ring n status result).raster = s.raster := by
  unfold State.endOp
  split
  · split
    · exact (State.ite_raster _ _ _).trans (ite_self _)
    · rfl
  · rfl

@[simp] theorem State.switchLoss_raster (s : State) (a line : Nat) (old new : List (BitVec 8)) :
    (s.switchLoss a line old new).raster = s.raster := by
  simp [State.switchLoss]

@[simp] theorem State.notServed_raster (s : State) (a reason : Nat) : (s.notServed a reason).raster = s.raster := by
  simp [State.notServed, State.onNode, State.setNode]

@[simp] theorem State.fmApply_raster (s : State) (c : FmChange) (i : FmItem) : (s.fmApply c i).raster = s.raster := by
  unfold State.fmApply
  split <;> rfl

@[simp] theorem State.issueFm_raster (s : State) (c : FmChange) (kind flags line : Nat) : (s.issueFm c kind flags line).raster = s.raster := by
  simp [State.issueFm, State.sendStat]

@[simp] theorem State.fmEffect_raster (s : State) (load line : Nat) : (s.fmEffect load line).raster = s.raster := by
  unfold State.fmEffect
  refine foldl_raster (fun u c => ?_) _ _
  rw [State.issueFm_raster]
  have hterms : (c.items.foldl (fun s i => s.fmApply c i) u).raster = u.raster := foldl_raster (fun u i => u.fmApply_raster c i) _ _
  split <;> exact hterms

@[simp] theorem State.fmRebase_raster (s : State) (kind index : Nat) (data : List (BitVec 8)) (heads : List Nat) (line : Nat) :
    (s.fmRebase kind index data heads line).raster = s.raster := by
  unfold State.fmRebase
  extract_lets e s0 z s1
  have hsince (loop : Nat) (u : State) : (heads.foldl (fun (s : State) h => s.setFmSince loop h e) u).raster = u.raster :=
    foldl_raster (fun u h => u.setFmSince_raster loop h e) heads u
  have hbase : s1.raster = s.raster := by
    simp only [s1]
    split
    · exact foldl_raster (fun u q => by simp only [State.setFmSince_raster, State.setI_raster]) _ s0
    · simp only [hsince, State.setFmSince_raster, State.setI_raster, State.modFm_raster, z, s0]
    · simp only [hsince, State.modFm_raster, s0]
  rw [State.post_raster, State.raise_raster, hbase]

@[simp] theorem State.takeEffect_raster (s : State) (g : Staged) (line first : Option Nat) : (s.takeEffect g line first).raster = s.raster := by
  unfold State.takeEffect
  extract_lets old shown keep s1 heads t s2 s3
  have h2 : s2.raster = s.raster := by
    simp only [s2]
    clear_value old heads
    split
    · split
      · exact foldl_raster (fun u a => u.switchLoss_raster _ _ _ _) _ t
      · rfl
    · split
      · exact foldl_raster (fun u a => u.notServed_raster _ _) _ s1
      · rfl
  have h3 : s3.raster = s.raster := by
    simp only [s3]
    clear_value s2 shown heads
    split
    · rw [State.fmEffect_raster, h2]
    · rw [State.ite_raster, State.fmRebase_raster, ite_self, h2]
  split
  · rw [State.endOp_raster, h3]
  · exact h3

theorem State.fixOne_raster (s : State) (g : Staged) (earlier : List Staged) : (s.fixOne g earlier).2.raster = s.raster := by
  unfold State.fixOne
  split
  · rfl
  · split
    · rfl
    · simp

@[simp] theorem State.fixLines_raster (s : State) : s.fixLines.raster = s.raster := by
  unfold State.fixLines
  exact foldl_keeps (fun x : List Staged × State => x.2.raster = s.raster) _ (fun x g hx => (State.fixOne_raster _ _ _).trans hx) _ _ rfl

@[simp] theorem State.switchTable_raster (s : State) (kind index line : Nat) : (s.switchTable kind index line).raster = s.raster := by
  unfold State.switchTable
  extract_lets s0 due
  have hfold : (due.foldl (fun s g => (s.unstage g).takeEffect g g.line (if kind = tPlacement then some line else g.line)) s0).raster = s.raster :=
    (foldl_raster (fun u g => by rw [State.takeEffect_raster, State.unstage_raster]) due s0).trans s.fixLines_raster
  split
  · exact s.fixLines_raster
  · rw [State.fixLines_raster, hfold]

@[simp] theorem State.switchPlane_raster (s : State) (q line : Nat) : (s.switchPlane q line).raster = s.raster := by
  unfold State.switchPlane
  simp only [State.switchTable_raster]
  rw [foldl_raster (fun u str => by simp), foldl_raster (fun u k => u.switchTable_raster k q line)]

/-! ### The committed line and the spans (R121, R122) -/

@[simp] theorem State.placePanel_raster (s : State) (b : Job) (start : Nat) : (s.placePanel b start).raster = s.raster := by
  unfold State.placePanel
  simp only
  split <;> rfl

@[simp] theorem State.showParting_raster (s : State) : s.showParting.raster = s.raster := by
  simp only [State.showParting, State.setReturns_raster, State.set2_raster]

@[simp] theorem State.extend_raster (s : State) : s.extend.raster = s.raster := by
  unfold State.extend
  simp only [State.showParting_raster, State.ite_raster]
  split
  · cases s.nextJob with
    | some b => exact s.placePanel_raster _ _
    | none => rfl
  · rfl

@[simp] theorem State.commit_raster (s : State) (line : Nat) : (s.commit line).raster = s.raster := by
  simp [State.commit]

end Sys2Proof.Machine

/-! SUPPORT. Proof of the statement of slices and the Seam (R135, R138, R140, R153, R169): what a line begun or delivered leaves of the slices'
work, and the commands on the lines, blocks and banks of a plane. -/

namespace Sys2Proof.Machine

/-! ### The records of planes -/

@[simp] theorem State.plane_onPlane_self (s : State) (q : Nat) (f : PlaneRaster → PlaneRaster) : (s.onPlane q f).plane q = f (s.plane q) :=
  Tab.get_set_self _ _ _ _

theorem State.plane_onPlane_ne (s : State) {q j : Nat} (f : PlaneRaster → PlaneRaster) (h : j ≠ q) : (s.onPlane q f).plane j = s.plane j :=
  Tab.get_set_ne _ _ _ _ _ h

/-- States with one record of the slices have one record of each plane. -/
theorem State.plane_congr {s t : State} (h : t.raster = s.raster) (q : Nat) : t.plane q = s.plane q := by
  unfold State.plane; rw [h]

/-! ### What leaves the lines to begin and the re-cuts asked for alone -/

/-- From s to t the re-cuts asked for stay, and so does the line that each plane begins next. -/
def State.sameTask (s t : State) : Prop :=
  t.raster.recuts = s.raster.recuts ∧ ∀ q, (t.plane q).next = (s.plane q).next

theorem State.sameTask_of_raster {s t : State} (h : t.raster = s.raster) : s.sameTask t :=
  ⟨congrArg Raster.recuts h, fun q => congrArg PlaneRaster.next (State.plane_congr h q)⟩

theorem State.sameTask.refl (s : State) : s.sameTask s := State.sameTask_of_raster rfl

theorem State.sameTask.trans {s t u : State} (h : s.sameTask t) (h' : t.sameTask u) : s.sameTask u :=
  ⟨h'.1.trans h.1, fun q => (h'.2 q).trans (h.2 q)⟩

theorem State.sameTask.cond {s t u : State} {c : Prop} [Decidable c] (h : s.sameTask t) (h' : s.sameTask u) :
    s.sameTask (if c then t else u) := by
  split
  · exact h
  · exact h'

/-- A fold of steps that each leave them alone leaves them alone. -/
theorem State.sameTask_foldl {β : Type} {f : State → β → State} (hf : ∀ (u : State) (b : β), u.sameTask (f u b)) (l : List β) (s : State) :
    s.sameTask (l.foldl f s) :=
  foldl_keeps s.sameTask f (fun u b h => h.trans (hf u b)) l s (.refl s)

section
variable {s t : State} (h : s.sameTask t)
include h

theorem State.sameTask.set (f : Fld) (v : Nat) : s.sameTask (t.set f v) := h
theorem State.sameTask.raise (f : Fld) : s.sameTask (t.raise f) := h
theorem State.sameTask.post (code : Nat) (args : List EArg) : s.sameTask (t.post code args) :=
  h.trans (State.sameTask_of_raster (t.post_raster code args))

/-- A change of a plane's record but for its next line. -/
theorem State.sameTask.onPlane {q : Nat} {f : PlaneRaster → PlaneRaster} (hf : (f (t.plane q)).next = (t.plane q).next) :
    s.sameTask (t.onPlane q f) := by
  refine h.trans ⟨rfl, fun j => ?_⟩
  by_cases hj : j = q
  · rw [hj, State.plane_onPlane_self, hf]
  · rw [State.plane_onPlane_ne _ _ hj]

/-- A change of the slices' record but for its planes and the re-cuts asked for. -/
theorem State.sameTask.modRaster {f : Raster → Raster} (hrecuts : (f t.raster).recuts = t.raster.recuts)
    (hplanes : (f t.raster).planes = t.raster.planes) : s.sameTask (t.modRaster f) := by
  refine h.trans ⟨hrecuts, fun q => ?_⟩
  show (Tab.get (fun _ => {}) (f t.raster).planes q).next = (t.plane q).next
  rw [hplanes]; rfl

end

theorem State.closeBehind_sameTask (s : State) (q : Nat) : s.sameTask (s.closeBehind q) := by
  unfold State.closeBehind
  split
  · exact .refl s
  · exact (((State.sameTask.refl s).onPlane rfl).raise _).post _ _

theorem State.noteLost_sameTask (s : State) (q line : Nat) (lost : List (Nat × Nat)) : s.sameTask (s.noteLost q line lost) :=
  (State.sameTask.refl s).onPlane rfl

theorem State.formUsable_sameTask (s : State) (q line : Nat) : s.sameTask (s.formUsable q line) := by
  have hformed (un unc : List Nat) (lost : List (Nat × Nat)) (redist : Nat) (f g : Fld) (a b : Nat) : s.sameTask
      ((((s.noteLost q line lost).onPlane q fun p => { p with unusable := un, uncovered := unc, redist := redist }).set f a).set g b) :=
    (((s.noteLost_sameTask q line lost).onPlane rfl).set f a).set g b
  unfold State.formUsable
  cases s.artwork q line with
  | none => exact .cond ((hformed _ _ _ _ _ _ _ _).post _ _) (hformed _ _ _ _ _ _ _ _)
  | some a => exact .cond ((hformed _ _ _ _ _ _ _ _).post _ _) (hformed _ _ _ _ _ _ _ _)

/-! ### A line delivered (R140, R141, R146, R157, R158) -/

theorem State.tablePoison_sameTask (s : State) (kind q sub entry : Nat) : s.sameTask (s.tablePoison kind q sub entry) := by
  unfold State.tablePoison
  exact .cond (((State.sameTask.refl s).modRaster rfl rfl).post _ _) (.refl s)

theorem State.noteFlags_sameTask (s : State) (q n : Nat) (l : SliceLine) : s.sameTask (s.noteFlags q n l) := by
  unfold State.noteFlags
  extract_lets s3 s4 fresh
  have hpoison : s.sameTask s3 := .cond ((State.sameTask.refl s).raise _) (.refl s)
  have htables : s3.sameTask s4 := State.sameTask_foldl (fun u e => u.tablePoison_sameTask _ _ _ _) _ s3
  exact (hpoison.trans htables).trans (State.sameTask_foldl (fun u e => ((State.sameTask.refl u).onPlane rfl).post _ _) _ s4)

theorem State.auditFollow_sameTask (s : State) (q line : Nat) (l : SliceLine) : s.sameTask (s.auditFollow q line l) := by
  unfold State.auditFollow
  split
  · exact .refl s
  extract_lets dwell s0 flagged s1 q'
  have hbegun : s.sameTask s0 := by
    simp only [s0]
    split
    · exact State.sameTask.modRaster (t := s.setSpare _ _) (.refl s) rfl rfl
    · exact .refl s
  clear_value s0
  have hdue : s.sameTask s1 := by
    simp only [s1]
    split
    · exact hbegun.onPlane rfl
    · exact hbegun
  clear_value s1
  split
  · exact hbegun
  split
  · exact hdue.modRaster rfl rfl
  · exact (((hdue.modRaster rfl rfl).onPlane rfl).set _ _).set _ _

theorem State.deliver_sameTask (s : State) (q line : Nat) (l : SliceLine) : s.sameTask (s.deliver q line l) := by
  unfold State.deliver
  extract_lets n s1 s2
  have hwritten : s.sameTask s1 := (State.sameTask_of_raster (s.writeRing_raster q line l)).onPlane rfl
  have hshown : s.sameTask s2 := (hwritten.set _ _).set _ _
  clear_value s2
  exact (hshown.trans (s2.noteFlags_sameTask q n l)).trans (State.auditFollow_sameTask _ q line l)

theorem State.blockEnds_sameTask (s : State) (q line : Nat) : s.sameTask (s.blockEnds q line) := by
  unfold State.blockEnds
  exact ((State.sameTask.refl s).onPlane rfl).trans (State.sameTask_foldl (fun u b => ((State.sameTask.refl u).raise _).post _ _) _ _)

/-! ### SLICE_BEGIN_LINE (R135, R154 to R156) -/

/-- The state in which plane q has taken its next line: its tables have switched, the line is committed, its slice produces. -/
def State.lineTaken (s : State) (q : Nat) : State :=
  let line := (s.plane q).next
  let s2 := (((s.switchPlane q line).commit line).onPlane q fun p => { p with next := line + 1 }).noteCopyStart q line
  s2.set (Reg.RSn_STATUS_state (s2.sliceOf q)) 1

theorem State.lineTaken_next (s : State) (q : Nat) : ((s.lineTaken q).plane q).next = (s.plane q).next + 1 := by
  unfold State.lineTaken
  rw [State.plane_congr (State.set_raster _ _ _), State.plane_congr (State.noteCopyStart_raster _ _ _), State.plane_onPlane_self]

theorem State.lineTaken_beat (s : State) (q : Nat) : (s.lineTaken q).beat = s.beat := by
  refine State.beat_of_kept ?_
  unfold State.lineTaken
  rw [State.set_kept _ _ _ (away_of_le (by simp only [Reg.RSn_STATUS_state]; omega)), State.noteCopyStart_kept, State.onPlane_kept,
    State.commit_kept, State.switchPlane_kept]

/-- The state in which the slice of plane q works on the line it has taken. -/
def State.lineBegun (s : State) (q : Nat) : State :=
  let s4 := ((s.lineTaken q).closeBehind q).formUsable q (s.plane q).next
  s4.onPlane q fun p => { p with busy := some ((s.plane q).next, s4.beat) }

theorem State.lineBegun_next (s : State) (q : Nat) : ((s.lineBegun q).plane q).next = (s.plane q).next + 1 := by
  unfold State.lineBegun
  rw [State.plane_onPlane_self]
  exact (((State.closeBehind_sameTask _ q).trans (State.formUsable_sameTask _ q _)).2 q).trans (s.lineTaken_next q)

theorem State.lineBegun_busy (s : State) (q : Nat) : ((s.lineBegun q).plane q).busy = some ((s.plane q).next, s.beat) := by
  have hbeat : (((s.lineTaken q).closeBehind q).formUsable q (s.plane q).next).beat = s.beat := by
    rw [← s.lineTaken_beat q]
    exact State.beat_of_kept (by rw [State.formUsable_kept, State.closeBehind_kept])
  unfold State.lineBegun
  rw [State.plane_onPlane_self, hbeat]

/-- The state in which the line plane q has taken is in the ring as late, before its run is noted. -/
def State.lineLate (s : State) (q : Nat) : State :=
  let line := (s.plane q).next
  let s3 := s.lineTaken q
  ((s3.deliver q line (s3.blankLine q line false false true)).bump (Reg.RSn_LATE_COUNT (s3.sliceOf q)) 1).blockEnds q line

theorem State.lineLate_next (s : State) (q : Nat) : ((s.lineLate q).plane q).next = (s.plane q).next + 1 := by
  unfold State.lineLate
  exact (((State.deliver_sameTask _ q _ _).set _ _).trans (State.blockEnds_sameTask _ q _)).2 q |>.trans (s.lineTaken_next q)

theorem exec_sliceBeginLine_of_due (dt : Nat) {q : Fin 10} {s : State} (hon : s.powered 6 = true)
    (hmay : (s.advance dt).mayBegin_ q (s.plane q).next = true) :
    exec (.sliceBeginLine dt q) s =
      if ((s.advance dt).lineTaken q).tooLate (plHeads (((s.advance dt).lineTaken q).placementFor (s.plane q).next) q) (s.plane q).next then
        .next (((s.advance dt).lineLate q).onPlane q fun p => { p with
          lateRun := match p.lateRun with | some (f, n) => some (f, n + 1) | none => some ((s.plane q).next, 1) })
      else .next (((s.advance dt).lineBegun q).completeLine q) := by
  show execSliceBeginLine dt q s = _
  unfold execSliceBeginLine
  rw [State.whenOn_of_powered (s := s.advance dt) _ hon]
  exact if_pos hmay

/-! ### What time leaves of a chain -/

@[simp] theorem State.layout_advance (s : State) (dt i j : Nat) (l : List Nat) : (s.advance dt).layout i j l = s.layout i j l := by
  induction l generalizing i j with
  | nil => rfl
  | cons h t ih =>
    unfold State.layout
    rw [ih, ← show s.liveBlock h = (s.advance dt).liveBlock h from rfl]
    simp only [ih]

theorem State.chainWidth_advance (s : State) (dt : Nat) (c : Chain) : (s.advance dt).chainWidth c = s.chainWidth c := by
  unfold State.chainWidth
  rw [State.layout_advance]

theorem State.chainFrom_advance (s : State) (dt q now : Nat) : (s.advance dt).chainFrom q now = s.chainFrom q now := by
  unfold State.chainFrom
  simp only [State.layout_advance]
  rfl

theorem State.chainAhead_advance (s : State) (dt q : Nat) : (s.advance dt).chainAhead q = s.chainAhead q := by
  unfold State.chainAhead
  simp only [State.chainFrom_advance]
  rfl

/-! ### BLOCK_FETCH (R138, R139, R417) -/

/-- A block with pages, a usable key and good words is fetched without fault, its bytes to be verified. -/
theorem State.fetchBlock_reason {s : State} {p : Span} {b : StoredBlock} (q pos j : Nat) (hpages : b.pages ≠ [])
    (hkey : s.keyUsable p.keySlot = true) (hgood : s.blockBad b = false) : (s.fetchBlock p q pos b j).reason = 0 := by
  unfold State.fetchBlock
  rw [if_neg (by simpa using hpages), if_neg (by simp [hkey]), if_neg (by simp [hgood])]

theorem exec_blockFetch_of_missing (dt : Nat) {q : Fin 10} (w : StoreWait) {p : Span} {i j : Nat} {b : StoredBlock} {s : State}
    (hon : s.powered 6 = true) (hstream : s.streaming = true) (hslicing : s.slicing = true) (hserved : s.planeServed q = true)
    (hstays : s.takenOver q = false)
    (hnext : (s.chainAhead q).find? (fun e => !((s.plane q).blocks.any fun b => b.span == e.1.start && b.pos == e.2.1)) = some (p, i, b, j))
    (hpages : b.pages ≠ []) (hkey : s.keyUsable p.keySlot = true) (hgood : s.blockBad b = false) :
    exec (.blockFetch dt q w) s = .next ((((s.advance dt).serveStore (s.advance dt).blocksShort
        (fun w => !(w.raster.any fun e => e.1 == q && e.2 != 0))
        { w with raster := w.raster.filter (·.1 != q) ++ [(q, 32 * b.pages.length)] }).onPlane q
          fun x => { x with blocks := x.blocks ++ [s.fetchBlock p q i b j] }).refresh) := by
  have hworks : ((s.advance dt).streaming && (s.advance dt).slicing && (s.advance dt).planeServed q && !(s.advance dt).takenOver q) = true := by
    show (s.streaming && s.slicing && s.planeServed q && !s.takenOver q) = true
    rw [hstream, hslicing, hserved, hstays]; rfl
  have hnext' : ((s.advance dt).chainAhead q).find? (fun e => !(((s.advance dt).plane q).blocks.any fun b =>
      b.span == e.1.start && b.pos == e.2.1)) = some (p, i, b, j) := by
    rw [State.chainAhead_advance]; exact hnext
  have hreason : ((s.advance dt).fetchBlock p q i b j).reason = 0 := State.fetchBlock_reason (s := s.advance dt) q i j hpages hkey hgood
  have hunits : 32 * b.pages.length ≠ 0 := by
    have := List.length_pos_iff.mpr hpages
    omega
  show execBlockFetch dt q w s = _
  unfold execBlockFetch
  rw [State.whenOn_of_powered (s := s.advance dt) _ hon, if_pos hworks]
  simp only [hnext', hreason, if_neg hunits, decide_true, Bool.true_or, if_true]
  rfl

/-! ### BLOCK_VERIFY and RASTER_BANK_RELEASE (R140, R153) -/

theorem exec_blockVerify_of_fetched (dt : Nat) {q : Fin 10} {b : BlockBuf} {p : Span} {s : State} (hon : s.powered 6 = true)
    (hoff : (s.plane q).blocks.find? (fun b => !b.verified) = some b)
    (hspan : s.sched.spans.find? (fun p => p.start == b.span) = some p) :
    exec (.blockVerify dt q) s = .next (((s.advance dt).onPlane q fun x => { x with
      blocks := x.blocks.map fun y => if y.span == b.span && y.pos == b.pos then
        s.verifyBlock q (s.chainWidth (chainOf p q)) (chainOf p q) b else y }).completeLine q) := by
  have hoff' : ((s.advance dt).plane q).blocks.find? (fun b => !b.verified) = some b := hoff
  have hspan' : (s.advance dt).sched.spans.find? (fun p => p.start == b.span) = some p := hspan
  show execBlockVerify dt q s = _
  unfold execBlockVerify
  rw [State.whenOn_of_powered (s := s.advance dt) _ hon]
  simp only [hoff', hspan', State.chainWidth_advance]
  rfl

/-- A block that has been through verification is verified, whatever it was found to be. -/
theorem State.verifyBlock_verified (s : State) (q width : Nat) (c : Chain) (b : BlockBuf) : (s.verifyBlock q width c b).verified = true := by
  unfold State.verifyBlock
  split
  · rfl
  · split
    · rfl
    · simp only
      split
      · rfl
      · exact (apply_ite BlockBuf.verified _ _ _).trans (ite_self _)

theorem exec_rasterBankRelease_of_passed (dt : Nat) {k : Fin 12} {q : Fin 10} {i : Fin 4} {b c : Bank} {r : List Bank} {s : State}
    (hon : s.powered 6 = true) (hkind : k.val = tTrim ∨ k.val = tTone ∨ k.val = tScreen) (hbanks : s.banksOf k q i = b :: c :: r)
    (hpassed : (s.advance dt).headsPassed q (b.start + 191) = true) :
    exec (.rasterBankRelease dt k q i) s = .next ((s.advance dt).setBanks k q i [b]).fixLines := by
  have hbanks' : (s.advance dt).banksOf k q i = b :: c :: r := hbanks
  have hraster : (decide (k.val = tTrim) || decide (k.val = tTone) || decide (k.val = tScreen)) = true := by
    simpa only [Bool.or_eq_true, decide_eq_true_eq, or_assoc] using hkind
  show execRasterBankRelease dt k q i s = _
  unfold execRasterBankRelease
  rw [State.whenOn_of_powered (s := s.advance dt) _ hon]
  simp only [hraster, if_true, hbanks', hpassed]

/-! ### SEAM_ASSEMBLE (R169, R181, R186) -/

/-- Poisoned reads of the ring leave the scheduler's record alone. -/
theorem State.seamPoison_sched (s : State) (q : Nat) (bad : List (Nat × Nat)) : (s.seamPoison q bad).sched = s.sched := by
  unfold State.seamPoison
  refine foldl_keeps (·.sched = s.sched) _ (fun u e hu => ?_) bad s rfl
  simp only [apply_ite State.sched, State.post_sched]
  exact (ite_self u.sched).trans hu

theorem State.seamPoison_head (s : State) (q : Nat) (bad : List (Nat × Nat)) (a : Nat) : (s.seamPoison q bad).head a = s.head a := by
  unfold State.head; rw [s.seamPoison_sched]

/-- The head line k that SEAM_ASSEMBLE makes for head h: blank and flagged where its plane has no slice. -/
def State.headLine (s : State) (h k : Nat) : HeadLine :=
  if s.planeServed (plPlane (s.placementFor k) h) then
    (s.assemble h k (s.setUse (plPlane (s.placementFor k) h)) (s.fromRing (plPlane (s.placementFor k) h))).1
  else ⟨k, List.replicate (s.columnsOf (s.placementFor k) h) 0, 1⟩

theorem State.headLine_k (s : State) (h k : Nat) : (s.headLine h k).k = k := by
  unfold State.headLine
  split <;> rfl

section
variable (dt : Nat) {h : Fin 256} {s : State} (hon : s.powered 6 = true)
include hon

theorem exec_seamAssemble_of_none (hfrom : s.asmFrom h = none) : exec (.seamAssemble dt h) s = .next (s.advance dt) := by
  have hfrom' : (s.advance dt).asmFrom h = none := hfrom
  show execSeamAssemble dt h s = _
  unfold execSeamAssemble
  rw [State.whenOn_of_powered (s := s.advance dt) _ hon]
  simp only [hfrom']

theorem exec_seamAssemble_of_waiting {k : Nat} (hfrom : s.asmFrom h = some k) (hmay : (s.advance dt).mayAssemble h k = false) :
    exec (.seamAssemble dt h) s = .next (s.advance dt) := by
  have hfrom' : (s.advance dt).asmFrom h = some k := hfrom
  show execSeamAssemble dt h s = _
  unfold execSeamAssemble
  rw [State.whenOn_of_powered (s := s.advance dt) _ hon]
  simp only [hfrom', hmay, Bool.false_eq_true, if_false]

/-- SEAM_ASSEMBLE adds the line to the head; only where the plane has a slice can it have read poisoned words. -/
theorem exec_seamAssemble_of_due {k : Nat} (hfrom : s.asmFrom h = some k) (hmay : (s.advance dt).mayAssemble h k = true) :
    ∃ bad, exec (.seamAssemble dt h) s = .next (((s.advance dt).seamPoison (plPlane ((s.advance dt).placementFor k) h) bad).onHead h
        fun c => { c with asm := k + 1, ready := c.ready ++ [(s.advance dt).headLine h k] }) ∧
      ((s.advance dt).planeServed (plPlane ((s.advance dt).placementFor k) h) = false → bad = []) := by
  have hfrom' : (s.advance dt).asmFrom h = some k := hfrom
  have hexec : exec (.seamAssemble dt h) s = execSeamAssemble dt h s := rfl
  unfold execSeamAssemble at hexec
  rw [State.whenOn_of_powered (s := s.advance dt) _ hon] at hexec
  simp only [hfrom', hmay, if_true] at hexec
  unfold State.headLine
  by_cases hserved : (s.advance dt).planeServed (plPlane ((s.advance dt).placementFor k) h) = true
  · rw [if_pos hserved] at hexec
    rw [if_pos hserved]
    exact ⟨_, hexec, fun hno => absurd hserved (ne_true_of_eq_false hno)⟩
  · rw [if_neg hserved] at hexec
    rw [if_neg hserved]
    exact ⟨[], hexec, fun _ => rfl⟩

end

/-! ### The statement -/

/-- Settles O37: a line due is begun or sent as late, a missing block is fetched, a fetched one verified, a retired bank dropped once the heads
have passed, and a head line due assembled. -/
theorem sliceLines : Obligations.SliceLines := by
  refine ⟨fun dt q s hon hmay => ?_, fun dt q w p i b j s hon hstream hslicing hserved hstays hnext hpages hkey hgood => ?_,
    fun dt q b p s hon hoff hspan => ?_,
    fun dt k q i b c r s hon hkind hbanks hpassed => exec_rasterBankRelease_of_passed dt hon hkind hbanks hpassed, fun dt h s hon => ?_⟩
  · rw [exec_sliceBeginLine_of_due dt hon hmay]
    split
    · -- too late: blank, and a run of late lines is open
      refine .inr ⟨_, rfl, ?_, ?_⟩
      · rw [State.plane_onPlane_self]
        cases ((s.advance dt).lineLate q).plane q |>.lateRun <;> rfl
      · rw [State.plane_onPlane_self]
        exact (s.advance dt).lineLate_next q
    · exact .inl ⟨_, rfl, (s.advance dt).lineBegun_next q, (s.advance dt).lineBegun_busy q⟩
  · exact ⟨_, exec_blockFetch_of_missing dt w hon hstream hslicing hserved hstays hnext hpages hkey hgood, rfl, rfl, rfl, rfl⟩
  · refine ⟨_, _, exec_blockVerify_of_fetched dt hon hoff hspan, rfl, State.verifyBlock_verified _ _ _ _ _, ?_, rfl⟩
    rw [State.plane_onPlane_self]
    rfl
  · refine ⟨exec_seamAssemble_of_none dt hon, fun k hfrom hmay => exec_seamAssemble_of_waiting dt hon hfrom hmay, fun k hfrom hmay => ?_⟩
    obtain ⟨bad, hexec, hclean⟩ := exec_seamAssemble_of_due dt hon hfrom hmay
    refine ⟨_, hexec, ?_, (s.advance dt).headLine h k, ?_, State.headLine_k _ _ _, fun hunserved => ?_⟩
    · rw [State.head_onHead_self]
    · rw [State.head_onHead_self, State.seamPoison_head]; rfl
    · have hblank : (s.advance dt).headLine h k = ⟨k, List.replicate ((s.advance dt).columnsOf ((s.advance dt).placementFor k) h) 0, 1⟩ :=
        if_neg (ne_true_of_eq_false hunserved)
      rw [hblank, hclean hunserved]
      exact ⟨rfl, rfl, rfl⟩

end Sys2Proof.Machine

/-! SUPPORT. Proof of the statement of the spare slice (R158 to R163, R166): the audit, a slice that fails, the takeover, the self-test and
re-cuts. -/

namespace Sys2Proof.Machine

/-! ### Registers of the slices -/

@[simp] theorem State.set_out (s : State) (f : Fld) (v : Nat) : (s.set f v).out = s.out := rfl
@[simp] theorem State.raise_out (s : State) (f : Fld) : (s.raise f).out = s.out := rfl
@[simp] theorem State.setOn_out (s : State) (f : Fld) (b : Bool) : (s.setOn f b).out = s.out := rfl

/-- A counter reads one step on, held at its width. -/
theorem State.get_bump_self (s : State) (f : Fld) (n : Nat) (h : f.lo + f.w ≤ 32) :
    (s.bump f n).get f = min (2 ^ f.w - 1) (s.get f + n) := by
  have hpos := Nat.two_pow_pos f.w
  exact (s.get_set_self f _ h).trans (Nat.mod_eq_of_lt (by omega))

/-- The map of planes to slices, as RS_MAP shows it. -/
theorem State.sliceOf_congr {s t : State} (hlo : t.get Reg.RS_MAP_LO_map = s.get Reg.RS_MAP_LO_map)
    (hhi : t.get Reg.RS_MAP_HI_map = s.get Reg.RS_MAP_HI_map) (q : Nat) : t.sliceOf q = s.sliceOf q := by
  unfold State.sliceOf; rw [hlo, hhi]

theorem State.get_of_regs {s t : State} (h : t.regs = s.regs) (f : Fld) : t.get f = s.get f := by
  unfold State.get State.reg; rw [h]

theorem State.planeOf_congr {s t : State} (hslice : ∀ q, t.sliceOf q = s.sliceOf q) (hunserved : t.raster.unserved = s.raster.unserved)
    (n : Nat) : t.planeOf n = s.planeOf n := by
  unfold State.planeOf State.planeServed
  simp only [hslice, hunserved]

theorem State.sliceOf_of_planeOf {s : State} {n q : Nat} (h : s.planeOf n = some q) : s.sliceOf q = n := by
  have hfound := List.find?_some h
  simp only [Bool.and_eq_true, beq_iff_eq] at hfound
  exact hfound.1

/-- The status register of a slice holds no count of mismatches. -/
theorem auditMismatch_ne_status (i : Nat) : Reg.RS_AUDIT_MISMATCH.off ≠ 0x200000 + 0x10000 * i := by
  simp only [Reg.RS_AUDIT_MISMATCH]; omega

/-! ### A slice fails (R159, R452) -/

/-- A fault that the halted Deputy cannot recover touches, of the registers, those of an inhibit that begins. -/
theorem State.deputyFault_sameRegsBut (s : State) : s.sameRegsBut s.deputyFault inhibitOffs := by
  have hretired : s.sameRegsBut s.retireBound inhibitOffs := s.retireBound_sameRegsBut.mono (by simp [inhibitOffs])
  have hsends (u : State) : u.sameRegsBut (u.inhibitAll true) inhibitOffs :=
    State.sameRegsBut_of_eq (by rw [u.inhibitAll_onlySends true]) _
  unfold State.deputyFault
  extract_lets was s1
  have hkept : s.sameRegsBut s1 inhibitOffs := hretired
  split
  · exact fun _ _ => rfl
  split
  · exact hkept
  · refine State.sameRegsBut.trans ?_ (hsends _)
    exact State.sameRegsBut.set (t := s1.modSched _) hkept Reg.LINK_INHIBIT_sending 1 (by simp [inhibitOffs])

/-- What slice n held is lost: the line and the blocks of its plane. -/
def State.heldLost (s : State) (n : Nat) : State :=
  match s.planeOf n with
  | some q => (s.closeBehind q).onPlane q fun p => { p with busy := none, blocks := [] }
  | none => s

/-- The state in which slice n is out of service, before its plane is looked after. -/
def State.sliceOut (s : State) (n reason : Nat) : State :=
  (((s.heldLost n).modRaster fun r => { r with
    failed := n :: r.failed.filter (· != n)
    recuts := r.recuts.map fun c => if c.slice == some n then { c with slice := none } else c }).set
      (Reg.RSn_STATUS_state n) 3).post 0x0408 [.b n, .b reason]

/-- The spare sp begins to take plane q over from slice n, from line lf on. -/
def State.spareServes (s : State) (q n sp lf : Nat) : State :=
  (((s.setSlice q sp).set (Reg.RSn_STATUS_plane sp) q).setSpare spServing q).modRaster fun r => { r with
    takeover := some (q, n, lf), auditRecheck := 0 }

/-- Whether the spare takes the plane of a slice that fails. -/
def State.takesOver (s : State) : Bool := s.on Reg.RS_SPARE_CFG_auto_takeover && s.spareFree

/-- From s to t, of the slices' record only planes change. -/
def State.onlyPlanes (s t : State) : Prop := t.raster = { s.raster with planes := t.raster.planes }

theorem State.onlyPlanes.onPlane {s t : State} (h : s.onlyPlanes t) (q : Nat) (f : PlaneRaster → PlaneRaster) : s.onlyPlanes (t.onPlane q f) := by
  show ({ t.raster with planes := (t.onPlane q f).raster.planes } : Raster) = { s.raster with planes := (t.onPlane q f).raster.planes }
  rw [show t.raster = { s.raster with planes := t.raster.planes } from h]

theorem State.closeBehind_onlyPlanes (s : State) (q : Nat) : s.onlyPlanes (s.closeBehind q) := by
  unfold State.onlyPlanes State.closeBehind
  split
  · rfl
  · rw [State.post_raster]; rfl

theorem State.closeBehind_get (s : State) (q : Nat) {f : Fld} (hf : 0x100000 ≤ f.off ∧ f.off < 0xA00000)
    (hne : f.off ≠ 0x200000 + 0x10000 * s.sliceOf q) : (s.closeBehind q).get f = s.get f := by
  unfold State.closeBehind
  split
  · rfl
  · rw [State.post_get _ _ _ hf]
    exact State.get_set_ne _ (Reg.RSn_STATUS_late_seen (s.sliceOf q)) _ _ hne

theorem State.heldLost_onlyPlanes (s : State) (n : Nat) : s.onlyPlanes (s.heldLost n) := by
  unfold State.heldLost
  split
  · exact (s.closeBehind_onlyPlanes _).onPlane _ _
  · rfl

theorem State.heldLost_get (s : State) (n : Nat) {f : Fld} (hf : 0x100000 ≤ f.off ∧ f.off < 0xA00000) (hne : f.off ≠ 0x200000 + 0x10000 * n) :
    (s.heldLost n).get f = s.get f := by
  unfold State.heldLost
  split
  · next q hq =>
    rw [← State.sliceOf_of_planeOf hq] at hne
    exact s.closeBehind_get q hf hne
  · rfl

/-- A slice that RS_STATUS shows, 0 to 10, still serves its plane when what it held is lost. -/
theorem State.heldLost_planeOf (s : State) {n : Nat} (hn : n < 11) : (s.heldLost n).planeOf n = s.planeOf n := by
  have hlo : (s.heldLost n).get Reg.RS_MAP_LO_map = s.get Reg.RS_MAP_LO_map :=
    s.heldLost_get n (by decide) (by simp only [Reg.RS_MAP_LO_map]; omega)
  have hhi : (s.heldLost n).get Reg.RS_MAP_HI_map = s.get Reg.RS_MAP_HI_map :=
    s.heldLost_get n (by decide) (by simp only [Reg.RS_MAP_HI_map]; omega)
  exact State.planeOf_congr (State.sliceOf_congr hlo hhi) (by rw [s.heldLost_onlyPlanes n]) n

theorem State.sliceOut_raster (s : State) (n reason : Nat) : (s.sliceOut n reason).raster = { s.raster with
    planes := (s.heldLost n).raster.planes
    failed := n :: s.raster.failed.filter (· != n)
    recuts := s.raster.recuts.map fun c => if c.slice == some n then { c with slice := none } else c } := by
  unfold State.sliceOut
  rw [State.post_raster, State.set_raster, State.modRaster_raster, s.heldLost_onlyPlanes n]

theorem State.sliceOut_mismatch (s : State) (n reason : Nat) :
    (s.sliceOut n reason).get Reg.RS_AUDIT_MISMATCH = s.get Reg.RS_AUDIT_MISMATCH := by
  unfold State.sliceOut
  rw [State.post_get _ _ _ (by decide), State.get_set_ne _ (Reg.RSn_STATUS_state n) _ _ (auditMismatch_ne_status n)]
  exact s.heldLost_get n (by decide) (auditMismatch_ne_status n)

theorem State.unserve_raster (s : State) (q : Nat) : (s.unserve q).raster = { s.raster with unserved := q :: s.raster.unserved } :=
  State.post_raster _ _ _

theorem State.unserve_mismatch (s : State) (q : Nat) : (s.unserve q).get Reg.RS_AUDIT_MISMATCH = s.get Reg.RS_AUDIT_MISMATCH :=
  State.post_get _ _ _ (by decide)

theorem State.spareServes_raster (s : State) (q n sp lf : Nat) :
    (s.spareServes q n sp lf).raster = { s.raster with takeover := some (q, n, lf), auditRecheck := 0 } := by
  unfold State.spareServes
  rw [State.modRaster_raster, State.setSpare_raster, State.set_raster, State.setSlice_raster]

theorem State.setSlice_mismatch (s : State) (q n : Nat) : (s.setSlice q n).get Reg.RS_AUDIT_MISMATCH = s.get Reg.RS_AUDIT_MISMATCH := by
  unfold State.setSlice
  split
  · exact State.get_set_ne _ _ _ _ (by decide : Reg.RS_AUDIT_MISMATCH.off ≠ Reg.RS_MAP_LO_map.off)
  · exact State.get_set_ne _ _ _ _ (by decide : Reg.RS_AUDIT_MISMATCH.off ≠ Reg.RS_MAP_HI_map.off)

theorem State.setSpare_mismatch (s : State) (st q : Nat) : (s.setSpare st q).get Reg.RS_AUDIT_MISMATCH = s.get Reg.RS_AUDIT_MISMATCH :=
  (State.get_set_ne _ _ _ _ (by decide)).trans (State.get_set_ne _ _ _ _ (by decide))

theorem State.setSpare_state (s : State) (st q : Nat) :
    (s.setSpare st q).get Reg.RS_SPARE_STATUS_state = st % 2 ^ Reg.RS_SPARE_STATUS_state.w :=
  (State.get_set_beside _ _ _ _ (by decide) (by decide)).trans (State.get_set_self _ _ _ (by decide))

theorem State.spareServes_get (s : State) (q n sp lf : Nat) (f : Fld) : (s.spareServes q n sp lf).get f =
    (((s.setSlice q sp).set (Reg.RSn_STATUS_plane sp) q).setSpare spServing q).get f :=
  State.get_of_regs (State.modRaster_regs _ _) f

theorem State.spareServes_state (s : State) (q n sp lf : Nat) : (s.spareServes q n sp lf).get Reg.RS_SPARE_STATUS_state = spServing := by
  rw [State.spareServes_get, State.setSpare_state]; rfl

theorem State.spareServes_mismatch (s : State) (q n sp lf : Nat) :
    (s.spareServes q n sp lf).get Reg.RS_AUDIT_MISMATCH = s.get Reg.RS_AUDIT_MISMATCH := by
  rw [State.spareServes_get, State.setSpare_mismatch, State.get_set_ne _ (Reg.RSn_STATUS_plane sp) _ _ (auditMismatch_ne_status sp),
    State.setSlice_mismatch]

theorem State.deputyFault_mismatch (s : State) : s.deputyFault.get Reg.RS_AUDIT_MISMATCH = s.get Reg.RS_AUDIT_MISMATCH :=
  s.deputyFault_sameRegsBut.get (by decide)

/-- What becomes of plane q, which slice n served at s, in the state u in which the slice is out of service: the spare takes it, or it is
unserved. -/
def State.planeAfter (s u : State) (n q : Nat) : State :=
  match s.spareSlice with
  | some sp =>
    if s.takesOver then
      if s.deputyHalted then (u.unserve q).deputyFault else u.spareServes q n sp (s.plane q).delivered
    else u.unserve q
  | none => u.unserve q

theorem State.failSlice_of_serving {s : State} {n q : Nat} (reason : Nat) (h : (s.heldLost n).planeOf n = some q) :
    s.failSlice n reason = s.planeAfter ((s.sliceOut n reason).set (Reg.RSn_STATUS_plane n) 15) n q := by
  show (match (s.heldLost n).planeOf n with | none => _ | some q => _) = _
  rw [h]
  rfl

theorem State.failSlice_of_idle {s : State} {n : Nat} (reason : Nat) (h : (s.heldLost n).planeOf n = none) :
    s.failSlice n reason =
      if (s.sliceOut n reason).spareSlice.isNone then (s.sliceOut n reason).setSpare spNone 15 else s.sliceOut n reason := by
  show (match (s.heldLost n).planeOf n with | none => _ | some q => _) = _
  rw [h]
  rfl

/-- The spare takes the plane. -/
theorem State.planeAfter_of_spare {s : State} {sp : Nat} (u : State) (n q : Nat) (hspare : s.spareSlice = some sp) (htakes : s.takesOver = true)
    (hdeputy : s.deputyHalted = false) : s.planeAfter u n q = u.spareServes q n sp (s.plane q).delivered := by
  unfold State.planeAfter
  simp only [hspare, htakes, hdeputy, if_true, Bool.false_eq_true, if_false]

/-- Without a takeover the plane is unserved. -/
theorem State.planeAfter_raster_of_none {s : State} (u : State) (n q : Nat) (h : s.takesOver = false ∨ s.deputyHalted = true) :
    (s.planeAfter u n q).raster = { u.raster with unserved := q :: u.raster.unserved } := by
  unfold State.planeAfter
  split
  · split
    · next htakes =>
      have hhalted : s.deputyHalted = true := h.resolve_left (by simp [htakes])
      rw [if_pos hhalted, State.deputyFault_raster, State.unserve_raster]
    · exact u.unserve_raster q
  · exact u.unserve_raster q

theorem State.planeAfter_failed (s u : State) (n q : Nat) : (s.planeAfter u n q).raster.failed = u.raster.failed := by
  unfold State.planeAfter
  split
  · split
    · split
      · rw [State.deputyFault_raster, State.unserve_raster]
      · rw [State.spareServes_raster]
    · rw [State.unserve_raster]
  · rw [State.unserve_raster]

theorem State.planeAfter_mismatch (s u : State) (n q : Nat) :
    (s.planeAfter u n q).get Reg.RS_AUDIT_MISMATCH = u.get Reg.RS_AUDIT_MISMATCH := by
  unfold State.planeAfter
  split
  · split
    · split
      · rw [State.deputyFault_mismatch, State.unserve_mismatch]
      · exact u.spareServes_mismatch _ _ _ _
    · exact u.unserve_mismatch q
  · exact u.unserve_mismatch q

/-- A slice that fails is out of service. -/
theorem State.failSlice_failed (s : State) (n reason : Nat) : n ∈ (s.failSlice n reason).raster.failed := by
  have hout : n ∈ (s.sliceOut n reason).raster.failed := by
    rw [s.sliceOut_raster]; exact List.mem_cons_self
  cases hplane : (s.heldLost n).planeOf n with
  | none =>
    rw [State.failSlice_of_idle reason hplane]
    split
    · exact hout
    · exact hout
  | some q =>
    rw [State.failSlice_of_serving reason hplane, State.planeAfter_failed]
    exact hout

theorem State.failSlice_mismatch (s : State) (n reason : Nat) :
    (s.failSlice n reason).get Reg.RS_AUDIT_MISMATCH = s.get Reg.RS_AUDIT_MISMATCH := by
  rw [← s.sliceOut_mismatch n reason]
  cases hplane : (s.heldLost n).planeOf n with
  | none =>
    rw [State.failSlice_of_idle reason hplane]
    split
    · exact State.setSpare_mismatch _ _ _
    · rfl
  | some q =>
    rw [State.failSlice_of_serving reason hplane, State.planeAfter_mismatch]
    exact State.get_set_ne _ (Reg.RSn_STATUS_plane n) _ _ (auditMismatch_ne_status n)

section
variable {s : State} {n q : Nat} (reason : Nat) (hn : n < 11) (hplane : s.planeOf n = some q)
include hn hplane

/-- The spare, free and allowed to, takes the plane of a slice that fails. -/
theorem State.failSlice_of_takeover (hauto : s.on Reg.RS_SPARE_CFG_auto_takeover = true) (hfree : s.spareFree = true)
    (hdeputy : s.deputyHalted = false) :
    (s.failSlice n reason).raster.takeover = some (q, n, (s.plane q).delivered) ∧
      (s.failSlice n reason).raster.unserved = s.raster.unserved ∧ (s.failSlice n reason).get Reg.RS_SPARE_STATUS_state = spServing := by
  have hsome : s.spareSlice.isSome = true := by
    unfold State.spareFree at hfree
    exact (Bool.and_eq_true_iff.mp hfree).1
  obtain ⟨sp, hsp⟩ := Option.isSome_iff_exists.mp hsome
  have htakes : s.takesOver = true := by rw [State.takesOver, hauto, hfree]; rfl
  rw [State.failSlice_of_serving reason ((s.heldLost_planeOf hn).trans hplane), State.planeAfter_of_spare _ n q hsp htakes hdeputy,
    State.spareServes_state, State.spareServes_raster, State.set_raster, State.sliceOut_raster]
  exact ⟨rfl, rfl, rfl⟩

/-- Otherwise its plane is unserved. -/
theorem State.failSlice_of_unserved
    (h : s.on Reg.RS_SPARE_CFG_auto_takeover = false ∨ s.spareFree = false ∨ s.deputyHalted = true) :
    q ∈ (s.failSlice n reason).raster.unserved ∧ (s.failSlice n reason).raster.takeover = s.raster.takeover := by
  have hnone : s.takesOver = false ∨ s.deputyHalted = true := by
    rw [State.takesOver, Bool.and_eq_false_iff, or_assoc]; exact h
  rw [State.failSlice_of_serving reason ((s.heldLost_planeOf hn).trans hplane), State.planeAfter_raster_of_none _ n q hnone, State.set_raster,
    State.sliceOut_raster]
  exact ⟨List.mem_cons_self, rfl⟩

end

/-! ### SPARE_AUDIT_LINE (R158) -/

/-- The oldest due line of the audited plane is audited; r is what is still due. -/
def State.lineAudited (s : State) (r : List (Nat × Nat × Nat)) : State :=
  (s.onPlane s.raster.auditPlane fun p => { p with crcs := r }).bump Reg.RS_AUDIT_COUNT 1

/-- A mismatch is counted and shown. -/
def State.mismatchShown (s : State) : State := (s.bump Reg.RS_AUDIT_MISMATCH 1).raise Reg.RS_SPARE_STATUS_mismatch

theorem State.lineAudited_count (s : State) (r : List (Nat × Nat × Nat)) :
    (s.lineAudited r).get Reg.RS_AUDIT_COUNT = min (2 ^ 32 - 1) (s.get Reg.RS_AUDIT_COUNT + 1) :=
  State.get_bump_self _ _ _ (by decide)

theorem State.lineAudited_sameRegsBut (s : State) (r : List (Nat × Nat × Nat)) : s.sameRegsBut (s.lineAudited r) [Reg.RS_AUDIT_COUNT.off] :=
  State.sameRegsBut.set (t := s.onPlane _ _) (fun _ _ => rfl) Reg.RS_AUDIT_COUNT _ (.head _)

theorem State.lineAudited_crcs (s : State) (r : List (Nat × Nat × Nat)) : ((s.lineAudited r).plane s.raster.auditPlane).crcs = r := by
  unfold State.lineAudited
  rw [State.plane_congr (State.bump_raster _ _ _), State.plane_onPlane_self]

theorem State.lineAudited_sliceOf (s : State) (r : List (Nat × Nat × Nat)) (q : Nat) : (s.lineAudited r).sliceOf q = s.sliceOf q :=
  State.sliceOf_congr (State.get_set_ne _ _ _ _ (by decide)) (State.get_set_ne _ _ _ _ (by decide)) q

theorem State.mismatchShown_count (s : State) (r : List (Nat × Nat × Nat)) :
    (s.lineAudited r).mismatchShown.get Reg.RS_AUDIT_MISMATCH = min (2 ^ 16 - 1) (s.get Reg.RS_AUDIT_MISMATCH + 1) := by
  have hcount : (s.lineAudited r).get Reg.RS_AUDIT_MISMATCH = s.get Reg.RS_AUDIT_MISMATCH := State.get_set_ne _ _ _ _ (by decide)
  rw [State.mismatchShown, State.get_raise, State.get_set_ne _ _ _ _ (by decide), State.get_bump_self _ _ _ (by decide), hcount]
  rfl

/-- The mismatch of a line is told. -/
def State.mismatchTold (s : State) (r : List (Nat × Nat × Nat)) (line : Nat) : State :=
  (s.lineAudited r).mismatchShown.post 0x0407 [.b s.raster.auditPlane, .b ((s.lineAudited r).sliceOf s.raster.auditPlane), .li line]

section
variable (dt : Nat) {line c : Nat} {r : List (Nat × Nat × Nat)} {s : State} (hon : s.powered 6 = true)
  (haudit : s.get Reg.RS_SPARE_STATUS_state = spAudit) (hdue : (s.plane s.raster.auditPlane).crcs = (line, c, 0) :: r)
include hon haudit hdue

theorem exec_spareAuditLine_of_equal {o : Option (BitVec 32)} (hequal : ∀ v, o = some v → v.toNat = c) :
    exec (.spareAuditLine dt o) s = .next (((s.advance dt).lineAudited r).modRaster fun r => { r with auditRecheck := r.auditRecheck - 1 }) := by
  have haudit' : (s.advance dt).get Reg.RS_SPARE_STATUS_state = spAudit := haudit
  have hdue' : ((s.advance dt).plane (s.advance dt).raster.auditPlane).crcs = (line, c, 0) :: r := hdue
  show execSpareAuditLine dt o s = _
  unfold execSpareAuditLine
  rw [State.whenOn_of_powered (s := s.advance dt) _ hon]
  simp only [haudit', if_true, hdue', Nat.zero_ne_one, if_false]
  cases o with
  | none => rfl
  | some v =>
    simp only [hequal v rfl, bne_self_eq_false, Bool.false_eq_true, if_false]
    rfl

/-- At a mismatch the audit asks for four more lines, or, among those, fails the slice. -/
theorem exec_spareAuditLine_of_mismatch {v : BitVec 32} (hdiffers : v.toNat ≠ c) : exec (.spareAuditLine dt (some v)) s =
    if s.raster.auditRecheck = 0 then .next (((s.advance dt).mismatchTold r line).modRaster fun r => { r with auditRecheck := 4 })
    else .next ((((s.advance dt).mismatchTold r line).modRaster fun r => { r with auditRecheck := 0 }).failSlice
      (s.sliceOf s.raster.auditPlane) 1) := by
  have haudit' : (s.advance dt).get Reg.RS_SPARE_STATUS_state = spAudit := haudit
  have hdue' : ((s.advance dt).plane (s.advance dt).raster.auditPlane).crcs = (line, c, 0) :: r := hdue
  show execSpareAuditLine dt (some v) s = _
  unfold execSpareAuditLine
  rw [State.whenOn_of_powered (s := s.advance dt) _ hon]
  simp only [haudit', if_true, hdue', Nat.zero_ne_one, if_false, bne_iff_ne, ne_eq, hdiffers, not_false_eq_true]
  rfl

end

/-! ### SLICE_LINE_TIMEOUT, SPARE_TAKE (R159, R166) -/

theorem exec_sliceLineTimeout_of_due {dt q l a : Nat} {n : Fin 11} {s : State} (hon : s.powered 6 = true) (hplane : s.planeOf n = some q)
    (hbusy : (s.plane q).busy = some (l, a)) (hdue : a + 100000 ≤ s.beat + dt) (hserved : s.planeServed q = true) :
    exec (.sliceLineTimeout dt n) s = .next ((s.advance dt).failSlice n 2) := by
  have hplane' : (s.advance dt).planeOf n = some q := hplane
  have hbusy' : ((s.advance dt).plane q).busy = some (l, a) := hbusy
  have hfails : (decide (a + 100000 ≤ (s.advance dt).beat) && (s.advance dt).planeServed q) = true :=
    Bool.and_eq_true_iff.mpr ⟨decide_eq_true hdue, hserved⟩
  show execSliceLineTimeout dt n s = _
  unfold execSliceLineTimeout
  rw [State.whenOn_of_powered (s := s.advance dt) _ hon]
  simp only [hplane', hbusy', hfails, if_true]

theorem exec_spareTake_of_on (dt : Nat) {n : Fin 16} {s : State} (h : s.dev ≠ stBoot) (hd : s.domainOff Reg.RS_SPARE_CTRL_take.off = false) :
    exec (.spareTake dt n) s = .next ((s.advance dt).spareTake n) :=
  congrArg Host.Outcome.next (State.hostWrite_of_domainOn (s := s.advance dt) _ h hd)

/-! ### SLICE_TAKEOVER (R160) -/

/-- From s to t plane q has lines produced again: its record is as before but for the sets of unusable nozzles, and no takeover or register
changes. -/
def State.reproduces (s t : State) (q : Nat) : Prop :=
  t.regs = s.regs ∧ t.raster.takeover = s.raster.takeover ∧ t.plane q = { s.plane q with lost := (t.plane q).lost }

theorem State.reproduces.line {s t : State} {q : Nat} (h : s.reproduces t q) (line : Nat) (l : SliceLine) (lost : List (Nat × Nat)) :
    s.reproduces ((t.writeRing q line l).noteLost q line lost) q := by
  obtain ⟨hregs, htakeover, hplane⟩ := h
  refine ⟨hregs, htakeover, ?_⟩
  unfold State.noteLost
  rw [State.plane_onPlane_self, State.plane_congr (State.writeRing_raster _ _ _ _), hplane]

/-- The plane stands at line lf, with nothing in work. -/
def State.standsAt (s : State) (q lf : Nat) : State :=
  (s.modRaster fun r => { r with takeover := none }).onPlane q fun p => { p with
    next := lf, busy := none, blocks := [], repeated := 0, good := none }

/-- The state in which plane q goes on at line lf, its seam history and its repeat state produced again. -/
def State.takenAt (s : State) (q lf : Nat) : State :=
  let s2 := (List.range (min 63 lf)).foldl (fun (s : State) i =>
    let line := lf - min 63 lf + i
    (s.writeRing q line (s.recutLine q line)).noteLost q line
      (match s.artwork q line with | some (_, c0, n) => s.stitchLost q line c0 n | none => [])) (s.standsAt q lf)
  let rep := match s2.artwork q lf with
    | some (p, _, _) => (p.start, repeatState (s2.allBlocks p q) p.start (s2.factor (chainOf p q)) (lf - p.start))
    | none => (0, none, 0)
  s2.onPlane q fun p => { p with good := rep.2.1.map fun g => (rep.1, g), repeated := rep.2.2 }

theorem State.takenAt_shows (s : State) (q lf : Nat) : (s.takenAt q lf).raster.takeover = none ∧ ((s.takenAt q lf).plane q).next = lf ∧
    ((s.takenAt q lf).plane q).busy = none ∧ ((s.takenAt q lf).plane q).blocks = [] ∧ (s.takenAt q lf).regs = s.regs := by
  have hstands : (s.standsAt q lf).plane q = { s.plane q with next := lf, busy := none, blocks := [], repeated := 0, good := none } :=
    State.plane_onPlane_self _ _ _
  unfold State.takenAt
  extract_lets s2 rep
  have hagain : (s.standsAt q lf).reproduces s2 q :=
    foldl_keeps (fun t => (s.standsAt q lf).reproduces t q) _ (fun t i h => h.line _ _ _) _ _ ⟨rfl, rfl, rfl⟩
  clear_value rep s2
  obtain ⟨hregs, htakeover, hplane⟩ := hagain
  rw [State.plane_onPlane_self, hplane, hstands]
  exact ⟨htakeover, rfl, rfl, rfl, hregs⟩

theorem exec_sliceTakeover_of_due (dt : Nat) {q f lf : Nat} {s : State} (hon : s.powered 6 = true) (hdeputy : s.deputyHalted = false)
    (htakeover : s.raster.takeover = some (q, f, lf)) : exec (.sliceTakeover dt) s =
      .next ((((s.advance dt).takenAt q lf).raise Reg.RS_SPARE_STATUS_takeover).post 0x0409
        [.b q, .b f, .b (((s.advance dt).takenAt q lf).sliceOf q), .li lf]) := by
  have htakeover' : (s.advance dt).raster.takeover = some (q, f, lf) := htakeover
  have hdeputy' : (s.advance dt).deputyHalted = false := hdeputy
  show execSliceTakeover dt s = _
  unfold execSliceTakeover
  rw [State.whenOn_of_powered (s := s.advance dt) _ hon]
  simp only [htakeover', hdeputy', Bool.false_eq_true, if_false]
  rfl

/-! ### SPARE_RESTORE and SLICE_BIST_DONE (R161) -/

/-- The self-test of slice n begins. -/
def State.bistBegun (s : State) (n : Nat) : State :=
  ((s.modRaster fun r => { r with bist := some (n, s.beat) }).clear (Reg.RSn_BIST_done n)).clear (Reg.RSn_BIST_pass n)

theorem exec_spareRestore_of_failed (dt : Nat) {n : Fin 16} {s : State} (h : s.dev ≠ stBoot)
    (hd : s.domainOff Reg.RS_SPARE_CTRL_restore.off = false) (hfailed : s.raster.failed.contains n.val = true) (hbist : s.raster.bist = none) :
    exec (.spareRestore dt n) s = .next ((s.advance dt).bistBegun n) := by
  have hbegins : ((s.advance dt).raster.failed.contains n.val && (s.advance dt).raster.bist.isNone) = true :=
    Bool.and_eq_true_iff.mpr ⟨hfailed, Option.isNone_iff_eq_none.mpr hbist⟩
  have hwrite : (s.advance dt).hostWrite Reg.RS_SPARE_CTRL_restore.off (fun s => s.spareRestore n) = (s.advance dt).spareRestore n :=
    State.hostWrite_of_domainOn _ h hd
  exact congrArg Host.Outcome.next (hwrite.trans (if_pos hbegins))

theorem State.bistBegun_done (s : State) (n : Nat) : (s.bistBegun n).on (Reg.RSn_BIST_done n) = false := by
  unfold State.bistBegun State.clear
  rw [State.on_set_beside _ _ _ _ (by simp [Reg.RSn_BIST_pass]) (.inr (.inl (by simp [Reg.RSn_BIST_done, Reg.RSn_BIST_pass])))]
  exact State.on_setOn_self _ (Reg.RSn_BIST_done n) false (by simp [Reg.RSn_BIST_done]) rfl

theorem State.bistBegun_pass (s : State) (n : Nat) : (s.bistBegun n).on (Reg.RSn_BIST_pass n) = false :=
  State.on_setOn_self _ (Reg.RSn_BIST_pass n) false (by simp [Reg.RSn_BIST_pass]) rfl

/-- The self-test of slice n has ended with a result. -/
def State.bistEnded (s : State) (n : Nat) (pass : Bool) : State :=
  ((s.modRaster fun r => { r with bist := none }).raise (Reg.RSn_BIST_done n)).setOn (Reg.RSn_BIST_pass n) pass

theorem State.bistEnded_done (s : State) (n : Nat) (pass : Bool) : (s.bistEnded n pass).on (Reg.RSn_BIST_done n) = true := by
  unfold State.bistEnded State.setOn
  rw [State.on_set_beside _ _ _ _ (by simp [Reg.RSn_BIST_pass]) (.inr (.inl (by simp [Reg.RSn_BIST_done, Reg.RSn_BIST_pass])))]
  exact State.on_raise_self _ (Reg.RSn_BIST_done n) (by simp [Reg.RSn_BIST_done]) rfl

theorem State.bistEnded_pass (s : State) (n : Nat) (pass : Bool) : (s.bistEnded n pass).on (Reg.RSn_BIST_pass n) = pass :=
  State.on_setOn_self _ _ _ (by simp [Reg.RSn_BIST_pass]) rfl

theorem State.bistEnded_sameRegsBut (s : State) (n : Nat) (pass : Bool) : s.sameRegsBut (s.bistEnded n pass) [(Reg.RSn_BIST_done n).off] :=
  State.sameRegsBut.set (t := (s.modRaster _).raise (Reg.RSn_BIST_done n))
    (State.sameRegsBut.set (t := s.modRaster _) (fun _ _ => rfl) (Reg.RSn_BIST_done n) 1 (.head _)) (Reg.RSn_BIST_pass n) _ (.head _)

/-- A slice that has passed is in service again, as the spare, sp where there is another. -/
def State.slicePassed (s : State) (n sp : Nat) : State :=
  ((s.modRaster fun r => { r with spare := some sp, failed := r.failed.filter (· != n) }).set (Reg.RSn_STATUS_state n) 4).set
    (Reg.RSn_STATUS_plane n) 15

theorem exec_sliceBistDone_of_fail (dt : Nat) {n a : Nat} {s : State} (hon : s.powered 6 = true) (hbist : s.raster.bist = some (n, a)) :
    exec (.sliceBistDone dt false) s = .next ((s.advance dt).bistEnded n false) := by
  have hbist' : (s.advance dt).raster.bist = some (n, a) := hbist
  show execSliceBistDone dt false s = _
  unfold execSliceBistDone
  rw [State.whenOn_of_powered (s := s.advance dt) _ hon]
  simp only [hbist']
  rfl

/-- What a slice that has passed its self-test shows. -/
structure State.Restored (s t : State) (n : Nat) : Prop where
  bist : t.raster.bist = none
  failed : n ∉ t.raster.failed
  done : t.on (Reg.RSn_BIST_done n) = true
  pass : t.on (Reg.RSn_BIST_pass n) = true
  state : t.get (Reg.RSn_STATUS_state n) = 4
  out : t.out = s.out

theorem State.slicePassed_restored (s : State) (n sp : Nat) : s.Restored ((s.bistEnded n true).slicePassed n sp) n where
  bist := rfl
  failed := by
    show n ∉ s.raster.failed.filter (· != n)
    simp
  done := by
    unfold State.slicePassed
    rw [State.on_set_beside _ _ _ _ (by simp [Reg.RSn_STATUS_plane]) (.inl (by simp [Reg.RSn_STATUS_plane, Reg.RSn_BIST_done])),
      State.on_set_beside _ _ _ _ (by simp [Reg.RSn_STATUS_state]) (.inl (by simp [Reg.RSn_STATUS_state, Reg.RSn_BIST_done]))]
    exact s.bistEnded_done n true
  pass := by
    unfold State.slicePassed
    rw [State.on_set_beside _ _ _ _ (by simp [Reg.RSn_STATUS_plane]) (.inl (by simp [Reg.RSn_STATUS_plane, Reg.RSn_BIST_pass])),
      State.on_set_beside _ _ _ _ (by simp [Reg.RSn_STATUS_state]) (.inl (by simp [Reg.RSn_STATUS_state, Reg.RSn_BIST_pass]))]
    exact s.bistEnded_pass n true
  state := by
    unfold State.slicePassed
    rw [State.get_set_beside _ _ _ _ (by simp [Reg.RSn_STATUS_plane]) (by simp [Reg.RSn_STATUS_plane, Reg.RSn_STATUS_state])]
    exact State.get_set_self _ (Reg.RSn_STATUS_state n) 4 (by simp [Reg.RSn_STATUS_state])
  out := by simp only [State.slicePassed, State.bistEnded, State.set_out, State.setOn_out, State.raise_out, State.modRaster_out]

/-- Showing the spare idle touches none of it. -/
theorem State.Restored.setSpare {s t : State} {n : Nat} (h : s.Restored t n) (st q : Nat) : s.Restored (t.setSpare st q) n := by
  have hget {f : Fld} (hf : f.off ≠ 0x2f0010) : (t.setSpare st q).get f = t.get f :=
    (State.get_set_ne _ Reg.RS_SPARE_STATUS_plane _ _ hf).trans (State.get_set_ne _ Reg.RS_SPARE_STATUS_state _ _ hf)
  have hbist : 0x20001c + 0x10000 * n ≠ 0x2f0010 := by omega
  have hstatus : 0x200000 + 0x10000 * n ≠ 0x2f0010 := by omega
  exact ⟨h.bist, h.failed, (congrArg (· == 1) (hget (f := Reg.RSn_BIST_done n) hbist)).trans h.done,
    (congrArg (· == 1) (hget (f := Reg.RSn_BIST_pass n) hbist)).trans h.pass, (hget (f := Reg.RSn_STATUS_state n) hstatus).trans h.state, h.out⟩

/-- A slice that passes shows that it has, as the spare idle where there was none. -/
theorem exec_sliceBistDone_of_pass (dt : Nat) {n a : Nat} {s : State} (hon : s.powered 6 = true) (hbist : s.raster.bist = some (n, a)) :
    ∃ t, exec (.sliceBistDone dt true) s = .next t ∧ (s.advance dt).Restored t n := by
  have hbist' : (s.advance dt).raster.bist = some (n, a) := hbist
  have hpassed : (s.advance dt).Restored (((s.advance dt).bistEnded n true).slicePassed n (s.spareSlice.getD n)) n :=
    (s.advance dt).slicePassed_restored n (s.spareSlice.getD n)
  have hexec : exec (.sliceBistDone dt true) s = execSliceBistDone dt true s := rfl
  unfold execSliceBistDone at hexec
  rw [State.whenOn_of_powered (s := s.advance dt) _ hon] at hexec
  simp only [hbist', if_true] at hexec
  refine ⟨_, hexec, ?_⟩
  split
  · exact hpassed.setSpare spIdle 15
  · exact hpassed

/-! ### RECUT_START (R163) -/

/-- Slice n is at work on request c. -/
def State.recutBegun (s : State) (n : Nat) (c : Recut) : State :=
  (s.modRaster fun r => { r with recuts := startRecut n c r.recuts, auditRecheck := 0 }).set (Reg.RSn_STATUS_state n) 2

theorem State.recutBegun_state (s : State) (n : Nat) (c : Recut) : (s.recutBegun n c).get (Reg.RSn_STATUS_state n) = 2 :=
  State.get_set_self _ (Reg.RSn_STATUS_state n) 2 (by simp [Reg.RSn_STATUS_state])

section
variable (dt : Nat) {c : Recut} {s : State} (hon : s.powered 6 = true) (hdeputy : s.deputyHalted = false)
  (holdest : s.raster.recuts.find? (fun c =>
    c.slice.isNone && (s.planeServed c.plane || s.spareSlice.isSome) && !s.resourceBusy (planeResource c.plane)) = some c)
include hon hdeputy holdest

theorem exec_recutStart_of_spare {n : Nat} (hfree : s.spareFree = true) (hspare : s.spareSlice = some n) : exec (.recutStart dt) s =
    .next ((((s.advance dt).recutBegun n c).post 0x040A [.b c.plane, .n c.first, .n c.last, .li c.lm, .li c.le, .b n]).setSpare
      spRecut c.plane) := by
  have holdest' : (s.advance dt).raster.recuts.find? (fun c => c.slice.isNone && ((s.advance dt).planeServed c.plane ||
      (s.advance dt).spareSlice.isSome) && !(s.advance dt).resourceBusy (planeResource c.plane)) = some c := holdest
  have hdeputy' : (s.advance dt).deputyHalted = false := hdeputy
  have hspare' : (if (s.advance dt).spareFree then (s.advance dt).spareSlice else none) = some n := (if_pos hfree).trans hspare
  show execRecutStart dt s = _
  unfold execRecutStart
  rw [State.whenOn_of_powered (s := s.advance dt) _ hon]
  simp only [holdest', hdeputy', Bool.false_eq_true, if_false, hspare']
  rfl

theorem exec_recutStart_of_own (hfree : s.spareFree = false) (hserved : s.planeServed c.plane = true) (hbusy : (s.plane c.plane).busy = none)
    (hnone : (s.raster.recuts.any fun d => d.slice == some (s.sliceOf c.plane)) = false) : exec (.recutStart dt) s =
    .next (((s.advance dt).recutBegun (s.sliceOf c.plane) c).post 0x040A
      [.b c.plane, .n c.first, .n c.last, .li c.lm, .li c.le, .b (s.sliceOf c.plane)]) := by
  have holdest' : (s.advance dt).raster.recuts.find? (fun c => c.slice.isNone && ((s.advance dt).planeServed c.plane ||
      (s.advance dt).spareSlice.isSome) && !(s.advance dt).resourceBusy (planeResource c.plane)) = some c := holdest
  have hdeputy' : (s.advance dt).deputyHalted = false := hdeputy
  have hspare' : (if (s.advance dt).spareFree then (s.advance dt).spareSlice else none) = none := if_neg (ne_true_of_eq_false hfree)
  have hidle : ((s.advance dt).planeServed c.plane && ((s.advance dt).plane c.plane).busy.isNone &&
      !((s.advance dt).raster.recuts.any fun d => d.slice == some ((s.advance dt).sliceOf c.plane))) = true := by
    show (s.planeServed c.plane && (s.plane c.plane).busy.isNone && !(s.raster.recuts.any fun d => d.slice == some (s.sliceOf c.plane))) = true
    rw [hserved, hbusy, hnone]; rfl
  show execRecutStart dt s = _
  unfold execRecutStart
  rw [State.whenOn_of_powered (s := s.advance dt) _ hon]
  simp only [holdest', hdeputy', Bool.false_eq_true, if_false, hspare']
  exact if_pos hidle

end

/-! ### RECUT_DONE (R162, R163) -/

theorem State.noteKey_sameTask (s : State) (q n slot : Nat) : s.sameTask (s.noteKey q n slot) := by
  unfold State.noteKey
  exact .cond (.refl s) ((((State.sameTask.refl s).raise _).modRaster rfl rfl).post _ _)

/-- Telling of lines produced again leaves the requests alone. -/
theorem State.noteRecut_sameTask (s : State) (q n : Nat) (lines : List (Nat × SliceLine)) : s.sameTask (s.noteRecut q n lines) := by
  unfold State.noteRecut
  extract_lets late s1 subst s2 s3
  have hlate : s.sameTask s2 :=
    (((State.sameTask.refl s).set _ _).trans (State.sameTask_foldl (fun u r => ((State.sameTask.refl u).raise _).post _ _) _ _)).set _ _
  have hblocks : s2.sameTask s3 := by
    refine State.sameTask_foldl (fun u p => .cond (State.sameTask_foldl (fun u b => ?_) _ u) (.refl u)) _ s2
    extract_lets k s'
    have hkey : u.sameTask s' := .cond (u.noteKey_sameTask _ _ _) (.refl u)
    exact .cond hkey ((hkey.raise _).post _ _)
  exact (hlate.trans hblocks).trans (State.sameTask_foldl (fun u (l : Nat × SliceLine) => u.noteFlags_sameTask q n l.2) _ s3)

theorem exec_recutDone_of_running (dt : Nat) {c : Recut} {s : State} (hon : s.powered 6 = true)
    (hrun : s.raster.recuts.find? (fun c => c.slice.isSome) = some c) : ∃ (u : State) (late : Nat),
    exec (.recutDone dt) s = .next (u.post 0x040B [.b c.plane, .n (c.le + 1 - (s.advance dt).recutFirst c.plane c.lm), .n late]) ∧
      u.raster.recuts = s.raster.recuts.filter (· != c) := by
  have hrun' : (s.advance dt).raster.recuts.find? (fun c => c.slice.isSome) = some c := hrun
  show ∃ (u : State) (late : Nat), execRecutDone dt s = _ ∧ _
  unfold execRecutDone
  rw [State.whenOn_of_powered (s := s.advance dt) _ hon]
  simp -zeta only [hrun']
  extract_lets q d heads b top isLate_ lines late s1 n s2 s3
  refine ⟨_, late, rfl, (State.noteRecut_sameTask s3 q n lines).1.trans ?_⟩
  have hassembled : s1.raster = s.raster := by
    simp only [s1]
    split
    · rfl
    · refine (foldl_raster (fun u a => ?_) heads (s.advance dt)).trans rfl
      exact foldl_raster (fun v k => v.onHead_raster a _) _ u
  have hended : s3.raster = s2.raster := by
    simp only [s3]
    split
    · rfl
    · rfl
  rw [hended]
  show s1.raster.recuts.filter (· != c) = _
  rw [hassembled]

/-! ### The statement -/

/-- Settles O38: the audit counts or tells a due line, a slice that fails leaves its plane to the spare or unserved, and takeover, self-test and
re-cut go on from there. That a request which no slice can perform is passed over is the model's (log 40), and so is which recoveries make it
wait (log 31). -/
theorem spareSlice : Obligations.SpareSlice := by
  refine ⟨fun dt v line c r s hon haudit hdue => ⟨fun o ho => ?_, fun hdiffers hfirst => ?_, fun hdiffers hmore => ?_⟩,
    fun dt n q l a s hon hplane hbusy hdue hserved => ?_, fun dt n s hdev hd => ⟨fun hworks hserves => ?_, fun hnone => ?_⟩,
    fun dt q f lf s hon hdeputy htakeover => ?_, fun dt n s hdev hd hfailed hbist => ?_, fun dt n a s hon hbist => ⟨?_, ?_⟩,
    fun dt c s hon hdeputy holdest => ⟨fun n hfree hspare => ?_, fun hfree hserved hbusy hnone => ?_⟩,
    fun dt c s hon hrun => ?_⟩
  · -- the check values agree
    have hequal (w : BitVec 32) (hw : o = some w) : w.toNat = c := by
      obtain hnone | ⟨hsome, hv⟩ := ho
      · exact absurd (hnone.symm.trans hw) (by simp)
      · rw [← Option.some.inj (hsome.symm.trans hw)]; exact hv
    exact ⟨_, exec_spareAuditLine_of_equal dt hon haudit hdue hequal,
      (State.get_of_regs (State.modRaster_regs _ _) _).trans ((s.advance dt).lineAudited_count r),
      ((s.advance dt).lineAudited_sameRegsBut r).trans (State.sameRegsBut_of_eq (State.modRaster_regs _ _) _),
      (s.advance dt).lineAudited_crcs r, rfl, rfl⟩
  · -- the first mismatch
    refine ⟨((s.advance dt).lineAudited r).mismatchShown, ?_, (s.advance dt).mismatchShown_count r, State.on_raise_self _ _ (by decide) rfl,
      (s.advance dt).lineAudited_crcs r, rfl⟩
    rw [exec_spareAuditLine_of_mismatch dt hon haudit hdue hdiffers, if_pos hfirst, State.mismatchTold, (s.advance dt).lineAudited_sliceOf]
    rfl
  · -- a mismatch among the four lines
    rw [exec_spareAuditLine_of_mismatch dt hon haudit hdue hdiffers, if_neg hmore]
    refine ⟨_, rfl, State.failSlice_failed _ _ _, (State.failSlice_mismatch _ _ _).trans ?_⟩
    exact (State.post_get _ _ _ (by decide)).trans ((s.advance dt).mismatchShown_count r)
  · exact ⟨_, exec_sliceLineTimeout_of_due hon hplane hbusy hdue hserved, State.failSlice_failed _ _ _,
      State.failSlice_of_takeover (s := s.advance dt) 2 n.isLt hplane, State.failSlice_of_unserved (s := s.advance dt) 2 n.isLt hplane⟩
  · rw [exec_spareTake_of_on dt hdev hd]
    have htakes : (((s.advance dt).planeOf n).isSome && !(s.advance dt).raster.failed.contains n.val) = true := by
      show ((s.planeOf n).isSome && !s.raster.failed.contains n.val) = true
      rw [hserves, hworks]; rfl
    exact ⟨_, congrArg Host.Outcome.next (if_pos htakes), State.failSlice_failed _ _ _⟩
  · rw [exec_spareTake_of_on dt hdev hd]
    have hleaves : ¬ (((s.advance dt).planeOf n).isSome && !(s.advance dt).raster.failed.contains n.val) = true := by
      show ¬ ((s.planeOf n).isSome && !s.raster.failed.contains n.val) = true
      obtain hfailed | hidle := hnone
      · rw [hfailed, Bool.not_true, Bool.and_false]; exact Bool.false_ne_true
      · rw [hidle, Option.isSome_none, Bool.false_and]; exact Bool.false_ne_true
    exact congrArg Host.Outcome.next (if_neg hleaves)
  · obtain ⟨hover, hnext, hbusy, hblocks, hregs⟩ := (s.advance dt).takenAt_shows q lf
    have hslice : ((s.advance dt).takenAt q lf).sliceOf q = s.sliceOf q :=
      State.sliceOf_congr (State.get_of_regs hregs _) (State.get_of_regs hregs _) q
    refine ⟨(s.advance dt).takenAt q lf, ?_, hover, hnext, hbusy, hblocks, hregs⟩
    rw [exec_sliceTakeover_of_due dt hon hdeputy htakeover, hslice]
  · exact ⟨_, exec_spareRestore_of_failed dt hdev hd hfailed hbist, rfl, State.bistBegun_done _ _, State.bistBegun_pass _ _⟩
  · obtain ⟨t, hexec, hbist, hfailed, hdone, hpass, hstate, hout⟩ := exec_sliceBistDone_of_pass dt hon hbist
    exact ⟨t, hexec, hbist, hfailed, hdone, hpass, hstate, hout⟩
  · exact ⟨_, exec_sliceBistDone_of_fail dt hon hbist, rfl, State.bistEnded_done _ _ _, State.bistEnded_pass _ _ _,
      (s.advance dt).bistEnded_sameRegsBut n false, rfl⟩
  · exact ⟨_, exec_recutStart_of_spare dt hon hdeputy holdest hfree hspare, rfl, State.recutBegun_state _ _ _, rfl⟩
  · exact ⟨_, exec_recutStart_of_own dt hon hdeputy holdest hfree hserved hbusy hnone, rfl, rfl⟩
  · exact exec_recutDone_of_running dt hon hrun

end Sys2Proof.Machine

/-! SUPPORT. Proof of the statement of fire maps and the spare bank (R174, R188): what commands to a node leave alone, the map of a head staged
and committed, and the bank that the spare replaces. -/

namespace Sys2Proof.Machine

/-! ### What commands to a node leave alone (R224) -/

/-- From s to t nothing happened but outputs, free values drawn and changes of the link. -/
def State.onlyLinks (s t : State) : Prop := t = { s with out := t.out, free := t.free, link := t.link }

theorem State.onlyLinks.refl (s : State) : s.onlyLinks s := rfl

theorem State.onlyLinks.trans {s t u : State} (h : s.onlyLinks t) (h' : t.onlyLinks u) : s.onlyLinks u := Eq.trans h' (by rw [h])

theorem State.onlySends.onlyLinks {s t : State} (h : s.onlySends t) : s.onlyLinks t := Eq.trans h (by rw [h])

theorem State.setNode_onlyLinks (s : State) (a : Nat) (n : Node) : s.onlyLinks (s.setNode a n) := rfl

theorem State.nodeCmd_onlyLinks (s : State) (a opcode : Nat) (params : List (BitVec 8)) : s.onlyLinks (s.nodeCmd a opcode params) :=
  (s.setNode_onlyLinks a _).trans (State.sendNode_onlySends _ a 4 _).onlyLinks

theorem State.sendMapData_onlyLinks (s : State) (a bank : Nat) (m : List (BitVec 8)) : s.onlyLinks (s.sendMapData a bank m) :=
  foldl_keeps s.onlyLinks _ (fun _ _ h => h.trans (State.nodeCmd_onlyLinks _ a 3 _)) _ s (.refl s)

theorem State.sendMapCommit_onlyLinks (s : State) (a bank e : Nat) (m : List (BitVec 8)) : s.onlyLinks (s.sendMapCommit a bank e m) :=
  s.nodeCmd_onlyLinks a 4 _

section
variable {s t : State} (h : s.onlyLinks t)
include h

theorem State.onlyLinks.regs : t.regs = s.regs := by rw [h]
theorem State.onlyLinks.sched : t.sched = s.sched := by rw [h]
theorem State.onlyLinks.raster : t.raster = s.raster := by rw [h]

end

/-! ### The fire map of a head (R174) -/

@[simp] theorem State.map_setMap_self (s : State) (a : Nat) (m : FireMap) : (s.setMap a m).map a = m := Tab.get_set_self _ _ _ _

/-- The map of the bank that the node of an enabled head needs next is sent and waits to be committed. -/
theorem State.stageMap_of_mapBank {s : State} {a : Nat} {skew : List (BitVec 8)} {bad : List Nat} {e : Option Nat} (bank : Nat)
    (hen : plEn s.placementNewest a = true) (hbank : s.mapBank a = some (skew, bad, e)) :
    s.stageMap a bank = (s.sendMapData a bank (fireMap a skew bad (s.columnsOf s.placementNewest a))).setMap a
      { s.map a with pending := some (fireMap a skew bad (s.columnsOf s.placementNewest a)) } := by
  simp only [State.stageMap, hbank, hen, if_true]

section
variable (s : State) (a e : Nat) (m : List (BitVec 8))

/-- A map committed at line e: none is staged, and the node has to tell what it made of it. -/
theorem State.commitMap_map : (s.commitMap a e m).map a =
    { s.map a with pending := none, committed := some (e, (s.node a).tag), unseen := true, bank := s.freeNodeBank a } :=
  State.map_setMap_self _ _ _

theorem State.commitMap_regs : (s.commitMap a e m).regs = s.regs := (s.sendMapCommit_onlyLinks a (s.freeNodeBank a) e m).regs
theorem State.commitMap_sched : (s.commitMap a e m).sched = s.sched := (s.sendMapCommit_onlyLinks a (s.freeNodeBank a) e m).sched

end

theorem exec_mapDataSend_of_pending (dt : Nat) {h : Fin 256} {s : State} (hon : s.powered 7 = true) (hpending : s.mapPending h = true) :
    exec (.mapDataSend dt h) s = .next (s.advance dt) := by
  have hpending' : (s.advance dt).mapPending h = true := hpending
  show execMapDataSend dt h s = _
  unfold execMapDataSend
  rw [State.whenOn_of_powered (s := s.advance dt) _ hon]
  simp only [hpending', Bool.not_true, Bool.and_false, Bool.false_eq_true, if_false]

/-- MAP_DATA_SEND to a head that can take the map it needs sends that map, unless it was sent already. -/
theorem exec_mapDataSend_of_free (dt : Nat) {h : Fin 256} {skew : List (BitVec 8)} {bad : List Nat} {e : Option Nat} {s : State}
    (hon : s.powered 7 = true) (hen : plEn s.placementNewest h = true) (hknown : (s.node h).known = true)
    (hfree : s.mapPending h = false) (hbank : s.mapBank h = some (skew, bad, e)) :
    exec (.mapDataSend dt h) s =
      if (s.map h).pending = some (fireMap h skew bad (s.columnsOf s.placementNewest h)) then .next (s.advance dt)
      else .next ((s.advance dt).stageMap h ((s.advance dt).freeNodeBank h)) := by
  have hready : (plEn (s.advance dt).placementNewest h && ((s.advance dt).node h).known && !(s.advance dt).mapPending h) = true := by
    show (plEn s.placementNewest h && (s.node h).known && !s.mapPending h) = true
    rw [hen, hknown, hfree]; rfl
  have hbank' : (s.advance dt).mapBank h = some (skew, bad, e) := hbank
  show execMapDataSend dt h s = _
  unfold execMapDataSend
  rw [State.whenOn_of_powered (s := s.advance dt) _ hon]
  simp only [hready, if_true, hbank']
  rfl

theorem exec_mapCommitSend_of_fixed (dt : Nat) {h : Fin 256} {m skew : List (BitVec 8)} {bad : List Nat} {e : Nat} {s : State}
    (hon : s.powered 7 = true) (hstaged : ((s.advance dt).fixLines.map h).pending = some m)
    (hfree : (s.advance dt).fixLines.mapPending h = false) (hbank : (s.advance dt).fixLines.mapBank h = some (skew, bad, some e)) :
    exec (.mapCommitSend dt h) s = .next ((s.advance dt).fixLines.commitMap h e m) := by
  show execMapCommitSend dt h s = _
  unfold execMapCommitSend
  rw [State.whenOn_of_powered (s := s.advance dt) _ hon]
  simp only [hstaged, hfree, hbank]

/-! ### The bank that the spare replaces (R188) -/

/-- The copy of bank b of plane q has ended: the spare stands in its place. -/
def State.bankSpared (s : State) (q b : Nat) : State :=
  ((((s.modSeam fun e => { e with copying := e.copying.filter (fun c => c.1 != q) }).set (Reg.SEAM_PLANEq_spared_bank q) b).raise
    (Reg.SEAM_PLANEq_spare_in_use q)).clear (Reg.SEAM_PLANEq_copying q)).raise Reg.SEAM_STATUS_bank_spared

section
variable (s : State) (q b : Nat)

/-- Showing that some bank is spared leaves the word of a plane alone. -/
theorem State.get_raise_bankSpared {f : Fld} (hf : f.off = 0x300100 + 0x4 * q) : (s.raise Reg.SEAM_STATUS_bank_spared).get f = s.get f :=
  State.get_set_ne _ _ _ _ (by rw [hf]; simp only [Reg.SEAM_STATUS_bank_spared]; omega)

theorem State.bankSpared_bank : (s.bankSpared q b).get (Reg.SEAM_PLANEq_spared_bank q) = b % 16 := by
  unfold State.bankSpared State.clear
  rw [State.get_raise_bankSpared _ q rfl,
    State.get_set_beside _ _ _ _ (by simp [Reg.SEAM_PLANEq_copying]) (.inl (by simp [Reg.SEAM_PLANEq_spared_bank, Reg.SEAM_PLANEq_copying])),
    State.get_raise, State.get_set_beside _ _ _ _ (by simp [Reg.SEAM_PLANEq_spare_in_use])
      (.inl (by simp [Reg.SEAM_PLANEq_spared_bank, Reg.SEAM_PLANEq_spare_in_use]))]
  exact State.get_set_self _ (Reg.SEAM_PLANEq_spared_bank q) b (by simp [Reg.SEAM_PLANEq_spared_bank])

theorem State.bankSpared_inUse : (s.bankSpared q b).on (Reg.SEAM_PLANEq_spare_in_use q) = true := by
  unfold State.bankSpared State.clear State.on
  rw [State.get_raise_bankSpared _ q rfl,
    State.get_set_beside _ _ _ _ (by simp [Reg.SEAM_PLANEq_copying]) (.inl (by simp [Reg.SEAM_PLANEq_spare_in_use, Reg.SEAM_PLANEq_copying]))]
  exact State.on_raise_self _ (Reg.SEAM_PLANEq_spare_in_use q) (by simp [Reg.SEAM_PLANEq_spare_in_use]) rfl

theorem State.bankSpared_copying : (s.bankSpared q b).on (Reg.SEAM_PLANEq_copying q) = false := by
  unfold State.bankSpared State.on
  rw [State.get_raise_bankSpared _ q rfl]
  exact State.on_setOn_self _ (Reg.SEAM_PLANEq_copying q) false (by simp [Reg.SEAM_PLANEq_copying]) rfl

theorem State.bankSpared_shown : (s.bankSpared q b).on Reg.SEAM_STATUS_bank_spared = true :=
  State.on_raise_self _ _ (by decide) rfl

end

/-- Once all lines of a copy are delivered, the spare takes the bank's place and the host's operation ends. -/
theorem exec_bankSpareSwitch_of_delivered (dt : Nat) {q : Fin 10} {b ls ring n : Nat} {s : State} (hon : s.powered 6 = true)
    (hdeputy : s.deputyHalted = false) (hcopy : s.seam.copying.find? (fun c => c.1 == q.val) = some (q.val, b, some ls, ring, n))
    (hdelivered : ls + 64 ≤ (s.plane q).delivered) : exec (.bankSpareSwitch dt q) s =
      .next ((((s.advance dt).bankSpared q b).post 0x0416 [.b q, .b b, .li (ls + 63)]).endOp ring n stOk [(4, leBytes 6 (ls + 63))]) := by
  have hdeputy' : (s.advance dt).deputyHalted = false := hdeputy
  have hcopy' : (s.advance dt).seam.copying.find? (fun c => c.1 == q.val) = some (q.val, b, some ls, ring, n) := hcopy
  have hdelivered' : ls + 64 ≤ ((s.advance dt).plane q).delivered := hdelivered
  show execBankSpareSwitch dt q s = _
  unfold execBankSpareSwitch
  rw [State.whenOn_of_powered (s := s.advance dt) _ hon]
  simp only [hdeputy', Bool.false_eq_true, if_false, hcopy', hdelivered', if_true]
  rfl

/-! ### The statement -/

/-- Settles O39: a fire map goes to a node that can take it and is committed at its bank's line, and the spare stands in for a bank once the
copy's lines are delivered. That a node's banks are known only once a STATUS has come after the ACK is the model's (log 42). -/
theorem mapsAndBanks : Obligations.MapsAndBanks := by
  refine ⟨fun dt h s hon hpending => exec_mapDataSend_of_pending dt hon hpending,
    fun dt h skew bad e m s hon hen hknown hfree hbank hm => ?_,
    fun dt h m skew bad e s u hon hu hstaged hfree hbank => ?_,
    fun dt q b ls ring n s hon hdeputy hcopy hdelivered => ?_⟩
  · rw [exec_mapDataSend_of_free dt hon hen hknown hfree hbank, ← hm]
    refine ⟨fun hsent => if_pos hsent, fun hnew => ⟨_, if_neg hnew, ?_⟩⟩
    rw [State.stageMap_of_mapBank (s := s.advance dt) _ hen hbank]
    have hsends := (s.advance dt).sendMapData_onlyLinks h ((s.advance dt).freeNodeBank h) (fireMap h skew bad (s.columnsOf s.placementNewest h))
    refine ⟨?_, ?_, hsends.regs, hsends.sched, hsends.raster⟩
    · rw [State.map_setMap_self, hm]; rfl
    · rw [State.map_setMap_self]; rfl
  · subst hu
    refine ⟨_, exec_mapCommitSend_of_fixed dt hon hstaged hfree hbank, ?_⟩
    simp only [State.commitMap_map, State.commitMap_regs, State.commitMap_sched, and_self]
  · exact ⟨_, exec_bankSpareSwitch_of_delivered dt hon hdeputy hcopy hdelivered, State.bankSpared_bank _ _ _, State.bankSpared_inUse _ _ _,
      State.bankSpared_copying _ _ _, State.bankSpared_shown _ _ _, rfl, rfl⟩

end Sys2Proof.Machine

/-! SUPPORT. Proof of the statement of nodes and hops (R230, R243, R245 to R247): SYNC requests, the identification of a node, its loss, and
the breaks and returns of a string's hops. -/

namespace Sys2Proof.Machine

/-! ### One bit of a bitmap -/

/-- Adding 2^i to a number without bit i carries nothing. -/
theorem testBit_add_two_pow_ne {x i j : Nat} (hx : x.testBit i = false) (hne : j ≠ i) : (x + 2 ^ i).testBit j = x.testBit j := by
  induction i generalizing x j with
  | zero =>
    obtain ⟨k, rfl⟩ := Nat.exists_eq_succ_of_ne_zero hne
    have heven : x % 2 = 0 := by simpa using hx
    rw [Nat.testBit_succ, Nat.testBit_succ, show (x + 2 ^ 0) / 2 = x / 2 by omega]
  | succ i ih =>
    cases j with
    | zero => simp [Nat.testBit_zero, Nat.pow_succ]
    | succ k =>
      rw [Nat.testBit_succ] at hx
      rw [Nat.testBit_succ, Nat.testBit_succ, show (x + 2 ^ (i + 1)) / 2 = x / 2 + 2 ^ i by omega]
      exact ih hx fun e => hne (congrArg Nat.succ e)

theorem bit_putBit (x i j : Nat) (b : Bool) : bit (putBit x i b) j = if j = i then b else bit x j := by
  unfold putBit
  split
  · next hsame => split <;> simp_all
  · next hdiff =>
    cases b with
    | true =>
      have hclear : x.testBit i = false := by simpa [bit] using hdiff
      rw [if_pos rfl]
      split
      · next hj => rw [hj, bit, Nat.add_comm, Nat.testBit_two_pow_add_eq, hclear]; rfl
      · next hj => exact testBit_add_two_pow_ne hclear hj
    | false =>
      have hset : x.testBit i = true := by simpa [bit] using hdiff
      obtain ⟨y, rfl⟩ := Nat.exists_eq_add_of_le (Nat.ge_two_pow_of_testBit hset)
      have hclear : y.testBit i = false := by simpa [Nat.testBit_two_pow_add_eq] using hset
      rw [if_neg Bool.false_ne_true, Nat.add_sub_cancel_left]
      split
      · next hj => rw [hj]; exact hclear
      · next hj => rw [Nat.add_comm]; exact (testBit_add_two_pow_ne hclear hj).symm

/-! ### The records of nodes, and what sending to a node leaves of them -/

@[simp] theorem State.node_setNode_self (s : State) (a : Nat) (n : Node) : (s.setNode a n).node a = n := Tab.get_set_self _ _ _ _
@[simp] theorem State.node_onNode_self (s : State) (a : Nat) (f : Node → Node) : (s.onNode a f).node a = f (s.node a) := s.node_setNode_self a _
@[simp] theorem State.model_onModel_self (s : State) (a : Nat) (f : HeadModel → HeadModel) : (s.onModel a f).model a = f (s.model a) :=
  Tab.get_set_self _ _ _ _
@[simp] theorem State.str_onStr_self (s : State) (n : Nat) (f : LinkString → LinkString) : (s.onStr n f).str n = f (s.str n) :=
  s.str_setStr_self n _
@[simp] theorem State.str_set (s : State) (f : Fld) (v n : Nat) : (s.set f v).str n = s.str n := rfl
@[simp] theorem State.str_raise (s : State) (f : Fld) (n : Nat) : (s.raise f).str n = s.str n := rfl
@[simp] theorem State.node_set (s : State) (f : Fld) (v a : Nat) : (s.set f v).node a = s.node a := rfl
@[simp] theorem State.model_set (s : State) (f : Fld) (v a : Nat) : (s.set f v).model a = s.model a := rfl
@[simp] theorem State.node_onModel (s : State) (a b : Nat) (f : HeadModel → HeadModel) : (s.onModel a f).node b = s.node b := rfl
@[simp] theorem State.model_onNode (s : State) (a b : Nat) (f : Node → Node) : (s.onNode a f).model b = s.model b := rfl

theorem State.onlySends.node {s t : State} (h : s.onlySends t) (a : Nat) : t.node a = s.node a := by
  unfold State.node; rw [h]

theorem State.onlyLinks.model {s t : State} (h : s.onlyLinks t) (a : Nat) : t.model a = s.model a := by
  unfold State.model; rw [h]

theorem State.sendBy_onlySends (s : State) (a e ty : Nat) (payload : List (BitVec 8)) : s.onlySends (s.sendBy a e ty payload) := by
  unfold State.sendBy
  simp only
  split
  · split
    · exact s.laneSend_onlySends _ _ _
    · rfl
  · split
    · exact s.laneSend_onlySends _ _ _
    · rfl

/-- A command to a node takes the node's next tag and waits for its ACK (R224). -/
theorem State.nodeCmd_node (s : State) (a opcode : Nat) (params : List (BitVec 8)) :
    (s.nodeCmd a opcode params).node a =
      { s.node a with tag := ((s.node a).tag + 1) % 65536, cmds := (s.node a).cmds ++ [⟨(s.node a).tag, opcode⟩] } :=
  ((State.sendBy_onlySends _ a _ 4 _).node a).trans (s.node_setNode_self a _)

/-- A SYNC REQUEST takes the next sequence number and is kept with its link time (R230). -/
theorem State.requestSync_node (s : State) (a : Nat) : (s.requestSync a).node a =
    { s.node a with syncSeq := ((s.node a).syncSeq + 1) % 65536, syncReq := some ((s.node a).syncSeq, s.linkTime (a / 8) s.now) } :=
  ((State.sendBy_onlySends _ a _ 5 _).node a).trans (s.node_setNode_self a _)

theorem State.requestSync_onlyLinks (s : State) (a : Nat) : s.onlyLinks (s.requestSync a) :=
  (s.setNode_onlyLinks a _).trans (State.sendBy_onlySends _ a _ 5 _).onlyLinks

/-! ### SYNC_REQUEST_SEND (R230, R232) -/

theorem exec_syncRequestSend_of_asks (dt : Nat) {a : Fin 256} {s : State} (hon : s.powered 7 = true)
    (hask : (s.held_ = true ∧ s.served a = true) ∨ (s.dev = stCold ∧ a.val % 8 < s.nodeCount (a.val / 8) ∧ s.inPair = true)) :
    exec (.syncRequestSend dt a) s = .next ((s.advance dt).requestSync a) := by
  have hask' : (((s.advance dt).held_ && (s.advance dt).served a) || (decide ((s.advance dt).dev = stCold) &&
      decide (a.val % 8 < (s.advance dt).nodeCount (a / 8)) && (s.advance dt).inPair)) = true := by
    show ((s.held_ && s.served a) || (decide (s.dev = stCold) && decide (a.val % 8 < s.nodeCount (a.val / 8)) && s.inPair)) = true
    obtain ⟨hheld, hserved⟩ | ⟨hcold, hnode, hpair⟩ := hask
    · rw [hheld, hserved]; rfl
    · simp only [hcold, hnode, hpair, decide_true, Bool.and_self, Bool.or_true]
  show execSyncRequestSend dt a s = _
  unfold execSyncRequestSend
  rw [State.whenOn_of_powered (s := s.advance dt) _ hon]
  exact if_pos hask'

/-! ### Steps of an identification (R243, Table 09-17) -/

/-- From s to t no register changed, and node a is at the same step, as often tried and since the same beat. -/
def State.sameStep (s : State) (a : Nat) (t : State) : Prop :=
  t.regs = s.regs ∧ (t.node a).tries = (s.node a).tries ∧ (t.node a).step = (s.node a).step ∧ (t.node a).stepAt = (s.node a).stepAt

theorem State.sameStep.refl (s : State) (a : Nat) : s.sameStep a s := ⟨rfl, rfl, rfl, rfl⟩

theorem State.sameStep.trans {s t u : State} {a : Nat} (h : s.sameStep a t) (h' : t.sameStep a u) : s.sameStep a u := by
  obtain ⟨hregs, htries, hstep, hat⟩ := h
  obtain ⟨hregs', htries', hstep', hat'⟩ := h'
  exact ⟨hregs'.trans hregs, htries'.trans htries, hstep'.trans hstep, hat'.trans hat⟩

theorem State.nodeCmd_sameStep (s : State) (a opcode : Nat) (params : List (BitVec 8)) : s.sameStep a (s.nodeCmd a opcode params) := by
  refine ⟨(s.nodeCmd_onlyLinks a opcode params).regs, ?_⟩
  rw [State.nodeCmd_node]
  exact ⟨rfl, rfl, rfl⟩

theorem State.requestSync_sameStep (s : State) (a : Nat) : s.sameStep a (s.requestSync a) := by
  refine ⟨(s.requestSync_onlyLinks a).regs, ?_⟩
  rw [State.requestSync_node]
  exact ⟨rfl, rfl, rfl⟩

/-- Commands to a node one after the other leave its step. -/
theorem State.foldl_nodeCmd_sameStep {β : Type} (a opcode : Nat) (params : β → List (BitVec 8)) (l : List β) (s : State) :
    s.sameStep a (l.foldl (fun s x => s.nodeCmd a opcode (params x)) s) :=
  foldl_keeps (s.sameStep a) _ (fun _ _ h => h.trans (State.nodeCmd_sameStep _ a opcode _)) l s (.refl s a)

theorem State.sendMapData_sameStep (s : State) (a bank : Nat) (m : List (BitVec 8)) : s.sameStep a (s.sendMapData a bank m) :=
  State.foldl_nodeCmd_sameStep a 3 _ (mapCuts m.length) s

theorem State.commitMap_sameStep (s : State) (a e : Nat) (m : List (BitVec 8)) : s.sameStep a (s.commitMap a e m) :=
  s.nodeCmd_sameStep a 4 _

theorem State.forgetMemory_sameStep (s : State) (a : Nat) : s.sameStep a (s.onNode a fun n => { n with memory := [] }) := by
  refine ⟨rfl, ?_⟩
  simp only [State.node_onNode_self, and_self]

/-- What a step asks is sent with the beat it is sent at, whatever the step. -/
theorem State.sendStep_sameStep (s : State) (a : Nat) : (s.onNode a fun n => { n with stepAt := s.beat }).sameStep a (s.sendStep a) := by
  unfold State.sendStep
  simp only
  split
  · exact State.nodeCmd_sameStep _ a 1 []
  · exact (State.forgetMemory_sameStep _ a).trans (State.foldl_nodeCmd_sameStep a 2 (fun o => beBytes 1 o ++ beBytes 1 64) _ _)
  · exact State.requestSync_sameStep _ a
  · split
    · exact .refl _ a
    · exact (State.sendMapData_sameStep _ a _ _).trans (State.commitMap_sameStep _ a _ _)
  · exact .refl _ a

/-- The first step of an identification is one command, IDENTIFY. -/
theorem State.goStep_first (s : State) (a : Nat) : s.goStep a 1 =
    ((s.onNode a fun n => { n with step := 1, tries := 1 }).onNode a fun n => { n with stepAt := s.beat }).nodeCmd a 1 [] := by
  unfold State.goStep State.sendStep
  simp only [State.node_onNode_self]
  rfl

/-! ### NODE_IDENTIFY -/

/-- The state of node a reads as 1 and its record is made ready for an identification. -/
def State.identifyBegun (s : State) (a : Nat) : State :=
  ((s.onModel a fun m => { m with starts := true }).onNode a fun n => { n with syncRun := 0, retry := false, cmds := [] }).set
    (Reg.NODEa_STATE_state a) 1

theorem State.identifyBegun_node (s : State) (a : Nat) :
    (s.identifyBegun a).node a = { s.node a with syncRun := 0, retry := false, cmds := [] } := by
  simp only [State.identifyBegun, State.node_set, State.node_onNode_self, State.node_onModel]

theorem State.identify_onlyLinks (s : State) (a : Nat) : (s.identifyBegun a).onlyLinks (s.identify a) := by
  show (s.identifyBegun a).onlyLinks ((s.identifyBegun a).goStep a 1)
  rw [State.goStep_first]
  exact ((State.setNode_onlyLinks _ a _).trans (State.setNode_onlyLinks _ a _)).trans (State.nodeCmd_onlyLinks _ a 1 [])

theorem State.identify_node (s : State) (a : Nat) : (s.identify a).node a =
    { s.node a with syncRun := 0, retry := false, step := 1, tries := 1, stepAt := s.beat, tag := ((s.node a).tag + 1) % 65536
                    cmds := [⟨(s.node a).tag, 1⟩] } := by
  show ((s.identifyBegun a).goStep a 1).node a = _
  rw [State.goStep_first, State.nodeCmd_node, State.node_onNode_self, State.node_onNode_self, State.identifyBegun_node]
  rfl

section
variable (s : State) (a : Nat)

theorem State.identify_get (f : Fld) : (s.identify a).get f = (s.identifyBegun a).get f := State.get_of_regs (s.identify_onlyLinks a).regs f

theorem State.identify_state : (s.identify a).get (Reg.NODEa_STATE_state a) = 1 := by
  rw [State.identify_get]
  exact State.get_set_self _ (Reg.NODEa_STATE_state a) 1 (by simp [Reg.NODEa_STATE_state])

theorem State.identify_starts : ((s.identify a).model a).starts = true := by
  rw [(s.identify_onlyLinks a).model a]
  simp only [State.identifyBegun, State.model_set, State.model_onNode, State.model_onModel_self]

theorem State.identify_sameRegsBut : s.sameRegsBut (s.identify a) [(Reg.NODEa_STATE_state a).off] :=
  State.sameRegsBut.trans (State.sameRegsBut.set (State.sameRegsBut_of_eq rfl _) _ 1 (.head _))
    (State.sameRegsBut_of_eq (s.identify_onlyLinks a).regs _)

end

theorem exec_nodeIdentify_of_due (dt : Nat) {a : Fin 256} {s : State} (hon : s.powered 7 = true)
    (hnode : a.val % 8 < s.nodeCount (a.val / 8)) (hreach : bit (s.get (Reg.LINKs_STATUS_reachable (a.val / 8))) (a.val % 8) = true)
    (hmay : s.held_ = true ∨ (s.dev = stSetup ∧ s.locked = true ∧ s.config ≠ 3))
    (hstate : s.get (Reg.NODEa_STATE_state a) = 0 ∨
      ((s.get (Reg.NODEa_STATE_state a) = 3 ∨ s.get (Reg.NODEa_STATE_state a) = 5) ∧ (s.node a).retry = true))
    (hfree : ((s.tally.running ++ s.tally.waiting).any fun c => c.resource == a.val / 8) = false) :
    exec (.nodeIdentify dt a) s =
      if s.deputyHalted then .next (s.advance dt).deputyFault else .next ((s.advance dt).identify a) := by
  have hmay' : (s.held_ || (decide (s.dev = stSetup) && s.locked && decide (s.config ≠ 3))) = true := by
    obtain hheld | ⟨hsetup, hlock, hconfig⟩ := hmay
    · rw [hheld]; rfl
    · simp only [hsetup, hlock, hconfig, decide_true, not_false_eq_true, ne_eq, Bool.and_self, Bool.or_true]
  have hstate' : (decide (s.get (Reg.NODEa_STATE_state a) = 0) || ((decide (s.get (Reg.NODEa_STATE_state a) = 3) ||
      decide (s.get (Reg.NODEa_STATE_state a) = 5)) && (s.node a).retry)) = true := by
    simpa only [Bool.or_eq_true, Bool.and_eq_true, decide_eq_true_eq] using hstate
  have hdue : (decide (a.val % 8 < s.nodeCount (a.val / 8)) && bit (s.get (Reg.LINKs_STATUS_reachable (a.val / 8))) (a.val % 8) &&
      (s.held_ || (decide (s.dev = stSetup) && s.locked && decide (s.config ≠ 3))) &&
      (decide (s.get (Reg.NODEa_STATE_state a) = 0) || ((decide (s.get (Reg.NODEa_STATE_state a) = 3) ||
        decide (s.get (Reg.NODEa_STATE_state a) = 5)) && (s.node a).retry)) &&
      !(s.tally.running ++ s.tally.waiting).any fun c => c.resource == a.val / 8) = true := by
    rw [hreach, hmay', hstate', hfree, decide_eq_true hnode]; rfl
  show execNodeIdentify dt a s = _
  unfold execNodeIdentify
  rw [State.whenOn_of_powered (s := s.advance dt) _ hon]
  exact if_pos hdue

/-! ### IDENTIFY_STEP_TIMEOUT -/

/-- Node a shows that it is not served, and why; the event has still to be posted. -/
def State.unservedShown (s : State) (a reason : Nat) : State :=
  ((s.onNode a fun n => { n with step := 0, retry := false }).set (Reg.NODEa_STATE_state a) 3).set (Reg.NODEa_STATE_reason a) reason

section
variable (s : State) (a reason : Nat)

theorem State.unservedShown_state : (s.unservedShown a reason).get (Reg.NODEa_STATE_state a) = 3 := by
  unfold State.unservedShown
  rw [State.get_set_beside _ _ _ _ (by simp [Reg.NODEa_STATE_reason]) (.inl (by simp [Reg.NODEa_STATE_state, Reg.NODEa_STATE_reason]))]
  exact State.get_set_self _ (Reg.NODEa_STATE_state a) 3 (by simp [Reg.NODEa_STATE_state])

theorem State.unservedShown_reason : (s.unservedShown a reason).get (Reg.NODEa_STATE_reason a) = reason % 16 :=
  State.get_set_self _ (Reg.NODEa_STATE_reason a) reason (by simp [Reg.NODEa_STATE_reason])

theorem State.unservedShown_step : ((s.unservedShown a reason).node a).step = 0 := by
  simp only [State.unservedShown, State.node_set, State.node_onNode_self]

end

theorem exec_identifyStepTimeout_of_due (dt : Nat) {a : Fin 256} {s : State} (hon : s.powered 7 = true)
    (hstate : s.get (Reg.NODEa_STATE_state a) = 1) (hstep : (s.node a).step ≠ 0) (hdue : (s.node a).stepAt + 1000000 ≤ s.beat + dt) :
    exec (.identifyStepTimeout dt a) s =
      if (s.node a).tries < 3 then .next (((s.advance dt).onNode a fun n => { n with tries := n.tries + 1 }).sendStep a)
      else .next (((s.advance dt).notServed a (if (s.node a).step = 6 then 8 else 1)).wakeReroute (a.val / 8)) := by
  have hout : (decide (s.get (Reg.NODEa_STATE_state a) = 1) && decide ((s.node a).step ≠ 0) &&
      decide ((s.node a).stepAt + 1000000 ≤ s.beat + dt)) = true := by
    simp only [hstate, hstep, hdue, ne_eq, not_false_eq_true, decide_true, Bool.and_self]
  show execIdentifyStepTimeout dt a s = _
  unfold execIdentifyStepTimeout
  rw [State.whenOn_of_powered (s := s.advance dt) _ hon]
  exact if_pos hout

/-! ### NODE_LOST (R245) -/

/-- Node a shows that it is lost; the event has still to be posted. -/
def State.lostShown (s : State) (a : Nat) : State :=
  (s.onNode a fun n => { n with step := 0, retry := false }).set (Reg.NODEa_STATE_state a) 5

/-- A time that is met by whatever was heard is met by the default that stands for nothing heard. -/
theorem getD_zero_add_le {o : Option Nat} {d x : Nat} (hd : d ≤ x) (h : ∀ t, o = some t → t + d ≤ x) : o.getD 0 + d ≤ x := by
  cases o with
  | none => simpa using hd
  | some t => exact h t rfl

theorem exec_nodeLost_of_silent (dt : Nat) {a : Fin 256} {s : State} (hon : s.powered 7 = true)
    (hreach : bit (s.get (Reg.LINKs_STATUS_reachable (a.val / 8))) (a.val % 8) = true)
    (hstate : s.get (Reg.NODEa_STATE_state a) = 1 ∨ s.get (Reg.NODEa_STATE_state a) = 2 ∨ s.get (Reg.NODEa_STATE_state a) = 3)
    (hreachAt : (s.node a).reachAt + 300000 ≤ s.beat + dt) (hA : ∀ h, (s.node a).heardA = some h → h + 300000 ≤ s.beat + dt)
    (hB : ∀ h, (s.node a).heardB = some h → h + 300000 ≤ s.beat + dt) :
    exec (.nodeLost dt a) s = .next (
      let v := (((s.advance dt).lostShown a).post 0x0512 [.b a]).scanLost a
      (if (s.node a).rerouting then (v.dropMoved (a.val / 8) (a.val % 8)).endReroute (a.val / 8) else v).wakeReroute (a.val / 8)) := by
  have hfrom : max (s.node a).reachAt (max ((s.node a).heardA.getD 0) ((s.node a).heardB.getD 0)) + 300000 ≤ s.beat + dt := by
    have hheardA := getD_zero_add_le (by omega) hA
    have hheardB := getD_zero_add_le (by omega) hB
    omega
  have hlost : (bit (s.get (Reg.LINKs_STATUS_reachable (a.val / 8))) (a.val % 8) && (decide (s.get (Reg.NODEa_STATE_state a) = 1) ||
      decide (s.get (Reg.NODEa_STATE_state a) = 2) || decide (s.get (Reg.NODEa_STATE_state a) = 3)) &&
      decide (max (s.node a).reachAt (max ((s.node a).heardA.getD 0) ((s.node a).heardB.getD 0)) + 300000 ≤ s.beat + dt)) = true := by
    simpa only [hreach, hfrom, decide_true, Bool.and_true, Bool.true_and, Bool.or_eq_true, decide_eq_true_eq, or_assoc] using hstate
  show execNodeLost dt a s = _
  unfold execNodeLost
  rw [State.whenOn_of_powered (s := s.advance dt) _ hon]
  exact if_pos hlost

/-! ### The hops of a string (R244, R246, R247) -/

section
variable (s : State) (str j : Nat)

/-- Hop j of a string reads as written, and no other hop's bit changes. -/
theorem State.hopUp_set_putBit {i : Nat} (b : Bool) (hi : i < 9) :
    (s.set (Reg.LINKs_STATUS_hop_up str) (putBit (s.get (Reg.LINKs_STATUS_hop_up str)) j b)).hopUp str i =
      if i = j then b else s.hopUp str i := by
  unfold State.hopUp
  rw [State.get_set_self _ _ _ (by simp [Reg.LINKs_STATUS_hop_up]), ← bit_putBit]
  simp only [bit, Reg.LINKs_STATUS_hop_up, Nat.testBit_mod_two_pow, hi, decide_true, Bool.true_and]

/-- Hop j of a string shows its break; the event has still to be posted. -/
def State.breakShown : State :=
  ((s.set (Reg.LINKs_STATUS_hop_up str) (putBit (s.get (Reg.LINKs_STATUS_hop_up str)) j false)).onStr str
    fun x => { x with broken := putBit x.broken j true }).raise (Reg.LINKs_STATUS_break_seen str)

theorem State.breakShown_hopUp {i : Nat} (hi : i < 9) : (s.breakShown str j).hopUp str i = if i = j then false else s.hopUp str i := by
  rw [← State.hopUp_set_putBit s str j false hi]
  unfold State.breakShown State.hopUp
  rw [State.get_raise, State.get_set_beside _ _ _ _ (by simp [Reg.LINKs_STATUS_break_seen])
    (.inl (by simp [Reg.LINKs_STATUS_hop_up, Reg.LINKs_STATUS_break_seen]))]
  rfl

theorem State.breakShown_seen : (s.breakShown str j).on (Reg.LINKs_STATUS_break_seen str) = true :=
  State.on_raise_self _ _ (by simp [Reg.LINKs_STATUS_break_seen]) rfl

theorem State.breakShown_broken : bit ((s.breakShown str j).str str).broken j = true := by
  unfold State.breakShown
  rw [State.str_raise, State.str_onStr_self, State.str_set, bit_putBit, if_pos rfl]

theorem State.breakShown_get {f : Fld} (hf : f.off ≠ 0x500004 + 0x100 * str) : (s.breakShown str j).get f = s.get f := by
  unfold State.breakShown
  rw [State.get_raise, State.get_set_ne _ _ _ _ hf]
  exact State.get_set_ne s (Reg.LINKs_STATUS_hop_up str) f _ hf

end

/-- Whether a recovery runs on a string is told by the reroutes that run and by the states of the string's nodes. -/
theorem State.resourceBusy_congr {s t : State} {str : Nat} (hstr : str < 32) (htally : t.tally.running = s.tally.running)
    (hcount : t.nodeCount str = s.nodeCount str)
    (hstate : ∀ n < s.nodeCount str, t.get (Reg.NODEa_STATE_state (8 * str + n)) = s.get (Reg.NODEa_STATE_state (8 * str + n))) :
    t.resourceBusy str = s.resourceBusy str := by
  have hident : t.identifying str = s.identifying str := by
    unfold State.identifying
    rw [hcount, Bool.eq_iff_iff, List.any_eq_true, List.any_eq_true]
    refine exists_congr fun n => and_congr_right fun hn => ?_
    rw [hstate n (List.mem_range.mp hn)]
  simp only [State.resourceBusy, State.runningOn, htally, hident, if_pos hstr]

theorem State.nodeCount_le (s : State) (str : Nat) : s.nodeCount str ≤ 8 := by
  unfold State.nodeCount
  simp only
  split
  · assumption
  · exact Nat.zero_le 8

/-- The break of a hop and its event leave the recoveries that run on the string. -/
theorem State.breakPosted_resourceBusy (s : State) {str : Nat} (j code : Nat) (args : List EArg) (hstr : str < 32) :
    ((s.breakShown str j).post code args).resourceBusy str = s.resourceBusy str := by
  refine State.resourceBusy_congr hstr (by rw [State.post_tally]; rfl) ?_ fun n hn => ?_
  · unfold State.nodeCount
    rw [State.post_get _ _ _ (by simp only [Reg.LINKs_CFG_node_count]; omega),
      State.breakShown_get _ _ _ (by simp only [Reg.LINKs_CFG_node_count]; omega)]
  · have hle := s.nodeCount_le str
    rw [State.post_get _ _ _ (by simp only [Reg.NODEa_STATE_state]; omega),
      State.breakShown_get _ _ _ (by simp only [Reg.NODEa_STATE_state]; omega)]

/-! ### RING_BREAK (R246, R452, R453) -/

theorem State.breakHop_of_down {s : State} {str j : Nat} (hdown : s.hopUp str j = false) : s.breakHop str j = s := by
  unfold State.breakHop; rw [hdown]; rfl

theorem State.breakHop_of_halted {s : State} {str j : Nat} (hup : s.hopUp str j = true) (hdeputy : s.deputyHalted = true) :
    s.breakHop str j = (((s.breakShown str j).post 0x0513 [.b str, .b j]).settleReach str).deputyFault := by
  unfold State.breakHop; rw [hup, hdeputy]; rfl

/-- A hop that breaks asks for a reroute: one that runs on the string may end, another recovery that runs is waited for, and otherwise
the reroute begins. -/
theorem State.breakHop_of_up {s : State} {str j : Nat} (hup : s.hopUp str j = true) (hdeputy : s.deputyHalted = false) (hstr : str < 32) :
    s.breakHop str j = (
      let v := (s.breakShown str j).post 0x0513 [.b str, .b j]
      let x := v.beginRecovery ⟨0x0513, str, 8 * str⟩
      let y := (x.onStr str fun x => { x with stale := true }).settleReach str
      if s.tally.running.any (·.resource == str) then y.endReroute str else if v.resourceBusy str then y.wakeReroute str else x.reroute str) := by
  simp only [s.breakPosted_resourceBusy j _ _ hstr]
  unfold State.breakHop; rw [hup, hdeputy]; rfl

theorem exec_ringBreak_of_within (dt : Nat) {str : Fin 32} {j : Fin 9} {s : State} (hon : s.powered 7 = true) (hj : j.val ≤ s.nodeCount str) :
    exec (.ringBreak dt str j) s = .next ((s.advance dt).breakHop str j) := by
  show execRingBreak dt str j s = _
  unfold execRingBreak
  rw [State.whenOn_of_powered (s := s.advance dt) _ hon]
  exact if_pos hj

/-! ### RING_RESTORED (R247) -/

/-- Hop j of a string is shown UP again, and no longer as broken where it was; the event has still to be posted. -/
def State.restoreShown (s : State) (str j : Nat) : State :=
  let u := s.set (Reg.LINKs_STATUS_hop_up str) (putBit (s.get (Reg.LINKs_STATUS_hop_up str)) j true)
  if bit (s.str str).broken j then u.onStr str fun x => { x with broken := putBit x.broken j false } else u

section
variable (s : State) (str j : Nat)

theorem State.restoreShown_hopUp {i : Nat} (hi : i < 9) : (s.restoreShown str j).hopUp str i = if i = j then true else s.hopUp str i := by
  rw [← State.hopUp_set_putBit s str j true hi]
  unfold State.restoreShown
  simp only
  split <;> rfl

theorem State.restoreShown_broken (hbroken : bit (s.str str).broken j = true) : bit ((s.restoreShown str j).str str).broken j = false := by
  simp only [State.restoreShown, hbroken, State.str_onStr_self, State.str_set, bit_putBit, if_true]

theorem State.restoreShown_out : (s.restoreShown str j).out = s.out := by
  unfold State.restoreShown
  simp only
  split <;> rfl

end

theorem State.restoreHop_of_up {s : State} {str j : Nat} (hup : s.hopUp str j = true) : s.restoreHop str j = s := by
  unfold State.restoreHop; rw [hup]; rfl

theorem State.restoreHop_of_down {s : State} {str j : Nat} (hdown : s.hopUp str j = false) : s.restoreHop str j =
    ((if bit (s.str str).broken j then (s.restoreShown str j).post 0x0515 [.b str, .b j] else s.restoreShown str j).settleRelay str).settleHops
      str := by
  unfold State.restoreHop State.restoreShown
  rw [hdown]
  simp only [Bool.false_eq_true, if_false]
  split <;> rfl

theorem exec_ringRestored_of_within (dt : Nat) {str : Fin 32} {j : Fin 9} {s : State} (hon : s.powered 7 = true)
    (hj : j.val ≤ s.nodeCount str) (hnodes : s.nodeCount str ≠ 0) :
    exec (.ringRestored dt str j) s = .next ((s.advance dt).restoreHop str j) := by
  have hwithin : (decide (j.val ≤ s.nodeCount str) && decide (s.nodeCount str ≠ 0)) = true := by
    rw [decide_eq_true hj, decide_eq_true hnodes]; rfl
  show execRingRestored dt str j s = _
  unfold execRingRestored
  rw [State.whenOn_of_powered (s := s.advance dt) _ hon]
  exact if_pos hwithin

/-- RING_RESTORED of a hop that is UP does nothing, whether the string has nodes or not. -/
theorem exec_ringRestored_of_up (dt : Nat) {str : Fin 32} {j : Fin 9} {s : State} (hon : s.powered 7 = true)
    (hj : j.val ≤ s.nodeCount str) (hup : s.hopUp str j = true) : exec (.ringRestored dt str j) s = .next (s.advance dt) := by
  by_cases hnodes : s.nodeCount str = 0
  · show execRingRestored dt str j s = _
    unfold execRingRestored
    rw [State.whenOn_of_powered (s := s.advance dt) _ hon]
    have hnodes' : (s.advance dt).nodeCount str = 0 := hnodes
    simp only [hnodes', ne_eq, not_true_eq_false, decide_false, Bool.and_false, Bool.false_eq_true, if_false]
  · rw [exec_ringRestored_of_within dt hon hj hnodes, State.restoreHop_of_up (s := s.advance dt) hup]

/-! ### The statement -/

/-- Settles O43: SYNC requests, the steps of an identification, lost nodes, and the breaks and returns of hops. That a step 6 without an answer
gives reason 8 is the model's choice (log 46); R243 has reason 1 for a step without an answer. -/
theorem nodesAndHops : Obligations.NodesAndHops := by
  refine ⟨fun dt a s hon hask => ⟨_, exec_syncRequestSend_of_asks dt hon hask, ?_⟩,
    fun dt a s hon hnode hreach hmay hstate hfree => ?_,
    fun dt a s hon hstate hstep hdue => ?_,
    fun dt a s hon hreach hstate hreachAt hA hB => ⟨_, exec_nodeLost_of_silent dt hon hreach hstate hreachAt hA hB, ?_, ?_, rfl⟩,
    fun dt str j s hon hj => ⟨fun hdown => ?_, fun hup hdeputy => ?_, fun hup hdeputy => ?_, exec_ringRestored_of_up dt hon hj,
      fun hnodes hdown => ?_⟩⟩
  · have hlinks := (s.advance dt).requestSync_onlyLinks a
    simp only [State.requestSync_node]
    exact ⟨rfl, rfl, hlinks.regs, hlinks.sched⟩
  · rw [exec_nodeIdentify_of_due dt hon hnode hreach hmay hstate hfree]
    refine ⟨fun hdeputy => if_pos hdeputy, fun hdeputy => ⟨_, by rw [hdeputy]; rfl, State.identify_state _ _, ?_⟩⟩
    rw [State.identify_node]
    exact ⟨rfl, rfl, rfl, rfl, State.identify_starts _ _, (s.advance dt).identify_sameRegsBut a⟩
  · rw [exec_identifyStepTimeout_of_due dt hon hstate hstep hdue]
    refine ⟨fun hless => ⟨_, if_pos hless, ?_⟩, fun hmore r hr => ⟨(s.advance dt).unservedShown a r, ?_⟩⟩
    · obtain ⟨hregs, htries, hsame, hat⟩ := State.sendStep_sameStep ((s.advance dt).onNode a fun n => { n with tries := n.tries + 1 }) a
      rw [htries, hsame, hat, hregs]
      simp only [State.node_onNode_self]
      exact ⟨rfl, rfl, rfl, rfl⟩
    · have hsmall : r % 16 = r := by rw [hr]; split <;> rfl
      rw [if_neg (Nat.not_lt.mpr hmore), ← hr, State.unservedShown_reason]
      exact ⟨rfl, State.unservedShown_state _ _ _, hsmall, State.unservedShown_step _ _ _, rfl⟩
  · exact State.get_set_self _ (Reg.NODEa_STATE_state a) 5 (by simp [Reg.NODEa_STATE_state])
  · simp only [State.lostShown, State.node_set, State.node_onNode_self]
  · rw [exec_ringBreak_of_within dt hon hj, State.breakHop_of_down (s := s.advance dt) hdown]
  · refine ⟨(s.advance dt).breakShown str j, ?_, State.breakShown_broken _ _ _, ?_, State.breakShown_seen _ _ _, fun i hi hne => ?_, rfl⟩
    · rw [exec_ringBreak_of_within dt hon hj, State.breakHop_of_up (s := s.advance dt) hup hdeputy str.isLt]; rfl
    · rw [State.breakShown_hopUp _ _ _ j.isLt, if_pos rfl]
    · rw [State.breakShown_hopUp _ _ _ hi, if_neg hne]; rfl
  · refine ⟨(s.advance dt).breakShown str j, ?_, ?_, State.breakShown_seen _ _ _⟩
    · rw [exec_ringBreak_of_within dt hon hj, State.breakHop_of_halted (s := s.advance dt) hup hdeputy]
    · rw [State.breakShown_hopUp _ _ _ j.isLt, if_pos rfl]
  · refine ⟨(s.advance dt).restoreShown str j, ?_, ?_, State.restoreShown_broken (s.advance dt) str j, fun i hi hne => ?_,
      State.restoreShown_out _ _ _⟩
    · rw [exec_ringRestored_of_within dt hon hj hnodes, State.restoreHop_of_down (s := s.advance dt) hdown]; rfl
    · rw [State.restoreShown_hopUp _ _ _ j.isLt, if_pos rfl]
    · rw [State.restoreShown_hopUp _ _ _ hi, if_neg hne]; rfl

end Sys2Proof.Machine
